-- ==== Sys2Proof/Word.lean ====
section
/-! DEFINITION. The word types, and the plain types of the commands' operands: who accesses, which port, which
session, what a host command cycle carries. No arithmetic stands here; the helpers do, in Machine/Bits.lean. -/

namespace Sys2Proof

/-- A 32-bit register value (00 Notation). -/
abbrev Word := BitVec 32
/-- One byte on a wire. -/
abbrev Byte := BitVec 8
/-- A hub address: a byte address in the 16-bit hub space (00 Notation). -/
abbrev Addr := BitVec 16
/-- Console text, character by character. -/
abbrev Text := List Char

/-- The two subchannels of the module. -/
inductive Sub | a | b
  deriving DecidableEq, Repr

/-- The paths into the hub address space (01 'Paths into the hub address space'). -/
inductive Path | warren | hubA | hubB | hostTwb | localTwb | console
  deriving DecidableEq, Repr

/-- The two two-wire ports (R289). -/
inductive Port | host | loc
  deriving DecidableEq, Repr

/-- The two log rings (R203): region 7 and region 8. -/
inductive Ring | fault | event
  deriving DecidableEq, Repr

/-- The three console sessions (R310). -/
inductive Sess | uart | host | loc
  deriving DecidableEq, Repr

/-- A console request: its session and, from a machine-mode line, its nn (R319). -/
structure Req where
  sess : Sess
  nn : Option (BitVec 8)
  deriving DecidableEq, Repr

/-- What the strap pins and the VBMAX resistor give when POR is released (R390, R213). `vmax` is in 0.5 V,
0 for a resistor that is open or out of range. -/
structure Straps where
  hsa : BitVec 3
  nvsWp : Bool
  conWp : Bool
  nodb : Bool
  vmax : BitVec 7
  deriving DecidableEq, Repr

/-- What boot finds outside the ZX8-R: which buffers and whether the ZX8-P answer discovery (R132), whether the
firmware image's checks pass (R356), whether the ONFI check passes (R22), the identification mode-register values of every
die in record order (R145), and the hottest buffer in whole degrees (R146). -/
structure BootReport where
  dbAnswers : BitVec 10
  zxpAnswers : Bool
  imageOk : Bool
  nandOk : Bool
  dieIds : List Byte
  hottest : Int
  deriving DecidableEq, Repr

/-- The times Curl measures (R220): last rank in self-refresh in 0.1 us, converter in regulation in us, PD3 and PD5
off in 10 us; `none` for a point that was not reached. -/
structure CurlTimes where
  sr : Option Nat
  reg : Option Nat
  off : Nat
  deriving DecidableEq, Repr

/-- The host commands that the command classes name (R83). -/
inductive CmdKind
  | act | rd | wr | wrp | preAb | preSb | prePb | refAb | refSb | rfmAb | rfmSb | sre | srx | pde | pdx
  | mpc | vrefCa | vrefCs | mrw | mrr | nop | des
  deriving DecidableEq, Repr

/-- One host command as sampled on HCA, HPAR and HCS_n (R80, R88): its kind, the ranks whose HCS_n is low, its
first cycle, its second cycle where it has one, the chip ID, the mode register and operand of an MRW or MRR, and
the byte a DRAM returns to an MRR that reaches it. -/
structure HostCycle where
  kind : CmdKind
  cs : BitVec 4
  ca1 : BitVec 14
  par1 : Bool
  second : Option (BitVec 14 × Bool)
  cid : BitVec 2
  mr : Byte
  op : Byte
  data : Byte
  deriving DecidableEq, Repr

/-- One ECS reading inside a grant (R261): the class 0 resource, its error count and the row with most errors. -/
structure EcsRead where
  res : Nat
  count : Nat
  bg : BitVec 3
  ba : BitVec 2
  row : BitVec 18
  deriving DecidableEq, Repr

/-- How one attempt of a port as two-wire controller ends (R304). -/
inductive Attempt | ack | nack | arbLost | sclHeld
  deriving DecidableEq, Repr

/-- How a keep-pack test ends (R270): capacitance in 10 mF and ESR in mOhm, no result, or dropped. -/
inductive PackEnd
  | result (c esr : Nat)
  | noResult
  | dropped
  deriving DecidableEq, Repr

/-- One bit's part of an SME result: early and late counts (R116, R176). -/
structure EyeCount where
  early : Nat
  late : Nat
  deriving DecidableEq, Repr

/-- A trained entry: tap code and Vref code (R109). -/
structure TapVref where
  tap : Nat
  vref : Nat
  deriving DecidableEq, Repr

/-- What one try of a Polka check measured (R149): of P1 and P4 by how many taps the sampling point can move down and up
(`a`, `b`) and by how many Vref codes (`c`, `d`, P4) with every bit right, negative where the point itself is wrong; of
P2 the feedback edge in taps from the replayed tap (`a`); of P3 the count's deviation from its reference in ppm (`a`). -/
structure PolkaTry where
  a : Int
  b : Int
  c : Int
  d : Int
  deriving DecidableEq, Repr

/-- A Polka check: its pair of tries, and the pair made once more when the first disagrees (R150). -/
structure PolkaCheck where
  first : PolkaTry × PolkaTry
  second : PolkaTry × PolkaTry
  deriving DecidableEq, Repr

/-- The four Polka checks of one die. -/
structure PolkaDie where
  p1 : PolkaCheck
  p2 : PolkaCheck
  p3 : PolkaCheck
  p4 : PolkaCheck
  deriving DecidableEq, Repr

/-- What console `show` names (R333). -/
inductive ShowWhat
  | host
  | db (n : Option Nat)
  | twb
  | con
  deriving DecidableEq, Repr

/-- An extent as console `hoard extent` gives it (R344). -/
structure ExtArg where
  sub : Sub
  rank : Nat
  cid : Nat
  first : Nat
  rows : Nat
  deriving DecidableEq, Repr

/-- The units that `reset unit` names (R333). -/
inductive UnitName
  | con | twbHost | twbLocal | evtQueue | sme | zlb | hoard | user
  | db (n : Nat)
  | zxp
  deriving DecidableEq, Repr

/-- A calendar time of `time set` (R341). -/
structure Civil where
  year : Nat
  month : Nat
  day : Nat
  hour : Nat
  minute : Nat
  second : Nat
  deriving DecidableEq, Repr

/-- A parsed console command (R333), the form CON_EXECUTE and the console rows share. -/
inductive ConCmd
  | help (words : List Text)
  | id
  | featureShow
  | featureAccept (mask : Nat)
  | featureLock
  | featureDeadline (tenths : Nat)
  | peek (addr : Addr) (count : Nat)
  | poke (addr : Addr) (value : Word)
  | show (what : ShowWhat)
  | modeMachine
  | modeTyped
  | baud (rate : Nat)
  | serviceUnlock (code : Text)
  | serviceLock
  | serviceStatus
  | timeShow
  | timeSet (t : Civil)
  | timeClear
  | trimShow
  | trimPause (pause : Bool)
  | trainShow
  | trainMaint (sub : Sub) (rank : Nat)
  | trainSave (save : Bool)
  | calShow
  | calRun (vref : Bool) (unit : Option Nat)
  | calAdcRef (mv : Nat)
  | keepStatus
  | keepSpan (reserve : Bool) (value : Nat)
  | keepCharge (cfg : Option (Nat × Nat))
  | keepPack (c : Nat)
  | hoardStatus (map : Bool)
  | hoardExtent (i : Nat) (x : Option ExtArg)
  | hoardLend (on : Bool)
  | hoardDiscard
  | faultList (sel : Option (Fin 6 × Nat))
  | faultCfg (cls : Fin 6) (window thresh : Nat) (action : Option (BitVec 5))
  | faultClear (sel : Option (Fin 6 × Option Nat))
  | faultRepair (forget : Bool) (n : Nat)
  | faultPackTest
  | eventShow (n : Option Nat)
  | eventEnable (n : Nat) (on : Bool)
  | eventRoute (n : Nat) (routes : BitVec 5)
  | eventClear (n : Option Nat)
  | eventRaise (arg : Nat)
  | log (ring : Ring) (start : Option Nat) (count : Nat)
  | nvsShow
  | nvsCommit
  | nvsImageStart (kib crc : Nat)
  | nvsImageData (bytes : List Byte)
  | nvsImageAbort
  | nvsImageStatus
  | clockShow
  | powerDomains (faults : Bool)
  | powerClear (mask : BitVec 5)
  | maintShow
  | resetMgmt
  | resetUnit (u : UnitName)
  deriving DecidableEq, Repr

end Sys2Proof
end

