-- ==== Sys2Proof/Syntax.lean ====
section
/-! DEFINITION. The commands: one constructor per row of spec/opcode_table.json, in the table's order. The table
gives no operands; each operand here is a fact from outside the block that the row's effect depends on (log
entry 7). Register writes carry the path they come by (R8, R10). -/

namespace Sys2Proof

/-- The 273 steps of the part (spec/95_what_each_step_holds.md: each whole and indivisible). -/
inductive Instr
  -- supplies, keep-alive and domains (03, 09)
  | porRelease (st : Straps)
  | vkaLost
  | hostPowerGood
  | bootStart
  | managementReady (b : BootReport)
  | pfail (bankOk : Bool)
  | curlComplete (t : CurlTimes)
  | commitHoldEnd
  | pd2Brownout
  | pd2BrownoutRestart
  | pd3Brownout
  | pd3BrownoutEnd
  | pd4Lost
  | pd6RailTimeout
  | svcAttend
  | svcRelease
  | plantPresent
  | plantAbsent
  | plantOverVoltage
  | plantReverse
  | bankFloor
  | commitFloor
  | bankArmChange (armed : Bool)
  | chargerFull
  | chargerResume
  | chargerFault
  | converterFault
  | orReverseFault
  | thermalChargerPause
  | adcSlot (fine coarse : Int)
  | energyUpdate
  | spanExpiry
  -- Hoard (10)
  | nandProgramDone (channel : Fin 4) (lun : Fin 8) (block : BitVec 16) (ok : Bool)
  | hoardSaveComplete
  | hoardAreaFull (noSpace : Bool)
  | hoardRestoreStart
  | hoardRestoreUnit (sub : Sub) (corrected uncorrectable : Nat)
  | hoardRestoreComplete
  | hoardSpareEraseStart
  | hoardSpareClean
  | hrdDiscard (path : Path) (value : Word)
  | hrdExtLoWrite (path : Path) (value : Word)
  -- discard, clocks and resets (09, 03)
  | retainDeadlineDiscard
  | crystalNoStart (st : Straps)
  | crystalStop
  | mpllLockLoss
  | mpllRelock
  | mpllRelockTimeout
  | hckLoss
  | hckReturn (mhz : Nat)
  | watchdogExpiry
  | mrstRequest (path : Path) (value : Word)
  | mrst
  | hrst
  | hrstEnd
  | crstCon (path : Path)
  | crstTwbHost (path : Path)
  | crstTwbLocal (path : Path)
  | crstEvtQueue (path : Path)
  | crstSme (path : Path)
  | crstZlb (path : Path)
  | crstHrd (path : Path)
  | crstUser (path : Path)
  | crstDb (path : Path) (n : Fin 10) (answers : Bool)
  | crstZxp (path : Path) (answers : Bool)
  -- negotiation (01)
  | featLock (path : Path) (value : Word)
  | featDeadlineLock
  | featDeadlineWrite (path : Path) (value : Word)
  | featSettled
  | registerWrite (path : Path) (addr : Addr) (value : Word)
  -- host command path and window (04)
  | hostCommand (sub : Sub) (c : HostCycle)
  | alertPulseStart
  | alertPulseEnd
  | stopRelease (path : Path) (value : Word)
  | yalert (sub : Sub)
  | windowAddressWrite (sub : Sub) (high : Bool) (op : Byte)
  | windowStageWrite (sub : Sub) (k : Fin 3) (op : Byte)
  | windowCommit (sub : Sub) (op : Byte)
  | windowCommitApplied (sub : Sub)
  | windowFetchDone (sub : Sub)
  | windowAbort (sub : Sub) (op : Byte)
  | windowRead (sub : Sub) (k : Fin 6)
  | windowStatusRead (sub : Sub)
  | passThroughRead (sub : Sub) (rank : Fin 4) (data : Byte)
  | resume (sub : Sub)
  | maintGrant (sub : Sub) (ecs : List EcsRead)
  | lendGrant (sub : Sub)
  | hostCeReport (sub : Sub)
  | passWrite (sub : Sub) (rank : Fin 4)
  | grantHandback (sub : Sub)
  -- data buffers and DBC (05)
  | dbcNop (sub : Sub)
  | dbcWr (sub : Sub) (rank : Fin 4) (chk : Bool) (bad : BitVec 10)
  | dbcRd (sub : Sub) (rank : Fin 4)
  | dbcWinLo (sub : Sub) (nib : BitVec 4)
  | dbcWinHi (sub : Sub) (nib : BitVec 4)
  | dbcTrain (sub : Sub) (mode : Fin 4)
  | dbcSample (sub : Sub) (pos : Fin 5) (drx : Bool)
  | dbcTrimApply (sub : Sub)
  | dbcHold (sub : Sub)
  | dbcRelease (sub : Sub)
  | dbcHostReset (sub : Sub)
  | dbcFrameError (sub : Sub) (seen : BitVec 5) (first second : BitVec 5)
  | shadowWindowEnd (db : Fin 10) (n : Nat) (counts : List EyeCount) (flips : List (Fin 157))
  | trimStepApply (db : Fin 10)
  | dbeReport (sub : Sub) (lowHck : Nat)
  | dbdTrimStageWrite (path : Path) (value : Word)
  | dbTempConversion (db : Fin 10) (temp : Int)
  | dbStatusPoll
  -- local bus (05)
  | zlbWrite (tgt : Fin 11) (tag : Fin 32) (word : BitVec 15) (data : Word)
  | zlbRead (tgt : Fin 11) (tag : Fin 32) (word : BitVec 15)
  | zlbFetch (tgt : Fin 11)
  | zlbRefetch (tgt : Fin 11)
  | zlbRetry (tgt : Fin 11) (write : Bool) (tag : Fin 32) (word : BitVec 15) (data : Word)
  | zlbFrameDiscard (tgt : Fin 11) (edges : Nat) (header data : Word)
  | zlbFetchTick (tgt : Fin 11) (crcOk : Bool)
  | zlbResponse (tgt : Fin 11) (tag : Fin 32) (data : Word)
  | zlbAttemptTimeout (tgt : Fin 11) (tag : Fin 32)
  -- training (06)
  | trainingInit (sub : Sub)
  | trainingInitDone (sub : Sub)
  | polkaDone (sub : Sub) (dies : List PolkaDie)
  | quadrilleStepDone (sub : Sub) (failed : BitVec 4)
  | reelHEnd (sub : Sub) (enough : Bool) (entries : List TapVref)
  | maintUnitDone (sub : Sub) (rank : Fin 4) (pass changed : Bool) (lane : Fin 10)
  | repairUnitDone (sub : Sub) (pass : Bool)
  | hsettleStart (path : Path) (value : Word)
  | hsettleEnd (sub : Sub) (edges : Bool) (entries : List TapVref)
  | recSave (path : Path)
  | recInvalidate (path : Path)
  | hblobDataAccess (path : Path) (write : Option Word)
  -- calibration and live trim (07)
  | calTap (path : Path) (unit : BitVec 4)
  | calVref (path : Path) (unit : BitVec 4)
  | calTapThenVref (path : Path) (unit : BitVec 4)
  | calAdc (path : Path)
  | calPeriodExpiry (unit : Fin 11)
  | calTapDone (unit : Fin 11) (c64 c32 c64' c32' : Nat)
  | vrefSwap (unit : Fin 11) (rx : Fin 38)
  | vrefSwapTimeout (unit : Fin 11) (rx : Fin 38)
  | calVrefDone (unit : Fin 11) (rx : Fin 38) (shadow : Bool) (lo hi lo' hi' : Nat)
  | calAdcDone
  | calAbandon (unit : Fin 12)
  | smeSlot (n : Nat) (counts : List EyeCount) (flips : List (Fin 157)) (room : Bool)
  | trimTick (unit : Fin 12)
  | caTrimStepApply (sub : Sub)
  -- settings memory (08)
  | nvsCommitStart
  | nvsCommitDone (verified : Bool)
  | nvsPreEraseDone
  | nvsCmdCommit (path : Path)
  | nvsCmdAbortImage (path : Path)
  | nvsImageStart (path : Path) (value : Word)
  | nvsImageData (path : Path) (value : Word)
  | nvsImageEnd (verified : Bool)
  | nvsRingScan
  | nvsRingBatch (ring : Ring)
  | lifetimePersist
  | clkLifeLoRead (path : Path)
  | clkWallHiWrite (path : Path) (value : Word)
  | pwrSpanWrite (path : Path) (value : Word)
  -- fault windows (11)
  | faultFold
  | faultBucketBoundary (cls : Fin 6)
  | fltCfgWrite (path : Path) (cls : Fin 6) (value : Word)
  | fltClearResource (path : Path)
  | fltClearClass (path : Path)
  | fltClearAll (path : Path)
  | fltRepairNow (path : Path)
  | fltForget (path : Path) (entry : Fin 32)
  | fltPackTest (path : Path)
  | packTestDue
  | packTestStart
  | packTestEnd (r : PackEnd)
  -- events (12)
  | eventArise (src : Fin 64) (arg : BitVec 24)
  | eventPendingRelease
  | eventDeliver
  | evtStatusClear (path : Path) (high : Bool) (value : Word)
  | evtRaise (path : Path) (value : Word)
  -- two-wire ports (13)
  | twbA0SetPointer (port : Port) (addr : BitVec 7) (bytes : List Byte) (stop : Bool)
  | twbA0Write (port : Port) (addr : BitVec 7) (bytes : List Byte) (stop : Bool)
  | twbA0Read (port : Port) (addr : BitVec 7) (head : List Byte) (count : Nat) (stop : Bool)
  | twbStagedApply (port : Port)
  | twbA1Read (port : Port) (addr : BitVec 7) (ring : Ring)
  | twbA1SeekSeq (port : Port) (addr : BitVec 7) (ring : Ring) (seq : Word) (pecOk : Bool)
  | twbA1SeekOldest (port : Port) (addr : BitVec 7) (ring : Ring) (pecOk : Bool)
  | twbA1SeekNext (port : Port) (addr : BitVec 7) (ring : Ring) (pecOk : Bool)
  | twbA1FillDone (port : Port)
  | twbA1ReadPhase (port : Port) (addr : BitVec 7) (again stop : Bool)
  | twbA1ReadExpiry (port : Port)
  | twbA2Write (port : Port) (addr : BitVec 7) (bytes : List Byte) (stop : Bool)
  | twbA2Read (port : Port) (addr : BitVec 7) (stop : Bool)
  | alertResponse (other : Option (BitVec 7))
  | hostNotifySend (outcome : Attempt)
  | twbControllerRetry (port : Port) (outcome : Attempt) (data : List Byte)
  | twbPollDue (k : Fin 4) (outcome : Attempt) (data : List Byte)
  | twbSclTimeout (port : Port)
  -- console, line language (14)
  | conCharacter (sess : Sess) (c : Byte)
  | conLine (sess : Sess) (terminator : Byte)
  | conExecute
  | conBreak
  | baudRevert
  | unlockIdleEnd (sess : Sess)
  | unlockLockoutEnd
  | conResponseCut (sess : Sess)
  | conAsyncLine (text : Text)
  -- console, commands (15)
  | help (rq : Req) (words : List Text)
  | id (rq : Req)
  | featureShow (rq : Req)
  | featureAccept (rq : Req) (mask : Nat)
  | featureLock (rq : Req)
  | featureDeadline (rq : Req) (tenths : Nat)
  | peek (rq : Req) (addr : Addr) (count : Nat)
  | poke (rq : Req) (addr : Addr) (value : Word)
  | show (rq : Req) (what : ShowWhat)
  | modeMachine (rq : Req)
  | modeTyped (rq : Req)
  | baud (rq : Req) (rate : Nat)
  | serviceUnlock (rq : Req) (code : Text)
  | serviceLock (rq : Req)
  | serviceStatus (rq : Req)
  | timeShow (rq : Req)
  | timeSet (rq : Req) (t : Civil)
  | timeClear (rq : Req)
  | trimShow (rq : Req)
  | trimPause (rq : Req) (pause : Bool)
  | trainShow (rq : Req)
  | trainMaint (rq : Req) (sub : Sub) (rank : Nat)
  | trainSave (rq : Req) (save : Bool)
  | calShow (rq : Req)
  | calTapVrefCmd (rq : Req) (vref : Bool) (unit : Option Nat)
  | calAdcRef (rq : Req) (mv : Nat)
  | keepStatus (rq : Req)
  | keepSpan (rq : Req) (reserve : Bool) (value : Nat)
  | keepCharge (rq : Req) (cfg : Option (Nat × Nat))
  | keepPack (rq : Req) (c : Nat)
  | hoardStatus (rq : Req) (map : Bool)
  | hoardExtent (rq : Req) (k : Nat) (x : Option ExtArg)
  | hoardLend (rq : Req) (on : Bool)
  | hoardDiscard (rq : Req)
  | faultList (rq : Req) (sel : Option (Fin 6 × Nat))
  | faultCfg (rq : Req) (cls : Fin 6) (window thresh : Nat) (action : Option (BitVec 5))
  | faultClear (rq : Req) (sel : Option (Fin 6 × Option Nat))
  | faultRepair (rq : Req) (forget : Bool) (n : Nat)
  | faultPackTest (rq : Req)
  | eventShow (rq : Req) (n : Option Nat)
  | eventEnable (rq : Req) (n : Nat) (on : Bool)
  | eventRoute (rq : Req) (n : Nat) (routes : BitVec 5)
  | eventClear (rq : Req) (n : Option Nat)
  | eventRaiseCmd (rq : Req) (arg : Nat)
  | log (rq : Req) (ring : Ring) (start : Option Nat) (count : Nat)
  | nvsShow (rq : Req)
  | nvsCommit (rq : Req)
  | nvsImageStartCmd (rq : Req) (kib crc : Nat)
  | nvsImageDataCmd (rq : Req) (bytes : List Byte)
  | nvsImageAbortCmd (rq : Req)
  | nvsImageStatusCmd (rq : Req)
  | clockShow (rq : Req)
  | powerDomains (rq : Req) (faults : Bool)
  | powerClear (rq : Req) (mask : BitVec 5)
  | maintShow (rq : Req)
  | resetMgmt (rq : Req)
  | resetUnit (rq : Req) (u : UnitName)
  -- the Warren (16)
  | warrenSend (core : Fin 12) (channel : Fin 64) (words : List Word) (try_ : Bool)
  | sendStallEnd (core : Fin 12) (cycles : Nat)
  | warrenPop (core : Fin 12) (port : Fin 8)
  | select (core : Fin 12) (mask : BitVec 8) (round : Bool) (timeout : BitVec 24)
  | selectReturn (core : Fin 12) (timedOut : Bool) (cycles : Nat)
  | heartbeat (core : Fin 12)
  | watchdogService
  | coreFault (core : Fin 12) (kind : BitVec 3) (pc : BitVec 15)
  | userHeartbeatMiss
  | userCoreStart
  -- rows added at the table's end
  | pd5Lost
  | thermalChargerResume
  | overVoltageResume
  | plantReverseClear
  | conOutputSent (sess : Sess)
  deriving DecidableEq, Repr

end Sys2Proof
end

