-- ==== Sys2Proof/Machine/Bits.lean ====
section
/-! DEFINITION. Bit-field, counter, byte-order and check-value helpers, and the sparse tables of the machine. -/

namespace Sys2Proof.Machine

/-- Bits [hi:lo] of a register value. -/
def fld (w : Word) (hi lo : Nat) : Nat := (w.toNat >>> lo) % 2 ^ (hi - lo + 1)

/-- Bit `i` of a register value. -/
def bitAt (w : Word) (i : Nat) : Bool := w.getLsbD i

/-- A register value from its fields, each given by its lowest bit and its value. -/
def packWord (fs : List (Nat × Nat)) : Word :=
  BitVec.ofNat 32 (fs.foldl (fun a f => a + f.2 * 2 ^ f.1) 0)

/-- A value as bits [hi:lo], truncated to the field. -/
def toField {n : Nat} (v : Nat) : BitVec n := BitVec.ofNat n v

/-- `k` more on a counter that saturates at its greatest value. -/
def satAdd {n : Nat} (c : BitVec n) (k : Nat) : BitVec n :=
  if c.toNat + k < 2 ^ n then BitVec.ofNat n (c.toNat + k) else BitVec.allOnes n

/-- Replaces bits [hi:lo] of a register value. -/
def setFld (w : Word) (hi lo v : Nat) : Word :=
  packWord [(0, fld w (lo - 1) 0 * (if lo = 0 then 0 else 1)), (lo, v % 2 ^ (hi - lo + 1)),
    (hi + 1, (w.toNat >>> (hi + 1)))]

/-- The bits set among the first `n` of a mask, in rising order. -/
def onesOf (n : Nat) (m : Nat) : List Nat := (List.range n).filter (fun i => m.testBit i)

/-- A mask from a list of Booleans, first at bit 0. -/
def maskOf (bs : List Bool) : Nat := bs.foldr (fun b a => 2 * a + b.toNat) 0

/-- The register value of the four bytes, first in [7:0]. -/
def wordOfBytes (b0 b1 b2 b3 : Byte) : Word := b3 ++ b2 ++ b1 ++ b0

/-- The `n` lowest bytes of a number, lowest first (little-endian). -/
def leBytes (n v : Nat) : List Byte := (List.range n).map (fun i => BitVec.ofNat 8 (v >>> (8 * i)))

/-- The number that bytes spell, lowest first. -/
def leNat (bs : List Byte) : Nat := bs.foldr (fun b a => b.toNat + 256 * a) 0

/-! ## Check values -/

/-- One bit of a reflected CRC of polynomial `p`. -/
def crcBitR (p : Nat) (c : Nat) : Nat := if c % 2 = 1 then (c / 2) ^^^ p else c / 2

/-- One byte into a running CRC-32C (R13: polynomial 0x1EDC6F41 reflected). -/
def crc32cByte (c : Nat) (b : Byte) : Nat :=
  (List.range 8).foldl (fun a _ => crcBitR 0x82F63B78 a) (c ^^^ b.toNat)

/-- Bytes into a running CRC-32C. The match has each step evaluated before the next. -/
def crc32cRun : List Byte → Nat → Nat
  | [], c => c
  | b :: r, c =>
    match crc32cByte c b with
    | 0 => crc32cRun r 0
    | n + 1 => crc32cRun r (n + 1)

/-- CRC-32C over bytes (R13). -/
def crc32c (bs : List Byte) : Word := BitVec.ofNat 32 (crc32cRun bs 0xFFFFFFFF ^^^ 0xFFFFFFFF)

/-- One bit of an unreflected CRC of width `n` and polynomial `p`. -/
def crcBitF (n p : Nat) (c : Nat) : Nat :=
  if c.testBit (n - 1) then (2 * c ^^^ p) % 2 ^ n else (2 * c) % 2 ^ n

/-- One byte into a running CRC-16/CCITT-FALSE (R13: polynomial 0x1021). -/
def crc16Byte (c : Nat) (b : Byte) : Nat :=
  (List.range 8).foldl (fun a _ => crcBitF 16 0x1021 a) (c ^^^ (b.toNat * 256))

/-- CRC-16/CCITT-FALSE over bytes (R13). -/
def crc16 (bs : List Byte) : BitVec 16 := BitVec.ofNat 16 (bs.foldl crc16Byte 0xFFFF)

/-- CRC-8 of polynomial `p` and initial value `init`, most significant bit first. -/
def crc8 (p init : Nat) (bs : List Byte) : Byte :=
  BitVec.ofNat 8 (bs.foldl (fun c b => (List.range 8).foldl (fun a _ => crcBitF 8 p a) (c ^^^ b.toNat)) init)

/-- CRC-8 of polynomial 0x07 over bits, the ZLB's (R127): initial value and final XOR 0. -/
def crc8Bits (bs : List Bool) : Byte :=
  BitVec.ofNat 8 (bs.foldl (fun c b => crcBitF 8 0x07 (c ^^^ (128 * b.toNat))) 0)

/-! ## Lists as tables -/

/-- Element `i` of a table, `d` past its end. -/
def nth {α : Type} (l : List α) (i : Nat) (d : α) : α := l.getD i d

/-- Element `i` of a table changed by `f`. -/
def upd {α : Type} (l : List α) (i : Nat) (f : α → α) : List α := l.modify i f

/-! ## Sparse tables

A sparse table lists the entries that differ from the default, keys strictly rising: equal tables are equal data. -/

/-- The entry at key `k`, `d` where none is listed. -/
def sget {β : Type} (d : β) (m : List (Nat × β)) (k : Nat) : β :=
  match m with
  | [] => d
  | (j, v) :: r => if j = k then v else sget d r k

/-- The table without key `k`. -/
def serase {β : Type} (m : List (Nat × β)) (k : Nat) : List (Nat × β) :=
  m.filter (fun e => !(e.1 == k))

/-- The table with entry `v` put at key `k`, in order. -/
def sput {β : Type} (m : List (Nat × β)) (k : Nat) (v : β) : List (Nat × β) :=
  match m with
  | [] => [(k, v)]
  | (j, w) :: r => if k < j then (k, v) :: (j, w) :: r else if k = j then (k, v) :: r else (j, w) :: sput r k v

/-- The table with key `k` reading `v`: an entry equal to the default is not listed. -/
def sset {β : Type} [DecidableEq β] (d : β) (m : List (Nat × β)) (k : Nat) (v : β) : List (Nat × β) :=
  if v = d then serase m k else sput m k v

/-- The canonical form: keys strictly rising and no entry equal to the default. -/
def swf {β : Type} [DecidableEq β] (d : β) (m : List (Nat × β)) : Bool :=
  match m with
  | [] => true
  | (j, v) :: r => !(v = d) && (match r with | [] => true | (k, _) :: _ => j < k) && swf d r

end Sys2Proof.Machine
end

