-- ==== Sys2Proof/Machine/StateMgmt.lean ====
section
/-! DEFINITION. State of the management blocks: negotiation (01), clocks and resets (03), fault windows (11) and
events (12). -/

namespace Sys2Proof.Machine

/-- The module as built (01 R14, R22, R239): what of the set is fitted, the fused serial number, and its NAND: LUNs
per channel, pages per block as a power of two, and half the blocks of one LUN (B/2 of R240); and how the DBPOS pins of
its buffers are strapped (R110). -/
structure Module where
  hoardFitted : Bool
  dbFitted : Bool
  zxpFitted : Bool
  serial : BitVec 64
  nandLuns : BitVec 4
  nandPpbLog2 : BitVec 4
  nandHalf : BitVec 16
  dbPos : List (BitVec 4)
  deriving DecidableEq, Repr

/-- Negotiation states (01 'Negotiation states'). -/
inductive FeatPhase | off | booting | waitHost | counting | locked | settled
  deriving DecidableEq, Repr

/-- Feature negotiation (R24 to R41). `elapsed` counts the milliseconds since the deadline timer started. -/
structure Feat where
  phase : FeatPhase
  offer : BitVec 16
  accept : BitVec 16
  active : BitVec 16
  lockedBy : BitVec 3
  deadline : BitVec 9
  elapsed : Nat
  deriving DecidableEq, Repr

/-- Clocks, the lifetime and wall time (R57 to R65), CLK_RST_CAUSE and a waiting MRST (R73). `noStart` is that the
crystal did not start at POR; `lifeLoad` that the persisted lifetime is still to be added (R62). -/
structure Clk where
  rootOk : Bool
  onBackup : Bool
  noStart : Bool
  mpllLock : Bool
  hckOk : Bool
  hckMhz : BitVec 12
  hckValid : Bool
  zlbKeep : Bool
  cause : BitVec 8
  mrstPath : BitVec 3
  mrstWait : Bool
  ktick : Nat
  life : BitVec 40
  lifeLoad : Bool
  wall : BitVec 48
  wallSet : Bool
  wallStage : Word
  deriving DecidableEq, Repr

/-- Fault states (R258), in the order of their codes. -/
inductive FltState | none | transient | lasting | was
  deriving DecidableEq, Repr

/-- A DRAM row by bank group, bank and row address. -/
structure RowAddr where
  bg : BitVec 3
  ba : BitVec 2
  row : BitVec 18
  deriving DecidableEq, Repr

/-- The suspect row of a DRAM device and its row count (R262). -/
structure Suspect where
  at_ : RowAddr
  count : BitVec 8
  deriving DecidableEq, Repr

/-- One counted resource (R257, R258, R260, R262): its buckets oldest first, the current one last; the pending
count; `changed` and `recLife` serve the 60-minute snapshot of R272. -/
structure Res where
  state : FltState
  quiet : Nat
  buckets : List (BitVec 8)
  suspect : Option Suspect
  pend : BitVec 8
  changed : Bool
  recLife : BitVec 40
  deriving DecidableEq, Repr

/-- A resource with nothing counted. -/
def Res.fresh : Res := ⟨.none, 0, List.replicate 8 0, none, 0, false, 0⟩

/-- Repair-entry states (FLT_REPAIR.STATUS), in the order of their codes. -/
inductive RepStatus | empty | wanted | applied | reapply | failed
  deriving DecidableEq, Repr

/-- A repair-list entry (R264 to R266); `age` orders entries, oldest lowest. -/
structure Repair where
  status : RepStatus
  device : Nat
  at_ : RowAddr
  applied : BitVec 8
  age : Nat
  deriving DecidableEq, Repr

/-- An empty repair-list entry. -/
def Repair.none : Repair := ⟨.empty, 0, ⟨0, 0, 0⟩, 0, 0⟩

/-- The keep-pack test (R270): due, running, VBANK in mV when it started, and its last result. -/
structure PackTest where
  due : Bool
  busy : Bool
  startMv : BitVec 16
  c : BitVec 10
  esr : BitVec 12
  outcome : BitVec 2
  deriving DecidableEq, Repr

/-- The fault unit (R256 to R274). `res` is the sparse table of resources, keyed class × 512 + index; `cutEntry` is
a repair that PFAIL stopped, reported at the next ready. -/
structure Flt where
  cfg : List Word
  res : List (Nat × Res)
  saturated : Bool
  restored : Bool
  repairs : List Repair
  nextAge : Nat
  lastFail : BitVec 3
  busyA : Option Nat
  busyB : Option Nat
  cutEntry : Option Nat
  pack : Word
  test : PackTest
  deriving DecidableEq, Repr

/-- A record of the fault history ring (R271) without its sequence and CRC. -/
structure FaultRec where
  kind : Nat
  cls : Nat
  index : Nat
  life : BitVec 40
  state : FltState
  quiet : Nat
  buckets : List (BitVec 8)
  tail : List Byte
  deriving DecidableEq, Repr

/-- A record of the event log ring (R286) without its sequence and CRC. -/
structure EventRec where
  src : BitVec 6
  count : BitVec 8
  life : BitVec 40
  arg : BitVec 24
  deriving DecidableEq, Repr

/-- One event source (R275): EN and ROUTE as EVT_SRCn [5:0], status bit, PEND with the stamp and argument of its
first pending arising, TOTAL and the argument of the last arising. -/
structure EvtSrc where
  cfg : BitVec 6
  status : Bool
  pend : BitVec 8
  stamp : BitVec 40
  parg : BitVec 24
  total : BitVec 16
  arg : BitVec 24
  deriving DecidableEq, Repr

/-- A source as reset leaves it: EVT_SRCn reads 0x29 (R288). -/
def EvtSrc.fresh : EvtSrc := ⟨0x29, false, 0, 0, 0, 0, 0⟩

/-- One queue entry (R275). -/
structure EvtEntry where
  src : BitVec 6
  count : BitVec 8
  stamp : BitVec 40
  arg : BitVec 24
  deriving DecidableEq, Repr

/-- The event unit (R275 to R283): sources, queue (oldest first, at most 32), HIGH, and HALRT_n as R282 holds it. -/
structure Evt where
  srcs : List EvtSrc
  queue : List EvtEntry
  high : BitVec 6
  halrt : Bool
  deriving DecidableEq, Repr

/-- An event latched in PD0 while PD2 is off (R224, R245): source, count, second of the first, its argument. -/
structure Latch where
  src : BitVec 6
  count : BitVec 8
  stamp : BitVec 40
  arg : BitVec 24
  deriving DecidableEq, Repr

/-- The selector registers of which each path has its own copy, and the lifetime shadow of the path (R62). -/
structure PathSel where
  dbm : BitVec 4
  hblob : BitVec 8
  calTap : BitVec 4
  calVref : BitVec 11
  ca : BitVec 13
  fltClass : BitVec 3
  fltIndex : BitVec 9
  fltEntry : BitVec 5
  evtInfo : BitVec 6
  nvsRegion : BitVec 4
  wrnCore : BitVec 4
  mch : BitVec 6
  hrdMap : BitVec 4
  lifeHi : BitVec 8
  deriving DecidableEq, Repr

/-- The selectors as reset leaves them: all 0 but NVS_REGION_SEL, which is 3. -/
def PathSel.fresh : PathSel := ⟨0, 0, 0, 0, 0, 0, 0, 0, 0, 3, 0, 0, 0, 0⟩

end Sys2Proof.Machine
end

