-- ==== Sys2Proof/Machine/StateHost.lean ====
section
/-! DEFINITION. State of the host command path and the hub window (04), the data buffers and the local bus (05). -/

namespace Sys2Proof.Machine

/-- Subchannel ownership (R86), in the order of DRM_STATE_x.OWNER. -/
inductive Owner | notReady | host | granted | stopped | blocked
  deriving DecidableEq, Repr

/-- What a DRAM rank is (DRM_STATE_x.RANK): 0 not fitted, 1 active, 2 self-refresh, 3 held for retention. -/
inductive RankSt | absent | active | selfRefresh | held
  deriving DecidableEq, Repr

/-- The mode-register shadow of one rank (R84). -/
structure MrShadow where
  bl : BitVec 2
  rl : BitVec 7
  wl : BitVec 7
  fgr : Bool
  crc : Bool
  deriving DecidableEq, Repr

/-- A running grant (R104, R250): MAINT_GRANT or LEND_GRANT, the ECS readings W4 or W5 makes in it once its other
work has run (R261), the restore units a lend grant may still do, the declared duration in 100 us, and whether work
was pending when it began (R104). -/
structure Grant where
  lend : Bool
  ecs : List EcsRead
  unitsLeft : Nat
  span : Nat
  worked : Bool
  deriving DecidableEq, Repr

/-- The hub window of one subchannel (04 'State'): address staging, write staging byte 3 to 0, read staging with
RVALID, a fetch in flight, captured commits not yet applied (R63: at most 8), an open transfer, RESULT. -/
structure Win where
  addr : BitVec 16
  stage : Word
  read : Word
  rvalid : Bool
  fetch : Bool
  commits : List (BitVec 16 × Word)
  opened : Bool
  result : BitVec 2
  deriving DecidableEq, Repr

/-- A cleared window. -/
def Win.fresh : Win := ⟨0, 0, 0, false, false, [], false, 0⟩

/-- What YCA and YCS_n of a subchannel last carried (R80 to R83, R218): the command, its ranks, its cycles with
the chip-ID bits, and the mode register and operand of an MRW or MRR. `none` is YCS_n held high. -/
structure YDrive where
  kind : CmdKind
  ranks : BitVec 4
  ca1 : BitVec 14
  ca2 : Option (BitVec 14)
  cid : BitVec 2
  mr : Byte
  op : Byte
  delay : Nat
  deriving DecidableEq, Repr

/-- One subchannel: ownership, ranks, shadow, grant, window, drive of the DRAM bus, the commands that the ZX8-R itself
last generated there, each with how many times it was issued (R83 'Generated', R85), the byte last returned to the
host for an MRR, its counters, and the ECS counts last read per die (R261; `ecsBase` false until the first read
after a DRAM reset). -/
structure SubSt where
  owner : Owner
  ranks : List RankSt
  shadow : List MrShadow
  grant : Option Grant
  win : Win
  drive : Option YDrive
  gen : List (YDrive × Nat)
  hostDq : Option Byte
  parCount : BitVec 16
  dropCount : BitVec 16
  yalertCount : BitVec 16
  ecs : List (Nat × Nat)
  ecsBase : Bool
  deriving DecidableEq, Repr

/-- The two kinds of ALERT_n pulse (R90, R91). -/
inductive Pulse | parity | crc
  deriving DecidableEq, Repr

/-- A report on its way from HCK to WCLK (R63): a parity error, or a pulse on DBE_x_n and whether it was classed a frame
error. -/
inductive Report
  | parity (x : Sub)
  | dbe (x : Sub) (frame : Bool)
  deriving DecidableEq, Repr

/-- The host side (R81, R88 to R93): HST_LAT, HST_PAR_CTRL, HST_ALERT_W, HST_ALERT_CAUSE [3:0] and MERGED,
HST_WIN_CTRL, DRM_CFG as loaded from the factory region, RESET_n and YRST_n levels, the milliseconds for which a discard
still holds YRST_n low (R227), the CA block, PD3 and PD5 supply faults (R71, R70), the pulse on
ALERT_n and the pulses waiting, the window a running Resume was written on, and the reports that wait for WCLK (R63: at
most 16). -/
structure HostSt where
  lat : Bool
  latActive : Bool
  latLoad : Bool
  parEn : Bool
  parStop : Bool
  alertW : BitVec 7
  cause : BitVec 4
  merged : Bool
  ainc : Bool
  cfgA : Byte
  cfgB : Byte
  resetHigh : Bool
  yrst : Bool
  yrstMs : Nat
  caBlock : Bool
  pd3Fault : Bool
  pd5Fault : Bool
  pulse : Option Pulse
  waitPar : Bool
  waitCrc : Bool
  resume : Option Sub
  reports : List Report
  deriving DecidableEq, Repr

/-- A burst a DBC frame opened (R113, R114): its direction, rank, CHK, and the nibbles whose CRC was sent
inverted. -/
structure Burst where
  write : Bool
  rank : BitVec 2
  chk : Bool
  poisoned : BitVec 2
  deriving DecidableEq, Repr

/-- The commands of DBC (R118): WR with its rank and CHK, RD with its rank, the two halves of a window byte, TRAIN with
its mode, SAMPLE with its position and path, and the four management codes. -/
inductive DbcCmd
  | nop
  | wr (rank : BitVec 2) (chk : Bool)
  | rd (rank : BitVec 2)
  | winLo (nib : BitVec 4)
  | winHi (nib : BitVec 4)
  | train (mode : BitVec 2)
  | sample (pos : BitVec 3) (drx : Bool)
  | trimApply
  | hold
  | release
  | hostReset
  deriving DecidableEq, Repr

/-- A tap and Vref code (R109). -/
structure TapSt where
  tap : BitVec 7
  vref : BitVec 7
  deriving DecidableEq, Repr

/-- One ZX8-D (05): the position latched from DBPOS (R110), DBD_STATUS, DBD_CFG, counters, sensor, shadow sampler, staged
trim step, tap blocks (sparse, keyed path × 16 + i, entries that differ from reset), the stored window byte, an open
burst, what it drove to the host for an MRR, the result it last drove on DBR_x (R122), the pulse it holds on DBE_x_n
(true: a frame error is in it), the next pulse, into which reports merge meanwhile (R121), and whether its save store holds bursts that are still to be
written back (R161, R265). -/
structure Db where
  pos : BitVec 4
  hold : Bool
  train : BitVec 2
  hot : Bool
  window : Option (BitVec 4)
  streaming : Bool
  cfg : Word
  crc0 : BitVec 16
  crc1 : BitVec 16
  dbcErr : BitVec 16
  temp : BitVec 12
  tempValid : Bool
  tempHi : BitVec 12
  shadow : Word
  stage : BitVec 10
  stagePend : Bool
  stageArmed : Bool
  taps : List (Nat × TapSt)
  nibble : Option (BitVec 4)
  burst : Option Burst
  dqOut : Option Byte
  dbr : List Bool
  dbe : Option Bool
  dbeNext : Option Bool
  saved : Bool
  deriving DecidableEq, Repr

/-- A ZX8-D at PD5 power good (R402). -/
def Db.fresh : Db :=
  { pos := 0, hold := false, train := 0, hot := false, window := none, streaming := false, cfg := 0, crc0 := 0, crc1 := 0,
    dbcErr := 0, temp := 0, tempValid := false, tempHi := 0x190, shadow := 0x00100800, stage := 0,
    stagePend := false, stageArmed := false, taps := [], nibble := none, burst := none, dqOut := none, dbr := [], dbe := none,
    dbeNext := none, saved := false }

/-- A ZLB response (R125): its tag, word index and data, STATUS 1 DONE. -/
structure ZResp where
  tag : BitVec 5
  word : BitVec 15
  data : Word
  deriving DecidableEq, Repr

/-- What a target remembers of the last request under one tag (R129): its word index, its data and the response it
gave. -/
structure ZMemo where
  word : BitVec 15
  data : Word
  resp : ZResp
  deriving DecidableEq, Repr

/-- One ZLB target (R124 to R129): whether it answers on the bus, the response header and data it drove on MISO in the
last frame (R125), its response queue (at most 4), the last response fetched, the remembered requests by tag, and
ZLB_FRAME_ERR. -/
structure ZTarget where
  alive : Bool
  driven : Word × Word
  queue : List ZResp
  last : Option ZResp
  memo : List (Nat × ZMemo)
  errEdge : BitVec 16
  errCrc : BitVec 16
  deriving DecidableEq, Repr

/-- A silent, empty target. -/
def ZTarget.fresh : ZTarget := ⟨false, (0, 0), [], none, [], 0, 0⟩

/-- A request of the ZX8-R (R130, R131): its target, its tag, what it asks, and the attempts that have failed. -/
structure ZReq where
  tgt : Nat
  tag : BitVec 5
  write : Bool
  word : BitVec 15
  data : Word
  attempt : Nat
  deriving DecidableEq, Repr

/-- The ZLB controller and its targets (R130 to R135): the requests outstanding and those that wait for a tag or for
credit, oldest first; and the values W4 and W5 keep of the buffers: the last read
DBD_CRC_COUNT of each (R115; `none` before its first reading), the HOT bits seen (R117) and DBM_TEMP_MAX. -/
structure Zlb where
  targets : List ZTarget
  out : List ZReq
  waiting : List ZReq
  high : BitVec 6
  retry : BitVec 16
  fail : BitVec 16
  stall : Word
  present : BitVec 11
  unreach : BitVec 11
  peer : BitVec 20
  lastCrc : List (Option (BitVec 16 × BitVec 16))
  hotSeen : BitVec 10
  tempMax : BitVec 12
  tempDb : BitVec 4
  crcA : BitVec 16
  crcB : BitVec 16
  dbcA : BitVec 16
  dbcB : BitVec 16
  deriving DecidableEq, Repr

end Sys2Proof.Machine
end

