-- ==== Sys2Proof/Machine/StateTrain.lean ====
section
/-! DEFINITION. State of training and the warm record (06), calibration and live trim (07). -/

namespace Sys2Proof.Machine

/-- Training phases (R142), in the order of their codes. -/
inductive Phase | off | wait | held | init | polka | reel | gavotte | minuet | done | maint | fail
  deriving DecidableEq, Repr

/-- Training of one subchannel (R136 to R143, R153, R159 to R161). Values that training measures on the parts and
the manual does not give are free values: `gens` names, per trained set ((rank × 4 + die) × 4 + kind: 0 the rank's output
taps, 1 a die's VrefCA and VrefCS, 2 the rank's oscillator references, 3 a die's VrefDQ, duty-cycle and DFE values), the
first free value it stands for. `ca` are the 19 host receiver entries in TRM_CA_SEL order, `caRef` their references
(R179), `temps` the temperature of each rank's last transmit training, `vrefDone` that the Vref calibration of its first
READY_x has been started (R170), `row` the row that the next maintenance unit saves and trains on (R161). -/
structure TrainSub where
  phase : Phase
  replayed : Bool
  rankFail : BitVec 4
  skip : Bool
  ready : BitVec 16
  want : BitVec 4
  unit : Option (Fin 4)
  settleGo : Bool
  settleDone : Bool
  settleFail : Bool
  gens : List (Nat × Nat)
  ca : List TapSt
  caRef : List TapSt
  temps : List Int
  reelDone : Bool
  vrefDone : Bool
  row : Nat
  deriving DecidableEq, Repr

/-- The 19 host receiver entries at reset: tap 64, Vref code 60 (TRM_CA_VAL). -/
def caReset : List TapSt := List.replicate 19 ⟨64, 60⟩

/-- A subchannel whose training is off. -/
def TrainSub.fresh : TrainSub :=
  { phase := .off, replayed := false, rankFail := 0, skip := false, ready := 0, want := 0, unit := none,
    settleGo := false, settleDone := false, settleFail := false, gens := [], ca := caReset, caRef := caReset,
    temps := [0, 0, 0, 0], reelDone := false, vrefDone := false, row := 0 }

/-- The tap sets of one buffer as a record keeps them (R144): codes written, and the sets that stand for trained
values (path × 2 + 1 for its DQS entries). -/
structure DbTaps where
  taps : List (Nat × TapSt)
  gens : List (Nat × Nat)
  deriving DecidableEq, Repr

/-- A warm training record (R144): flags, HCK rate, hottest buffer in whole degrees, source, fingerprint, lifetime
second, host blob with its CRC and length, and the values of the ZX8-R, the buffers and the DRAMs. -/
structure WarmRec where
  invalid : Bool
  nodb : Bool
  blobPresent : Bool
  rate : BitVec 12
  temp : Int
  source : Nat
  finger : Word
  life : BitVec 40
  blobCrc : Word
  blobLen : BitVec 9
  blob : List (Nat × Word)
  caA : List TapSt
  caB : List TapSt
  gensA : List (Nat × Nat)
  gensB : List (Nat × Nat)
  dbs : List DbTaps
  deriving DecidableEq, Repr

/-- The training block (R142 to R162): the two subchannels, TRM_RESULT, TRM_REC_ and host-blob registers, the
source and INVALID flag of the record to be stored, the record stored last with its slot and generation, device time in milliseconds (R156), and the
fingerprint the module has now (R145). -/
structure Train where
  a : TrainSub
  b : TrainSub
  path : BitVec 3
  coldCause : BitVec 4
  pairs : BitVec 8
  unverified : Bool
  trainedRate : BitVec 12
  recCfg : Word
  maintCfg : Word
  recValid : Bool
  recPending : Bool
  recSource : Nat
  recInvalid : Bool
  drifted : Bool
  stored : Option WarmRec
  storedSlot : Bool
  storedGen : Word
  finger : Word
  hpub : Bool
  hfp : Word
  blob : List (Nat × Word)
  blobLen : BitVec 9
  devMs : Nat
  dbGens : List (List (Nat × Nat))
  dbRefs : List (List (Nat × TapSt))
  deriving DecidableEq, Repr

/-- One unit's calibration values (R164, R166, R173): tap size in 1/16 ps, taps per HCK period, the lifetime
seconds of its accepted calibrations, and OFS and GAIN per comparator, keyed rx × 2 + comparator. -/
structure CalUnit where
  size : BitVec 12
  tph : BitVec 8
  tapLife : BitVec 40
  vrefLife : BitVec 40
  comps : List (Nat × (Byte × Byte))
  deriving DecidableEq, Repr

/-- A unit as manufactured: 4.000 ps, no correction. -/
def CalUnit.fresh : CalUnit := ⟨64, 0, 0, 0, []⟩

/-- A calibration in hand on a unit (R163, R167, R171): its kind (1 tap, 2 Vref, 4 ADC), whether a command asked for it,
the receivers of a Vref run that follows and whether a command asked for that; of a Vref run whether a comparator was
rejected, the receivers still to do (the first is being done), the result of its shadow comparator (`some none` a
rejected one), and that its main comparator is through; and the readbacks held with STALE: the ZX8-R receiver entries, the
buffer's taps and temperature, and CAL_TAP, CAL_VREF. -/
structure CalRun where
  kind : Nat
  commanded : Bool
  next : List Nat
  nextCmd : Bool
  rejected : Bool
  todo : List Nat
  shadow : Option (Option (Byte × Byte))
  mainDone : Bool
  holdCaA : List TapSt
  holdCaB : List TapSt
  holdTaps : DbTaps
  holdTemp : BitVec 12
  holdValid : Bool
  holdUnit : CalUnit
  deriving DecidableEq, Repr

/-- A tap calibration that waits (R163, R164): its unit, the receivers of the Vref run that follows it, and which of the
two a command asked for. -/
structure CalWait where
  unit : Nat
  next : List Nat
  commanded : Bool
  nextCmd : Bool
  deriving DecidableEq, Repr

/-- The samples of a running ADC calibration (R168): the sums of the four sub-modes (fine REFIN, coarse REFIN, fine zero,
coarse zero), how many samples have been taken of 256, and whether one was over-range or flagged. -/
structure AdcRun where
  sums : List Nat
  count : Nat
  flagged : Bool
  deriving DecidableEq, Repr

/-- No sample taken. -/
def AdcRun.fresh : AdcRun := ⟨[0, 0, 0, 0], 0, false⟩

/-- The stored calibration body (R173). -/
structure CalBody where
  count : Word
  reject : BitVec 16
  abandon : BitVec 16
  last : BitVec 11
  lastLife : BitVec 40
  lastUtc : BitVec 48
  units : List CalUnit
  adc : List (BitVec 16)
  adcRef : BitVec 14
  adcLife : BitVec 40
  adcValid : Bool
  deriving DecidableEq, Repr

/-- Calibration (R163 to R173, R182). `runs` holds the calibration in hand of each of the 12 units; `swaps` the
receivers whose shadow comparator carries the data (unit × 64 + rx; 1 swapped, 2 its swap back still waiting);
`defer` the tap calibrations that wait for HCK_OK, for a domain state that allows them or for a Vref run to end, `temps`
the temperature of each unit's last calibration in quarter degrees. -/
structure Cal where
  cfg : Word
  body : CalBody
  runs : List (Option CalRun)
  swaps : List (Nat × Nat)
  adcMv : BitVec 14
  adcLatched : BitVec 14
  adcReject : Bool
  adcReason : BitVec 3
  adcRun : AdcRun
  pending : Bool
  defer : List CalWait
  temps : List Int
  deriving DecidableEq, Repr

/-- Accumulators of one bit in one mode (R176): results, ΣN, ΣE and ΣL. -/
structure Acc where
  results : Nat
  n : Nat
  e : Nat
  l : Nat
  deriving DecidableEq, Repr

/-- A called-for trim step (R177, R178); `centre` is a step of a re-centre (R268). -/
structure TrimStep where
  path : Nat
  entry : Nat
  vref : Bool
  down : Bool
  centre : Bool
  deriving DecidableEq, Repr

/-- The SME and live trim (R174 to R181). Keys of `acc` are ((unit × 16 + path) × 32 + entry) × 2 + mode; of
`modes`, unit × 16 + path. `placed` is, per unit, the step that live trim has placed in a CA receiver or staged in a buffer
and that has not taken effect; `last` the last decision of each bit as (mode, S, ΣN), keyed (unit × 16 + path) × 32 +
entry (TRM_TRIM_WORST); `recentre` the resources whose re-centre runs (R268), with 1 once its steps are called for. -/
structure Trim where
  cfg : Word
  lim : Word
  applied : BitVec 16
  refused : BitVec 16
  lossCrc : BitVec 16
  lossOver : BitVec 16
  limit : BitVec 12
  last : List (Nat × (Nat × Nat × Nat))
  slot : BitVec 5
  frame : BitVec 24
  acc : List (Nat × Acc)
  modes : List (Nat × Nat)
  queues : List (List TrimStep)
  placed : List (Option TrimStep)
  recentre : List (Nat × Nat)
  deriving DecidableEq, Repr

end Sys2Proof.Machine
end

