-- ==== Sys2Proof/Machine/StateKeep.lean ====
section
/-! DEFINITION. State of the keep-alive island and power domains (03, 09), the ZX8-P (09), Hoard (10) and the
settings memory (08). -/

namespace Sys2Proof.Machine

/-- Domain states (R67). `off` is the state without power; the others are in the order of their codes 1 to 10. -/
inductive Dom | off | keepOnly | boot | run | curl | commitHold | dormouse | attended | save | wake | restore
  deriving DecidableEq, Repr

/-- Keep states (R207), in the order of their codes. -/
inductive Keep | normal | curl | commitHold | hold | save | wake | empty
  deriving DecidableEq, Repr

/-- PWR_CURL (R220): the times and flags of the last Curl. -/
structure CurlRec where
  sr : BitVec 8
  reg : BitVec 8
  off : BitVec 8
  commit : Bool
  hckLost : Bool
  noBank : Bool
  deriving DecidableEq, Repr

/-- The keep-alive island and the power domains (R67, R70, R207, R220 to R224, R406). `on` has bit n for PDn; `copy`
is the island copy of HOARD (R25, R235) and `lockCopy` the copy of the last lock; `usedMs` counts the span in
milliseconds; `pd2Down` is the time a PD2 brownout keeps PD2 off outside the table of R67; `faults` are
PWR_DOMAIN_FAULT [6:2]; `lost` the regions latched by R199 (bit r); `cutOpen` that no management has become ready since
the last PFAIL (R224); `energyX` the usable energy as the island last computed it, in J × 2 × 10⁸ (R222; none before its first reading, log
entry 90). -/
structure Pow where
  dom : Dom
  keep : Keep
  on : BitVec 7
  pd2Down : Bool
  hostPg : Bool
  pfailLow : Bool
  svc : Bool
  image : Bool
  copy : Bool
  lockCopy : Bool
  lastEnd : BitVec 3
  usedMs : Nat
  span : BitVec 16
  reserve : BitVec 12
  cuts : BitVec 16
  curl : CurlRec
  kdeep : Bool
  faults : BitVec 5
  energyJ : Nat
  energyX : Option Nat
  reserveHit : Bool
  cSrc : Bool
  cutOpen : Bool
  latched : List Latch
  lost : BitVec 9
  failedBoots : List Nat
  straps : Straps
  deriving DecidableEq, Repr

/-- One ADC channel (R230 to R232): its calibrated VALUE, flags of the sample, the range its next slot uses in auto
mode, and its frame count. -/
structure AdcCh where
  value : BitVec 18
  coarse : Bool
  ovr : Bool
  settle : Bool
  range : Bool
  valid : Bool
  frame : Byte
  nextCoarse : Bool
  deriving DecidableEq, Repr

/-- A channel with no sample yet. -/
def AdcCh.fresh : AdcCh := ⟨0, false, false, false, false, false, 0, false⟩

/-- The ZX8-P (R208 to R217, R229 to R233): comparators, charger, converter, OR, its registers, and the ADC with the
correction in force (fine OFFSET, GAIN, coarse OFFSET, GAIN) and, during an ADC calibration, the readings held. -/
structure Zxp where
  plant : Bool
  plantOv : Bool
  plantRev : Bool
  convOn : Bool
  convCurrent : Bool
  orHost : Bool
  chg : BitVec 2
  chgPlant : Bool
  chgFaulted : Bool
  thermal : Bool
  bankArm : Bool
  above20 : Bool
  above16 : Bool
  vmax : BitVec 7
  cMeas : BitVec 10
  measValid : Bool
  fault : BitVec 5
  chgCfg : Word
  limits : Word
  pack : Word
  range : Word
  aclk : BitVec 4
  chans : List AdcCh
  slot : BitVec 4
  frame : Byte
  settleLeft : Nat
  corr : List (BitVec 16)
  held : Option (List AdcCh)
  deriving DecidableEq, Repr

/-- Hoard unit states (R243), in the order of their codes. -/
inductive HrdSt | idle | saving | held | restoring | lending | erasing
  deriving DecidableEq, Repr

/-- A block of a NAND LUN. -/
structure NandBlock where
  channel : Nat
  lun : Nat
  block : Nat
  deriving DecidableEq, Repr

/-- An extent as HRD_EXT_LO and HRD_EXT_HI hold it (R236). -/
structure Extent where
  lo : Word
  hi : Word
  deriving DecidableEq, Repr

/-- The header page of an area (R241). -/
structure AreaHdr where
  gen : Word
  rows : Nat
  life : BitVec 40
  extents : List Extent
  deriving DecidableEq, Repr

/-- The trailer page of an area (R241). -/
structure AreaTrl where
  gen : Word
  pages : Nat
  retired : List NandBlock
  deriving DecidableEq, Repr

/-- The marker page of an area (R241): the generation it consumes, and the lifetime second. -/
structure AreaMark where
  gen : Word
  life : BitVec 40
  deriving DecidableEq, Repr

/-- One NAND area by its control pages (R241, R242): blank or written header, trailer, marker page; `torn` is a header
page that is neither blank nor valid. -/
structure Area where
  torn : Bool
  hdr : Option AreaHdr
  trl : Option AreaTrl
  marker : Option AreaMark
  deriving DecidableEq, Repr

/-- A clean area. -/
def Area.clean : Area := ⟨false, none, none, none⟩

/-- Where a LUN stands in a save (R240, R245): the block and page that its next page goes to, whether that block has been
erased for it, and the data pages programmed there. -/
structure NandCur where
  block : Nat
  page : Nat
  erased : Bool
  done : Nat
  deriving DecidableEq, Repr

/-- A page program (R240, R241): where it went, and, of a control page, its content from byte 0; data pages carry what
the DRAMs hold. -/
structure NandProg where
  channel : Nat
  lun : Nat
  block : Nat
  page : Nat
  content : List Byte
  deriving DecidableEq, Repr

/-- A burst of the keep-region stream (R238): its extent, row, bank group, bank and column burst. -/
structure StreamPos where
  extent : Nat
  row : Nat
  bg : Nat
  bank : Nat
  burst : Nat
  deriving DecidableEq, Repr

/-- The Hoard unit (R234 to R255). `curs` has the LUNs' places in a running save (channel × 8 + LUN), `prog` the page
programmed last, `unitAt` the burst at which the unit restored last begins. `extents` is the map of region 6; watermarks are in 64 KiB units; `retiredNow`
the blocks the running save retired; `pages` the data pages it has programmed; `provedA`, `provedB` the subchannels whose
Polka at the save rate has passed; `readyHeld` the subchannels whose READY_x
waits for a restore-first restore (R249); `markerOwed` a discard's marker page not yet programmed. -/
structure Hrd where
  st : HrdSt
  luns : BitVec 4
  ppbLog2 : BitVec 4
  areaBlocks : BitVec 16
  areaA : Area
  areaB : Area
  lend : Bool
  extents : List Extent
  factoryBad : List NandBlock
  retired : List NandBlock
  retiredNow : List NandBlock
  curs : List (Option NandCur)
  prog : Option NandProg
  unitAt : Option StreamPos
  pages : Nat
  saveMs : Nat
  provedA : Bool
  provedB : Bool
  wmarkA : BitVec 20
  wmarkB : BitVec 20
  corrected : BitVec 16
  uncorrectable : BitVec 16
  uncorr : Option (Sub × BitVec 20)
  lastTime : BitVec 16
  lastOutcome : BitVec 3
  lastNotClean : Bool
  readyHeldA : Bool
  readyHeldB : Bool
  markerOwed : Bool
  deriving DecidableEq, Repr

/-! ## The settings memory (08) -/

/-- A slot header as the part holds it (R188); `readCrc` is the CRC-32C of the body as it reads back. -/
structure SlotHdr where
  magic : Word
  gen : Word
  length : Word
  layout : BitVec 16
  region : Byte
  bodyCrc : Word
  erases : Nat
  bind : Word
  hdrCrc : Word
  readCrc : Word
  deriving DecidableEq, Repr

/-- A slot with a header: the header and the body. -/
structure Held (β : Type) where
  hdr : SlotHdr
  body : β
  deriving DecidableEq, Repr

/-- The two slots of a region (R186); `none` holds no header (R191), and `rawA`, `rawB` say that such a slot is torn, partly
erased or partly programmed, so that it is not erased either (R192). -/
structure Slots (β : Type) where
  a : Option (Held β)
  b : Option (Held β)
  rawA : Bool
  rawB : Bool
  deriving DecidableEq, Repr

/-- The boot block (R187): magic, layout version, kind byte, part size, the 14 entries of offset and size, and the CRC. -/
structure BootBlock where
  magic : Word
  layout : BitVec 16
  kind : Byte
  sizeKib : Word
  entries : List (Nat × Nat)
  crc : Word
  deriving DecidableEq, Repr

/-- What SFDP says of a part (R183, R184): whether it meets R183, its quad read opcode, and its 4 KiB erase opcode. -/
structure Sfdp where
  meets : Bool
  quad : Option Byte
  erase : Byte
  deriving DecidableEq, Repr

/-- The commands that the ZX8-R uses on the NVS bus (R184), with address and length where they have them. -/
inductive NvsOp
  | reset
  | jedec
  | sfdp
  | read (addr len : Nat)
  | quad (addr len : Nat)
  | writeEnable
  | program (addr len : Nat)
  | erase (addr : Nat)
  | poll
  deriving DecidableEq, Repr

/-- The factory body (08 'Factory body'): DRM_CFG bytes, the YCA and YCS_n taps of no-DB mode, the check value of the
service code, the order code and factory calibration. -/
structure Factory where
  cfgA : Byte
  cfgB : Byte
  outTaps : List Byte
  service : Word
  order : Text
  cal : List CalUnit
  adc : List (BitVec 16)
  deriving DecidableEq, Repr

/-- A settings entry (R189): hub address, unit (0 the ZX8-R, 1 to 10 the buffers, 11 the ZX8-P), value. -/
structure SetEntry where
  addr : Addr
  unit : Nat
  value : Word
  deriving DecidableEq, Repr

/-- The settings body (R189). -/
structure SetBody where
  life : BitVec 40
  wall : BitVec 48
  wallSet : Bool
  entries : List SetEntry
  deriving DecidableEq, Repr

/-- The firmware body (08 'Firmware body', R355): part, issues, version, and of the Flaef image what boot checks and
loads: format, core mask, route table, whether magic, CRCs and sections are as R355 states, and the section of each
core. -/
structure FwBody where
  part : BitVec 16
  issues : Byte
  build : Byte
  minor : Byte
  major : Byte
  version : BitVec 16
  cores : BitVec 12
  routes : List Word
  sound : Bool
  sections : List (List Byte)
  deriving DecidableEq, Repr

/-- The keep-region map (region 6): extents and bad blocks. -/
structure KeepBody where
  extents : List Extent
  factoryBad : List NandBlock
  retired : List NandBlock
  deriving DecidableEq, Repr

/-- The non-volatile memories (R183, R186): the serial part, its SFDP (none where it shows no signature) and its regions.
Rings hold sequence and record, oldest first; `tornF`, `tornE` are the sequences of records that fail their CRC (R203). -/
structure Nv where
  sfdp : Option Sfdp
  jedec : BitVec 24
  density : BitVec 3
  boot : BootBlock
  factoryHdr : SlotHdr
  factory : Factory
  fw : Slots FwBody
  settings : Slots SetBody
  cal : Slots CalBody
  warm : Slots WarmRec
  keep : Slots KeepBody
  faultRing : List (Nat × FaultRec)
  eventRing : List (Nat × EventRec)
  tornF : List Nat
  tornE : List Nat
  deriving DecidableEq, Repr

/-- The snapshot a commit programs (R192), by its region. -/
inductive Snapshot
  | settings (b : SetBody)
  | cal (b : CalBody)
  | warm (b : WarmRec)
  | keep (b : KeepBody)
  deriving DecidableEq, Repr

/-- A commit in progress (R192 to R194): its region, target slot (true B), snapshot, whether it is the second try, and the
first free value it stands for. -/
structure Commit where
  region : Nat
  target : Bool
  snap : Snapshot
  second : Bool
  free : Nat
  deriving DecidableEq, Repr

/-- A firmware image load (R200): declared length, words so far (last first), and its target slot. -/
structure ImgLoad where
  kib : Nat
  words : List Word
  count : Nat
  deriving DecidableEq, Repr

/-- W9's RAM state (R190 to R204, R206): boot outcome, slot use and wear per region (index r − 2), pending regions
oldest first with those whose spacing is lifted, the milliseconds until each region 2 to 8 may be written again (R196,
R204), THROTTLED and LOST (bit r), the running commit, the pre-erase, the image load, the ring records waiting, oldest
first, and the commands issued last on the NVS bus (R184). -/
structure Nvs where
  ready : Bool
  rescue : Bool
  fallback : Bool
  partOk : Bool
  bootBad : Bool
  factoryBad : Bool
  inUse : List Bool
  defaults : List Bool
  wear : List (Nat × Nat)
  pend : List Nat
  lifted : List Nat
  spacing : List Nat
  throttled : BitVec 9
  lost : BitVec 9
  held : Bool
  commit : Option Commit
  preErase : Option (Nat × Bool)
  failedPend : List Nat
  errRead : BitVec 16
  errWrite : BitVec 16
  img : Option ImgLoad
  imgKib : BitVec 9
  imgCrc : Word
  imgDone : Bool
  imgReject : Bool
  imgReason : BitVec 3
  imgTarget : Bool
  scanF : Bool
  scanE : Bool
  waitF : List FaultRec
  waitE : List EventRec
  dropF : BitVec 16
  dropE : BitVec 16
  dropping : List Bool
  retireFw : Option Bool
  bus : List NvsOp
  deriving DecidableEq, Repr

end Sys2Proof.Machine
end

