-- ==== Sys2Proof/Machine/SlotHdr.lean ====
section
/-! DEFINITION. The settings memory part (08): the layout, the boot block, slot headers, and the commands of the NVS bus. -/

namespace Sys2Proof.Machine

/-! ## Layout (R186) -/

/-- Offset and size of the 14 entries: boot, factory, firmware A and B, settings A and B, calibration A and B, warm A and
B, fault ring, event ring, keep map A and B. -/
def regionTable : List (Nat × Nat) :=
  [(0x000000, 0x1000), (0x001000, 0xF000), (0x010000, 0x70000), (0x080000, 0x70000), (0x0F0000, 0x8000), (0x0F8000, 0x8000),
   (0x100000, 0x4000), (0x104000, 0x4000), (0x108000, 0x8000), (0x110000, 0x8000), (0x118000, 0x10000), (0x128000, 0x10000),
   (0x138000, 0x2000), (0x13A000, 0x2000)]

/-- Offset and size of a region, or of its slot A or B. -/
def regionAt (r : Nat) (b : Bool) : Nat × Nat :=
  let i := match r with
    | 0 => 0 | 1 => 1 | 2 => 2 + b.toNat | 3 => 4 + b.toNat | 4 => 6 + b.toNat | 5 => 8 + b.toNat | 7 => 10 | 8 => 11
    | _ => 12 + b.toNat
  nth regionTable i (0, 0)

/-- Neither slot holds anything. -/
def Slots.blank {β : Type} : Slots β := ⟨none, none, false, false⟩

/-! ## Slot headers (R188) -/

/-- "ZSLT". -/
def slotMagic : Word := 0x544C535A

/-- Bytes 0x00 to 0x1B of a header. -/
def SlotHdr.bytes (h : SlotHdr) : List Byte :=
  leBytes 4 h.magic.toNat ++ leBytes 4 h.gen.toNat ++ leBytes 4 h.length.toNat ++ leBytes 2 h.layout.toNat
    ++ [h.region, 0] ++ leBytes 4 h.bodyCrc.toNat ++ leBytes 4 h.erases ++ leBytes 4 h.bind.toNat

/-- A generation is in range. -/
def genOk (g : Nat) : Bool := 1 ≤ g && g ≤ 0xFFFFFFFE

/-- A header that the slot of a region may hold: MAGIC, HDR_CRC, GEN, LENGTH and REGION. -/
def SlotHdr.sound (r : Nat) (h : SlotHdr) : Bool :=
  h.magic == slotMagic && h.region.toNat == r && genOk h.gen.toNat
    && 1 ≤ h.length.toNat && h.length.toNat ≤ (regionAt r false).2 - 32 && h.hdrCrc == crc32c h.bytes

/-- The body matches BODY_CRC. -/
def SlotHdr.bodyOk (h : SlotHdr) : Bool := h.readCrc == h.bodyCrc

/-- A header with its HDR_CRC, over a body that reads back as written. -/
def mkHdr (r gen length erases : Nat) (bind bodyCrc : Word) : SlotHdr :=
  let h : SlotHdr := ⟨slotMagic, BitVec.ofNat 32 gen, BitVec.ofNat 32 length, 1, BitVec.ofNat 8 r, bodyCrc, erases, bind, 0,
    bodyCrc⟩
  { h with hdrCrc := crc32c h.bytes }

/-! ## The boot block (R187) -/

/-- "ZAL8". -/
def bootMagic : Word := 0x384C415A

/-- Bytes 0x000 to 0xFFB of the boot block. -/
def BootBlock.bytes (b : BootBlock) : List Byte :=
  leBytes 4 b.magic.toNat ++ leBytes 2 b.layout.toNat ++ [b.kind, 0] ++ leBytes 4 b.sizeKib.toNat ++ leBytes 4 0
    ++ b.entries.flatMap (fun e => leBytes 4 e.1 ++ leBytes 4 e.2) ++ List.replicate 3964 0

/-- The boot block is valid. -/
def BootBlock.ok (b : BootBlock) : Bool :=
  b.magic == bootMagic && b.layout == 1 && b.entries == regionTable && b.crc == crc32c b.bytes

/-! ## The part (R183, R185) -/

/-- NVS_PART.KIND: 1 a part with SFDP that meets R183; 2 one without SFDP whose boot block is valid and says FRAM; else 0. -/
def Nv.kind (v : Nv) : Nat :=
  match v.sfdp with
  | some p => p.meets.toNat
  | none => if v.boot.ok && v.boot.kind == 1 then 2 else 0

/-- A part without SFDP is used as FRAM: no erase, no wear (R192, R197). -/
def Nv.fram (v : Nv) : Bool := v.sfdp.isNone

/-- The factory slot is valid (R188, R191). -/
def Nv.factoryOk (v : Nv) : Bool := v.factoryHdr.sound 1 && v.factoryHdr.layout == 1 && v.factoryHdr.bodyOk

/-! ## The NVS bus (R184) -/

/-- The bytes that open a command: opcode, and 3 address bytes, highest first. -/
def NvsOp.bytes (v : Nv) : NvsOp → List Byte
  | .reset => [0x66, 0x99]
  | .jedec => [0x9F]
  | .sfdp => [0x5A, 0, 0, 0]
  | .read a _ => 0x03 :: (leBytes 3 a).reverse
  | .quad a _ => ((v.sfdp.bind Sfdp.quad).getD 0) :: (leBytes 3 a).reverse
  | .writeEnable => [0x06]
  | .program a _ => 0x02 :: (leBytes 3 a).reverse
  | .erase a => ((v.sfdp.map Sfdp.erase).getD 0) :: (leBytes 3 a).reverse
  | .poll => [0x05]

/-- A command stays below 0x13C000. -/
def NvsOp.inSpace : NvsOp → Bool
  | .read a n | .quad a n | .program a n => a + n ≤ 0x13C000
  | .erase a => a + 4096 ≤ 0x13C000
  | _ => true

/-- A read of the part: the quad read where SFDP names one. -/
def nvsRead (v : Nv) (a n : Nat) : NvsOp := if (v.sfdp.bind Sfdp.quad).isSome then .quad a n else .read a n

/-- Programs of `n` bytes from an address, page by page. -/
def nvsPages (a n : Nat) : List NvsOp :=
  (List.range ((a + n + 255) / 256 - a / 256)).flatMap (fun i =>
    let lo := max a ((a / 256 + i) * 256)
    let hi := min (a + n) ((a / 256 + i + 1) * 256)
    [.writeEnable, .program lo (hi - lo), .poll])

/-- The erase of a slot, sector by sector; FRAM has none. -/
def nvsErase (v : Nv) (r : Nat) (b : Bool) : List NvsOp :=
  if v.fram then [] else
  let p := regionAt r b
  (List.range (p.2 / 4096)).flatMap (fun i => [.writeEnable, .erase (p.1 + 4096 * i), .poll])

end Sys2Proof.Machine
end

