-- ==== Sys2Proof/Machine/StatePort.lean ====
section
/-! DEFINITION. State of the two-wire ports (13), the console (14, 15), the transfer pool (17) and the Warren (16). -/

namespace Sys2Proof.Machine

/-- A pending A1 READ (R297, R298): its ring, whether the fill is done, the GAP bit, and the records as bytes with
the sequence of the first and their number. -/
structure TwbRead where
  ring : Ring
  filled : Bool
  gap : Bool
  more : Bool
  first : Nat
  recs : List (List Byte)
  deriving DecidableEq, Repr

/-- A controller transfer (R303 to R305): a Host Notify (source and count) or a poll entry, and the attempts made. -/
inductive TwbJob
  | notify (src count : Byte)
  | poll (k : Fin 4)
  deriving DecidableEq, Repr

/-- One two-wire port (R289 to R309): configuration, pointer, read length, the access executing (true: proxied) and
the staged write, the A1 cursors and READ, the controller transfer and its tries, counters, the bytes of its last
answer, and the tunnel characters sent but not yet delivered. -/
structure TwbPort where
  cfg : Word
  pointer : Addr
  readLen : Nat
  busy : Bool
  exec : Option (Addr × Word)
  staged : Option (Addr × Word)
  curF : Nat
  curE : Nat
  read : Option TwbRead
  job : Option TwbJob
  tries : Nat
  errPec : BitVec 16
  errDiscard : BitVec 16
  tmout : BitVec 16
  arbLost : BitVec 16
  busyCount : BitVec 16
  sent : List Byte
  deriving DecidableEq, Repr

/-- A port as reset leaves it. -/
def TwbPort.fresh : TwbPort :=
  { cfg := 0xA, pointer := 0, readLen := 4, busy := false, exec := none, staged := none, curF := 0, curE := 0,
    read := none, job := none, tries := 0, errPec := 0, errDiscard := 0, tmout := 0, arbLost := 0, busyCount := 0,
    sent := [] }

/-- One poll entry (R306): its register and its data register. -/
structure PollSt where
  cfg : Word
  data : BitVec 16
  valid : Bool
  fail : Bool
  ageMs : Nat
  deriving DecidableEq, Repr

/-- The two-wire block: both ports, TWB_A3, polls, TWB_HOST_HN and the alert classes of the host port (R301, R302);
`a1Pend` is that the A1 class is pending, and `due` the polls that wait for the transfer in hand (R306), oldest first. -/
structure Twb where
  host : TwbPort
  loc : TwbPort
  a3 : Word
  polls : List PollSt
  due : List (Fin 4)
  hnSent : BitVec 16
  hnAband : BitVec 16
  a1Pend : Bool
  deriving DecidableEq, Repr

/-- What a final line, once sent in full, brings about (R313, R318, R340). -/
inductive Ending | toTyped | toMachine | lock | baud (code : BitVec 4) | mrst | crst (bits : Word)
  deriving DecidableEq, Repr

/-- One console session (R311): mode, line buffer (with `tooLong` for R315), a CR just received, unlock, output
waiting to be sent, response lines not yet in the output buffer, asynchronous backlog, lines lost since the last
`!lost`, and the last machine request with its final line. `ending` is what the final line still to be sent brings
about. -/
structure SessSt where
  machine : Bool
  line : Text
  tooLong : Bool
  afterCr : Bool
  unlocked : Bool
  out : Text
  resp : List Text
  backlog : List Text
  lost : Nat
  lastNn : Option (BitVec 8)
  lastFinal : Text
  ending : Option Ending
  deriving DecidableEq, Repr

/-- A session as reset leaves it. -/
def SessSt.fresh : SessSt := ⟨false, [], false, false, false, [], [], [], 0, none, [], none⟩

/-- What an executing command waits for (R324, R339, R342, R343, R346): SETTLED; the units still calibrating, and the
lines of those that are through; the ADC; the regions still to be committed, the lines of those that are, and the first
refusal. -/
inductive Wait
  | settled
  | cal (vref : Bool) (units : List Nat) (got : List Text)
  | adc
  | commits (regions : List Nat) (got : List Text) (err : Option Text)
  deriving DecidableEq, Repr

/-- The command in hand: its request, what it waits for, and the milliseconds left of its bound (R350). -/
structure ExecSt where
  req : Req
  wait : Wait
  left : Nat
  deriving DecidableEq, Repr

/-- The console (R310 to R332): sessions, waiting lines (oldest first, at most 4; the nn of a machine-mode line is taken
off it), the command in hand, the UART's
rate, break and revert (`revertTo`), wrong codes in a row and the lockout, and its counters. -/
structure Con where
  cfg : Word
  uart : SessSt
  host : SessSt
  loc : SessSt
  queue : List (Req × Text)
  exec : Option ExecSt
  rate : BitVec 4
  breakRate : Bool
  revertTo : Option (BitVec 4)
  wrong : Nat
  lockout : Bool
  dropped : BitVec 16
  reported : BitVec 16
  errCrc : BitVec 16
  errBusy : BitVec 16
  denied : BitVec 16
  granted : BitVec 16
  deriving DecidableEq, Repr

/-- The transfer pool (R373 to R375, R380): buffers held by W9, the other cores, the ports and the console; the
reserved buffer; HIGH and REFUSED. -/
structure Pool where
  w9 : Nat
  cores : Nat
  host : Nat
  loc : Nat
  con : Nat
  curl : Bool
  high : BitVec 5
  refused : BitVec 16
  deriving DecidableEq, Repr

/-- States of a core (WRN_CORE.STATE), in the order of their codes. -/
inductive CoreRun | off | running | select | sendStall | zlbStall | stopped | held
  deriving DecidableEq, Repr

/-- One Warren core (R351 to R361): its state, Round pointer, the SELECT in force, the tuple a blocking send stalls
on, SELECT_RESULT, SEND_RESULT, its counters, SEND_W0 to SEND_W3, and its private memories (R351): the bytes of IMEM from
address 0, and DMEM as address and byte pairs, zero where none is listed. -/
structure Core where
  st : CoreRun
  rp : BitVec 3
  selMask : BitVec 8
  selRound : Bool
  selTmo : BitVec 24
  selResult : BitVec 4
  sendOk : Bool
  stall : Option (Nat × List Word)
  sstall : Word
  swait : Word
  sendW : List Word
  imem : List Byte
  dmem : List Host.Cell
  deriving DecidableEq, Repr

/-- A core that is off. -/
def Core.fresh : Core := ⟨.off, 0, 0, false, 0, 0, false, none, 0, 0, [0, 0, 0, 0], [], []⟩

/-- One message channel (R353, R359): its tuples, head first, and its counters. -/
structure Chan where
  q : List (List Word)
  count : Word
  stall : Word
  high : BitVec 5
  tryfail : BitVec 16
  deriving DecidableEq, Repr

/-- An empty channel. -/
def Chan.fresh : Chan := ⟨[], 0, 0, 0, 0⟩

/-- The Warren (R351 to R371): cores, channels, routes, ROUTE_LOCK, WRN_ALIVE, WRN_FAULT (held in PD0), the running
image, the user scratch words, CYCLE, and a watchdog that a core fault has forced to expire (R365). -/
structure Wrn where
  cores : List Core
  chans : List Chan
  routes : List Word
  locked : Bool
  alive : BitVec 12
  fault : Word
  version : BitVec 16
  coreMask : BitVec 12
  routeCrc : Word
  scratch : List Word
  cycle : Word
  wdogForced : Bool
  deriving DecidableEq, Repr

end Sys2Proof.Machine
end

