-- ==== Sys2Proof/Machine/StateReset.lean ====
section
/-! DEFINITION. The reset value of each block, from the Reset columns of its register tables (R12, R400) and the
Reset rows of R72. What the manual gives no value for carries its log entry. -/

namespace Sys2Proof.Machine

/-- The reference module (log entry 2, DESIGN CHOICE: unsafe): a ZX8-H with ten buffers and a ZX8-P. -/
def Module.ref : Module := ⟨true, true, true, 0x0A3800005A380001, 8, 9, 256, (List.range 10).map (BitVec.ofNat 4)⟩

/-- The straps of the reference module (log entry 2): HSA 0, both write protects released, NODB low, VBMAX 54 V. -/
def Straps.ref : Straps := ⟨0, false, false, false, 108⟩

/-- Negotiation off (01 'Negotiation states'). -/
def Feat.fresh : Feat := ⟨.off, 0, 0, 0, 0, 30, 0⟩

/-- Clocks after POR release: the root runs, the MPLL does not yet (R57, R58), ZLB_CK is at the keep rate (R60). -/
def Clk.fresh : Clk :=
  { rootOk := true, onBackup := false, noStart := false, mpllLock := false, hckOk := false, hckMhz := 0, hckValid := false,
    zlbKeep := true, cause := 1, mrstPath := 0, mrstWait := false, ktick := 0, life := 0, lifeLoad := true, wall := 0,
    wallSet := false, wallStage := 0 }

/-- Fault unit registers at reset (R274): FLT_CFG0 to FLT_CFG5, FLT_PACK, nothing counted. -/
def Flt.fresh : Flt :=
  { cfg := [0x071005A0, 0x0B1005A0, 0x0B1005A0, 0x031005A0, 0x031005A0, 0x031005A0], res := [], saturated := false,
    restored := false, repairs := List.replicate 32 Repair.none, nextAge := 0, lastFail := 0, busyA := none,
    busyB := none, cutEntry := none, pack := 0x03214018, test := ⟨false, false, 0, 0, 0, 0⟩ }

/-- Event unit at reset (R288). -/
def Evt.fresh : Evt := ⟨List.replicate 64 EvtSrc.fresh, [], 0, false⟩

/-- Host side at POR: HST_ALERT_W 16, nothing latched; RESET_n and YRST_n low (R72). -/
def HostSt.fresh : HostSt :=
  { lat := false, latActive := false, latLoad := false, parEn := false, parStop := false, alertW := 16, cause := 0,
    merged := false, ainc := false, cfgA := 0, cfgB := 0, resetHigh := false, yrst := false, yrstMs := 0,
    caBlock := false, pd3Fault := false, pd5Fault := false, pulse := none, waitPar := false, waitCrc := false,
    resume := none, reports := [] }

/-- A mode-register shadow at reset: log entry 4 (the manual gives none: BL16, RL 22, WL 20, no CRC, PRESUMED the
JESD79-5 defaults). -/
def MrShadow.fresh : MrShadow := ⟨0, 22, 20, false, false⟩

/-- A subchannel at reset: NOT_READY (the Reset of DRM_STATE_x.OWNER), no rank known. Nothing is sampled before PD3 is
on. -/
def SubSt.fresh : SubSt :=
  { owner := .notReady, ranks := List.replicate 4 .absent, shadow := List.replicate 4 MrShadow.fresh, grant := none,
    win := Win.fresh, drive := none, gen := [], hostDq := none, parCount := 0, dropCount := 0, yalertCount := 0, ecs := [],
    ecsBase := false }

/-- The ZLB controller at reset, its targets silent until their supply is on. -/
def Zlb.fresh : Zlb :=
  { targets := List.replicate 11 ZTarget.fresh, out := [], waiting := [], high := 0, retry := 0, fail := 0, stall := 0, present := 0,
    unreach := 0, peer := 0, lastCrc := List.replicate 10 none, hotSeen := 0, tempMax := 0,
    tempDb := 0, crcA := 0, crcB := 0, dbcA := 0, dbcB := 0 }

/-- The ZLB at POR: a fitted ZX8-P, which runs from PD0, answers. -/
def Zlb.por (zxp : Bool) : Zlb :=
  { Zlb.fresh with targets := List.replicate 10 ZTarget.fresh ++ [{ ZTarget.fresh with alive := zxp }] }

/-- Training at reset (R162): TRM_REC_CFG 0x00030428, TRM_MAINT_CFG 20. -/
def Train.fresh : Train :=
  { a := TrainSub.fresh, b := TrainSub.fresh, path := 0, coldCause := 0, pairs := 0, unverified := false,
    trainedRate := 0, recCfg := 0x00030428, maintCfg := 20, recValid := false, recPending := false, recSource := 0, recInvalid := false, drifted := false,
    stored := none, storedSlot := false, storedGen := 0, finger := 0, hpub := false, hfp := 0, blob := [],
    blobLen := 0, devMs := 0, dbGens := List.replicate 10 [], dbRefs := List.replicate 10 [] }

/-- A calibration body with nothing stored (R173). -/
def CalBody.fresh : CalBody :=
  { count := 0, reject := 0, abandon := 0, last := 0, lastLife := 0, lastUtc := 0,
    units := List.replicate 11 CalUnit.fresh, adc := [0, 0, 0, 0], adcRef := 0, adcLife := 0, adcValid := false }

/-- Calibration at reset (R182): CAL_CFG 0x000A003C. -/
def Cal.fresh : Cal :=
  { cfg := 0x000A003C, body := CalBody.fresh, runs := List.replicate 12 none, swaps := [], adcMv := 0,
    adcLatched := 0, adcReject := false, adcReason := 0, adcRun := AdcRun.fresh, pending := false, defer := [],
    temps := List.replicate 11 0 }

/-- Live trim at reset (R182): TRM_TRIM_CFG 0x08105004, TRM_TRIM_LIM 0x06100608. -/
def Trim.fresh : Trim :=
  { cfg := 0x08105004, lim := 0x06100608, applied := 0, refused := 0, lossCrc := 0, lossOver := 0, limit := 0,
    last := [], slot := 0, frame := 0, acc := [], modes := [], queues := List.replicate 12 [],
    placed := List.replicate 12 none, recentre := [] }

/-- The keep-alive island at POR release (R207, R233): KEEP_ONLY, NORMAL, PD0 on, no image. -/
def Pow.fresh (st : Straps) : Pow :=
  { dom := .keepOnly, keep := .normal, on := 1, pd2Down := false, hostPg := false, pfailLow := true, svc := false,
    image := false, copy := false, lockCopy := false, lastEnd := 0, usedMs := 0, span := 300, reserve := 600,
    cuts := 0, curl := ⟨0, 0, 0, false, false, false⟩, kdeep := false, faults := 0, energyJ := 0, energyX := none,
    reserveHit := false, cSrc := false, cutOpen := false, latched := [], lost := 0,
    failedBoots := [0, 0], straps := st }

/-- The ZX8-P at its POR (R210, R213, R402): every comparator in the state that permits no action, VTARGET = VMAX,
ICHG 0.5 A, EN 1; with a faulty VBMAX resistor CHG_FAULT is set. -/
def Zxp.fresh (st : Straps) : Zxp :=
  { plant := false, plantOv := false, plantRev := false, convOn := false, convCurrent := false, orHost := false,
    chg := 0, chgPlant := false, chgFaulted := st.vmax == 0, thermal := false, bankArm := false, above20 := false,
    above16 := false, vmax := st.vmax, cMeas := 0, measValid := false, fault := if st.vmax == 0 then 4 else 0,
    chgCfg := 0x00010A00 + st.vmax.setWidth 32, limits := 0x00000A14, pack := 0x000000C8, range := 0x41545044,
    aclk := 8, chans := List.replicate 16 AdcCh.fresh, slot := 0, frame := 0, settleLeft := 0,
    corr := [0, 0, 0, 0], held := none }

/-- The Hoard unit at POR. NAND areas are what the NAND holds (log entry 3). -/
def Hrd.fresh : Hrd :=
  { st := .idle, luns := 0, ppbLog2 := 0, areaBlocks := 0, areaA := Area.clean, areaB := Area.clean,
    lend := false, extents := List.replicate 16 ⟨0, 0⟩, factoryBad := [], retired := [],
    retiredNow := [], curs := [], prog := none, unitAt := none, pages := 0, saveMs := 0, provedA := false, provedB := false, wmarkA := 0, wmarkB := 0, corrected := 0,
    uncorrectable := 0, uncorr := none, lastTime := 0, lastOutcome := 0, lastNotClean := false, readyHeldA := false,
    readyHeldB := false, markerOwed := false }

/-- The route table of firmware major version 3 for issue B (R370, R367). -/
def routesIssueB : List Word :=
  [0x80007010, 0x80007020, 0x80007030, 0x80007040, 0x80007050, 0x80007060, 0x80007070, 0x80007080, 0x80007090,
    0x800070A0, 0x80005113, 0x80005123, 0x80005193, 0x80006146, 0x80006157, 0x80002164, 0x80002175, 0x8000624A,
    0x8000625A, 0x800021A4, 0x800022A5, 0x80005294, 0x80005395, 0x80005496, 0x80005597, 0x80005698, 0x8000579A]
  ++ List.replicate 33 0 ++ [0x800030B0, 0, 0x8000471B, 0x8000473B]

/-- The settings memory of the reference module (log entry 3, DESIGN CHOICE: unsafe): a NOR part as production leaves
it, firmware and an empty keep-region map in slot A, no other slot written, rings empty; 4-high stacks of 32 Gb dies on four ranks; the service
code 7K3Q9MWX. -/
def Nv.ref : Nv :=
  { sfdp := some { meets := true, quad := some 0x6B, erase := 0x20 }, jedec := 0x18BA20, density := 3,
    boot := { magic := bootMagic, layout := 1, kind := 0, sizeKib := 16384, entries := regionTable,
              crc := 0x6DA7DB31 },
    factoryHdr := mkHdr 1 1 61408 0 0 0,
    factory := { cfgA := 0xAF, cfgB := 0xAF, outTaps := List.replicate 144 64, service := 0x1F888839, order := "ZX8-H".toList,
                 cal := List.replicate 11 CalUnit.fresh, adc := [0, 0, 0, 0] },
    fw := { a := some { hdr := mkHdr 2 1 457728 1 0 0,
                        body := { part := 0x0A38, issues := 4, build := 0, minor := 0, major := 3, version := 1,
                                  cores := 0xFFF, routes := routesIssueB, sound := true,
                                  sections := List.replicate 12 [0, 0, 0, 0] } },
            b := none, rawA := false, rawB := false },
    settings := Slots.blank, cal := Slots.blank, warm := Slots.blank,
    keep := { a := some { hdr := mkHdr 6 1 8160 1 0 0, body := ⟨List.replicate 16 ⟨0, 0⟩, [], []⟩ },
              b := none, rawA := false, rawB := false }, faultRing := [], eventRing := [], tornF := [], tornE := [] }

/-- W9's state before the boot read (R206). -/
def Nvs.fresh : Nvs :=
  { ready := false, rescue := false, fallback := false, partOk := false, bootBad := false, factoryBad := false,
    inUse := List.replicate 5 false, defaults := List.replicate 5 false, wear := List.replicate 5 (0, 0), pend := [],
    lifted := [], spacing := List.replicate 7 0, throttled := 0, lost := 0, held := false, commit := none, preErase := none, failedPend := [],
    errRead := 0, errWrite := 0, img := none, imgKib := 0, imgCrc := 0, imgDone := false, imgReject := false,
    imgReason := 0, imgTarget := false, scanF := false, scanE := false, waitF := [], waitE := [], dropF := 0,
    dropE := 0, dropping := [false, false], retireFw := none, bus := [] }

/-- Two-wire ports at reset (R309). -/
def Twb.fresh : Twb :=
  { host := TwbPort.fresh, loc := TwbPort.fresh, a3 := 0x0000FE00,
    polls := List.replicate 4 ⟨0x06400000, 0, false, false, 0⟩, due := [], hnSent := 0, hnAband := 0, a1Pend := false }

/-- The console at reset (R332): CON_CFG 0x00071E04, 115,200 baud. -/
def Con.fresh : Con :=
  { cfg := 0x00071E04, uart := SessSt.fresh, host := SessSt.fresh, loc := SessSt.fresh, queue := [], exec := none,
    rate := 4, breakRate := false, revertTo := none, wrong := 0, lockout := false, dropped := 0, reported := 0,
    errCrc := 0, errBusy := 0, denied := 0, granted := 0 }

/-- An empty transfer pool. -/
def Pool.fresh : Pool := ⟨0, 0, 0, 0, 0, false, 0, 0⟩

/-- The Warren with every core off and nothing loaded. -/
def Wrn.fresh : Wrn :=
  { cores := List.replicate 12 Core.fresh, chans := List.replicate 64 Chan.fresh, routes := List.replicate 64 0,
    locked := false, alive := 0, fault := 0, version := 0, coreMask := 0, routeCrc := 0,
    scratch := List.replicate 8 0, cycle := 0, wdogForced := false }

end Sys2Proof.Machine
end

