-- ==== Sys2Proof/Machine/State.lean ====
section
/-! DEFINITION. The state of the ZX8 set: every block, and the queue of the commands that are waiting. -/

namespace Sys2Proof.Machine

/-- The machine. Each field is one block; `pending` is the queue of commands, first in first out, and `free` the
model's own counter of free values taken (log entry 8). -/
structure State where
  pending : List Instr
  free : Nat
  modl : Module
  nv : Nv
  pow : Pow
  clk : Clk
  feat : Feat
  host : HostSt
  subA : SubSt
  subB : SubSt
  dbs : List Db
  zlb : Zlb
  train : Train
  cal : Cal
  trim : Trim
  zxp : Zxp
  hrd : Hrd
  nvs : Nvs
  flt : Flt
  evt : Evt
  twb : Twb
  con : Con
  pool : Pool
  wrn : Wrn
  sels : List PathSel
  deriving DecidableEq, Repr

/-- The block has no fault of its own: a disallowed access is ignored (R5) and every fault of chapters 3 to 17 is a
register bit, an event, a counter or a reset, which a command writes into the state. Nothing raises a fault. -/
inductive Fault
  deriving DecidableEq, Repr

/-- Why a command is refused. -/
inductive Refusal
  /-- The command has no meaning yet. Raised by the arm of exec that names it; safe, since the machine stops. -/
  | notModelled (mnemonic : String)
  deriving DecidableEq, Repr

/-- The machine right after reset: POR has been released on the reference module (R78, log entries 1 to 4), the
keep-alive island is in KEEP_ONLY, PD2 is off, nothing is pending. -/
def State.reset : State :=
  { pending := [], free := 0, modl := Module.ref, nv := Nv.ref, pow := Pow.fresh Straps.ref, clk := Clk.fresh,
    feat := Feat.fresh, host := HostSt.fresh, subA := SubSt.fresh, subB := SubSt.fresh,
    dbs := List.replicate 10 Db.fresh, zlb := Zlb.por true, train := Train.fresh, cal := Cal.fresh, trim := Trim.fresh,
    zxp := Zxp.fresh Straps.ref, hrd := Hrd.fresh, nvs := Nvs.fresh, flt := Flt.fresh, evt := Evt.fresh,
    twb := Twb.fresh, con := Con.fresh, pool := Pool.fresh, wrn := Wrn.fresh,
    sels := List.replicate 6 PathSel.fresh }

end Sys2Proof.Machine
end

