-- ==== Sys2Proof/Machine/Operands.lean ====
section
/-! DEFINITION. Register accesses: the fields of a register, how a write is judged (R5 to R7, R11, R403), and the
paths with their selectors (R8). -/

namespace Sys2Proof.Machine

/-- Access codes (00 'Access codes'). -/
inductive Access | rw | ro | wo | w1c | rwl
  deriving DecidableEq, Repr

/-- One field of a register: its bits, access code, whether it is Kept, and its stated range. -/
structure Fld where
  hi : Nat
  lo : Nat
  acc : Access
  kept : Bool
  ok : Nat → Bool

/-- A field of access code `a` with every value in range. -/
def Fld.any (a : Access) (hi lo : Nat) : Fld := ⟨hi, lo, a, false, fun _ => true⟩
/-- A Kept RW field with a range. -/
def Fld.kept' (hi lo : Nat) (ok : Nat → Bool) : Fld := ⟨hi, lo, .rw, true, ok⟩
/-- A Kept RW field with every value in range. -/
def Fld.keptAny (hi lo : Nat) : Fld := ⟨hi, lo, .rw, true, fun _ => true⟩
/-- An RW field with a range. -/
def Fld.rng (hi lo : Nat) (ok : Nat → Bool) : Fld := ⟨hi, lo, .rw, false, ok⟩
/-- An RO field. -/
def Fld.ro (hi lo : Nat) : Fld := Fld.any .ro hi lo

/-- The two counters of a counter register (R108): only zero may be written. -/
def Fld.counters : List Fld := [Fld.rng 15 0 (· == 0), Fld.rng 31 16 (· == 0)]

/-- The mask of the bits of a field. -/
def Fld.mask (f : Fld) : Nat := (2 ^ (f.hi - f.lo + 1) - 1) * 2 ^ f.lo

/-- Whether a field can be written at all. -/
def Fld.writable (f : Fld) : Bool := f.acc != .ro

/-- A present register as one path finds it: its fields, the value it reads, what a read does besides, what a write
of a judged value does, whether the lock that governs its RWL fields has passed, the range of the whole value where
fields are judged together, and what the sending of a value leaves behind whether or not it is allowed (R129). -/
structure RegDef where
  flds : List Fld
  read : Word
  write : Word → State → State
  locked : Bool := false
  whole : Nat → Bool := fun _ => true
  onRead : State → State := id
  sent : Word → State → State := fun _ s => s

/-- A register whose every field is RO. -/
def RegDef.ro (r : Word) : RegDef := { flds := [Fld.ro 31 0], read := r, write := fun _ s => s }

/-- Bits that belong to no field are reserved (R11). -/
def RegDef.fieldMask (d : RegDef) : Nat := d.flds.foldl (fun m f => m ||| f.mask) 0

/-- The Kept bits of a register (R189). -/
def RegDef.keptMask (d : RegDef) : Nat := d.flds.foldl (fun m f => if f.kept then m ||| f.mask else m) 0

/-- A write is allowed when some field takes a write, no one falls on a reserved bit, every writable field's value
is in its range, and no RWL field's lock has passed (R6, R7). The value given for an RO field is not judged
(R403). -/
def RegDef.allows (d : RegDef) (v : Word) : Bool :=
  d.flds.any Fld.writable
    && (v.toNat ||| d.fieldMask) == d.fieldMask
    && d.flds.all (fun f => !f.writable || f.ok (fld v f.hi f.lo))
    && (!d.locked || !d.flds.any (fun f => f.acc == .rwl))
    && d.whole v.toNat

/-- The value written with the bits of RO fields taken from what the register reads. -/
def RegDef.merge (d : RegDef) (v : Word) : Word :=
  let rom := d.flds.foldl (fun m f => if f.writable then m else m ||| f.mask) 0
  BitVec.ofNat 32 ((v.toNat &&& (0xFFFFFFFF ^^^ rom)) ||| (d.read.toNat &&& rom))

/-! ## Paths -/

/-- The index of a path. -/
def pathIdx : Path → Nat
  | .warren => 0 | .hubA => 1 | .hubB => 2 | .hostTwb => 3 | .localTwb => 4 | .console => 5

/-- How FEAT_STATUS.BY and CLK_RST_CAUSE.MRST_PATH code a path (R35). -/
def pathCode : Path → BitVec 3
  | .warren => 7 | .hubA => 1 | .hubB => 2 | .hostTwb => 3 | .localTwb => 4 | .console => 5

/-- The window path of a subchannel. -/
def subPath : Sub → Path
  | .a => .hubA | .b => .hubB

/-- The two-wire path of a port. -/
def portPath : Port → Path
  | .host => .hostTwb | .loc => .localTwb

/-- The selectors of a path. -/
def State.sel (s : State) (p : Path) : PathSel := nth s.sels (pathIdx p) PathSel.fresh

/-- Changes the selectors of a path. -/
def State.setSel (s : State) (p : Path) (f : PathSel → PathSel) : State := { s with sels := upd s.sels (pathIdx p) f }

end Sys2Proof.Machine
end

