-- ==== Sys2Proof/Machine/Pool.lean ====
section
/-! DEFINITION. The transfer pool (17): 16 buffers, one reserved for Curl, its holders and DBG_POOL. -/

namespace Sys2Proof.Machine

/-- Who claims a buffer (R373). -/
inductive Holder | w9 | core | host | loc | con
  deriving DecidableEq, Repr

/-- Buffers held, the reserved one left out. -/
def Pool.used (p : Pool) : Nat := p.w9 + p.cores + p.host + p.loc + p.con

/-- DBG_POOL.IN_USE. -/
def Pool.inUse (p : Pool) : Nat := p.used + p.curl.toNat

/-- What a holder has. -/
def Pool.held (p : Pool) : Holder → Nat
  | .w9 => p.w9 | .core => p.cores | .host => p.host | .loc => p.loc | .con => p.con

/-- The most a holder may have (R373). -/
def holderMax : Holder → Nat
  | .w9 => 4 | .core => 7 | .host => 2 | .loc => 2 | .con => 1

/-- A holder has another number of buffers; HIGH follows. -/
def Pool.setHeld (p : Pool) (h : Holder) (n : Nat) : Pool :=
  let p := match h with
    | .w9 => { p with w9 := n } | .core => { p with cores := n } | .host => { p with host := n }
    | .loc => { p with loc := n } | .con => { p with con := n }
  { p with high := BitVec.ofNat 5 (max p.high.toNat p.inUse) }

/-- A claim: granted while one of the 15 unreserved buffers is free and the holder is below its maximum; refused and
counted otherwise (R374). The second part says whether it was granted. -/
def Pool.claim (p : Pool) (h : Holder) : Pool × Bool :=
  if p.used < 15 && p.held h < holderMax h then (p.setHeld h (p.held h + 1), true)
  else ({ p with refused := satAdd p.refused 1 }, false)

/-- A buffer goes back. -/
def Pool.free (p : Pool) (h : Holder) : Pool := p.setHeld h (p.held h - 1)

/-- A buffer claimed and freed again inside one step (log entry 10): HIGH has seen it, or the refusal is counted. -/
def Pool.brief (p : Pool) (h : Holder) : Pool :=
  let c := p.claim h
  if c.2 then c.1.free h else c.1

/-- The reserved buffer: for a commit in flight at PFAIL or MRST that has no unreserved one (R375). -/
def Pool.reserve (p : Pool) : Pool := if p.used < 15 then p else
  { p with curl := true, high := BitVec.ofNat 5 (max p.high.toNat (p.used + 1)) }

/-- DBG_POOL (R380). -/
def poolReg (_p : Path) (a : Nat) (s : State) : Option RegDef :=
  if a = 0x3C00 then
    some { flds := [Fld.ro 4 0, Fld.ro 5 5, Fld.rng 12 8 (· == 0), Fld.rng 31 16 (· == 0)], whole := (· == 0),
           read := packWord [(0, s.pool.inUse), (5, s.pool.curl.toNat), (8, s.pool.high.toNat),
             (16, s.pool.refused.toNat)],
           write := fun _ s => { s with pool := { s.pool with high := 0, refused := 0 } } }
  else none

end Sys2Proof.Machine
end

