-- ==== Sys2Proof/Config.lean ====
section
/-! DEFINITION. What the spec leaves open: free values, constants without a body, so that nothing can be proved of
any one of them (log entry 8). -/

namespace Sys2Proof.Config

/-- The `n`-th free value of width `w`: what a host samples where the manual calls it undefined (R20, R99, R102),
and every other value the manual does not give. -/
opaque freeValue (w : Nat) (n : Nat) : BitVec w

/-- Whether the `n`-th computed figure whose rounding the manual does not state is rounded up (log entry 11). -/
opaque roundUp (n : Nat) : Bool

end Sys2Proof.Config
end

