-- ==== Sys2Proof/Machine/Ops.lean ====
section
/-! DEFINITION. Operations that every family shares: free values, what is powered and present, features, events,
fault counts, pending settings, and records for the log rings. -/

namespace Sys2Proof.Machine

/-- The outcome of a command. -/
abbrev Out := Host.Outcome State Fault Refusal

/-! ## Free values (log entry 8) -/

/-- The next free value of width `w`. -/
def State.freeVal (s : State) (w : Nat) : BitVec w := Config.freeValue w s.free

/-- One free value has been taken. -/
def State.took (s : State) : State := { s with free := s.free + 1 }

/-- A figure whose rounding the manual does not state: the quotient rounded down or up (log entry 11). -/
def roundDiv (n : Nat) (a b : Nat) : Nat :=
  if a % b = 0 then a / b else if Config.roundUp n then a / b + 1 else a / b

/-- A signed quotient rounded down or up, the rounding being open (log entry 11). -/
def roundInt (n : Nat) (a : Int) (b : Nat) : Int :=
  if a % b = 0 then a / b else if Config.roundUp n then a / b + 1 else a / b

/-! ## What is up -/

/-- PD2 is on. -/
def State.pd2 (s : State) : Bool := s.pow.on.getLsbD 2
/-- PD3 is on. -/
def State.pd3 (s : State) : Bool := s.pow.on.getLsbD 3
/-- Management is ready: boot has completed since the last POR, MRST or PD2 restart (R78). -/
def State.mgmtReady (s : State) : Bool :=
  s.pd2 && (match s.feat.phase with | .off | .booting => s.nvs.rescue | _ => true)
/-- The cores and the register file run: management ready and WCLK not gated (R58). -/
def State.up (s : State) : Bool := s.mgmtReady && s.clk.mpllLock
/-- The feature set is locked (R30). -/
def State.locked (s : State) : Bool := s.feat.phase == .locked || s.feat.phase == .settled
/-- FEAT_STATUS.SETTLED (R38). -/
def State.settled (s : State) : Bool := s.feat.phase == .settled
/-- FEAT_STATUS.RETAIN_PENDING: the image held, from management ready (R39). -/
def State.retainPending (s : State) : Bool := s.pow.image && s.mgmtReady

/-! ## Features (01 'Feature bits') -/

/-- The feature bits by name. -/
inductive Feature
  | base | hubwin | warmBoot | retain | hoard | liveTrim | pprAuto | hostNotify | conMachine | dbPresent | ranks3ds
  | calAdc | events64 | userCore | faultWindows | settingsWrite
  deriving DecidableEq, Repr

/-- The bit of a feature. -/
def featBit : Feature → Nat
  | .base => 0 | .hubwin => 1 | .warmBoot => 2 | .retain => 3 | .hoard => 4 | .liveTrim => 5 | .pprAuto => 6
  | .hostNotify => 7 | .conMachine => 8 | .dbPresent => 9 | .ranks3ds => 10 | .calAdc => 11 | .events64 => 12
  | .userCore => 13 | .faultWindows => 14 | .settingsWrite => 15

/-- A feature is offered (R27). -/
def State.offers (s : State) (f : Feature) : Bool := s.feat.offer.getLsbD (featBit f)
/-- A feature's registers are present: offered before the lock (R24), active from the lock (R32). -/
def State.regOn (s : State) (f : Feature) : Bool :=
  if s.locked then s.feat.active.getLsbD (featBit f) else s.offers f
/-- A feature's functions run: until SETTLED as before the lock, then while active (R24, R32, R38). R32 leaves the moment
between the lock and SETTLED open at which inactive functions stop and held-back ones start: here both are at SETTLED
(log entry 86, DESIGN CHOICE). -/
def State.fnOn (s : State) (f : Feature) : Bool :=
  if s.settled then s.feat.active.getLsbD (featBit f) else s.offers f
/-- A feature is active and released: what R24 holds back until the lock may run (R32, R38). -/
def State.fnActive (s : State) (f : Feature) : Bool := s.settled && s.feat.active.getLsbD (featBit f)

/-- Persistent writes are blocked (R198): NVS_WP, or SETTINGS_WRITE not active; in rescue mode NVS_WP alone. -/
def State.gated (s : State) : Bool :=
  s.pow.straps.nvsWp || (!s.nvs.rescue && !s.fnActive .settingsWrite)

/-! ## Subchannels -/

/-- One subchannel. -/
def State.sub (s : State) : Sub → SubSt
  | .a => s.subA | .b => s.subB

/-- Changes one subchannel. -/
def State.setSub (s : State) (x : Sub) (f : SubSt → SubSt) : State :=
  match x with
  | .a => { s with subA := f s.subA }
  | .b => { s with subB := f s.subB }

/-- Training of one subchannel. -/
def State.tr (s : State) : Sub → TrainSub
  | .a => s.train.a | .b => s.train.b

/-- Changes the training of one subchannel. -/
def State.setTr (s : State) (x : Sub) (f : TrainSub → TrainSub) : State :=
  match x with
  | .a => { s with train := { s.train with a := f s.train.a } }
  | .b => { s with train := { s.train with b := f s.train.b } }

/-- The number of a subchannel: A 0, B 1. -/
def subNo : Sub → Nat
  | .a => 0 | .b => 1

/-- DRM_CFG_x of a subchannel, bits [7:0] (R108). -/
def State.drmCfg (s : State) : Sub → Byte
  | .a => s.host.cfgA | .b => s.host.cfgB

/-- Rank `k` of a subchannel is fitted (DRM_CFG_x.RANKS). -/
def State.rankFitted (s : State) (x : Sub) (k : Nat) : Bool := k < 4 && (s.drmCfg x).getLsbD k

/-- The stack height of a subchannel: 1, 2 or 4 (DRM_CFG_x.STACK). -/
def State.stack (s : State) (x : Sub) : Nat := 2 ^ ((s.drmCfg x).toNat / 16 % 4)

/-- Rows of a die (R237): 65,536, 98,304 and 131,072 for 16, 24 and 32 Gb. -/
def State.dieRows (s : State) (x : Sub) : Nat :=
  match (s.drmCfg x).toNat / 64 with
  | 0 => 65536 | 1 => 98304 | _ => 131072

/-- The subchannel of a buffer (R111). -/
def dbSub (n : Nat) : Sub := if n < 5 then .a else .b

/-- The buffers of a subchannel. -/
def subDbs : Sub → List Nat
  | .a => [0, 1, 2, 3, 4] | .b => [5, 6, 7, 8, 9]

/-- Buffer `n`. -/
def State.db (s : State) (n : Nat) : Db := nth s.dbs n Db.fresh

/-- Changes buffer `n`. -/
def State.setDb (s : State) (n : Nat) (f : Db → Db) : State := { s with dbs := upd s.dbs n f }

/-- Changes every buffer of a subchannel. -/
def State.setDbs (s : State) (x : Sub) (f : Db → Db) : State :=
  { s with dbs := (subDbs x).foldl (fun l n => upd l n f) s.dbs }

/-- Target `n` of the ZLB. -/
def State.tgt (s : State) (n : Nat) : ZTarget := nth s.zlb.targets n ZTarget.fresh

/-- Changes target `n` of the ZLB. -/
def State.setTgt (s : State) (n : Nat) (f : ZTarget → ZTarget) : State :=
  { s with zlb := { s.zlb with targets := upd s.zlb.targets n f } }

/-! ## Events (12) -/

/-- A ZX8-P is there: one fitted that answered discovery, or did so before it was lost (R21, R132). Until discovery it
counts as there. -/
def State.zxpThere (s : State) : Bool :=
  s.modl.zxpFitted && (!s.mgmtReady || s.nvs.rescue || s.zlb.present.getLsbD 10 || s.zlb.unreach.getLsbD 10)

/-- A source is present (R276, R34): EV48 to EV63 with EVENTS_64, the Hoard sources with HOARD besides, the fault
sources with FAULT_WINDOWS, those of automatic sPPR with PPR_AUTO, EV22 with LIVE_TRIM, EV46 with RETAIN offered (R270),
EV62 with USER_CORE, the ZX8-P's with a ZX8-P, the buffers' with buffers. -/
def State.evtPresent (s : State) (n : Nat) : Bool :=
  (n < 48 || s.fnOn .events64)
    && (!(48 ≤ n && n ≤ 55) || s.fnOn .hoard)
    && (!(n == 40 || n == 41 || n == 44 || n == 45 || n == 46 || n == 47) || s.fnOn .faultWindows)
    && (!(n == 42 || n == 43 || n == 44 || n == 47) || s.fnOn .pprAuto)
    && (!(n == 22) || s.fnOn .liveTrim) && (!(n == 46) || s.offers .retain) && (!(n == 62) || s.fnOn .userCore)
    && (!(n == 25 || n == 26 || n == 31) || s.zxpThere)
    && (!(n == 12 || n == 13 || n == 15) || !s.pow.straps.nodb)

/-- A register of a source is present (R288). -/
def State.evtRegPresent (s : State) (n : Nat) : Bool := n < 48 || (n < 64 && s.regOn .events64)

/-- EVT_SUMMARY.DEFERRING (R279): until SETTLED, arisings go to PEND alone. -/
def State.deferring (s : State) : Bool := !s.settled

/-- A pending arising (R275, R277): PEND adds one, and the first keeps its second and argument. -/
def pendAdd (k : Nat) (life : BitVec 40) (arg : BitVec 24) (x : EvtSrc) : EvtSrc :=
  if x.pend = 0 then { x with pend := satAdd 0 k, stamp := life, parg := arg }
  else { x with pend := satAdd x.pend k }

/-- EVT_SRCn.EN. -/
def EvtSrc.en (x : EvtSrc) : Bool := x.cfg.getLsbD 0

/-- One arising of source `n` in the event unit (R277, R279, R282). -/
def evtArise (deferring : Bool) (life : BitVec 40) (n : Nat) (arg : BitVec 24) (e : Evt) : Evt :=
  let x := nth e.srcs n EvtSrc.fresh
  if !x.en then e else
  let x := { x with total := satAdd x.total 1, arg := arg }
  if deferring then { e with srcs := upd e.srcs n (fun _ => pendAdd 1 life arg x) } else
  let halrt := e.halrt || (!x.status && x.cfg.getLsbD 1)
  let x := { x with status := true }
  if e.queue.length < 32 && x.pend = 0 then
    let q := e.queue ++ [⟨BitVec.ofNat 6 n, 1, life, arg⟩]
    { srcs := upd e.srcs n (fun _ => x), queue := q, high := BitVec.ofNat 6 (max e.high.toNat q.length),
      halrt := halrt }
  else { e with srcs := upd e.srcs n (fun _ => pendAdd 1 life arg x), halrt := halrt }

/-- One source's pending count becomes an entry when the queue has room (R278). -/
def releaseOne (e : Evt) (n : Nat) : Evt :=
  let x := nth e.srcs n EvtSrc.fresh
  if x.pend = 0 || 32 ≤ e.queue.length then e else
  let q := e.queue ++ [⟨BitVec.ofNat 6 n, x.pend, x.stamp, x.parg⟩]
  { e with srcs := upd e.srcs n (fun x => { x with pend := 0 }), queue := q,
           high := BitVec.ofNat 6 (max e.high.toNat q.length) }

/-- Pending counts become entries, in ascending source number (R278). -/
def releasePending (e : Evt) : Evt := (List.range 64).foldl releaseOne e

/-- Some set status bit has EN = 1 and route bit `r` = 1. -/
def routedSet (r : Nat) (e : Evt) : Bool := e.srcs.any (fun x => x.status && x.en && x.cfg.getLsbD r)

/-- HALRT_n is released when no status bit routed to it remains set (R282), whatever asserted it: `e` before the
write, `e'` after it. -/
def settleHalrt (e e' : Evt) : Evt := { e' with halrt := e.halrt && (routedSet 1 e' || !routedSet 1 e) }

/-- An event latched in PD0 (R224): counts of one source join, the first keeps its second and argument. -/
def latchAdd (n : Nat) (life : BitVec 40) (arg : BitVec 24) : List Latch → List Latch
  | [] => [⟨BitVec.ofNat 6 n, 1, life, arg⟩]
  | l :: r => if l.src.toNat = n then { l with count := satAdd l.count 1 } :: r else l :: latchAdd n life arg r

/-- Whether an arising of source `n` is latched in PD0: of EV24 to EV31 while PD2 is off, and from PFAIL to the next
management ready (R224); of the Hoard sources in SAVE (R245). -/
def State.latches (s : State) (n : Nat) : Bool :=
  (24 ≤ n && n ≤ 31 && (!s.pd2 || s.pow.cutOpen))
    || (48 ≤ n && n ≤ 55 && s.pow.keep == .save)

/-- Source `n` arises with an argument (R276, R277, R279, R224). -/
def State.raise (s : State) (n : Nat) (arg : BitVec 24) : State :=
  if s.latches n then { s with pow := { s.pow with latched := latchAdd n s.clk.life arg s.pow.latched } }
  else if s.pd2 && s.evtPresent n then { s with evt := evtArise s.deferring s.clk.life n arg s.evt }
  else s

/-! ## Fault counts (11) -/

/-- The key of a resource in the sparse table. -/
def resKey (cls index : Nat) : Nat := cls * 512 + index

/-- The resource holds this index (R256). -/
def State.resPresent (s : State) (cls index : Nat) : Bool :=
  match cls with
  | 0 => index < 320
          && (let x : Sub := if index < 160 then .a else .b
              s.rankFitted x (index / 40 % 4) && index / 10 % 4 < s.stack x)
  | 1 => index < 20 && !s.pow.straps.nodb
  | 2 => index < 2
  | 3 => (index < 10 && !s.pow.straps.nodb) || (index == 10 && (s.zlb.present.getLsbD 10 || s.zlb.unreach.getLsbD 10))
  | 4 => 1 ≤ index && index ≤ 8
  | 5 => index < 2 && s.offers .retain
  | _ => false

/-- The index a class admits, whatever is fitted (FLT_RES_SEL). -/
def resIndexOk (cls index : Nat) : Bool :=
  match cls with
  | 0 => index < 320 | 1 => index < 20 | 2 => index < 2 | 3 => index < 11 | 4 => 1 ≤ index && index ≤ 8
  | 5 => index < 2 | _ => false

/-- One resource. -/
def State.res (s : State) (cls index : Nat) : Res := sget Res.fresh s.flt.res (resKey cls index)

/-- Changes one resource. -/
def State.setRes (s : State) (cls index : Nat) (r : Res) : State :=
  { s with flt := { s.flt with res := sset Res.fresh s.flt.res (resKey cls index) r } }

/-- `k` faults on a resource: its pending count adds them and saturates at 255 (R260). -/
def State.fault (s : State) (cls index k : Nat) : State :=
  if k = 0 || !s.resPresent cls index || !s.fnOn .faultWindows then s else
  let r := s.res cls index
  let s := if 255 < r.pend.toNat + k then { s with flt := { s.flt with saturated := true } } else s
  s.setRes cls index { r with pend := satAdd r.pend k }

/-! ## Settings to be stored (08) -/

/-- A region becomes pending (R195); later changes coalesce. -/
def State.pendRegion (s : State) (r : Nat) : State :=
  if s.nvs.pend.contains r then s else { s with nvs := { s.nvs with pend := s.nvs.pend ++ [r] } }

/-! ## Log records (R203, R204) -/

/-- A ring drops a record: it is counted, and EV39 is raised once per dropping episode (R204). -/
def State.ringDrop (s : State) (ring : Ring) : State :=
  let i := match ring with | .fault => 0 | .event => 1
  let first := !(nth s.nvs.dropping i false)
  let n := { s.nvs with dropping := s.nvs.dropping.set i true }
  let n := match ring with
    | .fault => { n with dropF := satAdd n.dropF 1 }
    | .event => { n with dropE := satAdd n.dropE 1 }
  let s := { s with nvs := n }
  if first then s.raise 39 (BitVec.ofNat 24 (7 + i)) else s

/-- A core hands data to W9 through a transfer buffer, which W9 copies and frees (R373). -/
def State.handOff (s : State) : State := { s with pool := s.pool.brief .core }

/-- A fault history record is handed to W9, which holds up to 64 (R204, R272). -/
def State.faultRecord (s : State) (r : FaultRec) : State :=
  let s := s.handOff
  if s.nvs.waitF.length < 64 then { s with nvs := { s.nvs with waitF := s.nvs.waitF ++ [r] } }
  else s.ringDrop .fault

/-- An event log record is handed to W9 (R204, R286). -/
def State.eventRecord (s : State) (r : EventRec) : State :=
  let s := s.handOff
  if s.nvs.waitE.length < 64 then { s with nvs := { s.nvs with waitE := s.nvs.waitE ++ [r] } }
  else s.ringDrop .event

end Sys2Proof.Machine
end

