-- ==== Sys2Proof/Machine/Text.lean ====
section
/-! DEFINITION. Console text: numbers, names and the check field of a machine line (14, 15). -/

namespace Sys2Proof.Machine

/-- Text of a string literal. -/
abbrev tx (s : String) : Text := s.toList

/-- A decimal number. -/
def dec (n : Nat) : Text := Nat.toDigits 10 n

/-- A decimal number of at least `w` digits. -/
def decPad (w n : Nat) : Text :=
  let d := dec n
  List.replicate (w - d.length) '0' ++ d

/-- A signed decimal number. -/
def decInt (i : Int) : Text := if i < 0 then '-' :: dec i.natAbs else dec i.natAbs

/-- A signed decimal number that always carries its sign. -/
def decSign (i : Int) : Text := if i < 0 then '-' :: dec i.natAbs else '+' :: dec i.natAbs

/-- A number with `k` decimals, given in units of its last decimal. -/
def decFix (k n : Nat) : Text := dec (n / 10 ^ k) ++ ['.'] ++ decPad k (n % 10 ^ k)

/-- One uppercase hexadecimal digit. -/
def hexDigit (n : Nat) : Char := nth "0123456789ABCDEF".toList (n % 16) '0'

/-- `w` uppercase hexadecimal digits. -/
def hexPad (w n : Nat) : Text := (List.range w).map (fun i => hexDigit (n >>> (4 * (w - 1 - i))))

/-- A register value: 0x and eight digits (R338). -/
def hexWord (w : Word) : Text := tx "0x" ++ hexPad 8 w.toNat

/-- A number of `w` digits with 0x. -/
def hex0 (w n : Nat) : Text := tx "0x" ++ hexPad w n

/-- CR LF. -/
def crlf : Text := ['\r', '\n']

/-- The prompt (R315). -/
def prompt : Text := tx "zx8> "

/-- A character as its byte. -/
def byteOf (c : Char) : Byte := BitVec.ofNat 8 c.toNat

/-- A byte as a character. -/
def charOf (b : Byte) : Char := Char.ofNat b.toNat

/-- A machine-mode output line (R320): one space, '*' and the CRC-16 of what stands before the '*'. -/
def machineLine (t : Text) : Text :=
  let b := t ++ [' ']
  b ++ ['*'] ++ hexPad 4 (crc16 (b.map byteOf)).toNat

/-- Runs of spaces become one space (R338). -/
def oneSpace : Text → Text
  | [] => []
  | ' ' :: ' ' :: r => oneSpace (' ' :: r)
  | c :: r => c :: oneSpace r

/-- Uppercase of a letter. -/
def upChar (c : Char) : Char := if 'a' ≤ c && c ≤ 'z' then Char.ofNat (c.toNat - 32) else c

/-- Words are compared without regard to case (R316). -/
def upper (t : Text) : Text := t.map upChar

/-- The words of a line (R316). -/
def wordsOf (t : Text) : List Text :=
  let step := fun (a : List Text × Text) (c : Char) =>
    if c == ' ' then (if a.2.isEmpty then a else (a.1 ++ [a.2], [])) else (a.1, a.2 ++ [c])
  let r := t.foldl step ([], [])
  if r.2.isEmpty then r.1 else r.1 ++ [r.2]

/-- The value of a hexadecimal digit. -/
def hexVal (c : Char) : Option Nat :=
  let n := c.toNat
  if 48 ≤ n && n ≤ 57 then some (n - 48) else if 65 ≤ n && n ≤ 70 then some (n - 55)
  else if 97 ≤ n && n ≤ 102 then some (n - 87) else none

/-- The number that hexadecimal digits spell. -/
def hexNat (t : Text) : Option Nat :=
  if t.isEmpty then none else t.foldl (fun a c => a.bind fun n => (hexVal c).map (fun d => 16 * n + d)) (some 0)

/-- The number that decimal digits spell. -/
def decNat (t : Text) : Option Nat :=
  if t.isEmpty then none
  else t.foldl (fun a c => a.bind fun n => if '0' ≤ c && c ≤ '9' then some (10 * n + (c.toNat - 48)) else none) (some 0)

/-- An integer argument: decimal, or hexadecimal with 0x (R333). -/
def intArg (t : Text) : Option Nat :=
  match t with
  | '0' :: 'x' :: r => hexNat r
  | '0' :: 'X' :: r => hexNat r
  | _ => decNat t

/-- A decimal argument with at most `k` decimals, in units of the last (R333). -/
def fixArg (k : Nat) (t : Text) : Option Nat :=
  let i := t.takeWhile (· != '.')
  let f := t.drop (i.length + 1)
  if i.length = t.length then (decNat i).map (· * 10 ^ k)
  else if f.isEmpty || k < f.length then none
  else do
    let a ← decNat i
    let b ← decNat f
    return a * 10 ^ k + b * 10 ^ (k - f.length)

/-- The names of the event sources (12 'Event sources'), in source order. -/
def evName (n : Nat) : Text :=
  tx (nth (["PARITY_ERR", "PARITY_STOP", "HOST_RESET", "RESUME_DONE", "CMD_DROPPED", "DRAM_ALERT", "WINDOW_ABORT",
      "HCK_LOST", "WRITE_CRC", "DBC_FRAME_ERR", "ZLB_RETRY", "ZLB_UNREACHABLE", "DB_OVERTEMP", "DB_MISSING",
      "ZLB_RECOVERED", "DB_COOL"]
    ++ ["TRAIN_DONE", "TRAIN_FAIL", "POLKA_FAIL", "CAL_REJECT", "MAINT_WANTED", "CAL_DONE", "TRIM_LIMIT",
      "HSETTLE_DONE", "POWER_CUT", "PLANT_LOST", "PLANT_RETURNED", "CURL_INCOMPLETE", "BANK_LOW",
      "RETAIN_DISCARDED", "DOMAIN_FAULT", "KEEP_PATH_FAULT"]
    ++ ["NVS_READ_CHECK", "NVS_WRITE_FAIL", "NVS_DEFAULTS", "NVS_THROTTLED", "NVS_IMAGE_LOADED",
      "NVS_FW_FALLBACK", "NVS_CHANGES_LOST", "NVS_RING_DROP", "FAULT_LASTING", "FAULT_DEMOTED", "PPR_DONE",
      "PPR_FAIL", "PPR_WANTED", "LANE_RETRAIN", "PACK_TEST", "PPR_REFUSED"]
    ++ ["HOARD_SAVED", "HOARD_SAVE_INCOMPLETE", "HOARD_RESTORED", "HOARD_UNCORRECTABLE", "HOARD_BAD_BLOCK",
      "HOARD_NO_SPACE", "HOARD_LEND_WAIT", "HOARD_DISCARDED", "FEAT_LOCKED", "MGMT_READY", "CLOCK_FAULT",
      "SERVICE_UNLOCK", "CON_LOST", "TWB_TIMEOUT", "USER_FAULT", "USER_EVENT"]) n "")

end Sys2Proof.Machine
end

