-- ==== Sys2Proof/Machine/ConOps.lean ====
section
/-! DEFINITION. The sessions of the console: output, asynchronous lines, unlock and reset (14). The output buffer
takes lines whole; what it cannot take waits, and holds the interpreter (R325). -/

namespace Sys2Proof.Machine

/-- One session. -/
def State.ses (s : State) : Sess → SessSt
  | .uart => s.con.uart | .host => s.con.host | .loc => s.con.loc

/-- Changes one session. -/
def State.setSes (s : State) (x : Sess) (f : SessSt → SessSt) : State :=
  match x with
  | .uart => { s with con := { s.con with uart := f s.con.uart } }
  | .host => { s with con := { s.con with host := f s.con.host } }
  | .loc => { s with con := { s.con with loc := f s.con.loc } }

/-- The code of a session (R310). -/
def sessCode : Sess → Nat
  | .uart => 1 | .host => 2 | .loc => 3

/-- The output buffer of a session (R311). -/
def outCap : Sess → Nat
  | .uart => 2048 | _ => 1024

/-- The console answers only while management is ready (R311). -/
def State.conOn (s : State) : Bool := s.up

/-- Lines go into the output buffer while they fit. -/
def fillOut (cap : Nat) (out : Text) : List Text → Text × List Text
  | [] => (out, [])
  | l :: r => if out.length + l.length ≤ cap then fillOut cap (out ++ l) r else (out, l :: r)

/-- An output line as the session's mode sends it (R317, R320). -/
def lineText (t : SessSt) (l : Text) : Text := (if t.machine then machineLine l else l) ++ crlf

/-- What stands before and after output that comes while a line is being typed (R317). -/
def breakIn (t : SessSt) : Text := if t.machine || t.line.isEmpty then [] else crlf
/-- The prompt and the half-typed line again (R315, R317). -/
def reprompt (t : SessSt) : Text := if t.machine then [] else prompt ++ t.line

/-- The command in hand belongs to this session. -/
def State.executes (s : State) (x : Sess) : Bool :=
  match s.con.exec with
  | some e => e.req.sess == x
  | none => false

/-- A waiting `!lost` line (R326). -/
def State.sendLost (s : State) (x : Sess) : State :=
  let t := s.ses x
  if t.lost = 0 then s else
  let l := breakIn t ++ lineText t (tx "!lost " ++ dec t.lost) ++ reprompt t
  if outCap x < t.out.length + l.length then s else
  let s := s.setSes x (fun t => { t with out := t.out ++ l, lost := 0 })
  let s := { s with con := { s.con with dropped := satAdd s.con.dropped t.lost,
                                        reported := satAdd s.con.reported 1 } }
  s.raise 60 (BitVec.ofNat 24 (min t.lost 65535))

/-- Backlog lines go into the output buffer in arrival order (R326). -/
def State.sendBacklog (s : State) (x : Sess) : State :=
  let t := s.ses x
  if t.backlog.isEmpty || t.lost != 0 then s else
  let pre := breakIn t
  let post := reprompt t
  let r := fillOut (outCap x - post.length) (t.out ++ pre) (t.backlog.map (lineText t))
  if r.2.length = t.backlog.length then s else
  s.setSes x (fun t => { t with out := r.1 ++ post, backlog := t.backlog.drop (t.backlog.length - r.2.length) })

/-- Sends what a session has waiting: response lines first, then, between responses, `!lost` and the backlog; behind a
final line that is still to take effect nothing is sent. -/
def State.pump (s : State) (x : Sess) : State :=
  let t := s.ses x
  let r := fillOut (outCap x) t.out t.resp
  let s := s.setSes x (fun t => { t with out := r.1, resp := r.2 })
  if !r.2.isEmpty || s.executes x || t.ending.isSome then s else (s.sendLost x).sendBacklog x

/-- A response line outside a command: an immediate answer, from the session's own line space (R323, R324). -/
def State.answer (s : State) (x : Sess) (l : Text) : State :=
  let s := s.setSes x (fun t => { t with resp := t.resp ++ [lineText t l ++ reprompt t] })
  s.pump x

/-- CON_CFG.ASYNC of a session (R326). -/
def asyncOn (c : Con) (x : Sess) : Bool := bitAt c.cfg (15 + sessCode x)

/-- One session's share of an asynchronous line: it joins the backlog of 16, dropping the oldest (R326). -/
def State.asyncTo (s : State) (l : Text) (x : Sess) : State :=
  if !asyncOn s.con x then s else
  let s := s.setSes x (fun t =>
    if t.backlog.length < 16 then { t with backlog := t.backlog ++ [l] }
    else { t with backlog := t.backlog.drop 1 ++ [l], lost := t.lost + 1 })
  s.pump x

/-- An asynchronous line, offered to each session (R326). -/
def State.asyncLine (s : State) (l : Text) : State :=
  if !s.conOn then s else ((s.asyncTo l .uart).asyncTo l .host).asyncTo l .loc

/-- A granted unlock ends (R331). -/
def State.endUnlock (s : State) (x : Sess) : State :=
  if (s.ses x).unlocked then (s.setSes x (fun t => { t with unlocked := false })).raise 59 0 else s

/-- A session is reset (R311, R314): typed mode, empty buffers, no backlog, no unlock; its command in hand and its
waiting lines are gone. -/
def State.resetSes (s : State) (x : Sess) : State :=
  let s := s.endUnlock x
  let s := s.setSes x (fun _ => SessSt.fresh)
  { s with con := { s.con with queue := s.con.queue.filter (fun e => e.1.sess != x),
                               exec := if s.executes x then none else s.con.exec } }

/-- No response is still on its way and no command is in hand: the interpreter is free (R323, R325). -/
def State.conIdle (s : State) : Bool :=
  s.con.exec.isNone && s.con.uart.resp.isEmpty && s.con.host.resp.isEmpty && s.con.loc.resp.isEmpty

/-- The response's buffer of the transfer pool goes back when the last line has left it (R324, R373). -/
def State.conRelease (s : State) : State :=
  if s.conIdle then { s with pool := { s.pool with con := 0 } } else s

/-- The response to a request (R317, R320, R338): its data lines and its final line, and what its final line, once
sent, brings about. `ok` false is an error answer. -/
def State.respond (s : State) (rq : Req) (datas : List Text) (final : Text) (ending : Option Ending) : State :=
  let x := rq.sess
  let s := { s with con := { s.con with exec := none } }
  let t := s.ses x
  let s := match rq.nn with
    | some nn =>
      let h := '#' :: hexPad 2 nn.toNat
      let fin := h ++ (if final.isEmpty then tx " ok" else ' ' :: final)
      let lines := datas.map (fun d => machineLine (h ++ tx " - " ++ oneSpace d) ++ crlf) ++ [machineLine fin ++ crlf]
      s.setSes x (fun t => { t with resp := t.resp ++ lines, lastNn := some nn, lastFinal := fin, ending := ending })
    | none =>
      let lines := datas.map (· ++ crlf) ++ (if final.isEmpty then [] else [final ++ crlf])
      let lines := match lines with
        | [] => []
        | l :: r => (breakIn t ++ l) :: r
      let post := if ending = some Ending.toMachine then [] else reprompt t
      s.setSes x (fun t => { t with resp := t.resp ++ lines ++ (if post.isEmpty then [] else [post]),
                                    ending := ending })
  (s.pump x).conRelease

/-- A response of data lines alone: in machine mode a single line becomes the final line's text (R338). -/
def State.respondData (s : State) (rq : Req) (datas : List Text) : State :=
  match datas with
  | [d] => if rq.nn.isSome then s.respond rq [] (tx "ok " ++ oneSpace d) none else s.respond rq [d] [] none
  | _ => s.respond rq datas [] none

/-- `ok`, with text (R338). -/
def State.respondOk (s : State) (rq : Req) (t : Text) : State :=
  s.respond rq [] (if t.isEmpty then tx "ok" else tx "ok " ++ t) none

/-- `err <word> <text>` (R317, R327). -/
def State.respondErr (s : State) (rq : Req) (t : Text) : State := s.respond rq [] (tx "err " ++ t) none

end Sys2Proof.Machine
end

