-- ==== Sys2Proof/Machine/ConWait.lean ====
section
/-! DEFINITION. Console commands that wait: what ends their wait, and the answers they then give (15 R339, R342, R343,
R346). -/

namespace Sys2Proof.Machine

/-- Every session in typed mode sends its prompt: it is ready for a line (R315). -/
def State.promptAll (s : State) : State :=
  let f := fun (t : SessSt) => { t with out := t.out ++ prompt }
  { s with con := { s.con with uart := f s.con.uart, host := f s.con.host, loc := f s.con.loc } }

/-- A command in hand waits on. -/
def State.conHold (s : State) (e : ExecSt) : State := { s with con := { s.con with exec := some e } }

/-! ## The lock (R339) -/

/-- The words of FEAT_STATUS.BY. -/
def byWord (n : Nat) : Text :=
  tx (nth ["none", "hubwin-a", "hubwin-b", "host-twb", "local-twb", "console", "deadline", "warren"] n "")

/-- The answer to `feature lock` while, or once, another path's lock stands. -/
def State.errLocked (s : State) : Text := tx "locked feature set locked by " ++ byWord s.feat.lockedBy.toNat

/-- SETTLED rises under a waiting `feature lock`. -/
def State.conSettled (s : State) : State :=
  match s.con.exec with
  | some ⟨rq, .settled, _⟩ =>
    if s.feat.lockedBy = 5 then s.respondOk rq (tx "feature locked active " ++ hexWord (s.feat.active.setWidth 32))
    else s.respondErr rq s.errLocked
  | _ => s

/-! ## Calibration (R342, R343) -/

/-- The words of an outcome. -/
def outcomeWord (o : Nat) : Text := tx (nth ["accepted", "rejected", "abandoned"] o "abandoned")

/-- The line of one unit; a tap size in 1/16 ps follows for kind 1. -/
def calLine (vref : Bool) (u outcome size : Nat) : Text :=
  tx "unit " ++ dec u ++ tx (if vref then " vref " else " tap ") ++ outcomeWord outcome
    ++ (if vref then [] else [' '] ++ decFix 4 (size * 625) ++ tx " ps")

/-- A unit's BUSY bit falls under a waiting `cal tap` or `cal vref`; the last one ends the wait. -/
def State.conCal (s : State) (u outcome size : Nat) : State :=
  match s.con.exec with
  | some ⟨rq, .cal vref us got, left⟩ =>
    if !us.contains u then s else
    let us := us.filter (· != u)
    let got := got ++ [calLine vref u outcome size]
    if us.isEmpty then s.respond rq got (tx "ok cal count " ++ dec s.cal.body.count.toNat) none
    else s.conHold ⟨rq, .cal vref us got, left⟩
  | _ => s

/-- One range of an accepted ADC calibration. -/
def adcText (offset gain : BitVec 16) : Text :=
  let o := offset.toInt
  tx "gain " ++ decSign gain.toInt ++ tx " ppm offset " ++ (if o < 0 then ['-'] else ['+']) ++ decFix 2 o.natAbs ++ tx " mV"

/-- The words of REASON 1 to 3. -/
def adcReasonText (n : Nat) : Text :=
  tx (nth ["", "gain out of window", "offset out of window", "sample flagged"] n "")

/-- The ADC calibration ends under a waiting `cal adc ref`. -/
def State.conAdc (s : State) (outcome reason : Nat) : State :=
  match s.con.exec with
  | some ⟨rq, .adc, _⟩ =>
    let v := fun (i : Nat) => nth s.cal.body.adc i 0
    if outcome = 0 then
      s.respondOk rq (tx "cal adc fine " ++ adcText (v 0) (v 1) ++ tx " coarse " ++ adcText (v 2) (v 3) ++ tx " count "
        ++ dec s.cal.body.count.toNat)
    else if outcome = 1 then s.respondErr rq (tx "range cal adc rejected " ++ adcReasonText reason)
    else s.respondErr rq (tx "busy cal adc abandoned")
  | _ => s

/-! ## Commits (R346) -/

/-- The name of a region. -/
def regionName (r : Nat) : Text :=
  tx (nth ["boot", "factory", "firmware", "settings", "calibration", "warm", "keep-map", "fault-ring", "event-ring"] r "")

/-- The answer of `nvs commit` once nothing is waited for. -/
def State.conCommits (s : State) (rq : Req) (got : List Text) (err : Option Text) : State :=
  match err, got with
  | some e, _ => s.respond rq got (tx "err " ++ e) none
  | none, [] => s.respondOk rq (tx "nvs commit none")
  | none, [l] => s.respondOk rq l
  | none, _ => s.respond rq got (tx "ok nvs commit " ++ dec got.length ++ tx " regions") none

/-- A commit of a region ends under a waiting `nvs commit`: its line, or the refusal it ends with. -/
def State.conCommit (s : State) (r : Nat) (line : Option Text) (why : Text) : State :=
  match s.con.exec with
  | some ⟨rq, .commits rs got err, left⟩ =>
    if !rs.contains r then s else
    let rs := rs.filter (· != r)
    let got := got ++ line.toList
    let err := if line.isSome || err.isSome then err else some (tx "nvs " ++ why ++ [' '] ++ regionName r)
    if rs.isEmpty then s.conCommits rq got err else s.conHold ⟨rq, .commits rs got err, left⟩
  | _ => s

end Sys2Proof.Machine
end

