-- ==== Sys2Proof/Machine/Evt.lean ====
section
/-! DEFINITION. The event unit (12): release of pending counts, delivery, clearing, the release at the feature lock,
and the registers of the unit. -/

namespace Sys2Proof.Machine

/-- An entry's log record, and its arrival beyond the host port's event cursor (R286, R301). -/
def State.logEvent (s : State) (e : EvtEntry) : State :=
  let full := 64 ≤ s.nvs.waitE.length
  let s := s.eventRecord ⟨e.src, e.count, e.stamp, e.arg⟩
  if bitAt s.twb.host.cfg 4 && !full then { s with twb := { s.twb with a1Pend := true } } else s

/-- The console line of an entry (R285). -/
def eventLine (e : EvtEntry) : Text :=
  tx "!ev " ++ decPad 2 e.src.toNat ++ [' '] ++ evName e.src.toNat ++ tx " count " ++ dec e.count.toNat
    ++ tx " life " ++ dec e.stamp.toNat

/-- The Host Notify route takes an entry (R284): only while HOST_NOTIFY is active. -/
def State.notifies (s : State) (cfg : BitVec 6) : Bool := cfg.getLsbD 2 && s.fnActive .hostNotify

/-- Delivery of the oldest entry (R281): Host Notify, console, log. A Host Notify still on its way holds the next
entry that needs that route (log entry 12). -/
def State.deliver (s : State) : State :=
  match s.evt.queue with
  | [] => s
  | e :: q =>
    let cfg := (nth s.evt.srcs e.src.toNat EvtSrc.fresh).cfg
    if s.notifies cfg && s.twb.host.job.isSome then s else
    let s := { s with evt := { s.evt with queue := q } }
    let s := if s.notifies cfg then
        { s with twb := { s.twb with host := { s.twb.host with
          job := some (.notify (e.src.setWidth 8) e.count), tries := 0 } } }
      else s
    let s := if cfg.getLsbD 3 then s.asyncLine (eventLine e) else s
    if cfg.getLsbD 5 then s.logEvent e else s

/-- The pending counts that the lock discards: sources absent after it (R279). -/
def State.dropAbsent (s : State) : State :=
  { s with evt := { s.evt with srcs := s.evt.srcs.zipIdx.map (fun x =>
      if s.evtPresent x.2 then x.1 else { x.1 with pend := 0 }) } }

/-- The status bit of every source with a pending count is set, and HALRT_n follows (R279, R282). -/
def raisePending (e : Evt) : Evt :=
  { e with halrt := e.halrt || e.srcs.any (fun x => x.pend != 0 && !x.status && x.en && x.cfg.getLsbD 1),
           srcs := e.srcs.map (fun x => if x.pend = 0 then x else { x with status := true }) }

/-- What W3 does when SETTLED rises (R279): EV56 first, then the deferred arisings. -/
def State.evtSettle (s : State) (lockedBy : BitVec 3) : State :=
  let s := (s.raise 56 (lockedBy.setWidth 24)).dropAbsent
  { s with evt := releasePending (raisePending s.evt) }

/-- Events latched in PD0 become pending counts once management is ready (R224, R279); their TOTAL counts them. -/
def latchRelease (l : Latch) (e : Evt) : Evt :=
  let x := nth e.srcs l.src.toNat EvtSrc.fresh
  if !x.en then e else
  let x := { x with total := satAdd x.total l.count.toNat, arg := l.arg }
  { e with srcs := upd e.srcs l.src.toNat (fun _ => pendAdd l.count.toNat l.stamp l.arg x) }

/-- All events latched in PD0 join the event unit. -/
def State.releaseLatched (s : State) : State :=
  let ls := s.pow.latched.filter (fun l => s.evtPresent l.src.toNat)
  let s := { s with pow := { s.pow with latched := [] }, evt := ls.foldl (fun e l => latchRelease l e) s.evt }
  if s.deferring then s else { s with evt := releasePending (raisePending s.evt) }

/-- CLK_CRST.EVT_QUEUE (R280): queue and pending counts go, status bits and TOTAL stay. -/
def State.evtFlush (s : State) : State :=
  { s with evt := { s.evt with queue := [], srcs := s.evt.srcs.map (fun x => { x with pend := 0 }) } }

/-! ## Registers (R288) -/

/-- The status bits from source `lo` on. -/
def statusWord (e : Evt) (lo : Nat) : Word := BitVec.ofNat 32 (maskOf (((e.srcs.drop lo).take 32).map (·.status)))

/-- A W1C write of a status register: clears the bits written with one, and releases HALRT_n where none routed
remains (R280, R282). -/
def evtClear (lo : Nat) (v : Word) (e : Evt) : Evt :=
  settleHalrt e { e with srcs := e.srcs.zipIdx.map (fun x =>
    if lo ≤ x.2 && x.2 < lo + 32 && bitAt v (x.2 - lo) then { x.1 with status := false } else x.1) }

/-- EVT_n (R283). -/
def State.evtOut (s : State) : Bool := s.pd2 && routedSet 4 s.evt

/-- EVT_SUMMARY. -/
def State.evtSummary (s : State) : Word :=
  packWord [(0, s.evt.queue.length), (8, s.evt.high.toNat), (16, s.evt.halrt.toNat), (17, s.evtOut.toNat),
    (18, (s.locked && s.evt.srcs.any (fun x => x.pend != 0)).toNat), (19, s.deferring.toNat)]

/-- EVT_SRCn. -/
def srcWord (x : EvtSrc) : Word := packWord [(0, x.cfg.toNat), (8, x.pend.toNat), (16, x.total.toNat)]

/-- The EVT_ registers as path `p` finds them. -/
def evtReg (p : Path) (a : Nat) (s : State) : Option RegDef :=
  if a = 0x1800 then some { flds := [Fld.any .w1c 31 0], read := statusWord s.evt 0,
                            write := fun v s => { s with evt := evtClear 0 v s.evt } }
  else if a = 0x1804 then
    let m : Word := if s.regOn .events64 then 0xFFFFFFFF else 0x0000FFFF
    some { flds := [Fld.any .w1c 31 0], read := statusWord s.evt 32 &&& m,
           write := fun v s => { s with evt := evtClear 32 (v &&& m) s.evt } }
  else if a = 0x1808 then some (RegDef.ro s.evtSummary)
  else if a = 0x180C then
    some { flds := [Fld.rng 5 0 s.evtRegPresent], read := (s.sel p).evtInfo.setWidth 32,
           write := fun v s => s.setSel p (fun x => { x with evtInfo := toField v.toNat }) }
  else if a = 0x1810 then
    some (RegDef.ro ((nth s.evt.srcs (s.sel p).evtInfo.toNat EvtSrc.fresh).arg.setWidth 32))
  else if a = 0x1814 && s.regOn .events64 then
    some { flds := [Fld.any .wo 15 0, ⟨31, 16, .wo, false, (· == 0xEE63)⟩], read := 0,
           write := fun v s => s.raise 63 ((v &&& 0xFFFF).setWidth 24) }
  else if 0x1900 ≤ a && a < 0x1A00 && s.evtRegPresent ((a - 0x1900) / 4) then
    let n := (a - 0x1900) / 4
    some { flds := [Fld.keptAny 0 0, Fld.keptAny 1 1, Fld.keptAny 2 2, Fld.keptAny 3 3, Fld.keptAny 4 4,
                    Fld.keptAny 5 5, Fld.ro 15 8, Fld.ro 31 16],
           read := srcWord (nth s.evt.srcs n EvtSrc.fresh),
           write := fun v s => { s with evt := settleHalrt s.evt { s.evt with
             srcs := upd s.evt.srcs n (fun x => { x with cfg := toField v.toNat }) } } }
  else none

/-! ## The rows of the event unit -/

/-- EVENT_ARISE (R277). -/
def execEventArise (src : Fin 64) (arg : BitVec 24) (s : State) : Out := .next (s.raise src arg)

/-- EVENT_PENDING_RELEASE (R278): nothing while arisings are deferred. -/
def execEventPendingRelease (s : State) : Out :=
  .next (if s.deferring || !s.up then s else { s with evt := releasePending s.evt })

/-- EVENT_DELIVER (R281). -/
def execEventDeliver (s : State) : Out := .next (if s.up then s.deliver else s)

end Sys2Proof.Machine
end

