-- ==== Sys2Proof/Machine/CalEnd.lean ====
section
/-! DEFINITION. How a calibration ends (07): the values of a unit, the record of every ending, and abandonment, which the
loss of a unit brings about (R172). -/

namespace Sys2Proof.Machine

/-- The calibration in hand on a unit. -/
def State.calRun (s : State) (unit : Nat) : Option CalRun := nth s.cal.runs unit none

/-- Changes the calibration in hand on a unit. -/
def State.setRun (s : State) (u : Nat) (r : Option CalRun) : State :=
  { s with cal := { s.cal with runs := upd s.cal.runs u (fun _ => r) } }

/-- The calibration values of a unit. -/
def State.calUnit (s : State) (u : Nat) : CalUnit := nth s.cal.body.units u CalUnit.fresh

/-- Changes the calibration values of a unit. -/
def State.setUnit (s : State) (u : Nat) (f : CalUnit → CalUnit) : State :=
  { s with cal := { s.cal with body := { s.cal.body with units := upd s.cal.body.units u f } } }

/-- Wall time (R62): the offset and the lifetime counter. -/
def State.utc (s : State) : BitVec 48 := s.clk.wall + s.clk.life.setWidth 48

/-- What every calibration that ends records (R172): outcome 0 accepted, 1 rejected, 2 abandoned. -/
def State.calRecord (s : State) (u kind outcome : Nat) (commanded : Bool) : State :=
  let b := s.cal.body
  let b := { b with
    count := if outcome = 0 then satAdd b.count 1 else b.count,
    reject := if outcome = 1 then satAdd b.reject 1 else b.reject,
    abandon := if outcome = 2 then satAdd b.abandon 1 else b.abandon,
    last := BitVec.ofNat 11 (kind + 16 * u + 256 * outcome + 1024 * s.clk.wallSet.toNat),
    lastLife := s.clk.life, lastUtc := if s.clk.wallSet then s.utc else b.lastUtc }
  let s := { s with cal := { s.cal with body := b, pending := true } }
  let s := if outcome = 1 then s.raise 19 (BitVec.ofNat 24 (kind + 16 * u)) else s
  if commanded then s.raise 21 (BitVec.ofNat 24 (kind + 16 * u + 256 * outcome)) else s

/-- The ADC channels are live again (R171). -/
def State.adcFree (s : State) : State := { s with zxp := { s.zxp with held := none } }

/-- An ADC calibration ends with an outcome and a REASON (CAL_ADC_STATUS). -/
def State.adcEnd (s : State) (outcome reason : Nat) : State :=
  match s.calRun 11 with
  | none => s
  | some r =>
    let s := { s.setRun 11 none with cal := { (s.setRun 11 none).cal with adcReject := outcome == 1,
                                                                          adcReason := BitVec.ofNat 3 reason } }
    ((s.adcFree).calRecord 11 4 outcome r.commanded).conAdc outcome reason

/-- A swapped receiver of an abandoned unit waits for its swap back (R167). -/
def State.swapsBack (s : State) (u : Nat) : State :=
  { s with cal := { s.cal with swaps := s.cal.swaps.map (fun e => if e.1 / 64 = u then (e.1, 2) else e) } }

/-- A calibration is abandoned (R172): the unit has the values from before it. -/
def State.calAbandon (s : State) (u : Nat) : State :=
  if u = 11 then s.adcEnd 2 4 else
  match s.calRun u with
  | none => s
  | some r =>
    let s := (((s.swapsBack u).setUnit u (fun _ => r.holdUnit)).setRun u none).calRecord u r.kind 2 r.commanded
    s.conCal u 2 (s.calUnit u).size.toNat

/-- Every calibration is abandoned (PFAIL, MRST). -/
def State.calAbandonAll (s : State) : State := (List.range 12).foldl State.calAbandon s

/-- HCK_OK falls: tap and Vref calibrations are abandoned (R172). -/
def State.calAbandonHck (s : State) : State := (List.range 11).foldl State.calAbandon s

end Sys2Proof.Machine
end

