-- ==== Sys2Proof/Machine/Dbuf.lean ====
section
/-! DEFINITION. The data buffers (05): trained values, local registers, DBC frames, reports on DBE_x_n, temperature,
and what the ZX8-R does when a ZLB target does not answer. -/

namespace Sys2Proof.Machine

/-! ## Reachability (R131) -/

/-- Target `t` is marked unreachable. -/
def State.unreach (s : State) (t : Nat) : Bool := s.zlb.unreach.getLsbD t

/-- Target `t` takes requests and answers them. -/
def State.reaches (s : State) (t : Nat) : Bool := (s.tgt t).alive && !s.unreach t

/-- The mark in DBM_UNREACH and EV11 (R131, R269); a calibration on the unit is abandoned (R172). -/
def State.markUnreach (s : State) (t : Nat) : State :=
  if s.unreach t then s else
  ({ s with zlb := { s.zlb with unreach := s.zlb.unreach ||| BitVec.ofNat 11 (2 ^ t) } }.raise 11
    (BitVec.ofNat 24 t)).calAbandon (t + 1)

/-- One failed attempt that another follows (R131). -/
def State.attemptFail (s : State) (t : Nat) : State :=
  let s := s.fault 3 t 1
  { s with zlb := { s.zlb with retry := satAdd s.zlb.retry 1 } }.raise 10 (BitVec.ofNat 24 t)

/-- The fourth failed attempt (R131). -/
def State.lastFail (s : State) (t : Nat) : State :=
  let s := s.fault 3 t 1
  { s with zlb := { s.zlb with fail := satAdd s.zlb.fail 1 } }.markUnreach t

/-- An access to a target that answers no attempt (R131). -/
def State.noAnswer (s : State) (t : Nat) : State :=
  (((s.attemptFail t).attemptFail t).attemptFail t).lastFail t

/-- An access to a target makes its attempts: nothing to see when it answers or is already unreachable. -/
def State.zlbTry (s : State) (t : Nat) : State :=
  if s.unreach t || (s.tgt t).alive then s else s.noAnswer t

/-! ## Trained values (R109, log entry 8) -/

/-- Path and entry carry a Vref code (DBD_TAP). -/
def hasVref (path entry : Nat) : Bool := (path == 0 || (3 ≤ path && path % 2 == 1)) && entry < 8

/-- A tap and Vref pair that training found and the manual does not give. -/
def freeTap (base k : Nat) (vref : Bool) : TapSt :=
  ⟨Config.freeValue 7 (base + 2 * k),
   if vref then BitVec.ofNat 7 ((Config.freeValue 7 (base + 2 * k + 1)).toNat % 121) else 0⟩

/-- An entry of a buffer at reset: tap 64, Vref 60 where it has one. -/
def tapReset (path entry : Nat) : TapSt := ⟨64, if hasVref path entry then 60 else 0⟩

/-- The value of an entry: as written, else as trained, else as reset. -/
def tapOf (taps : List (Nat × TapSt)) (gens : List (Nat × Nat)) (path entry : Nat) : TapSt :=
  match taps.find? (fun e => e.1 == path * 16 + entry) with
  | some e => e.2
  | none =>
    match gens.find? (fun g => g.1 == path * 2 + (if entry < 8 then 0 else 1)) with
    | some g => freeTap g.2 entry (hasVref path entry)
    | none => tapReset path entry

/-- The tap sets of buffer `n` now. -/
def State.dbTaps (s : State) (n : Nat) : DbTaps := ⟨(s.db n).taps, nth s.train.dbGens n []⟩

/-- The value of an entry of buffer `n`. -/
def State.dbTap (s : State) (n path entry : Nat) : TapSt :=
  tapOf (s.db n).taps (nth s.train.dbGens n []) path entry

/-- An entry of buffer `n` takes a value. -/
def State.setDbTap (s : State) (n path entry : Nat) (t : TapSt) : State :=
  s.setDb n (fun d => { d with taps := sput d.taps (path * 16 + entry) t })

/-- The LIMIT bit of a trim unit falls, its reference having been reset (R179). -/
def State.limitOff (s : State) (u : Nat) : State :=
  { s with trim := { s.trim with limit := s.trim.limit &&& ~~~(BitVec.ofNat 12 (2 ^ u)) } }

/-- A direct write of an entry: its value becomes its reference (R179, R180). -/
def State.writeDbTap (s : State) (n path entry : Nat) (t : TapSt) : State :=
  let s := (s.setDbTap n path entry t).limitOff (n + 2)
  { s with train := { s.train with dbRefs := upd s.train.dbRefs n (fun r => serase r (path * 16 + entry)) } }

/-- The reference of an entry (R179): what it held before trim first moved it. -/
def State.dbRef (s : State) (n path entry : Nat) : TapSt :=
  match (nth s.train.dbRefs n []).find? (fun e => e.1 == path * 16 + entry) with
  | some e => e.2
  | none => s.dbTap n path entry

/-- A trim step moves an entry, whose reference stands (R179). -/
def State.stepDbTap (s : State) (n path entry : Nat) (t : TapSt) : State :=
  let r := s.dbRef n path entry
  let s := s.setDbTap n path entry t
  { s with train := { s.train with dbRefs := upd s.train.dbRefs n (fun l => sput l (path * 16 + entry) r) } }

/-- Training gives a set of entries of buffer `n` new values (a path's data entries, or its DQS entries). -/
def State.genDb (s : State) (n path : Nat) (dqs : Bool) : State :=
  let s := s.limitOff (n + 2)
  let key := path * 2 + dqs.toNat
  let s := s.setDb n (fun d => { d with taps := d.taps.filter (fun e => !(e.1 / 16 == path
              && (if dqs then 8 ≤ e.1 % 16 else e.1 % 16 < 8))) })
  { s with free := s.free + 32,
           train := { s.train with dbGens := upd s.train.dbGens n (fun g => sput g key s.free),
                                   dbRefs := upd s.train.dbRefs n (fun r => r.filter (fun e => !(e.1 / 16 == path
                                     && (if dqs then 8 ≤ e.1 % 16 else e.1 % 16 < 8)))) } }

/-! ## Local registers (R135) -/

/-- DBD_TEMP. -/
def State.dbTemp (s : State) (n : Nat) : Word :=
  let d := s.db n
  match s.calRun (n + 1) with
  | some r => packWord [(0, r.holdTemp.toNat), (12, r.holdValid.toNat), (16, 1)]
  | none => packWord [(0, d.temp.toNat), (12, d.tempValid.toNat)]

/-- DBD_STATUS. -/
def dbStatus (d : Db) : Word :=
  packWord [(0, d.hold.toNat), (1, d.train.toNat), (3, d.hot.toNat), (4, d.streaming.toNat)]

/-- The step that a write of DBD_TRIM_STAGE stages keeps its entry inside its codes, and names an entry that has the
code it steps (R123). -/
def stageOk (d : Db) (val : Nat → Nat → TapSt) (w : Nat) : Bool :=
  let path := w % 16
  let entry := w / 16 % 16
  let vref := w.testBit 8
  let down := w.testBit 9
  let t := val path entry
  !d.stagePend && path < 10 && entry < 10 && (!vref || hasVref path entry)
    && (if vref then (if down then 0 < t.vref.toNat else t.vref.toNat < 120)
        else (if down then 0 < t.tap.toNat else t.tap.toNat < 127))

/-- The local registers of buffer `n` at byte offset `o`, as ZLB requests find them (R128). -/
def dbReg (n o : Nat) (s : State) : Option RegDef :=
  let d := s.db n
  let z := s.tgt n
  if o = 0x000 then some (RegDef.ro (packWord [(0, 0x0A39), (16, 2), (20, d.pos.toNat)]))
  else if o = 0x004 then
    some { flds := Fld.counters, read := packWord [(0, z.errEdge.toNat), (16, z.errCrc.toNat)],
           write := fun _ s => s.setTgt n (fun z => { z with errEdge := 0, errCrc := 0 }) }
  else if o = 0x008 then some (RegDef.ro (dbStatus d))
  else if o = 0x00C then
    some { flds := [Fld.any .rw 6 0, Fld.any .rw 14 8, Fld.any .rw 15 15, Fld.any .rw 16 16], read := d.cfg,
           write := fun v s => s.setDb n (fun d => { d with cfg := v }) }
  else if o = 0x010 then
    some { flds := Fld.counters, read := packWord [(0, d.crc0.toNat), (16, d.crc1.toNat)],
           write := fun _ s => s.setDb n (fun d => { d with crc0 := 0, crc1 := 0 }) }
  else if o = 0x014 then
    some { flds := [Fld.rng 15 0 (· == 0)], read := d.dbcErr.setWidth 32,
           write := fun _ s => s.setDb n (fun d => { d with dbcErr := 0 }) }
  else if o = 0x018 then some (RegDef.ro (s.dbTemp n))
  else if o = 0x01C then
    some { flds := [Fld.kept' 11 0 (· ≤ 0x1F4)], read := d.tempHi.setWidth 32,
           write := fun v s => s.setDb n (fun d => { d with tempHi := v.setWidth 12 }) }
  else if o = 0x020 then
    some { flds := [Fld.any .rw 0 0, Fld.any .rw 2 1, Fld.rng 13 8 (fun x => 1 ≤ x && x ≤ 32),
                    Fld.rng 21 16 (fun x => 1 ≤ x && x ≤ 63)], read := d.shadow,
           write := fun v s => s.setDb n (fun d => { d with shadow := v }) }
  else if o = 0x024 then
    some { flds := [Fld.rng 9 0 (stageOk d (s.dbTap n)), Fld.ro 31 31],
           read := packWord [(0, d.stage.toNat), (31, d.stagePend.toNat)],
           write := fun v s => s.setDb n (fun d => { d with stage := v.setWidth 10, stagePend := true,
                                                            stageArmed := false }) }
  else if 0x100 ≤ o && o < 0x380 && (o - 0x100) / 4 % 16 < 10 then
    let path := (o - 0x100) / 64
    let i := (o - 0x100) / 4 % 16
    let held := s.calRun (n + 1)
    let t := match held with
      | some r => tapOf r.holdTaps.taps r.holdTaps.gens path i
      | none => s.dbTap n path i
    some { flds := [Fld.keptAny 6 0, Fld.kept' 14 8 (fun v => if hasVref path i then v ≤ 120 else v == 0),
                    Fld.ro 31 31],
           read := packWord [(0, t.tap.toNat), (8, t.vref.toNat), (31, held.isSome.toNat)],
           write := fun v s => s.writeDbTap n path i ⟨v.setWidth 7, (v >>> 8).setWidth 7⟩ }
  else none

/-- ZLB tags in use reach a level (DBM_ZLB_TAGS.HIGH): an access of a host path adds one. -/
def State.zlbLevel (s : State) (k : Nat) : State :=
  { s with zlb := { s.zlb with high := BitVec.ofNat 6 (max s.zlb.high.toNat (s.zlb.out.length + k)) } }

/-- The ZLB tag of a path's proxied accesses (R130); the Warren's own use tag 0. -/
def pathTag : Path → BitVec 5
  | .hubA => 29 | .hubB => 30 | .warren => 0 | _ => 31

/-- What a target remembers of a request it executed (R129). -/
def State.remember (s : State) (t : Nat) (tag : BitVec 5) (word : BitVec 15) (data resp : Word) : State :=
  s.setTgt t (fun z => { z with memo := sput z.memo tag.toNat ⟨word, data, ⟨tag, word, resp⟩⟩ })

/-- An access of the Warren to a register of a target it reaches: `data` is what a write sends, `resp` what a read
brings. The target remembers it under the tag used (R129), which counts among the tags in use (R130). -/
def State.warrenAccess (s : State) (t o : Nat) (data resp : Word) : State :=
  (s.remember t (pathTag .warren) (BitVec.ofNat 15 (o / 4)) data resp).zlbLevel 1

/-- A calibration of a buffer runs, so that DBM_TEMP_MAX shows STALE (R171). -/
def State.anyStale (s : State) : Bool := (List.range 10).any (fun n => (s.calRun (n + 1)).isSome)

/-- A register of target `t` as a hub path finds it through the proxy (R106, R131): the target judges the access by R5
to R7 and answers a disallowed one too (R128), and it remembers what was sent (R129). A reserved offset takes no
write. -/
def proxied (p : Path) (t o : Nat) (r : Option RegDef) (s : State) : Option RegDef :=
  let word := BitVec.ofNat 15 (o / 4)
  if !s.reaches t then
    some { flds := [Fld.any .rw 31 0], read := 0, write := fun _ s => s.zlbTry t, onRead := fun s => s.zlbTry t }
  else
    let d := r.getD { flds := [], read := 0, write := fun _ s => s }
    some { d with
      onRead := fun s => ((d.onRead s).remember t (pathTag p) word 0 d.read).zlbLevel 1
      sent := fun v s => (s.remember t (pathTag p) word v 0).zlbLevel 1 }

/-- The DBM_ registers and the proxy window as path `p` finds them (R134, R135). -/
def dbmReg (p : Path) (a : Nat) (s : State) : Option RegDef :=
  let dbp := s.regOn .dbPresent
  let z := s.zlb
  if a = 0x0C04 then some (RegDef.ro (z.present.setWidth 32))
  else if a = 0x0C08 then some (RegDef.ro (z.unreach.setWidth 32))
  else if a = 0x0C14 then
    some { flds := Fld.counters, read := packWord [(0, z.retry.toNat), (16, z.fail.toNat)],
           write := fun _ s => { s with zlb := { s.zlb with retry := 0, fail := 0 } } }
  else if a = 0x0C18 then
    some { flds := [Fld.rng 31 0 (· == 0)], read := z.stall,
           write := fun _ s => { s with zlb := { s.zlb with stall := 0 } } }
  else if a = 0x0C1C then some (RegDef.ro (packWord [(0, z.out.length), (8, z.high.toNat)]))
  else if !dbp then none
  else if a = 0x0C00 then
    some { flds := [Fld.rng 3 0 (· < 10)], read := (s.sel p).dbm.setWidth 32,
           write := fun v s => s.setSel p (fun x => { x with dbm := v.setWidth 4 }) }
  else if a = 0x0C0C then
    some { flds := Fld.counters, read := packWord [(0, z.crcA.toNat), (16, z.crcB.toNat)],
           write := fun _ s => { s with zlb := { s.zlb with crcA := 0, crcB := 0 } } }
  else if a = 0x0C10 then
    some { flds := Fld.counters, read := packWord [(0, z.dbcA.toNat), (16, z.dbcB.toNat)],
           write := fun _ s => { s with zlb := { s.zlb with dbcA := 0, dbcB := 0 } } }
  else if a = 0x0C20 then
    some (RegDef.ro (packWord [(0, z.tempMax.toNat), (12, z.tempDb.toNat), (16, s.anyStale.toNat)]))
  else if a = 0x0C24 then
    some (RegDef.ro (packWord [(0, ((subDbs .a).any (fun n => (s.db n).hold)).toNat),
                               (1, ((subDbs .b).any (fun n => (s.db n).hold)).toNat)]))
  else if 0x0C80 ≤ a && a < 0x1000 then
    let n := (s.sel p).dbm.toNat
    proxied p n (a - 0x0C80) (dbReg n (a - 0x0C80) s) s
  else none

/-! ## DBC frames (R118 to R123) -/

/-- The buffers of a subchannel hear DBC: they are fitted, PD3 and PD5 are on, their supply stands, and DBC has its clock,
HCK or that of a save (R64, R66). -/
def State.dbcOn (s : State) : Bool :=
  s.pd3 && s.pow.on.getLsbD 5 && !s.pow.straps.nodb && !s.host.pd5Fault && (s.clk.hckOk || s.pow.dom == .save)

/-- A DBC frame reaches every buffer of a subchannel. -/
def State.dbcAll (s : State) (x : Sub) (f : Db → Db) : State := if s.dbcOn then s.setDbs x f else s

/-- A buffer pulls DBE_x_n low, or, while its pulse runs, notes its next pulse: reports merge, and any frame error among
them makes the pulse long (R121). -/
def dbePull (frame : Bool) (d : Db) : Db :=
  match d.dbe with
  | none => { d with dbe := some frame }
  | some _ => { d with dbeNext := some (frame || d.dbeNext == some true) }

/-- A WR frame in one buffer (R113, R114): `bad` has bit i for nibble i whose received CRC does not match. -/
def wrFrame (rank : BitVec 2) (chk : Bool) (bad : Nat) (d : Db) : Db :=
  if d.hold then d else
  let bad := if chk && bitAt d.cfg 15 then bad % 4 else 0
  let d := { d with burst := some ⟨true, rank, chk, BitVec.ofNat 2 bad⟩,
                    crc0 := satAdd d.crc0 (bad % 2), crc1 := satAdd d.crc1 (bad / 2) }
  if bad = 0 then d else dbePull false d

/-- A RD frame in one buffer (R113). -/
def rdFrame (rank : BitVec 2) (d : Db) : Db := if d.hold then d else { d with burst := some ⟨false, rank, false, 0⟩ }

/-- HOST_RESET in one buffer (R120 'DBC management codes'): taps, Vref and counters are kept. No frame phase stands
between two commands: each row's cycles are whole frames, or end in idle (log entry 87). -/
def hostResetFrame (d : Db) : Db :=
  { d with nibble := none, train := 0, streaming := false, window := none, burst := none, dqOut := none }

/-- A frame error in one buffer (R120). -/
def frameErr (d : Db) : Db := dbePull true { d with dbcErr := satAdd d.dbcErr 1 }

/-- The result a buffer streams on DBR_x (R122), 157 bits: start, the SAMPLE argument, the UIs of the window, eight early
and late counts, each saturated, and the CRC-8 of the ZLB over what follows the start bit. -/
def dbrStream (arg : BitVec 4) (n : Nat) (counts : List EyeCount) : List Bool :=
  let msb := fun (w v : Nat) => (List.range w).map (fun i => v.testBit (w - 1 - i))
  let eye := (List.range 8).flatMap (fun i =>
    let c := nth counts i ⟨0, 0⟩
    msb 8 (min 255 c.early) ++ msb 8 (min 255 c.late))
  let body := msb 4 arg.toNat ++ msb 16 (min 65535 n) ++ eye
  true :: body ++ msb 8 (crc8Bits body).toNat

/-- A number from bits, the first the most significant. -/
def msbNat (bs : List Bool) : Nat := bs.foldl (fun a b => 2 * a + b.toNat) 0

/-- The CRC of a received result agrees (R122). -/
def dbrGood (bs : List Bool) : Bool :=
  (crc8Bits ((bs.drop 1).take 148)).toNat == msbNat ((bs.drop 149).take 8)

/-- The UIs of a received result. -/
def dbrUis (bs : List Bool) : Nat := msbNat ((bs.drop 5).take 16)

/-- The counts of a received result. -/
def dbrCounts (bs : List Bool) : List EyeCount :=
  (List.range 8).map (fun i => ⟨msbNat ((bs.drop (21 + 16 * i)).take 8), msbNat ((bs.drop (29 + 16 * i)).take 8)⟩)

/-- What arrives of a stream when the bits that `flips` names are received inverted. -/
def dbrFlip (flips : List Nat) (bs : List Bool) : List Bool := bs.zipIdx.map (fun b => b.1 != flips.contains b.2)

/-- SAMPLE in the addressed buffer (R122). -/
def sampleFrame (drx : Bool) (d : Db) : Db :=
  if d.streaming || d.train != 0 then d
  else { d with streaming := true, window := some (BitVec.ofNat 4 (d.pos.toNat % 5 + 8 * drx.toNat)) }

/-- What a buffer does on a DBC command (R118, R119, R120); a SAMPLE for another position is not addressed to it. -/
def Db.obey (d : Db) : DbcCmd → Db
  | .nop => d
  | .wr rank chk => wrFrame rank chk 0 d
  | .rd rank => rdFrame rank d
  | .winLo nib => { d with nibble := some nib }
  | .winHi nib =>
    match d.nibble with
    | some lo => { d with dqOut := some (nib ++ lo) }
    | none => d
  | .train mode => { d with train := mode }
  | .sample pos drx => if pos.toNat = d.pos.toNat % 5 then sampleFrame drx d else d
  | .trimApply => { d with stageArmed := d.stagePend }
  | .hold => { d with hold := true, burst := none }
  | .release => { d with hold := false }
  | .hostReset => hostResetFrame d

/-- Opcode and argument of a DBC command (R118, R120). -/
def DbcCmd.code : DbcCmd → BitVec 4 × BitVec 4
  | .nop => (0, 0)
  | .wr rank chk => (1, BitVec.ofNat 4 (rank.toNat + 4 * chk.toNat))
  | .rd rank => (2, rank.setWidth 4)
  | .winLo nib => (3, nib)
  | .winHi nib => (4, nib)
  | .train mode => (5, mode.setWidth 4)
  | .sample pos drx => (6, BitVec.ofNat 4 (pos.toNat + 8 * drx.toNat))
  | .trimApply => (7, 0)
  | .hold => (7, 1)
  | .release => (7, 2)
  | .hostReset => (7, 3)

/-- The ones of a number below 32. -/
def onesBelow32 (v : Nat) : Nat := ((List.range 5).filter (fun i => v.testBit i)).length

/-- The two cycles of a DBC frame (R118): the start bit with the opcode, then the argument with the bit that makes the
number of ones odd. -/
def DbcCmd.cycles (c : DbcCmd) : BitVec 5 × BitVec 5 :=
  let op := 16 + c.code.1.toNat
  let arg := c.code.2.toNat
  (BitVec.ofNat 5 op, BitVec.ofNat 5 (if (onesBelow32 op + onesBelow32 arg) % 2 = 1 then arg else arg + 16))

/-- The DBC command that two cycles spell (R118, R120): odd parity over ten bits, a defined opcode, and an argument
inside its column; otherwise none. -/
def dbcDecode (first second : BitVec 5) : Option DbcCmd :=
  let op := first.toNat % 16
  let arg := second.toNat % 16
  if !first.getLsbD 4 || (onesBelow32 first.toNat + onesBelow32 second.toNat) % 2 = 0 then none else
  match op with
  | 0 => if arg = 0 then some .nop else none
  | 1 => if arg < 8 then some (.wr (BitVec.ofNat 2 arg) (arg.testBit 2)) else none
  | 2 => if arg < 4 then some (.rd (BitVec.ofNat 2 arg)) else none
  | 3 => some (.winLo (BitVec.ofNat 4 arg))
  | 4 => some (.winHi (BitVec.ofNat 4 arg))
  | 5 => if arg < 4 then some (.train (BitVec.ofNat 2 arg)) else none
  | 6 => if arg % 8 < 5 then some (.sample (BitVec.ofNat 3 arg) (arg.testBit 3)) else none
  | 7 => match arg with
    | 0 => some .trimApply
    | 1 => some .hold
    | 2 => some .release
    | 3 => some .hostReset
    | _ => none
  | _ => none

/-- Two DBC cycles form a frame a buffer executes. -/
def frameOk (first second : BitVec 5) : Bool := (dbcDecode first second).isSome

/-- A buffer hears the cycles of DBC (R118): outside a frame a cycle without the start bit is idle; a frame it cannot
execute is a frame error. A frame still open at the end is left to the cycles that follow. -/
def dbcHear : List (BitVec 5) → Db → Db
  | first :: second :: r, d =>
    if first.getLsbD 4 then dbcHear r (match dbcDecode first second with
      | some c => d.obey c
      | none => frameErr d)
    else dbcHear (second :: r) d
  | _, d => d

/-- The ZX8-R sends a DBC command on a subchannel. -/
def State.dbcCmd (s : State) (x : Sub) (c : DbcCmd) : State := s.dbcAll x (·.obey c)

/-- An entry moved by one step (R123). Its range was judged when the step was staged; a step that a direct write has
meanwhile put beyond a limit leaves the entry there (log entry 82, DESIGN CHOICE). -/
def TapSt.step (t : TapSt) (vref down : Bool) : TapSt :=
  if vref then { t with vref := if down then BitVec.ofNat 7 (t.vref.toNat - 1) else BitVec.ofNat 7 (min 120 (t.vref.toNat + 1)) }
  else { t with tap := if down then BitVec.ofNat 7 (t.tap.toNat - 1) else BitVec.ofNat 7 (min 127 (t.tap.toNat + 1)) }

/-- The armed trim step of one buffer (R123). -/
def State.applyStage (s : State) (n : Nat) : State :=
  let d := s.db n
  if !d.stageArmed || !d.stagePend then s else
  let path := d.stage.toNat % 16
  let entry := d.stage.toNat / 16 % 16
  let t := (s.dbTap n path entry).step (d.stage.getLsbD 8) (d.stage.getLsbD 9)
  (s.stepDbTap n path entry t).setDb n (fun d => { d with stagePend := false, stageArmed := false })

/-- A subchannel leaves state HOST: its accumulators and queues of live trim are cleared; what is staged in a buffer stays
with the buffer (R180). -/
def State.trimLeave (s : State) (x : Sub) : State :=
  let mine := fun (u : Nat) => if u < 2 then u == subNo x else dbSub (u - 2) == x
  { s with trim := { s.trim with
      acc := s.trim.acc.filter (fun e => !mine (e.1 / 1024)),
      queues := s.trim.queues.zipIdx.map (fun q => if mine q.2 then [] else q.1),
      placed := s.trim.placed.zipIdx.map (fun q => if mine q.2 && q.2 < 2 then none else q.1) } }

/-! ## Rows of DBC -/

/-- DBC_NOP (R118). -/
def execDbcNop (x : Sub) (s : State) : Out := .next (s.dbcCmd x .nop)

/-- DBC_WR (R114): bit 2m + i of `bad` is nibble i of the subchannel's buffer m. -/
def execDbcWr (x : Sub) (rank : Fin 4) (chk : Bool) (bad : BitVec 10) (s : State) : Out :=
  .next (if s.dbcOn then
    { s with dbs := (subDbs x).foldl (fun l n => upd l n (wrFrame (BitVec.ofNat 2 rank) chk
        (bad.toNat >>> (2 * (n % 5))))) s.dbs }
  else s)

/-- DBC_RD (R113). -/
def execDbcRd (x : Sub) (rank : Fin 4) (s : State) : Out := .next (s.dbcCmd x (.rd (BitVec.ofNat 2 rank)))

/-- DBC_WIN_LO (R119). -/
def execDbcWinLo (x : Sub) (nib : BitVec 4) (s : State) : Out := .next (s.dbcCmd x (.winLo nib))

/-- DBC_WIN_HI (R119): the stored low nibble and this high nibble go to the host as MRR output. -/
def execDbcWinHi (x : Sub) (nib : BitVec 4) (s : State) : Out := .next (s.dbcCmd x (.winHi nib))

/-- DBC_TRAIN (R118). -/
def execDbcTrain (x : Sub) (mode : Fin 4) (s : State) : Out := .next (s.dbcCmd x (.train (BitVec.ofNat 2 mode)))

/-- DBC_SAMPLE (R122). -/
def execDbcSample (x : Sub) (pos : Fin 5) (drx : Bool) (s : State) : Out :=
  .next (s.dbcCmd x (.sample (BitVec.ofNat 3 pos) drx))

/-- DBC_TRIM_APPLY (R123). -/
def execDbcTrimApply (x : Sub) (s : State) : Out := .next (s.dbcCmd x .trimApply)

/-- DBC_HOLD (R120). -/
def execDbcHold (x : Sub) (s : State) : Out := .next (s.dbcCmd x .hold)

/-- DBC_RELEASE (R120). -/
def execDbcRelease (x : Sub) (s : State) : Out := .next (s.dbcCmd x .release)

/-- DBC_HOST_RESET (R120). -/
def execDbcHostReset (x : Sub) (s : State) : Out := .next (s.dbcCmd x .hostReset)

/-- DBC_FRAME_ERROR (R120): the buffers in `seen` received these two cycles, and the idle cycle after them; what spells a
frame they execute. -/
def execDbcFrameError (x : Sub) (seen : BitVec 5) (first second : BitVec 5) (s : State) : Out :=
  .next (if s.dbcOn then
    { s with dbs := (subDbs x).foldl (fun l n =>
        if seen.getLsbD (n % 5) then upd l n (dbcHear [first, second, 0]) else l) s.dbs }
  else s)

/-! ## Temperature (R117) -/

/-- A quarter-degree temperature from its twelve bits. -/
def tempOf (t : BitVec 12) : Int := t.toInt

/-- One conversion in a buffer: HOT at the limit, and off 5 °C below it. -/
def tempFrame (t : Int) (d : Db) : Db :=
  let lim := tempOf d.tempHi
  { d with temp := BitVec.ofInt 12 t, tempValid := true,
           hot := if lim ≤ t then true else if t ≤ lim - 20 then false else d.hot }

/-- DB_TEMP_CONVERSION (R117). -/
def execDbTempConversion (n : Fin 10) (temp : Int) (s : State) : Out :=
  .next (if s.pow.on.getLsbD 5 && !s.pow.straps.nodb then s.setDb n (tempFrame temp) else s)

/-- One buffer's part of the status poll. -/
def State.pollHot (s : State) (n : Nat) : State :=
  let s := s.zlbTry n
  if !s.reaches n then s else
  let d := s.db n
  let s := (s.warrenAccess n 0x008 0 (dbStatus d)).warrenAccess n 0x018 0 (s.dbTemp n)
  let was := s.zlb.hotSeen.getLsbD n
  let seen := BitVec.ofNat 10
    (if d.hot then s.zlb.hotSeen.toNat ||| 2 ^ n else s.zlb.hotSeen.toNat &&& (1023 - 2 ^ n))
  let s := { s with zlb := { s.zlb with hotSeen := seen } }
  if d.hot && !was then s.raise 12 (BitVec.ofNat 24 (n + 16 * d.temp.toNat))
  else if !d.hot && was then s.raise 15 (BitVec.ofNat 24 n) else s

/-- The hottest of the polled buffers; of buffers equally hot the lowest-numbered (log entry 84, DESIGN CHOICE). -/
def hottest (s : State) : List Nat → Option (Nat × Int)
  | [] => none
  | n :: r =>
    let t := (n, tempOf ((s.dbTemp n).setWidth 12))
    match hottest s r with
    | none => some t
    | some m => some (if m.2 ≤ t.2 then t else m)

/-- DB_STATUS_POLL (R117): EV12 on a rising HOT, EV15 when it clears, and DBM_TEMP_MAX without the unreachable. -/
def State.statusPoll (s : State) : State :=
  if !s.up || s.pow.straps.nodb || !s.pow.on.getLsbD 5 then s else
  let s := (List.range 10).foldl State.pollHot s
  let seen := (List.range 10).filter s.reaches
  match hottest s seen with
  | none => s
  | some m => { s with zlb := { s.zlb with tempMax := BitVec.ofInt 12 m.2, tempDb := BitVec.ofNat 4 m.1 } }

end Sys2Proof.Machine
end

