-- ==== Sys2Proof/Machine/Flt.lean ====
section
/-! DEFINITION. Fault windows and self-repair (11): folding, boundaries, actions, the repair list, what a DRAM reset
does to it, the restore from the fault history ring, and the FLT_ registers. -/

namespace Sys2Proof.Machine

/-! ## Training wants (R159) -/

/-- Ranks want maintenance training: EV20 when the mask leaves zero. -/
def State.wantRanks (s : State) (x : Sub) (m : Nat) : State :=
  let old := (s.tr x).want
  let new := old ||| BitVec.ofNat 4 m
  let s := s.setTr x (fun t => { t with want := new })
  if old = 0 && new != 0 then s.raise 20 (BitVec.ofNat 24 (subNo x)) else s

/-- The fitted, non-failed ranks of a subchannel. -/
def State.goodRanks (s : State) (x : Sub) : Nat :=
  maskOf ((List.range 4).map (fun k => s.rankFitted x k && !(s.tr x).rankFail.getLsbD k))

/-! ## Resources and records -/

/-- FLT_CFGc. -/
def State.fltCfg (s : State) (c : Nat) : Word := nth s.flt.cfg c 0

/-- The action bit of R263 is set for a class. -/
def State.acts (s : State) (c bit : Nat) : Bool := bitAt (s.fltCfg c) bit

/-- THRESH of a class. -/
def State.thresh (s : State) (c : Nat) : Nat := fld (s.fltCfg c) 23 16

/-- The window sum (R257). -/
def Res.sum (r : Res) : Nat := min 255 (r.buckets.foldl (fun a b => a + b.toNat) 0)

/-- Bytes 0x16 to 0x1D of a record of kind 1 or 2 (R271). -/
def suspectBytes : Option Suspect → List Byte
  | none => List.replicate 8 0
  | some u => [u.at_.bg.setWidth 8, u.at_.ba.setWidth 8] ++ leBytes 3 u.at_.row.toNat ++ [u.count, 0, 0]

/-- The sources of records whose class has the log action hand them to W9 (R272). -/
def State.logRes (s : State) (kind c i : Nat) : State :=
  if !s.acts c 24 then s else
  let r := s.res c i
  let s := s.setRes c i { r with changed := false, recLife := s.clk.life }
  s.faultRecord ⟨kind, c, i, s.clk.life, r.state, r.quiet, r.buckets, if kind = 4 then List.replicate 8 0 else suspectBytes r.suspect⟩

/-- Codes of a repair entry's status (FLT_REPAIR). -/
def repCode : RepStatus → Nat
  | .empty => 0 | .wanted => 1 | .applied => 2 | .reapply => 3 | .failed => 4

/-- Codes of a fault state (R258). -/
def fltCode : FltState → Nat
  | .none => 0 | .transient => 1 | .lasting => 2 | .was => 3

/-- A repair record (R271 kind 3). -/
def State.logRepair (s : State) (e : Nat) : State :=
  if !s.acts 0 24 then s else
  let r := nth s.flt.repairs e Repair.none
  s.faultRecord ⟨3, 0, r.device, s.clk.life, .none, 0, List.replicate 8 0,
    [BitVec.ofNat 8 e, r.at_.bg.setWidth 8, r.at_.ba.setWidth 8] ++ leBytes 3 r.at_.row.toNat
      ++ [BitVec.ofNat 8 (repCode r.status), r.applied]⟩

/-- Changes one repair entry, with its record. -/
def State.setRepair (s : State) (e : Nat) (r : Repair) : State :=
  { s with flt := { s.flt with repairs := upd s.flt.repairs e (fun _ => r) } }.logRepair e

/-! ## Repairs (R264 to R267) -/

/-- The subchannel of a DRAM device. -/
def devSub (i : Nat) : Sub := if i < 160 then .a else .b

/-- A place of the repair list is free: empty, and no unit runs that FLT_CMD FORGET took the entry from (log entry 104,
DESIGN CHOICE). -/
def State.repairFree (s : State) (e : Nat) : Bool :=
  (nth s.flt.repairs e Repair.none).status == .empty && s.flt.busyA != some e && s.flt.busyB != some e

/-- A wanted repair is refused: the list is full, or an entry holds the same die and bank group (R264). -/
def State.repairRefused (s : State) (dev : Nat) (a : RowAddr) : Bool :=
  !(List.range 32).any s.repairFree
    || s.flt.repairs.any (fun r => r.status != .empty && r.device == dev && r.at_.bg == a.bg)

/-- A repair is wanted: the first empty entry takes it, or it is refused with EV47 (R264). -/
def State.wantRepair (s : State) (dev : Nat) (a : RowAddr) : State :=
  if s.repairRefused dev a then
    { s with flt := { s.flt with lastFail := 4 } }.raise 47 (BitVec.ofNat 24 dev)
  else
    let e := (List.range 32).findIdx s.repairFree
    let s := { s with flt := { s.flt with nextAge := s.flt.nextAge + 1 } }
    (s.setRepair e ⟨.wanted, dev, a, 0, s.flt.nextAge⟩).raise 44 (BitVec.ofNat 24 e)

/-- The repair test of a LASTING DRAM device (R264). -/
def State.repairTest (s : State) (i : Nat) : State :=
  let r := s.res 0 i
  match r.suspect with
  | none => s
  | some u =>
    if r.state == .lasting && s.acts 0 26 && 2 ≤ u.count.toNat && s.fnOn .pprAuto
        && !s.flt.repairs.any (fun p => p.status != .empty && p.device == i && p.at_ == u.at_)
    then s.wantRepair i u.at_ else s

/-- The entry a repair unit on a subchannel takes: re-application first, then wanted, oldest first (R265). -/
def State.nextRepair (s : State) (x : Sub) : Option Nat :=
  let pick := fun (st : RepStatus) =>
    ((List.range 32).filter (fun e => let r := nth s.flt.repairs e Repair.none
      r.status == st && devSub r.device == x)).foldl (fun (b : Option Nat) e => match b with
        | none => some e
        | some m => if (nth s.flt.repairs e Repair.none).age < (nth s.flt.repairs m Repair.none).age
            then some e else some m) none
  match pick .reapply with
  | some e => some e
  | none => pick .wanted

/-- A repair unit runs on a subchannel. -/
def State.repairBusy (s : State) : Sub → Option Nat
  | .a => s.flt.busyA | .b => s.flt.busyB

/-- A repair unit starts or ends on a subchannel. -/
def State.setBusy (s : State) (x : Sub) (e : Option Nat) : State :=
  match x with
  | .a => { s with flt := { s.flt with busyA := e } }
  | .b => { s with flt := { s.flt with busyB := e } }

/-- The buffers of a subchannel read bursts into their save stores, or have them written back (R161, R265). -/
def State.saveStore (s : State) (x : Sub) (on : Bool) : State := s.dbcAll x (fun d => { d with saved := on })

/-- A repair unit starts: the target row of every package of its rank goes into the save stores (R265). -/
def State.repairStart (s : State) (x : Sub) (e : Nat) : State := (s.saveStore x true).setBusy x (some e)

/-- A repair unit is over: its save stores hold nothing any more. -/
def State.repairStop (s : State) (x : Sub) : State :=
  if (s.repairBusy x).isNone then s else (s.setDbs x (fun d => { d with saved := false })).setBusy x none

/-- A repair unit ends with its compare (R265); one whose entry was forgotten meanwhile marks nothing (log entry 104). -/
def State.repairDone (s : State) (x : Sub) (pass : Bool) : State :=
  match s.repairBusy x with
  | none => s
  | some e =>
    let s := s.repairStop x
    let r := nth s.flt.repairs e Repair.none
    if r.status == .empty then s
    else if pass then
      (s.setRepair e { r with status := .applied, applied := satAdd r.applied 1 }).raise 42 (BitVec.ofNat 24 e)
    else
      let s := { s with flt := { s.flt with lastFail := 1 } }
      (s.setRepair e { r with status := .failed }).raise 43 (BitVec.ofNat 24 (e + 32))

/-- A repair unit is abandoned by HRST (11 'When it goes wrong'): the entry keeps its status. -/
def State.repairAbandon (s : State) (x : Sub) : State :=
  if (s.repairBusy x).isNone then s else
  let s := s.repairStop x
  { s with flt := { s.flt with lastFail := 3 } }

/-- PFAIL stops a repair unit: LAST_FAIL 2 now, EV43 at the next ready (11 'When it goes wrong'). -/
def State.repairCut (s : State) (x : Sub) : State :=
  match s.repairBusy x with
  | none => s
  | some e =>
    let s := s.repairStop x
    { s with flt := { s.flt with lastFail := 2, cutEntry := some e } }

/-- DRAM contents are lost: applied repairs await re-application, and the next ECS read only sets the baseline
(R266, R261). -/
def State.repairsLost (s : State) (x : Sub) : State :=
  let s := s.setSub x (fun t => { t with ecsBase := false })
  (List.range 32).foldl (fun s e =>
    let r := nth s.flt.repairs e Repair.none
    if r.status == .applied && devSub r.device == x then s.setRepair e { r with status := .reapply } else s) s

/-! ## Counting (R258, R260) -/

/-- Lane retrain of a class 1 or 2 resource (R268): wants, and a re-centre unless one runs already. -/
def State.retrain (s : State) (c i : Nat) : State :=
  let x : Sub := if c = 1 then dbSub (i / 2) else if i = 0 then .a else .b
  let s := s.wantRanks x (s.goodRanks x)
  if s.fnOn .liveTrim && !s.trim.recentre.any (fun r => r.1 == resKey c i) then
    { s with trim := { s.trim with recentre := s.trim.recentre ++ [(resKey c i, 0)] } }
  else s

/-- The actions at entry to LASTING (R263). -/
def State.lastingActions (s : State) (c i : Nat) : State :=
  let s := if s.acts c 25 then s.raise 40 (BitVec.ofNat 24 (c + 8 * i)) else s
  let s := if c = 0 && s.acts c 26 then s.repairTest i else s
  let s := if (c = 1 || c = 2) && s.acts c 27 then s.retrain c i else s
  if c = 3 && s.acts c 28 then s.markUnreach i else s

/-- The state of a resource after a count or at a boundary: LASTING from the threshold on. -/
def judged (r : Res) (t : Nat) (st : FltState) : FltState := if t ≤ r.sum then .lasting else st

/-- A resource takes a new value: a change of state is recorded and acts (R258, R263, R272). -/
def State.moveRes (s : State) (c i : Nat) (r : Res) (st : FltState) : State :=
  let old := (s.res c i).state
  let r := { r with state := st, quiet := if st == .lasting && old != .lasting then 0 else r.quiet }
  let s := s.setRes c i r
  if st == old then s else
  let s := s.logRes 2 c i
  let s := if st == .lasting then s.lastingActions c i else s
  if old == .lasting && st == .was && s.acts c 25 then s.raise 41 (BitVec.ofNat 24 (c + 8 * i)) else s

/-- `k` counts join the current bucket (R257, R258); in LASTING each count makes the repair test again. -/
def State.count (s : State) (c i k : Nat) : State :=
  let r := s.res c i
  let r := { r with buckets := upd r.buckets 7 (fun b => satAdd b k), quiet := 0, pend := 0, changed := true }
  let s := s.moveRes c i r (judged r (s.thresh c) (if r.state == .none then .transient else r.state))
  if r.state == .lasting && c = 0 then s.repairTest i else s

/-- The stored resources of a class. -/
def State.listed (s : State) (c : Nat) : List Nat :=
  (s.flt.res.filter (fun e => e.1 / 512 == c)).map (fun e => e.1 % 512)

/-- A snapshot is due: buckets have changed, and 60 minutes have passed since the resource's last record (R272). -/
def State.snapshotOne (s : State) (c i : Nat) : State :=
  let r := s.res c i
  if r.changed && r.recLife.toNat + 3600 ≤ s.clk.life.toNat then s.logRes 1 c i else s

/-- The fold of every resource's pending count (R260). -/
def State.fold (s : State) : State :=
  s.flt.res.foldl (fun s e =>
    let c := e.1 / 512
    let i := e.1 % 512
    let k := (s.res c i).pend.toNat
    (if k = 0 then s else s.count c i k).snapshotOne c i) s

/-- One resource at a boundary of its class (R257, R258). -/
def State.boundaryOne (c : Nat) (s : State) (i : Nat) : State :=
  let r := s.res c i
  let quiet := if nth r.buckets 7 0 = 0 && r.state != .none then min 16 (r.quiet + 1) else 0
  let b := r.buckets.drop 1 ++ [0]
  let r' := { r with buckets := b, quiet := quiet, changed := r.changed || b != r.buckets }
  let st : FltState :=
    match r.state with
    | .transient => if r'.sum = 0 then .none else .transient
    | .lasting => if 16 ≤ quiet then .was else .lasting
    | st => st
  let st := if r.state == .lasting then st else judged r' (s.thresh c) st
  s.moveRes c i (if st == .none then { r' with quiet := 0 } else r') st

/-- A bucket boundary of a class (R257). -/
def State.boundary (s : State) (c : Nat) : State := (s.listed c).foldl (State.boundaryOne c) s

/-- FLT_CMD CLEAR of one resource (R258, R272). -/
def State.clearRes (s : State) (c i : Nat) : State :=
  let log := s.acts c 24
  let s := s.setRes c i { Res.fresh with pend := (s.res c i).pend, recLife := if log then s.clk.life else 0 }
  if log then s.faultRecord ⟨4, c, i, s.clk.life, .none, 0, List.replicate 8 0, List.replicate 8 0⟩ else s

/-- FLT_CMD CLEAR of a class: its resources that hold anything. -/
def State.clearClass (s : State) (c : Nat) : State := (s.listed c).foldl (fun s i => s.clearRes c i) s

/-- FLT_CMD CLEAR ALL (R258, R260). -/
def State.clearAll (s : State) : State :=
  let s := (List.range 6).foldl State.clearClass s
  { s with flt := { s.flt with saturated := false } }

/-- A faulty row is named (R262). -/
def State.suspectRow (s : State) (i : Nat) (a : RowAddr) : State :=
  let r := s.res 0 i
  s.setRes 0 i { r with suspect := some (match r.suspect with
    | some u => if u.at_ = a then ⟨a, satAdd u.count 1⟩ else ⟨a, 1⟩
    | none => ⟨a, 1⟩) }

/-! ## Restore from the ring (R273) -/

/-- The suspect row that a record's bytes hold. -/
def suspectOf (t : List Byte) : Option Suspect :=
  let c : BitVec 8 := nth t 5 0
  if c = 0 then none
  else some ⟨⟨(nth t 0 0).setWidth 3, (nth t 1 0).setWidth 2, BitVec.ofNat 18 (leNat ((t.drop 2).take 3))⟩, c⟩

/-- One record, oldest first, applied to the restored state; the current bucket starts fresh at a new boundary. -/
def State.restoreRec (s : State) (r : FaultRec) : State :=
  if r.kind = 1 || r.kind = 2 || r.kind = 4 then
    let old := s.res r.cls r.index
    s.setRes r.cls r.index { old with state := r.state, quiet := r.quiet, buckets := r.buckets.drop 1 ++ [0],
                                      suspect := suspectOf r.tail, recLife := if r.state == .none then 0 else r.life }
  else if r.kind = 3 then
    let st : RepStatus := match (nth r.tail 6 0).toNat with
      | 1 => .wanted | 2 => .applied | 3 => .reapply | 4 => .failed | _ => .empty
    let a : RowAddr := ⟨(nth r.tail 1 0).setWidth 3, (nth r.tail 2 0).setWidth 2,
                        BitVec.ofNat 18 (leNat ((r.tail.drop 3).take 3))⟩
    { s with flt := { s.flt with repairs := upd s.flt.repairs (nth r.tail 0 0).toNat
                                   (fun _ => if st == .empty then Repair.none else ⟨st, r.index, a, nth r.tail 7 0, s.flt.nextAge⟩),
                                 nextAge := s.flt.nextAge + 1 } }
  else s

/-! ## Registers (R274) -/

/-- The sub-table of FLT_CFGc fields that a class admits (R263). -/
def actionOk (c v : Nat) : Bool :=
  (v &&& (3 ||| (if c = 0 then 4 else 0) ||| (if c = 1 || c = 2 then 8 else 0) ||| (if c = 3 then 16 else 0))) == v

/-- A write of FLT_CFGc (R259): a new WINDOW_MIN zeroes the buckets and QUIET counts of the class. -/
def State.writeCfg (s : State) (c : Nat) (v : Word) : State :=
  let moved := fld v 15 0 != fld (s.fltCfg c) 15 0
  let s := { s with flt := { s.flt with cfg := upd s.flt.cfg c (fun _ => v) } }
  if moved then
    (s.listed c).foldl (fun s i => let r := s.res c i
      s.setRes c i { r with buckets := List.replicate 8 0, quiet := 0, changed := r.changed || r.sum != 0 }) s
  else s

/-- The selected resource of a path. -/
def State.resSel (s : State) (p : Path) : Nat × Nat := ((s.sel p).fltClass.toNat, (s.sel p).fltIndex.toNat)

/-- FLT_CMD REPAIR_NOW is accepted (R267). -/
def State.repairNowOk (s : State) (c i : Nat) : Bool :=
  c == 0 && s.resPresent c i && (match (s.res c i).suspect with
    | some u => !s.repairRefused i u.at_
    | none => false)

/-- A value of FLT_CMD is in range (FLT_CMD KEY). -/
def State.fltCmdOk (s : State) (p : Path) (v : Nat) : Bool :=
  let op := v % 16
  let entry := v / 16 % 32
  v / 65536 == 0xF17C && v / 512 % 128 == 0 && (op == 5 || entry == 0)
    && (match op with
        | 1 => true | 2 => true | 3 => true
        | 4 => s.regOn .pprAuto && s.repairNowOk (s.resSel p).1 (s.resSel p).2
        | 5 => s.regOn .pprAuto
        | 6 => s.offers .retain
        | _ => false)

/-- What an accepted FLT_CMD does. -/
def State.fltCmd (s : State) (p : Path) (v : Word) : State :=
  let c := (s.resSel p).1
  let i := (s.resSel p).2
  match fld v 3 0 with
  | 1 => s.clearRes c i
  | 2 => s.clearClass c
  | 3 => s.clearAll
  | 4 => match (s.res c i).suspect with
    | some u => s.wantRepair i u.at_
    | none => s
  | 5 => if (nth s.flt.repairs (fld v 8 4) Repair.none).status == .empty then s else s.setRepair (fld v 8 4) Repair.none
  | 6 => { s with flt := { s.flt with test := { s.flt.test with due := true } } }
  | _ => s

/-- FLT_RES. -/
def State.fltRes (s : State) (c i : Nat) : Word :=
  if !s.resPresent c i then 0 else
  let r := s.res c i
  packWord [(0, fltCode r.state), (2, r.quiet), (8, r.sum), (16, (nth r.buckets 7 0).toNat)]

/-- FLT_RES_ROW. -/
def State.fltRow (s : State) (c i : Nat) : Word :=
  match (s.res c i).suspect with
  | some u => if c = 0 && s.resPresent c i then
      packWord [(0, u.at_.bg.toNat), (3, u.at_.ba.toNat), (5, u.at_.row.toNat), (23, u.count.toNat), (31, 1)] else 0
  | none => 0

/-- A resource that is there stands in a state (R256). -/
def State.isIn (s : State) (st : FltState) (e : Nat × Res) : Bool := e.2.state == st && s.resPresent (e.1 / 512) (e.1 % 512)

/-- Whether some resource of a class is in a state. -/
def State.anyIn (s : State) (c : Nat) (st : FltState) : Bool := s.flt.res.any (fun e => e.1 / 512 == c && s.isIn st e)

/-- The resources in a state, over all classes. -/
def State.countIn (s : State) (st : FltState) : Nat := (s.flt.res.filter (s.isIn st)).length

/-- An entry on a subchannel is WANTED or REAPPLY (FLT_REPAIR_STATUS.WANT_x). -/
def State.repairWant (s : State) (x : Sub) : Bool :=
  s.flt.repairs.any (fun r => (r.status == .wanted || r.status == .reapply) && devSub r.device == x)

/-- FLT_REPAIR_STATUS. -/
def State.repairStatus (s : State) : Word :=
  packWord [(0, (s.flt.repairs.filter (fun r => r.status != .empty)).length), (8, (s.repairWant .a).toNat),
    (9, (s.repairWant .b).toNat), (10, s.flt.busyA.isSome.toNat), (11, s.flt.busyB.isSome.toNat),
    (12, s.flt.lastFail.toNat)]

/-- The FLT_ registers as path `p` finds them. -/
def fltReg (p : Path) (a : Nat) (s : State) : Option RegDef :=
  let sel := s.resSel p
  let rep := nth s.flt.repairs (s.sel p).fltEntry.toNat Repair.none
  if !s.regOn .faultWindows then none
  else if a = 0x1408 then
    some (RegDef.ro (packWord [(0, maskOf ((List.range 6).map (fun c => s.anyIn c .lasting))),
      (8, maskOf ((List.range 6).map (fun c => s.anyIn c .was))), (14, s.flt.saturated.toNat),
      (15, s.flt.restored.toNat)]))
  else if a = 0x140C then some (RegDef.ro (packWord [(0, s.countIn .lasting), (16, s.countIn .was)]))
  else if 0x1410 ≤ a && a < 0x1428 then
    let c := (a - 0x1410) / 4
    if c = 5 && !s.offers .retain then none else
    some { flds := [Fld.kept' 15 0 (fun w => 1 ≤ w && w ≤ 43200), Fld.kept' 23 16 (1 ≤ ·), Fld.kept' 28 24 (actionOk c)],
           read := s.fltCfg c, write := fun v s => s.writeCfg c v }
  else if a = 0x1430 then
    some { flds := [Fld.rng 2 0 (· ≤ 5), Fld.any .rw 24 16],
           read := packWord [(0, sel.1), (16, sel.2)],
           whole := fun v => resIndexOk (v % 8) (v / 65536 % 512),
           write := fun v s => s.setSel p (fun x => { x with fltClass := v.setWidth 3, fltIndex := (v >>> 16).setWidth 9 }) }
  else if a = 0x1434 then some (RegDef.ro (s.fltRes sel.1 sel.2))
  else if a = 0x1438 then some (RegDef.ro (s.fltRow sel.1 sel.2))
  else if a = 0x143C then
    some { flds := [⟨31, 0, .wo, false, s.fltCmdOk p⟩], read := 0, write := fun v s => s.fltCmd p v }
  else if a = 0x1440 && s.regOn .pprAuto then
    some { flds := [Fld.any .rw 4 0], read := (s.sel p).fltEntry.setWidth 32,
           write := fun v s => s.setSel p (fun x => { x with fltEntry := v.setWidth 5 }) }
  else if a = 0x1444 && s.regOn .pprAuto then
    some (RegDef.ro (packWord [(0, repCode rep.status), (4, rep.device), (13, rep.at_.bg.toNat), (16, rep.at_.ba.toNat)]))
  else if a = 0x1448 && s.regOn .pprAuto then
    some (RegDef.ro (packWord [(0, rep.at_.row.toNat), (24, rep.applied.toNat)]))
  else if a = 0x144C && s.regOn .pprAuto then some (RegDef.ro s.repairStatus)
  else if a = 0x1450 && s.offers .retain then
    some { flds := [Fld.kept' 9 0 (· ≤ 720), Fld.kept' 17 10 (fun x => 50 ≤ x && x ≤ 100),
                    Fld.kept' 29 18 (fun x => 10 ≤ x && x ≤ 2000)],
           read := s.flt.pack, write := fun v s => { s with flt := { s.flt with pack := v } } }
  else if a = 0x1454 && s.offers .retain then
    some (RegDef.ro (packWord [(0, s.flt.test.c.toNat), (10, s.flt.test.esr.toNat), (22, s.flt.test.outcome.toNat),
      (24, s.flt.test.busy.toNat)]))
  else none

/-! ## Rows -/

/-- FAULT_FOLD (R260). -/
def execFaultFold (s : State) : Out := .next (if s.up && s.fnOn .faultWindows then s.fold else s)

/-- FAULT_BUCKET_BOUNDARY (R257). -/
def execFaultBucketBoundary (c : Fin 6) (s : State) : Out :=
  .next (if s.up && s.fnOn .faultWindows then s.boundary c else s)

/-- REPAIR_UNIT_DONE (R265). -/
def execRepairUnitDone (x : Sub) (pass : Bool) (s : State) : Out := .next (if s.up then s.repairDone x pass else s)

/-- PACK_TEST_DUE (R270). -/
def execPackTestDue (s : State) : Out :=
  .next (if s.up && s.offers .retain && s.fnOn .faultWindows && fld s.flt.pack 9 0 != 0 && !s.flt.test.busy then
    { s with flt := { s.flt with test := { s.flt.test with due := true } } }
  else s)

end Sys2Proof.Machine
end

