-- ==== Sys2Proof/Machine/HostOps.lean ====
section
/-! DEFINITION. The host command path (04): parity and ALERT_n, ownership, re-drive and the mode-register shadow, the
staging of the hub window, reports on DBE_x_n, and the HST_ and DRM_ registers. -/

namespace Sys2Proof.Machine

/-! ## Reports on their way to WCLK (R63, R90, R115) -/

/-- The mismatches that DBD_CRC_COUNT gained since its last reading join the DQ lane class; the first reading counts
nothing (R115). -/
def State.attributeOne (s : State) (n : Nat) : State :=
  let s := s.zlbTry n
  if !s.reaches n then s else
  let now := ((s.db n).crc0, (s.db n).crc1)
  let s := s.warrenAccess n 0x010 0 (packWord [(0, now.1.toNat), (16, now.2.toNat)])
  let gain := fun (a b : BitVec 16) => if a.toNat < b.toNat then a.toNat else a.toNat - b.toNat
  let s := match nth s.zlb.lastCrc n none with
    | some old => (s.fault 1 (2 * n) (gain now.1 old.1)).fault 1 (2 * n + 1) (gain now.2 old.2)
    | none => s
  { s with zlb := { s.zlb with lastCrc := upd s.zlb.lastCrc n (fun _ => some now) } }

/-- W4 or W5 reads DBD_CRC_COUNT of a subchannel's buffers. -/
def State.attribute (s : State) (x : Sub) : State := (subDbs x).foldl State.attributeOne s

/-- The management side takes a report that has crossed into WCLK (R90, R115, R120): the fault class and the event of a
parity error; the event of a pulse on DBE_x_n and the reading of the buffers' counters, since a long pulse may hold
mismatches too (R121). -/
def State.reportTaken (s : State) (r : Report) : State :=
  match r with
  | .parity x => (s.fault 2 (subNo x) 1).raise 0 (BitVec.ofNat 24 (subNo x))
  | .dbe x frame =>
    let s := s.raise (if frame then 9 else 8) (BitVec.ofNat 24 (subNo x))
    if s.up then s.attribute x else s

/-- A report enters the crossing (R63): it is taken at once while WCLK runs, waits while WCLK is gated, and is not
queued behind 16 that wait. -/
def State.report (s : State) (r : Report) : State :=
  if s.clk.mpllLock then s.reportTaken r
  else if s.host.reports.length < 16 then { s with host := { s.host with reports := s.host.reports ++ [r] } }
  else s

/-- WCLK runs again: the reports that waited are taken, oldest first (R63). -/
def State.reportsDrain (s : State) : State :=
  s.host.reports.foldl State.reportTaken { s with host := { s.host with reports := [] } }

/-! ## ALERT_n (R90 to R93) -/

/-- ALERT_n is held low by a STOPPED subchannel (R93). -/
def State.alertHeld (s : State) : Bool := s.subA.owner == .stopped || s.subB.owner == .stopped

/-- ALERT_n is low. -/
def State.alertLow (s : State) : Bool := s.alertHeld || s.host.pulse.isSome

/-- A trigger of one kind (R92): it waits for its pulse; while one of its kind waits it sets MERGED; while ALERT_n is
held low it queues nothing. -/
def State.alertTrigger (s : State) (k : Pulse) : State :=
  if s.alertHeld then s else
  match k with
  | .parity => if s.host.waitPar then { s with host := { s.host with merged := true } }
               else { s with host := { s.host with waitPar := true } }
  | .crc => if s.host.waitCrc then { s with host := { s.host with merged := true } }
            else { s with host := { s.host with waitCrc := true } }

/-- A cause bit of HST_ALERT_CAUSE [3:0] is set. -/
def State.setCause (s : State) (bit : Nat) : State :=
  { s with host := { s.host with cause := s.host.cause ||| BitVec.ofNat 4 (2 ^ bit) } }

/-- Every fitted rank of a subchannel takes a state. -/
def State.setRanks (s : State) (x : Sub) (st : RankSt) : State :=
  s.setSub x (fun t => { t with ranks := t.ranks.map (fun r => if r == .absent then r else st) })

/-- The ZX8-R itself drives a command on every rank of a subchannel (R83 'Generated'). -/
def genDrive (k : CmdKind) (ranks : BitVec 4) : YDrive :=
  { kind := k, ranks := ranks, ca1 := 0, ca2 := none, cid := 0, mr := 0, op := 0, delay := 0 }

/-- The ZX8-R generates commands on every fitted rank of a subchannel (R83, R85): the last of them is what the bus
carries. -/
def SubSt.issue (t : SubSt) (ranks : BitVec 4) (cs : List (CmdKind × Nat)) : SubSt :=
  { t with gen := cs.map (fun c => (genDrive c.1 ranks, c.2)), drive := (cs.getLast?).map (fun c => genDrive c.1 ranks) }

/-- The ranks of a subchannel as a mask. -/
def State.rankMask (s : State) (x : Sub) : BitVec 4 := BitVec.ofNat 4 ((s.drmCfg x).toNat % 16)

/-- Commands generated on a subchannel. -/
def State.issue (s : State) (x : Sub) (cs : List (CmdKind × Nat)) : State := s.setSub x (·.issue (s.rankMask x) cs)

/-- A parity error on a subchannel in parity-stop mode stops it (R86, R93): PREab, then SRE, on every rank. -/
def State.parityStop (s : State) (x : Sub) : State :=
  let s := ((s.trimLeave x).setRanks x .selfRefresh).issue x [(.preAb, 1), (.sre, 1)]
  let s := s.setSub x (fun t => { t with owner := .stopped })
  { s with host := { s.host with waitPar := false, waitCrc := false } }.raise 1 (BitVec.ofNat 24 (subNo x))

/-- One parity error (R90). -/
def State.parityError (s : State) (x : Sub) : State :=
  let s := s.setSub x (fun t => { t with parCount := satAdd t.parCount 1 })
  let s := (s.setCause (subNo x)).report (.parity x)
  if s.host.parStop && (s.sub x).owner == .host then s.parityStop x else s.alertTrigger .parity

/-- STOP_x is released (R86): SRX, the subchannel is back with the host, and ALERT_n follows. -/
def State.stopFree (s : State) (x : Sub) : State :=
  if (s.sub x).owner == .stopped then
    ((s.setRanks x .active).issue x [(.srx, 1)]).setSub x (fun t => { t with owner := .host })
  else s

/-! ## The mode-register shadow (R84, R114) -/

/-- A passed MRW in the shadow of a rank (log entry 4: the registers and bits are those of JESD79-5). -/
def MrShadow.take (m : MrShadow) (mr op : Byte) : MrShadow :=
  if mr = 0 then
    let rl := 22 + 2 * (op.toNat / 4 % 32)
    { m with bl := op.setWidth 2, rl := BitVec.ofNat 7 rl, wl := BitVec.ofNat 7 (rl - 2) }
  else if mr = 4 then { m with fgr := op.getLsbD 4 }
  else if mr = 50 then { m with crc := op.getLsbD 1 }
  else m

/-- The lowest fitted rank of a subchannel. -/
def State.lowRank (s : State) (x : Sub) : Nat := ((onesOf 4 (s.drmCfg x).toNat).head?).getD 0

/-- What the buffers of a subchannel are to hold in DBD_CFG (R114). -/
def State.bufCfg (s : State) (x : Sub) : Word :=
  let m := nth (s.sub x).shadow (s.lowRank x) MrShadow.fresh
  packWord [(0, m.wl.toNat), (8, m.rl.toNat), (15, m.crc.toNat), (16, s.host.latActive.toNat)]

/-- The copy of WL, RL, CRC_EN and LAT into every buffer of a subchannel over the ZLB (R114); in no-DB mode no buffer is addressed (R132). -/
def State.copyCfg (s : State) (x : Sub) : State :=
  if s.pow.straps.nodb then s else
  (subDbs x).foldl (fun s n =>
    let s := s.zlbTry n
    if s.reaches n then (s.warrenAccess n 0x00C (s.bufCfg x) 0).setDb n (fun d => { d with cfg := s.bufCfg x }) else s) s

/-- A passed MRW takes effect in the shadow of the ranks it names, and the buffers follow when their copy changes. -/
def State.shadowMrw (s : State) (x : Sub) (ranks : BitVec 4) (mr op : Byte) : State :=
  let old := s.bufCfg x
  let s := s.setSub x (fun t => { t with shadow := t.shadow.zipIdx.map (fun e =>
    if ranks.getLsbD e.2 then e.1.take mr op else e.1) })
  if s.bufCfg x = old then s else s.copyCfg x

/-! ## Re-drive (R80 to R83, R87) -/

/-- The chip ID as it is re-driven (R82). -/
def State.cidOut (s : State) (cid : BitVec 2) : BitVec 2 := if s.fnOn .ranks3ds then cid else 0

/-- The latency in force in HCK (R80). -/
def State.latency (s : State) : Nat := if s.host.latActive then 2 else 1

/-- A command as it leaves on YCA and YCS_n. -/
def State.redrive (s : State) (c : HostCycle) (kind : CmdKind) (mr op : Byte) : YDrive :=
  { kind := kind, ranks := c.cs, ca1 := c.ca1, ca2 := c.second.map (·.1), cid := s.cidOut c.cid, mr := mr, op := op,
    delay := s.latency }

/-- The rank states a passed command leaves: SRE and SRX move the ranks it selects. -/
def passRanks (k : CmdKind) (cs : BitVec 4) (rs : List RankSt) : List RankSt :=
  rs.zipIdx.map (fun e => if e.1 == .absent || !cs.getLsbD e.2 then e.1 else
    match k with
    | .sre => .selfRefresh
    | .srx => .active
    | _ => e.1)

/-- The rank that a command's HCS_n selects: of several, the lowest (log entry 80, DESIGN CHOICE). -/
def csRank (cs : BitVec 4) : Nat := ((onesOf 4 cs.toNat).head?).getD 0

/-- The DBC frame that goes with a re-driven command (R119): WR with CHK as the rank's write CRC stands (log entry 88,
DEDUCED), RD, and RD for an MRR. -/
def State.burstFrame (s : State) (x : Sub) (k : CmdKind) (cs : BitVec 4) : State :=
  let r := csRank cs
  match k with
  | .wr | .wrp => s.dbcCmd x (.wr (BitVec.ofNat 2 r) (nth (s.sub x).shadow r MrShadow.fresh).crc)
  | .rd | .mrr => s.dbcCmd x (.rd (BitVec.ofNat 2 r))
  | _ => s

/-- A command of the passed class in state HOST: re-driven unchanged, its burst opened in the buffers (R119); an MRR
brings the DRAM's byte (R83). -/
def State.pass (s : State) (x : Sub) (c : HostCycle) : State :=
  let s := s.burstFrame x c.kind c.cs
  let s := s.setSub x (fun t => { t with drive := some (s.redrive c c.kind c.mr c.op),
                                         ranks := passRanks c.kind c.cs t.ranks,
                                         hostDq := if c.kind == .mrr then some c.data else t.hostDq })
  if c.kind == .mrw then s.shadowMrw x c.cs c.mr c.op else s

/-- The slot is held: YCS_n high (R83). -/
def State.hold (s : State) (x : Sub) : State := s.setSub x (fun t => { t with drive := none })

/-- A command blocked because its subchannel is not with the host (R87). -/
def State.drop (s : State) (x : Sub) : State :=
  (s.setSub x (fun t => { t with drive := none, dropCount := satAdd t.dropCount 1 })).raise 4 (BitVec.ofNat 24 (subNo x))

/-- A command cycle has odd parity over HCA and HPAR (R88). -/
def parityBad (ca : BitVec 14) (par : Bool) : Bool :=
  (((List.range 14).filter (fun i => ca.getLsbD i)).length + par.toNat) % 2 == 1

/-- The host side samples commands of a subchannel: PD3 on, RESET_n high, HCK present (R76, R63). -/
def State.samples (s : State) : Bool := s.pd3 && s.host.resetHigh && s.clk.hckOk

/-- Commands of a subchannel are discarded (R45, R71, R87). -/
def State.discards (s : State) (x : Sub) : Bool :=
  s.host.caBlock || s.host.pd3Fault || (s.sub x).owner == .blocked

/-! ## The hub window's staging (R95 to R102) -/

/-- The window of a subchannel acts: management is ready, HUBWIN behaves as present and the subchannel is not
BLOCKED (R74, R33, R87). -/
def State.winOn (s : State) (x : Sub) : Bool := s.up && s.pd3 && s.regOn .hubwin && !s.discards x

/-- A window command in its slot (R76, R83, R87): nothing is sampled while RESET_n is low or HCK absent; YCS_n is held
high; a discarded command does nothing else. -/
def State.winSlot (s : State) (x : Sub) (f : State → State) : State :=
  if !s.samples then s else if s.discards x then s.hold x else f (s.hold x)

/-- Changes the window of a subchannel. -/
def State.setWin (s : State) (x : Sub) (f : Win → Win) : State := s.setSub x (fun t => { t with win := f t.win })

/-- The capture FIFO is full (R107). -/
def Win.full (w : Win) : Bool := 8 ≤ w.commits.length

/-- An MRW to the window is taken: it acts, and the capture FIFO is not full (R107). -/
def State.winTakes (s : State) (x : Sub) : Bool := s.winOn x && !(s.sub x).win.full

/-- A fetch is launched (R97). -/
def Win.launch (w : Win) : Win := { w with rvalid := false, fetch := true }

/-- MRW to MR 0xF0 or 0xF1 (R95). -/
def Win.address (w : Win) (high : Bool) (op : Byte) : Win :=
  { w with addr := if high then op ++ w.addr.setWidth 8 else ((w.addr >>> 8).setWidth 8 : BitVec 8) ++ op,
           opened := true }.launch

/-- Write staging with byte `i` replaced. -/
def setByte (v : Word) (i : Nat) (b : Byte) : Word := setFld v (8 * i + 7) (8 * i) b.toNat

/-- MRW to MR 0xF5 (R96, R98): byte 3, then the commit is captured at the staged address, which moves on with AINC. -/
def Win.commit (w : Win) (ainc : Bool) (op : Byte) : Win :=
  let v := setByte w.stage 3 op
  { w with stage := v, commits := w.commits ++ [(w.addr, v)], opened := false,
           addr := if ainc then w.addr + 4 else w.addr, rvalid := w.rvalid && !ainc }

/-- What the host samples for an MRR through the buffers is undefined: without buffers or their supply (R20, R66, R99),
where DB_PRESENT is not offered, during a Resume (R103) and in a GRANTED subchannel (R104). From MRST to management ready
the offer says nothing, and the buffers still drive (R74). -/
def State.winUndefined (s : State) (x : Sub) : Bool :=
  s.pow.straps.nodb || !s.pow.on.getLsbD 5 || s.host.pd5Fault || (s.mgmtReady && !s.offers .dbPresent)
    || s.host.resume.isSome || (s.sub x).owner == .granted

/-- A byte goes to the host over DBC and the buffers (R99, R119), or the host samples an undefined value. -/
def State.winDrive (s : State) (x : Sub) (b : Byte) : State :=
  if s.winUndefined x then (s.setSub x (fun t => { t with hostDq := some (s.freeVal 8) })).took
  else
    let s := (s.dbcCmd x (.winLo (b.setWidth 4))).dbcCmd x (.winHi ((b >>> 4).setWidth 4))
    s.setSub x (fun t => { t with hostDq := some b })

/-- CMD_BUSY of a window (R99). -/
def State.cmdBusy (s : State) (x : Sub) : Bool := s.host.resume.isSome || (s.sub x).grant.isSome

/-- The window status byte (R99). -/
def State.winStatus (s : State) (x : Sub) : Byte :=
  let t := s.sub x
  BitVec.ofNat 8 (t.win.rvalid.toNat + 2 * (!t.win.commits.isEmpty).toNat + 4 * (s.cmdBusy x).toNat
    + 8 * (t.owner == .granted).toNat + 16 * (t.owner == .host).toNat + 32 * (t.owner == .stopped).toNat
    + 64 * t.win.result.toNat)

/-! ## Reports on DBE_x_n (R91, R115, R121) -/

/-- A report ends (R91, R120, R121): a low period of 5 HCK or more is a frame error, a shorter one a CRC mismatch. What
the buffers reported meanwhile becomes their next pulse. -/
def State.dbeEnd (s : State) (x : Sub) (lowHck : Nat) : State :=
  let s := s.setDbs x (fun d => { d with dbe := d.dbeNext, dbeNext := none })
  let frame := decide (5 ≤ lowHck)
  let z := s.zlb
  let s := { s with zlb := match frame, x with
    | true, .a => { z with dbcA := satAdd z.dbcA 1 }
    | true, .b => { z with dbcB := satAdd z.dbcB 1 }
    | false, .a => { z with crcA := satAdd z.crcA 1 }
    | false, .b => { z with crcB := satAdd z.crcB 1 } }
  let s := (s.setCause (2 + subNo x)).report (.dbe x frame)
  s.alertTrigger .crc

/-! ## Registers (R108) -/

/-- HST_ALERT_CAUSE. -/
def State.alertCause (s : State) : Word :=
  packWord [(0, s.host.cause.toNat), (4, (s.subA.owner == .stopped).toNat), (5, (s.subB.owner == .stopped).toNat),
    (6, s.host.merged.toNat)]

/-- A W1C write of HST_ALERT_CAUSE (R86, R93). -/
def State.clearCause (s : State) (v : Word) : State :=
  let s := { s with host := { s.host with cause := s.host.cause &&& ~~~(v.setWidth 4),
                                          merged := s.host.merged && !bitAt v 6 } }
  let s := if bitAt v 4 then s.stopFree .a else s
  if bitAt v 5 then s.stopFree .b else s

/-- HST_STATUS. -/
def State.hostStatus (s : State) : Word :=
  let f := fun (o : Owner) (i : Nat) => [(i, (s.subA.owner == o).toNat), (i + 1, (s.subB.owner == o).toNat)]
  packWord (f .host 0 ++ f .granted 2 ++ f .stopped 4 ++ [(6, s.host.resume.isSome.toNat)])

/-- Codes of a rank's state (DRM_STATE_x.RANK). -/
def rankCode : RankSt → Nat
  | .absent => 0 | .active => 1 | .selfRefresh => 2 | .held => 3

/-- Codes of ownership (DRM_STATE_x.OWNER). -/
def ownerCode : Owner → Nat
  | .notReady => 0 | .host => 1 | .granted => 2 | .stopped => 3 | .blocked => 4

/-- DRM_STATE_x. -/
def State.drmState (s : State) (x : Sub) : Word :=
  let t := s.sub x
  packWord [(0, (t.ranks.zipIdx.map (fun e => rankCode e.1 * 4 ^ e.2)).sum), (8, ownerCode t.owner),
    (11, s.host.yrst.toNat)]

/-- The HST_ and DRM_ registers as path `p` finds them. -/
def hostReg (_p : Path) (a : Nat) (s : State) : Option RegDef :=
  let h := s.host
  match a with
  | 0x0100 => some { flds := [Fld.keptAny 0 0, Fld.ro 1 1],
                     read := packWord [(0, h.lat.toNat), (1, h.latActive.toNat)],
                     write := fun v s => { s with host := { s.host with lat := bitAt v 0 } } }
  | 0x0104 => some { flds := [Fld.keptAny 0 0, Fld.keptAny 1 1],
                     read := packWord [(0, h.parEn.toNat), (1, h.parStop.toNat)],
                     write := fun v s => { s with host := { s.host with parEn := bitAt v 0, parStop := bitAt v 1 } } }
  | 0x0108 => some { flds := [Fld.kept' 6 0 (fun w => 8 ≤ w && w ≤ 64)], read := h.alertW.setWidth 32,
                     write := fun v s => { s with host := { s.host with alertW := v.setWidth 7 } } }
  | 0x010C => some { flds := [Fld.any .w1c 6 0], read := s.alertCause, write := fun v s => s.clearCause v }
  | 0x0110 => some { flds := Fld.counters, read := packWord [(0, s.subA.parCount.toNat), (16, s.subB.parCount.toNat)],
                     write := fun _ s => { s with subA := { s.subA with parCount := 0 },
                                                  subB := { s.subB with parCount := 0 } } }
  | 0x0114 => some (RegDef.ro s.hostStatus)
  | 0x0118 => some { flds := Fld.counters, read := packWord [(0, s.subA.dropCount.toNat), (16, s.subB.dropCount.toNat)],
                     write := fun _ s => { s with subA := { s.subA with dropCount := 0 },
                                                  subB := { s.subB with dropCount := 0 } } }
  | 0x011C => if s.regOn .hubwin then
      some { flds := [Fld.any .rw 0 0], read := packWord [(0, h.ainc.toNat)],
             write := fun v s => { s with host := { s.host with ainc := bitAt v 0 } } }
    else none
  | 0x0400 => some (RegDef.ro (packWord [(0, h.cfgA.toNat), (8, (!s.fnOn .ranks3ds).toNat)]))
  | 0x0404 => some (RegDef.ro (packWord [(0, h.cfgB.toNat), (8, (!s.fnOn .ranks3ds).toNat)]))
  | 0x0408 => some (RegDef.ro (s.drmState .a))
  | 0x040C => some (RegDef.ro (s.drmState .b))
  | 0x0410 => some { flds := Fld.counters,
                     read := packWord [(0, s.subA.yalertCount.toNat), (16, s.subB.yalertCount.toNat)],
                     write := fun _ s => { s with subA := { s.subA with yalertCount := 0 },
                                                  subB := { s.subB with yalertCount := 0 } } }
  | _ => none

/-! ## Rows -/

/-- ALERT_PULSE_START (R92): parity before CRC, and nothing while ALERT_n is low. -/
def execAlertPulseStart (s : State) : Out :=
  .next (if s.alertLow then s
    else if s.host.waitPar then { s with host := { s.host with waitPar := false, pulse := some .parity } }
    else if s.host.waitCrc then { s with host := { s.host with waitCrc := false, pulse := some .crc } }
    else s)

/-- ALERT_PULSE_END (R92). -/
def execAlertPulseEnd (s : State) : Out := .next { s with host := { s.host with pulse := none } }

/-- YALERT (R94): counted in state HOST alone. -/
def execYalert (x : Sub) (s : State) : Out :=
  .next (if s.pd3 && (s.sub x).owner == .host then
    (s.setSub x (fun t => { t with yalertCount := satAdd t.yalertCount 1 })).raise 5 (BitVec.ofNat 24 (subNo x))
  else s)

/-- DBE_REPORT (R121). -/
def execDbeReport (x : Sub) (lowHck : Nat) (s : State) : Out :=
  .next (if s.pd3 && s.pow.on.getLsbD 5 then s.dbeEnd x lowHck else s)

/-- WINDOW_ADDRESS_WRITE (R97). -/
def State.winAddress (s : State) (x : Sub) (high : Bool) (op : Byte) : State :=
  if s.winTakes x then s.setWin x (·.address high op) else s

/-- WINDOW_STAGE_WRITE (R95). -/
def State.winStage (s : State) (x : Sub) (i : Nat) (op : Byte) : State :=
  if s.winTakes x then s.setWin x (fun w => { w with stage := setByte w.stage i op, opened := true }) else s

/-- WINDOW_COMMIT (R96). -/
def State.winCommit (s : State) (x : Sub) (op : Byte) : State :=
  if s.winTakes x then s.setWin x (·.commit s.host.ainc op) else s

/-- WINDOW_ABORT (R95): OP 0x01 alone aborts. -/
def State.winAbort (s : State) (x : Sub) (op : Byte) : State :=
  if s.winTakes x && op == 1 then s.setWin x (fun w => { w with stage := 0, opened := false }) else s

/-- A read of the window's staging (R95, R98, R99): the byte of MR 0xF0 + i, with auto-increment after MR 0xF5. -/
def State.winRead (s : State) (x : Sub) (i : Nat) : State :=
  if !s.winOn x then s.winDrive x 0 else
  let w := (s.sub x).win
  let b : Byte := if i < 2 then (w.addr >>> (8 * i)).setWidth 8 else (w.read >>> (8 * (i - 2))).setWidth 8
  let s := s.winDrive x b
  if i = 5 && s.host.ainc then s.setWin x (fun w => { w with addr := w.addr + 4 }.launch) else s

/-- A read of MR 0xF7 (R99). -/
def State.winStatusRead (s : State) (x : Sub) : State :=
  if !s.winOn x then s.winDrive x 0 else s.winDrive x (s.winStatus x)

/-- A pass-through read (R102): re-driven in its slot, its burst opened in the buffers, or answered by them. -/
def State.passRead (s : State) (x : Sub) (rank : Nat) (data : Byte) : State :=
  if !s.winOn x then s.winDrive x 0 else
  let mr : Byte := (s.sub x).win.stage.setWidth 8
  if (s.sub x).owner != .host then (s.setSub x (fun t => { t with hostDq := some (s.freeVal 8) })).took
  else if mr.toNat < 0xF0 || 0xF7 < mr.toNat then s.winDrive x 0
  else (s.burstFrame x .mrr (BitVec.ofNat 4 (2 ^ rank))).setSub x (fun t => { t with
    drive := some { kind := .mrr, ranks := BitVec.ofNat 4 (2 ^ rank), ca1 := 0, ca2 := none, cid := 0, mr := mr, op := 0,
                    delay := s.latency },
    hostDq := some data })

/-- PASS_WRITE (R100): the slot is re-driven as an MRW to DRAM mode register byte 0 with OP byte 1. -/
def State.passMrw (s : State) (x : Sub) (rank : Nat) : State :=
  let v := (s.sub x).win.stage
  let mr : Byte := v.setWidth 8
  if !s.winTakes x || (s.sub x).owner != .host || mr.toNat < 0xF0 || 0xF7 < mr.toNat then s
  else s.setSub x (fun t => { t with
    drive := some { kind := .mrw, ranks := BitVec.ofNat 4 (2 ^ rank), ca1 := 0, ca2 := none, cid := 0, mr := mr,
                    op := (v >>> 8).setWidth 8, delay := s.latency } })

/-- HOST_CE_REPORT (R100): the report word's fields are in range. -/
def State.ceOk (s : State) (x : Sub) (v : Nat) : Bool :=
  s.rankFitted x (v % 4) && v / 4 % 4 < s.stack x && v / 2 ^ 27 % 16 ≤ 9 && v < 2 ^ 31

/-- HOST_CE_REPORT (R100, R262): one count against the device, and its suspect row. -/
def State.ceReport (s : State) (x : Sub) : State :=
  let v := (s.sub x).win.stage.toNat
  if !s.winTakes x || !s.ceOk x v || !s.fnOn .faultWindows then s else
  let i := ((subNo x * 4 + v % 4) * 4 + v / 4 % 4) * 10 + v / 2 ^ 27 % 16
  (s.suspectRow i ⟨BitVec.ofNat 3 (v / 16), BitVec.ofNat 2 (v / 128), BitVec.ofNat 18 (v / 512)⟩).fault 0 i 1

/-- WINDOW_ADDRESS_WRITE. -/
def execWindowAddressWrite (x : Sub) (high : Bool) (op : Byte) (s : State) : Out := .next (s.winSlot x (·.winAddress x high op))
/-- WINDOW_STAGE_WRITE. -/
def execWindowStageWrite (x : Sub) (i : Fin 3) (op : Byte) (s : State) : Out := .next (s.winSlot x (·.winStage x i op))
/-- WINDOW_COMMIT. -/
def execWindowCommit (x : Sub) (op : Byte) (s : State) : Out := .next (s.winSlot x (·.winCommit x op))
/-- WINDOW_ABORT. -/
def execWindowAbort (x : Sub) (op : Byte) (s : State) : Out := .next (s.winSlot x (·.winAbort x op))
/-- WINDOW_READ. -/
def execWindowRead (x : Sub) (i : Fin 6) (s : State) : Out := .next (s.winSlot x (·.winRead x i))
/-- WINDOW_STATUS_READ. -/
def execWindowStatusRead (x : Sub) (s : State) : Out := .next (s.winSlot x (·.winStatusRead x))
/-- PASS_THROUGH_READ. -/
def execPassThroughRead (x : Sub) (rank : Fin 4) (data : Byte) (s : State) : Out := .next (s.winSlot x (·.passRead x rank data))
/-- PASS_WRITE. -/
def execPassWrite (x : Sub) (rank : Fin 4) (s : State) : Out := .next (s.winSlot x (·.passMrw x rank))
/-- HOST_CE_REPORT. -/
def execHostCeReport (x : Sub) (s : State) : Out := .next (s.winSlot x (·.ceReport x))

end Sys2Proof.Machine
end

