-- ==== Sys2Proof/Machine/CalOps.lean ====
section
/-! DEFINITION. Calibration (07): starting, holding, acceptance of tap, Vref and ADC results, and the CAL_ registers. -/

namespace Sys2Proof.Machine

/-- The domain states that allow calibrations of kinds 1 and 2 (R170). -/
def State.calDom (s : State) : Bool := s.pow.dom == .run || s.pow.dom == .restore

/-- A unit can be calibrated: unit 0 always, a buffer while DB_PRESENT behaves as present and it is reachable. -/
def State.calable (s : State) (u : Nat) : Bool :=
  s.calDom && (u == 0 || (1 ≤ u && u ≤ 10 && s.fnOn .dbPresent && s.reaches (u - 1)))

/-- The receivers of a unit in CAL_VREF_SEL.RX order. -/
def rxsOf (u : Nat) : List Nat := List.range (if u = 0 then 38 else 16)

/-- The ZX8-R receivers of a subchannel. -/
def subRxs : Sub → List Nat
  | .a => List.range 19
  | .b => (List.range 19).map (· + 19)

/-- Receivers joined to those still to do. -/
def joinRxs (a b : List Nat) : List Nat := a ++ b.filter (fun r => !a.contains r)

/-- A calibration begins on a unit: its outputs are held (R171). -/
def State.calBegin (s : State) (u kind : Nat) (todo : List Nat) (commanded : Bool) (next : List Nat) (nextCmd : Bool) :
    State :=
  s.setRun u (some { kind := kind, commanded := commanded, next := next, nextCmd := nextCmd, rejected := false,
                     todo := todo, shadow := none, mainDone := false,
                     holdCaA := s.train.a.ca, holdCaB := s.train.b.ca, holdTaps := s.dbTaps (u - 1),
                     holdTemp := (s.db (u - 1)).temp, holdValid := (s.db (u - 1)).tempValid, holdUnit := s.calUnit u })

/-- A tap calibration waits, joined to one of the unit that waits already. -/
def State.calWait (s : State) (u : Nat) (commanded : Bool) (next : List Nat) (nextCmd : Bool) : State :=
  let waits := s.cal.defer
  let waits := if waits.any (fun d => d.unit == u) then
      waits.map (fun d => if d.unit = u then
        ⟨u, joinRxs d.next next, d.commanded || commanded, d.nextCmd || nextCmd⟩ else d)
    else waits ++ [⟨u, next, commanded, nextCmd⟩]
  { s with cal := { s.cal with defer := waits } }

/-- A tap calibration is asked for, followed by a Vref run on the receivers of `next` (R163, R164): merged into one that
runs; it waits for HCK_OK, and for a Vref run to end. -/
def State.calTap (s : State) (u : Nat) (commanded : Bool) (next : List Nat) (nextCmd : Bool) : State :=
  match s.calRun u with
  | some r =>
    if r.kind = 1 then s.setRun u (some { r with commanded := r.commanded || commanded, next := joinRxs r.next next,
                                                 nextCmd := r.nextCmd || nextCmd })
    else s.calWait u commanded next nextCmd
  | none =>
    if !s.calable u then s
    else if !s.clk.hckOk then s.calWait u commanded next nextCmd
    else s.calBegin u 1 [] commanded next nextCmd

/-- A Vref calibration of receivers is asked for (R163): merged into one that runs; during a tap run it follows it. -/
def State.calVref (s : State) (u : Nat) (rxs : List Nat) (commanded : Bool) : State :=
  match s.calRun u with
  | some r =>
    if r.kind = 2 then s.setRun u (some { r with commanded := r.commanded || commanded, todo := joinRxs r.todo rxs })
    else s.setRun u (some { r with next := joinRxs r.next rxs, nextCmd := r.nextCmd || commanded })
  | none => if s.calable u then s.calBegin u 2 rxs commanded [] false else s

/-- The tap calibrations that waited start, where the domain state allows them (R164, R170). -/
def State.calResume (s : State) : State :=
  if !s.calDom then s else
  s.cal.defer.foldl (fun s e => s.calTap e.unit e.commanded e.next e.nextCmd)
    { s with cal := { s.cal with defer := [] } }

/-- Tap then Vref on a unit, as the periods and temperatures of R170 ask. -/
def State.calBoth (s : State) (u : Nat) (commanded : Bool) : State := s.calTap u commanded (rxsOf u) commanded

/-- The temperature a unit is judged by (R170), in quarter degrees. -/
def State.unitTemp (s : State) (u : Nat) : Option Int :=
  if u = 0 then (hottest s ((List.range 10).filter s.reaches)).map (·.2)
  else if s.reaches (u - 1) && (s.db (u - 1)).tempValid then some (tempOf (s.db (u - 1)).temp) else none

/-- A calibration of kind 1 or 2 ends accepted or rejected; a Vref run that was asked for follows a tap run. -/
def State.calEnd (s : State) (u outcome : Nat) : State :=
  match s.calRun u with
  | none => s
  | some r =>
    let s := if r.kind = 2 && outcome = 0 then s.setUnit u (fun c => { c with vrefLife := s.clk.life }) else s
    let s := (s.setRun u none).calRecord u r.kind outcome r.commanded
    let s := match s.unitTemp u with
      | some t => { s with cal := { s.cal with temps := upd s.cal.temps u (fun _ => t) } }
      | none => s
    let s := if r.next != [] then s.calVref u r.next r.nextCmd
      else if r.kind = 2 && s.clk.hckOk then s.calResume else s
    if (s.calRun u).isSome then s else s.conCal u outcome (s.calUnit u).size.toNat

/-- The body of the calibration region in force (R173). -/
def State.storedCal (s : State) : Option CalBody :=
  (if nth s.nvs.inUse 2 false then s.nv.cal.b else s.nv.cal.a).map (·.body)

/-- The stored values of a unit. -/
def State.storedUnit (s : State) (u : Nat) : CalUnit :=
  match s.storedCal with
  | some b => nth b.units u CalUnit.fresh
  | none => CalUnit.fresh

/-- A result goes to its unit over the ZLB (R172): a buffer that no attempt reaches is marked, and its run abandoned. -/
def State.calReach (s : State) (u : Nat) : State := if u = 0 then s else s.zlbTry (u - 1)

/-! ## Tap size (R164) -/

/-- TPH of one measurement as a fraction: C64 × C32 over 64 × (C32 − C64). -/
def tphFrac (c64 c32 : Nat) : Nat × Nat := (c64 * c32, 64 * (c32 - c64))

/-- Two measurements are accepted: TPH within 1.0, and a mean tap of 3 to 6 ps at `mhz`. -/
def tapOk (mhz : Nat) (p q : Nat × Nat) : Bool :=
  let num := 1000000 * (p.2 * q.1 + q.2 * p.1)
  let den := 2 * mhz * p.1 * q.1
  0 < p.2 && 0 < q.2 && 0 < p.1 && 0 < q.1
    && (p.1 * q.2 ≤ q.1 * p.2 + p.2 * q.2 && q.1 * p.2 ≤ p.1 * q.2 + p.2 * q.2)
    && 3 * den ≤ num && num ≤ 6 * den

/-- A tap size differs from the stored one by a tap or more per HCK period, the acceptance tolerance (R173): sizes in
1/16 ps. -/
def tapMoved (mhz new old : Nat) : Bool := mhz * new * old ≤ 16000000 * ((new : Int) - old).natAbs

/-- A tap-size calibration completes (R164, R173). -/
def State.calTapDone (s : State) (u c64 c32 c64' c32' : Nat) : State :=
  let s := s.calReach u
  match s.calRun u with
  | none => s
  | some r =>
    if r.kind != 1 then s else
    let p := tphFrac c64 c32
    let q := tphFrac c64' c32'
    let mhz := s.clk.hckMhz.toNat
    if !tapOk mhz p q then s.calEnd u 1 else
    let size := roundDiv s.free (16000000 * (p.2 * q.1 + q.2 * p.1)) (2 * mhz * p.1 * q.1)
    let tph := 2 * p.1 * q.1 / (p.2 * q.1 + q.2 * p.1)
    let s := s.took.setUnit u (fun c => { c with size := toField size, tph := toField (min tph 255),
                                                 tapLife := s.clk.life })
    let s := if tapMoved mhz size (s.storedUnit u).size.toNat then s.pendRegion 4 else s
    s.calEnd u 0

/-! ## Vref (R166, R167) -/

/-- How a receiver of a unit stands: 0 in place, 1 swapped, 2 swapped with its swap back waiting. -/
def State.swapOf (s : State) (u rx : Nat) : Nat := sget 0 s.cal.swaps (u * 64 + rx)

/-- Sets how a receiver stands. -/
def State.setSwap (s : State) (u rx v : Nat) : State :=
  { s with cal := { s.cal with swaps := sset 0 s.cal.swaps (u * 64 + rx) v } }

/-- The Vref run of a unit while `rx` is the receiver it works on (R167). -/
def State.vrefRun (s : State) (u rx : Nat) : Option CalRun :=
  (s.calRun u).filter (fun r => r.kind == 2 && r.todo.head? == some rx)

/-- The unit goes on to its next receiver; its calibration ends after the last one. -/
def State.rxNext (s : State) (u : Nat) (r : CalRun) : State :=
  if r.todo.length ≤ 1 then s.calEnd u r.rejected.toNat
  else s.setRun u (some { r with todo := r.todo.drop 1, shadow := none, mainDone := false })

/-- A correction differs from the stored one by a step or more at a reference point, the acceptance tolerance (R173):
quarter steps 80 and 320 are the nominal codes of 45 % and 75 %. -/
def vrefMoved (new old : Byte × Byte) : Bool :=
  let at_ := fun (q : Nat) => (1000 * (new.1.toInt - old.1.toInt) + q * (new.2.toInt - old.2.toInt)).natAbs
  4000 ≤ at_ 80 || 4000 ≤ at_ 320

/-- A comparator takes its OFS and GAIN (CAL_VREF; key receiver × 2 + 1 for the shadow). -/
def State.setComp (s : State) (u key : Nat) (v : Byte × Byte) : State :=
  let old := sget ((0, 0) : Byte × Byte) (s.storedUnit u).comps key
  let s := s.setUnit u (fun c => { c with comps := sset (0, 0) c.comps key v })
  if vrefMoved v old then s.pendRegion 4 else s

/-- An idle point (R167): the receiver whose shadow comparator is through swaps, and the shadow's result stands; a swapped
one that is through swaps back, and the unit goes on; one left swapped by an earlier calibration swaps back. -/
def State.vrefSwap (s : State) (u rx : Nat) : State :=
  match s.swapOf u rx, s.vrefRun u rx with
  | 0, some r =>
    match r.shadow with
    | some v =>
      let s := match v with
        | some v => s.setComp u (rx * 2 + 1) v
        | none => s
      s.setSwap u rx 1
    | none => s
  | 2, some r => if r.mainDone then (s.setSwap u rx 0).rxNext u r else s.setSwap u rx 0
  | 2, none => s.setSwap u rx 0
  | _, _ => s

/-- No idle point within 1 ms (R167): before the swap the receiver is abandoned with its old values; after it, the swap
back stays pending and the unit goes on. -/
def State.swapTimeout (s : State) (u rx : Nat) : State :=
  match s.swapOf u rx, s.vrefRun u rx with
  | 0, some r =>
    if r.shadow.isNone then s else
    State.rxNext { s with cal := { s.cal with body := { s.cal.body with abandon := satAdd s.cal.body.abandon 1 } } } u r
  | 2, some r => if r.mainDone then s.rxNext u r else s
  | _, _ => s

/-- The trip codes of one measurement, in quarter steps: at 45 % and at 75 % (R166). -/
abbrev Trips := Nat × Nat

/-- Two measurements agree within 1 step at both references (R166). -/
def tripsAgree (p q : Trips) : Bool :=
  p.1 ≤ q.1 + 4 && q.1 ≤ p.1 + 4 && p.2 ≤ q.2 + 4 && q.2 ≤ p.2 + 4

/-- OFS and GAIN of two measurements (R166): the corrections that put code 0 and a step where R109 has them, 240 quarter
steps lying between the references, from the mean trip codes (log entry 95, DEDUCED). A value that its byte cannot hold
is free. -/
def State.trims (s : State) (p q : Trips) : Byte × Byte :=
  let lo := p.1 + q.1
  let hi := p.2 + q.2
  let ofs := roundInt s.free (4 * (lo : Int) - hi) 6
  let gain := roundInt s.free (1000 * (((hi : Int) - lo) - 480)) 480
  let byte := fun (n : Nat) (v : Int) =>
    if v < -128 || 127 < v then (Config.freeValue 8 (s.free + n) : Byte) else BitVec.ofInt 8 v
  (byte 1 ofs, byte 2 gain)

/-- A comparator's two measurements are in (R166): the shadow comes first, the main comparator while its receiver is
swapped. What disagrees is rejected, and the comparator keeps its old values. -/
def State.calVrefDone (s : State) (u rx : Nat) (shadow : Bool) (p q : Trips) : State :=
  let s := s.calReach u
  match s.vrefRun u rx with
  | none => s
  | some r =>
    if s.swapOf u rx != (if shadow then 0 else 1) || (shadow && r.shadow.isSome) then s else
    let v := if tripsAgree p q then some (s.trims p q) else none
    let r := { r with rejected := r.rejected || v.isNone }
    let s := { s with free := s.free + 3 }
    if shadow then s.setRun u (some { r with shadow := some v }) else
    let s := match v with
      | some v => s.setComp u (rx * 2) v
      | none => s
    (s.setRun u (some { r with mainDone := true })).setSwap u rx 2

/-! ## ADC (R168, R169) -/

/-- A quotient rounded to the nearest whole number (07 'Worked example'; log entry 11). -/
def nearest (a b : Nat) : Nat := (2 * a + b) / (2 * b)

/-- OFFSET in 10 uV of 64 zero codes, with `lsb` the full scale in volts. -/
def adcOffset (lsb gnd : Nat) : Nat := nearest (gnd * lsb * 100000) (64 * 16384)

/-- Gain deviation in ppm, from the sums of 64 codes. -/
def adcGain (lsb mv ref gnd : Nat) : Int :=
  let num := 64 * mv * 16384
  let den := (ref - gnd) * lsb * 1000
  if den ≤ num then (nearest ((num - den) * 1000000) den : Int) else -(nearest ((den - num) * 1000000) den : Int)

/-- The gain of a range lies within 1 ± 3 %. -/
def gainOk (lsb mv ref gnd : Nat) : Bool :=
  let num := 64 * mv * 16384
  let den := (ref - gnd) * lsb * 1000
  gnd < ref && 97 * den ≤ 100 * num && 100 * num ≤ 103 * den

/-- The offset of a range lies within ±40 mV. -/
def offsetOk (lsb gnd : Nat) : Bool := gnd * lsb * 1000 ≤ 40 * 64 * 16384

/-- An ADC calibration starts (R168): the declared value is latched, every reading held, no sample taken. -/
def State.adcStart (s : State) : State :=
  if (s.calRun 11).isSome || !s.reaches 10 then s else
  let s := { s.calBegin 11 4 [] true [] false with zxp := { s.zxp with held := some s.zxp.chans } }
  { s with cal := { s.cal with adcLatched := s.cal.adcMv, adcRun := AdcRun.fresh } }

/-- The sub-mode of a running ADC calibration: 0 fine REFIN, 1 coarse REFIN, 2 fine zero, 3 coarse zero; in the zero
sub-modes the REFIN input is at ADC ground (R168). -/
def State.adcMode (s : State) : Option Nat :=
  if (s.calRun 11).isSome && s.cal.adcRun.count < 256 then some (s.cal.adcRun.count / 64) else none

/-- A sample of the REFIN slot joins the running sub-mode (R168). -/
def State.adcSample (s : State) (code : Nat) (flag : Bool) : State :=
  match s.adcMode with
  | none => s
  | some m =>
    let a := s.cal.adcRun
    { s with cal := { s.cal with adcRun := ⟨upd a.sums m (· + code), a.count + 1, a.flagged || flag⟩ } }

/-- An ADC calibration completes once its 256 samples are in (R168): REASON 3 before 1 before 2; an accepted result goes
to the ZX8-P (R169). -/
def State.calAdcDone (s : State) : State :=
  if (s.calRun 11).isNone || s.cal.adcRun.count < 256 then s else
  let mv := s.cal.adcLatched.toNat
  let sum := fun (i : Nat) => nth s.cal.adcRun.sums i 0
  let s := s.zlbTry 10
  if !s.reaches 10 then s.adcEnd 2 4
  else if s.cal.adcRun.flagged then s.adcEnd 1 3
  else if !gainOk 20 mv (sum 0) (sum 2) || !gainOk 80 mv (sum 1) (sum 3) then s.adcEnd 1 1
  else if !offsetOk 20 (sum 2) || !offsetOk 80 (sum 3) then s.adcEnd 1 2
  else
    let v : List (BitVec 16) := [BitVec.ofNat 16 (adcOffset 20 (sum 2)), BitVec.ofInt 16 (adcGain 20 mv (sum 0) (sum 2)),
      BitVec.ofNat 16 (adcOffset 80 (sum 3)), BitVec.ofInt 16 (adcGain 80 mv (sum 1) (sum 3))]
    let old := match s.storedCal with
      | some b => b.adc
      | none => [0, 0, 0, 0]
    let far := fun (i tol : Nat) => tol ≤ ((nth v i 0).toInt - (nth old i 0).toInt).natAbs
    let s := { s with zxp := { s.zxp with corr := v },
                      cal := { s.cal with body := { s.cal.body with adc := v, adcRef := s.cal.adcLatched,
                                                                    adcLife := s.clk.life, adcValid := true } } }
    let s := if far 0 4000 || far 2 4000 || far 1 30000 || far 3 30000 then s.pendRegion 4 else s
    s.adcEnd 0 0

/-- SETTLED finds functions inactive (R32, R38): their calibrations are abandoned, and what waits for them is dropped. -/
def State.calSwitch (s : State) : State :=
  let s := if s.fnOn .calAdc then s else s.calAbandon 11
  if s.fnOn .dbPresent then s else
  let s := (List.range 10).foldl (fun s n => s.calAbandon (n + 1)) s
  { s with cal := { s.cal with defer := s.cal.defer.filter (fun d => d.unit == 0) } }

/-! ## Registers (R182) -/

/-- The units that CAL_CMD's UNIT names. -/
def State.cmdUnits (s : State) (unit : Nat) : List Nat :=
  if unit = 15 then (if s.fnOn .dbPresent then List.range 11 else [0]) else [unit]

/-- A value of CAL_CMD is in range. -/
def State.calCmdOk (s : State) (v : Nat) : Bool :=
  let kind := v % 16
  let unit := v / 16 % 16
  v / 65536 == 0xCA1B && v / 256 % 256 == 0
    && (if kind == 4 then unit == 11 && s.cal.adcMv != 0 && s.regOn .calAdc
            && (s.pow.dom == .run || s.pow.dom == .attended)
        else 1 ≤ kind && kind ≤ 3 && (unit ≤ 10 || unit == 15) && (unit == 0 || unit == 15 || s.regOn .dbPresent)
            && s.calDom)

/-- An accepted CAL_CMD (R170). -/
def State.calCmd (s : State) (v : Word) : State :=
  let kind := fld v 3 0
  if kind = 4 then s.adcStart
  else (s.cmdUnits (fld v 7 4)).foldl (fun s u =>
    if kind = 2 then s.calVref u (rxsOf u) true
    else if kind = 3 then s.calBoth u true else s.calTap u true [] false) s

/-- CAL_STATUS. -/
def State.calStatus (s : State) : Word :=
  packWord [(0, maskOf (s.cal.runs.map (·.isSome))), (12, s.cal.pending.toNat)]

/-- The entries of the ZX8-R receivers of a subchannel as TRM_CA_VAL shows them (R171). -/
def State.caView (s : State) (x : Sub) : List TapSt :=
  match s.calRun 0, x with
  | some r, .a => r.holdCaA
  | some r, .b => r.holdCaB
  | none, x => (s.tr x).ca

/-- A write of a ZX8-R receiver entry: the value and its reference (R179). The entry lives in the warm record (R189,
R195). -/
def State.setCa (s : State) (x : Sub) (i : Nat) (t : TapSt) : State :=
  (s.limitOff (subNo x)).setTr x (fun r => { r with ca := upd r.ca i (fun _ => t), caRef := upd r.caRef i (fun _ => t) })

/-- The CAL_ registers and the ZX8-R receiver entries as path `p` finds them. -/
def calReg (p : Path) (a : Nat) (s : State) : Option RegDef :=
  let b := s.cal.body
  let adc := s.regOn .calAdc
  let sel := s.sel p
  let tu := sel.calTap.toNat
  let vu := sel.calVref.toNat % 16
  let view := fun (u : Nat) => match s.calRun u with
    | some r => (r.holdUnit, 1)
    | none => (s.calUnit u, 0)
  let comp := sget ((0, 0) : Byte × Byte) (view vu).1.comps (sel.calVref.toNat / 16 % 64 * 2 + sel.calVref.toNat / 1024)
  let caSub : Sub := if bitAt (sel.ca.setWidth 32) 0 then .b else .a
  let ca := nth (s.caView caSub) (sel.ca.toNat / 256) ⟨0, 0⟩
  if a = 0x1000 then some (RegDef.ro s.calStatus)
  else if a = 0x1004 then
    some { flds := [Fld.kept' 10 0 (· ≤ 1440), Fld.kept' 21 16 (fun v => 2 ≤ v && v ≤ 40)], read := s.cal.cfg,
           write := fun v s => { s with cal := { s.cal with cfg := v } } }
  else if a = 0x1008 then
    some { flds := [⟨31, 0, .wo, false, s.calCmdOk⟩], read := 0, write := fun v s => s.calCmd v }
  else if a = 0x100C then some (RegDef.ro b.count)
  else if a = 0x1010 then
    some { flds := [Fld.kept' 15 0 (· == 0), Fld.kept' 31 16 (· == 0)],
           read := packWord [(0, b.reject.toNat), (16, b.abandon.toNat)],
           write := fun _ s => { s with cal := { s.cal with body := { s.cal.body with reject := 0, abandon := 0 } } } }
  else if a = 0x1014 then some (RegDef.ro (b.last.setWidth 32))
  else if a = 0x1018 then some (RegDef.ro (b.lastLife.setWidth 32))
  else if a = 0x101C then some (RegDef.ro ((b.lastLife >>> 32).setWidth 32))
  else if a = 0x1020 then some (RegDef.ro (b.lastUtc.setWidth 32))
  else if a = 0x1024 then some (RegDef.ro ((b.lastUtc >>> 32).setWidth 32))
  else if a = 0x1028 then
    some { flds := [Fld.rng 3 0 (· ≤ 10)], read := sel.calTap.setWidth 32,
           write := fun v s => s.setSel p (fun x => { x with calTap := v.setWidth 4 }) }
  else if a = 0x102C then
    some (RegDef.ro (packWord [(0, (view tu).1.size.toNat), (16, (view tu).1.tph.toNat), (31, (view tu).2)]))
  else if a = 0x1030 then
    some { flds := [Fld.rng 10 0 (fun v => v % 16 ≤ 10 && v / 16 % 64 < (if v % 16 = 0 then 38 else 16))],
           read := sel.calVref.setWidth 32,
           write := fun v s => s.setSel p (fun x => { x with calVref := v.setWidth 11 }) }
  else if a = 0x1034 then some (RegDef.ro (packWord [(0, comp.1.toNat), (8, comp.2.toNat), (31, (view vu).2)]))
  else if a = 0x1038 && adc then
    some { flds := [Fld.rng 13 0 (fun v => v == 0 || (2000 ≤ v && v ≤ 12000))], read := s.cal.adcMv.setWidth 32,
           write := fun v s => { s with cal := { s.cal with adcMv := v.setWidth 14 } } }
  else if a = 0x103C && adc then
    some (RegDef.ro (packWord [(0, (nth b.adc 0 0).toNat), (16, (nth b.adc 1 0).toNat)]))
  else if a = 0x1040 && adc then
    some (RegDef.ro (packWord [(0, (nth b.adc 2 0).toNat), (16, (nth b.adc 3 0).toNat)]))
  else if a = 0x1044 && adc then
    some (RegDef.ro (packWord [(0, b.adcValid.toNat), (1, (s.calRun 11).isSome.toNat), (2, s.cal.adcReject.toNat),
      (3, s.cal.adcReason.toNat)]))
  else if a = 0x1218 then
    some { flds := [Fld.any .rw 0 0, Fld.rng 12 8 (· ≤ 18)], read := sel.ca.setWidth 32,
           write := fun v s => s.setSel p (fun x => { x with ca := v.setWidth 13 }) }
  else if a = 0x121C then
    some { flds := [Fld.any .rw 6 0, Fld.rng 14 8 (· ≤ 120), Fld.ro 31 31],
           read := packWord [(0, ca.tap.toNat), (8, ca.vref.toNat), (31, (s.calRun 0).isSome.toNat)],
           write := fun v s => s.setCa caSub (sel.ca.toNat / 256) ⟨v.setWidth 7, (v >>> 8).setWidth 7⟩ }
  else none

/-! ## Rows -/

/-- CAL_PERIOD_EXPIRY (R170): tap then Vref on the unit. -/
def execCalPeriodExpiry (u : Fin 11) (s : State) : Out :=
  .next (if s.up && fld s.cal.cfg 10 0 != 0 then s.calBoth u false else s)
/-- CAL_TAP_DONE (R164). -/
def execCalTapDone (u : Fin 11) (c64 c32 c64' c32' : Nat) (s : State) : Out :=
  .next (if s.up then s.calTapDone u c64 c32 c64' c32' else s)
/-- VREF_SWAP (R167). -/
def execVrefSwap (u : Fin 11) (rx : Fin 38) (s : State) : Out := .next (if s.up then s.vrefSwap u rx else s)
/-- VREF_SWAP_TIMEOUT (R167). -/
def execVrefSwapTimeout (u : Fin 11) (rx : Fin 38) (s : State) : Out := .next (if s.up then s.swapTimeout u rx else s)
/-- CAL_VREF_DONE (R166): the trip codes of two measurements in quarter steps, each at 45 % and at 75 %. -/
def execCalVrefDone (u : Fin 11) (rx : Fin 38) (shadow : Bool) (lo hi lo' hi' : Nat) (s : State) : Out :=
  .next (if s.up then s.calVrefDone u rx shadow (lo, hi) (lo', hi') else s)
/-- CAL_ADC_DONE (R169). -/
def execCalAdcDone (s : State) : Out := .next (if s.up then s.calAdcDone else s)
/-- CAL_ABANDON (R172). -/
def execCalAbandon (u : Fin 12) (s : State) : Out :=
  .next (if !s.up then s else if s.clk.hckOk then (s.calAbandon u).calResume else s.calAbandon u)

end Sys2Proof.Machine
end

