-- ==== Sys2Proof/Machine/HrdOps.lean ====
section
/-! DEFINITION. Hoard (10): the keep region, the areas of the NAND and what a restore still owes. -/

namespace Sys2Proof.Machine

/-! ## Extents (R236) -/

/-- An extent is enabled. -/
def Extent.en (e : Extent) : Bool := bitAt e.lo 31
/-- Its first row. -/
def Extent.first (e : Extent) : Nat := fld e.lo 16 0
/-- Its row count. -/
def Extent.rows (e : Extent) : Nat := fld e.hi 17 0
/-- Its subchannel. -/
def Extent.sub (e : Extent) : Sub := if bitAt e.lo 17 then .b else .a
/-- Its rank. -/
def Extent.rank (e : Extent) : Nat := fld e.lo 19 18
/-- Its 3DS die. -/
def Extent.cid (e : Extent) : Nat := fld e.lo 21 20

/-- Two extents share a row (R237). -/
def Extent.overlaps (e f : Extent) : Bool :=
  e.sub == f.sub && e.rank == f.rank && e.cid == f.cid && e.first < f.first + f.rows && f.first < e.first + e.rows
    && 0 < e.rows && 0 < f.rows

/-- Rows of the enabled extents (HRD_MAP_SIZE). -/
def mapRows (es : List Extent) : Nat := ((es.filter Extent.en).map Extent.rows).sum

/-- The 64 KiB units of one subchannel's stream: five for each row (R251). -/
def mapUnits (es : List Extent) (x : Sub) : Nat := 5 * mapRows (es.filter (fun e => e.sub == x))

/-! ## Areas (R242) -/

/-- States of an area (HRD_IMAGE_A). -/
def Area.state (a : Area) : Nat :=
  if a.torn then 1 else
  match a.hdr with
  | none => 0
  | some h =>
    match a.trl with
    | none => 1
    | some t => if t.gen != h.gen then 1 else if a.marker.any (·.gen == h.gen) then 3 else 2

/-- Generation of an area; 0 when it has no header. -/
def Area.gen (a : Area) : Nat := match a.hdr with
  | some h => h.gen.toNat
  | none => 0

/-- The newest image is in area B: it is complete or consumed there with the higher generation (R242). -/
def Hrd.newestB (h : Hrd) : Bool :=
  2 ≤ h.areaB.state && (h.areaA.state < 2 || h.areaA.gen < h.areaB.gen)

/-- The area of the newest image. -/
def Hrd.newest (h : Hrd) : Area := if h.newestB then h.areaB else h.areaA
/-- The spare area: the one that does not hold the newest image. With no image, area A is the one written first
(log entry 23). -/
def Hrd.spareB (h : Hrd) : Bool := !(h.newestB || (h.areaA.state < 2 && h.areaB.state < 2))
/-- The spare area's contents. -/
def Hrd.spare (h : Hrd) : Area := if h.spareB then h.areaB else h.areaA

/-- Changes one area. -/
def Hrd.setArea (h : Hrd) (b : Bool) (a : Area) : Hrd := if b then { h with areaB := a } else { h with areaA := a }

/-- The extents of the image that a restore brings back: none unless the newest image is complete and not discarded
(R243, R248). -/
def Hrd.imageMap (h : Hrd) : List Extent :=
  if h.newest.state = 2 && !h.markerOwed then (match h.newest.hdr with
    | some d => d.extents
    | none => []) else []

/-- The watermark of a subchannel. -/
def Hrd.wmark (h : Hrd) : Sub → Nat
  | .a => h.wmarkA.toNat | .b => h.wmarkB.toNat

/-- Sets the watermark of a subchannel. -/
def Hrd.setWmark (h : Hrd) (x : Sub) (n : Nat) : Hrd :=
  match x with
  | .a => { h with wmarkA := BitVec.ofNat 20 n }
  | .b => { h with wmarkB := BitVec.ofNat 20 n }

/-- A subchannel is fully restored, or has nothing to restore (HRD_WMARK_x.DONE). -/
def Hrd.done (h : Hrd) (x : Sub) : Bool := mapUnits h.imageMap x ≤ h.wmark x

/-- A restore is unfinished (R248). -/
def Hrd.unfinished (h : Hrd) : Bool := !h.done .a || !h.done .b

/-- A restore is unfinished and Hoard runs. -/
def State.restoreDue (s : State) : Bool := s.fnOn .hoard && s.hrd.unfinished

/-! ## Arming (R25, R235) -/

/-- MIN_J of the enabled map (R254): ⌈25 × (0.37 + 0.45 × G × 8 / L)⌉, G in GiB. -/
def Hrd.minJ (h : Hrd) : Nat :=
  let l := max h.luns.toNat 1 * 1048576
  (925 * l + 100 * 28800 * mapRows h.extents + 100 * l - 1) / (100 * l)

/-- PWR_RESERVE.JOULES is below MIN_J. -/
def State.reserveShort (s : State) : Bool := s.pow.reserve.toNat < s.hrd.minJ

/-- The island copy of HOARD: W10 keeps it from the lock copy while management runs outside a cut; from PFAIL on it
stands. -/
def State.hoardCopy (s : State) : Bool :=
  if s.mgmtReady && !s.nvs.rescue && (s.pow.keep == .normal || s.pow.keep == .wake) then
    s.pow.lockCopy && s.hrd.extents.any Extent.en && !s.hrd.unfinished && !s.reserveShort
  else s.pow.copy

/-- The island copy is laid down as it stands (PFAIL, MRST, PD2 off). -/
def State.layCopy (s : State) : State := { s with pow := { s.pow with copy := s.hoardCopy } }

/-! ## Capacity (R240) -/

/-- The first block of an area; blocks 0 and B/2 are not used. -/
def areaFirst (half : Nat) (b : Bool) : Nat := if b then half + 1 else 1

/-- A block of a LUN is good. -/
def blockGood (bad : List NandBlock) (c l n : Nat) : Bool :=
  !bad.any (fun x => x.channel == c && x.lun == l && x.block == n)

/-- The first good block from `n` on, of `fuel` blocks. -/
def nextGood (bad : List NandBlock) (c l : Nat) : Nat → Nat → Option Nat
  | 0, _ => none
  | fuel + 1, n => if blockGood bad c l n then some n else nextGood bad c l fuel (n + 1)

/-- The next good block of an area from `n` on. -/
def goodFrom (half : Nat) (bad : List NandBlock) (b : Bool) (c l n : Nat) : Option Nat :=
  nextGood bad c l (areaFirst half b + (half - 1) - n) n

/-- The control block of an area: its first good block on channel 0, LUN 0. -/
def controlBlock (half : Nat) (bad : List NandBlock) (b : Bool) : Option Nat :=
  goodFrom half bad b 0 0 (areaFirst half b)

/-- The first data block of a LUN in an area. -/
def firstData (half : Nat) (bad : List NandBlock) (b : Bool) (c l : Nat) : Option Nat :=
  if c = 0 && l = 0 then (controlBlock half bad b).bind (fun n => goodFrom half bad b c l (n + 1))
  else goodFrom half bad b c l (areaFirst half b)

/-- Bad blocks of a LUN among the blocks of an area. -/
def badIn (half : Nat) (bad : List NandBlock) (c l : Nat) (b : Bool) : Nat :=
  ((bad.filter (fun x => x.channel == c && x.lun == l && areaFirst half b ≤ x.block
    && x.block < areaFirst half b + (half - 1))).map NandBlock.block).dedup.length

/-- The fewest good data blocks of one LUN in either area: B/2 − 1 less the bad ones, and less the control block on
channel 0, LUN 0. -/
def fewestBlocks (luns half : Nat) (bad : List NandBlock) : Nat :=
  let good := (List.range 4).flatMap (fun c => (List.range luns).flatMap (fun l =>
    [false, true].map (fun b => half - 1 - badIn half bad c l b - (if c = 0 && l = 0 then 1 else 0))))
  good.foldl min half

/-- The data page at a place of a LUN is position (k × L + l) × 4 + c of the stream, k pages of that LUN being before
it. -/
def dataPos (luns c l k : Nat) : Nat := (k * luns + l) * 4 + c

/-- Rows that an area can hold: its data pages, less one block per LUN, at 20 pages a row. -/
def Hrd.capacity (h : Hrd) : Nat :=
  4 * h.luns.toNat * (h.areaBlocks.toNat - 1) * 2 ^ h.ppbLog2.toNat / 20

/-- No save and no restore runs (R77, R237): a save goes on from its entry, its Polka included (R49), until it ends, in
HELD at the latest. -/
def State.hrdFree (s : State) : Bool :=
  match s.hrd.st with
  | .erasing | .held => true
  | .idle => s.pow.dom != .save
  | _ => false

/-- An extent may be enabled at an index (R237). An extent of no rows, which reset leaves, is none of the listed cases
(log entry 85, DEDUCED). -/
def State.extentOk (s : State) (i : Nat) (e : Extent) : Bool :=
  let others := (s.hrd.extents.zipIdx.filter (fun f => f.2 != i && f.1.en)).map (·.1)
  let total := e.rows + mapRows others
  s.rankFitted e.sub e.rank && e.cid < s.stack e.sub && e.first + e.rows ≤ s.dieRows e.sub
    && !others.any (fun f => f.overlaps e) && total ≤ 157286 && total ≤ s.hrd.capacity
    && s.hrdFree && !s.hrd.unfinished

/-- A write of HRD_EXT_LO or HRD_EXT_HI takes effect; the keep map is to be stored (R195). -/
def State.setExtent (s : State) (i : Nat) (e : Extent) : State :=
  { s with hrd := { s.hrd with extents := upd s.hrd.extents i (fun _ => e) } }.pendRegion 6

/-- DRAM contents are lost: the watermarks go back to 0 (R252). -/
def State.wmarksLost (s : State) : State := { s with hrd := { s.hrd with wmarkA := 0, wmarkB := 0 } }

end Sys2Proof.Machine
end

