-- ==== Sys2Proof/Machine/TrainOps.lean ====
section
/-! DEFINITION. Training and the warm record (06): phases, what a step trains, Polka, replay and storing, maintenance
units, HRX settle, and the training registers. -/

namespace Sys2Proof.Machine

/-! ## Trained sets -/

/-- The hottest temperature the buffers report now, in quarter degrees (R146, R159). -/
def State.hotNow (s : State) : Option Int := (hottest s ((List.range 10).filter s.reaches)).map (·.2)

/-- A quarter-degree temperature in whole degrees; the rounding is open (log entry 11). -/
def wholeDeg (n : Nat) (t : Int) : Int := if t % 4 = 0 then t / 4 else if Config.roundUp n then t / 4 + 1 else t / 4

/-- A set of values of a rank or of one of its dies that training found and the manual does not give (log entry 8): kind 0
the rank's output taps, 1 a die's VrefCA and VrefCS, 2 the rank's oscillator references, 3 a die's VrefDQ, duty-cycle and
DFE values. -/
def State.genSet (s : State) (x : Sub) (rank die kind : Nat) : State :=
  { s.setTr x (fun t => { t with gens := sput t.gens ((rank * 4 + die) * 4 + kind) s.free }) with free := s.free + 128 }

/-- A set of every die of a rank (R136): one die, or each of a 3DS stack. -/
def State.genDies (s : State) (x : Sub) (rank kind : Nat) : State :=
  (List.range (s.stack x)).foldl (fun s d => s.genSet x rank d kind) s

/-- A set of one path of every reachable buffer of a subchannel. -/
def State.genPath (s : State) (x : Sub) (path : Nat) (dqs : Bool) : State :=
  (subDbs x).foldl (fun s n => s.genDb n path dqs) s

/-- Reel on one rank (R136): output taps, VrefCS and VrefCA. -/
def State.reelRank (s : State) (x : Sub) (k : Nat) : State := (s.genSet x k 0 0).genDies x k 1

/-- Minuet write on one rank (R136): DTX bit taps, oscillator references, VrefDQ, duty cycle and DFE. -/
def State.writeRank (s : State) (x : Sub) (k : Nat) : State :=
  ((s.genPath x (2 + 2 * k) false).genSet x k 0 2).genDies x k 3

/-- What one Quadrille step trains on one rank (R136). -/
def State.trainRank (s : State) (x : Sub) (ph : Phase) (k : Nat) : State :=
  match ph with
  | .reel => s.reelRank x k
  | .gavotte => s.genPath x (2 + 2 * k) true
  | .minuet => (s.genPath x (3 + 2 * k) false).writeRank x k
  | _ => s

/-- The DBC TRAIN codes of a phase's steps (R136), in their order. -/
def trainCodes : Phase → List (BitVec 2)
  | .reel => [2] | .gavotte => [1] | .minuet => [2, 3] | _ => [0]

/-- TRAIN frames on a subchannel, one after the other. -/
def State.trainFrames (s : State) (x : Sub) (cs : List (BitVec 2)) : State :=
  cs.foldl (fun s c => s.dbcCmd x (.train c)) s

/-- A failed rank keeps its reset taps (R143). -/
def State.resetRank (s : State) (x : Sub) (k : Nat) : State :=
  let s := s.setTr x (fun t => { t with gens := t.gens.filter (fun g => g.1 / 16 != k) })
  (subDbs x).foldl (fun s n =>
    let own := fun (path : Nat) => path == 2 + 2 * k || path == 3 + 2 * k
    let s := s.setDb n (fun d => { d with taps := d.taps.filter (fun e => !own (e.1 / 16)) })
    { s with train := { s.train with dbGens := upd s.train.dbGens n (fun g => g.filter (fun e => !own (e.1 / 2))) } }) s

/-- Every rank of a subchannel has a transmit training at this temperature (R159). -/
def State.noteTemps (s : State) (x : Sub) (m : Nat) : State :=
  match s.hotNow with
  | none => s
  | some t => s.setTr x (fun r => { r with temps := r.temps.zipIdx.map (fun e => if m.testBit e.2 then t else e.1) })

/-! ## The record (R144 to R148) -/

/-- The working set as a record (R144). -/
def State.warmBody (s : State) : WarmRec :=
  let t := s.train
  { invalid := t.recInvalid, nodb := s.pow.straps.nodb, blobPresent := t.blobLen != 0,
    rate := t.trainedRate, temp := wholeDeg s.free ((s.hotNow).getD 0), source := t.recSource, finger := t.finger,
    life := s.clk.life,
    blobCrc := crc32c ((List.range t.blobLen.toNat).flatMap (fun i => leBytes 4 (sget 0 t.blob i).toNat)),
    blobLen := t.blobLen, blob := t.blob, caA := t.a.ca, caB := t.b.ca, gensA := t.a.gens, gensB := t.b.gens,
    dbs := (List.range 10).map s.dbTaps }

/-- The working set is to be stored (R147): source 1 Quadrille, 2 maintenance unit, 3 SAVE. -/
def State.recStore (s : State) (source : Nat) : State :=
  { s with train := { s.train with recPending := true, recSource := source, recInvalid := false } }.pendRegion 5

/-- The working set is to be stored for a cause that the record has no source code for, a drift or a change of a Kept field
(R147, R195): the source that the working set has, or 3 where it has none (log entry 93, DESIGN CHOICE). -/
def State.recOwed (s : State) : State := s.recStore (if s.train.recSource = 0 then 3 else s.train.recSource)

/-- Two codes differ by the DRIFT of TRM_REC_CFG or more (R147). -/
def driftFar (d : Nat) (a b : TapSt) : Bool :=
  let far := fun (x y : Nat) => x + d ≤ y || y + d ≤ x
  far a.tap.toNat b.tap.toNat || far a.vref.toNat b.vref.toNat

/-- An entry has moved from the value `r` that the stored record holds: DRIFTED, and the record is to be stored. -/
def State.driftCheck (s : State) (r now : TapSt) : State :=
  if s.train.stored.isSome && driftFar (fld s.train.recCfg 11 8) r now && !s.train.drifted then
    { s with train := { s.train with drifted := true } }.recOwed
  else s

/-- A phase entry of a record at the rate of a save (R244): its fraction of the HCK period, on the period of 1600 MHz. The
tap size cancels out; the rounding is open (log entry 11), and a code past the last tap stops there (log entry 97,
DESIGN CHOICE). -/
def saveTap (n rate : Nat) (t : TapSt) : TapSt := { t with tap := BitVec.ofNat 7 (min 127 (roundDiv n (t.tap.toNat * rate) 1600)) }

/-- The taps of a buffer at the rate of a save, every entry written out. -/
def saveTaps (n rate : Nat) (d : DbTaps) : DbTaps :=
  ⟨(List.range 100).map (fun k => (k / 10 * 16 + k % 10, saveTap n rate (tapOf d.taps d.gens (k / 10) (k % 10)))), []⟩

/-- A record as it is replayed: as stored, or in SAVE with its phase entries scaled (R244). -/
def State.recNow (s : State) (r : WarmRec) : WarmRec :=
  if s.pow.dom != .save then r else
  let n := r.rate.toNat
  { r with caA := r.caA.map (saveTap s.free n), caB := r.caB.map (saveTap s.free n),
           dbs := r.dbs.map (saveTaps s.free n) }

/-- An output tap of a rank: YCA[13:0], then YCS_n[3:0] (R136). In no-DB mode they are the factory's (R141); a tap that
training found is a free value, scaled in SAVE (R244). -/
def State.outTap (s : State) (x : Sub) (rank i : Nat) : Nat :=
  if s.pow.straps.nodb then (nth s.nv.factory.outTaps ((subNo x * 4 + rank) * 18 + i) 0).toNat % 128
  else match (s.tr x).gens.find? (fun g => g.1 == rank * 16) with
  | none => 64
  | some g =>
    let t : TapSt := ⟨Config.freeValue 7 (g.2 + i), 0⟩
    if s.pow.dom == .save then (saveTap s.free s.train.trainedRate.toNat t).tap.toNat else t.tap.toNat

/-- A record is written into the working set (R146); each rank's last transmit training is the record's (R159; log entry
98, DEDUCED). -/
def State.replay (s : State) (rec : WarmRec) : State :=
  let r := s.recNow rec
  let temps := List.replicate 4 (4 * r.temp)
  let s := { s with trim := { s.trim with limit := 0 }, train := { s.train with
    blob := r.blob, blobLen := r.blobLen, hfp := r.blobCrc, trainedRate := r.rate, recValid := true, recSource := r.source,
    a := { s.train.a with ca := r.caA, caRef := r.caA, gens := r.gensA, replayed := true, temps := temps },
    b := { s.train.b with ca := r.caB, caRef := r.caB, gens := r.gensB, replayed := true, temps := temps } } }
  (List.range 10).foldl (fun s n =>
    if !s.reaches n then s else
    let d := nth r.dbs n ⟨[], []⟩
    let s := s.setDb n (fun b => { b with taps := d.taps })
    { s with train := { s.train with dbGens := upd s.train.dbGens n (fun _ => d.gens),
                                     dbRefs := upd s.train.dbRefs n (fun _ => []) } }) s

/-- The working record is discarded: reset values of what training owns. -/
def State.discardWork (s : State) (x : Sub) : State :=
  let s := s.setTr x (fun t => { t with replayed := false, gens := [], ca := caReset, caRef := caReset })
  (subDbs x).foldl (fun s n =>
    let s := s.setDb n (fun b => { b with taps := [] })
    { s with train := { s.train with dbGens := upd s.train.dbGens n (fun _ => []),
                                     dbRefs := upd s.train.dbRefs n (fun _ => []) } }) s

/-- Two rates lie within ±0.5 % (R146). -/
def rateNear (mhz rate : Nat) : Bool := (if rate ≤ mhz then mhz - rate else rate - mhz) * 200 ≤ rate

/-- The first condition of R146 that fails, as a COLD_CAUSE; 0 when the record may be replayed. `same` is whether the
live fingerprint equals the record's (R145). For an image held, conditions 3 to 5 are not applied. -/
def State.replayCause (s : State) (slot : Option (Held WarmRec)) (same : Bool) (hottestDeg : Int) (image : Bool) : Nat :=
  match slot with
  | none => 1
  | some h =>
    let r := h.body
    if !h.hdr.bodyOk then 1 else if r.invalid then 6 else if h.hdr.layout != 1 then 2
    else if image then 0
    else if s.clk.hckOk && !rateNear s.clk.hckMhz.toNat r.rate.toNat then 3
    else if !same then 4
    else if !s.pow.straps.nodb && (hottestDeg - r.temp).natAbs > fld s.train.recCfg 6 0 then 5
    else 0

/-! ## Phases (R142) -/

/-- Changes the phase of a subchannel. -/
def State.setPhase (s : State) (x : Sub) (p : Phase) : State := s.setTr x (fun t => { t with phase := p })

/-- The two subchannels. -/
def subs : List Sub := [.a, .b]

/-- A restore-first restore holds READY_x back (R249). -/
def State.restoreHolds (s : State) : Bool := s.restoreDue && !s.hrd.lend

/-- The first READY_x after management ready starts the Vref calibration of the subchannel's receivers (R170). -/
def State.firstVref (s : State) (x : Sub) : State :=
  if (s.tr x).vrefDone then s else
  let s := s.setTr x (fun t => { t with vrefDone := true })
  (subDbs x).foldl (fun s n => s.calVref (n + 1) (rxsOf (n + 1)) false) (s.calVref 0 (subRxs x) false)

/-- A NOT_READY subchannel goes to its host (R86): ranks active, buffers with the shadow's values, READY_x, and TRM_TIME;
Reel-H ends (R137). With both ready and a lend-mode restore unfinished, EV54 says so. -/
def State.goHost (s : State) (x : Sub) : State :=
  if (s.sub x).owner != .notReady then s else
  let s := (s.setRanks x .active).copyCfg x
  let s := s.setDbs x (fun d => { d with hold := false })
  let s := s.setSub x (fun t => { t with owner := .host })
  let s := (s.setTr x (fun t => { t with ready := BitVec.ofNat 16 (min s.train.devMs 65535), reelDone := true })).firstVref x
  if s.subA.owner == .host && s.subB.owner == .host && s.restoreDue && s.hrd.lend then s.raise 54 0 else s

/-- Training of a subchannel ends in DONE (R142): TRAIN mode off, the ranks awake, EV16, and the host takes over unless a restore comes first. -/
def State.trainDone (s : State) (x : Sub) : State :=
  let s := ((s.setPhase x .done).setRanks x .active).trainFrames x [0]
  let s := s.raise 16 (BitVec.ofNat 24 (subNo x + 2 * s.train.path.toNat))
  if s.restoreHolds then
    match x with
    | .a => { s with hrd := { s.hrd with readyHeldA := true } }
    | .b => { s with hrd := { s.hrd with readyHeldB := true } }
  else s.goHost x

/-- TRM_RESULT.PATH takes a code. -/
def State.setPath (s : State) (p : Nat) : State := { s with train := { s.train with path := BitVec.ofNat 3 p } }

/-- The path of a subchannel that trains cold: 4 and 5 stand, everything else becomes 2 (R140). -/
def State.coldPath (s : State) : State :=
  if s.train.path.toNat = 4 || s.train.path.toNat = 5 then s else s.setPath 2

/-- HPUB (R152): the blob stands published after a warm path, PATH 1 or 3, with a blob. -/
def State.publish (s : State) (warm : Bool) : State :=
  { s with train := { s.train with hpub := warm && (s.train.path == 1 || s.train.path == 3) && s.train.blobLen != 0 } }

/-- Keep state WAKE ends in NORMAL and domain state RUN (R67, R207), with its LAST_END; the tap calibrations of
management ready run from here (R170). -/
def State.wakeEnd (s : State) (lastEnd : BitVec 3) : State :=
  if s.pow.keep != .wake then s else
  let s := { s with pow := { s.pow with keep := .normal, dom := .run, lastEnd := lastEnd } }
  if s.clk.hckOk then s.calResume else s

/-- A Resume ends (R103): the image is no longer held for it. Result 1 has passed on both subchannels. -/
def State.resumeEnd (s : State) (result : BitVec 2) : State :=
  match s.host.resume with
  | none => s
  | some w =>
    let s := { s with host := { s.host with resume := none }, pow := { s.pow with image := false } }
    let s := if result = 1 then s.wakeEnd 1 else s
    (s.setWin w (fun v => { v with result := result })).raise 3 (result.setWidth 24)

/-- Polka passes on a subchannel (R142, R103). -/
def State.polkaPass (s : State) (x : Sub) : State :=
  if s.host.resume.isSome then
    let s := (s.setPath 3).publish true
    let s := s.setPhase x .done
    if s.train.a.phase == .done && s.train.b.phase == .done then
      subs.foldl State.trainDone (s.resumeEnd 1)
    else s
  else ((s.setPath (if s.train.path.toNat = 2 || s.train.path.toNat = 4 || s.train.path.toNat = 5
          then s.train.path.toNat else 1)).publish true).trainDone x

/-- YRST_n goes low: DRAM contents, soft repairs (R266) and restored rows (R252) are lost. -/
def State.yrstLow (s : State) : State :=
  (subs.foldl State.repairsLost { s with host := { s.host with yrst := false } }).wmarksLost

/-- A DRAM reset of at least 1 ms (R71, R151, R227), after which YRST_n follows RESET_n (R52, R139). -/
def State.yrstPulse (s : State) : State := { s.yrstLow with host := { s.yrstLow.host with yrstMs := 1 } }

/-- The held image is gone (R39, R151, R227): EV29 with its cause, and a DRAM reset. -/
def State.dropImage (s : State) (cause : BitVec 24) : State :=
  (({ s with pow := { s.pow with image := false } }.raise 29 cause).wakeEnd 5).yrstPulse

/-- Polka fails while the image is being resumed (R151). -/
def State.polkaFailResume (s : State) (x : Sub) (check : Nat) : State :=
  let s := s.raise 18 (BitVec.ofNat 24 (subNo x + 2 * check))
  let s := (s.resumeEnd 2).dropImage 2
  let s := { s with train := { s.train with coldCause := 7 } }.setPath 5
  subs.foldl (fun s y => (((s.discardWork y).setPhase y .init).setRanks y .active).setTr y (fun t => { t with
    rankFail := 0, want := 0, reelDone := false, skip := false })) (s.publish false)

/-- Polka fails on a warm boot (R142). -/
def State.polkaFail (s : State) (x : Sub) (check : Nat) : State :=
  let s := s.raise 18 (BitVec.ofNat 24 (subNo x + 2 * check))
  let s := { s with train := { s.train with coldCause := 7 } }.setPath 4
  (((s.publish false).discardWork x).setPhase x .reel).trainFrames x (trainCodes .reel)

/-- A try of check `i`, P1 to P4 as 1 to 4, meets the criterion of R149. -/
def polkaOk (tol : Nat) (i : Nat) (t : PolkaTry) : Bool :=
  match i with
  | 1 => (tol : Int) ≤ t.a && (tol : Int) ≤ t.b
  | 2 => t.a.natAbs ≤ tol
  | 3 => t.a.natAbs ≤ 20000
  | _ => (tol : Int) ≤ t.a && (tol : Int) ≤ t.b && (tol : Int) ≤ t.c && (tol : Int) ≤ t.d

/-- Two tries agree (R150): both pass or both fail; the edges that P2 measures besides lie within 1 tap. -/
def polkaAgree (tol i : Nat) (p : PolkaTry × PolkaTry) : Bool :=
  polkaOk tol i p.1 == polkaOk tol i p.2 && (i != 2 || (p.1.a - p.2.a).natAbs ≤ 1)

/-- A check of R149 with its pair, or the pair made once more (R150): whether it passes, and whether the pair was
repeated. -/
def polkaPair (tol i : Nat) (c : PolkaCheck) : Bool × Bool :=
  if polkaAgree tol i c.first then (polkaOk tol i c.first.1, false)
  else (polkaAgree tol i c.second && polkaOk tol i c.second.1, true)

/-- The four checks of a die with their numbers. -/
def polkaChecks (d : PolkaDie) : List (Nat × PolkaCheck) := [(1, d.p1), (2, d.p2), (3, d.p3), (4, d.p4)]

/-- A die that answers nothing. -/
def polkaSilent : PolkaDie :=
  let c : PolkaCheck := ⟨(⟨-1, -1, -1, -1⟩, ⟨-1, -1, -1, -1⟩), (⟨-1, -1, -1, -1⟩, ⟨-1, -1, -1, -1⟩)⟩
  ⟨c, c, c, c⟩

/-- Polka over every fitted rank and die (R149, R150), `dies` in that order: the first check that fails, 0 where all pass,
and the pairs repeated. All checks are made (log entry 91, DEDUCED). -/
def State.polkaJudge (s : State) (x : Sub) (dies : List PolkaDie) : Nat × Nat :=
  let tol := fld s.train.recCfg 19 16
  let n := (onesOf 4 (s.drmCfg x).toNat).length * s.stack x
  let cs := ((List.range n).map (fun i => nth dies i polkaSilent)).flatMap polkaChecks
  let rs := cs.map (fun c => (c.1, polkaPair tol c.1 c.2))
  (match rs.find? (fun r => !r.2.1) with
    | some r => r.1
    | none => 0, (rs.filter (fun r => r.2.2)).length)

/-- Training, replay and Polka go on (R139, R140, R71): HCK is present, or a save's clock, PD3 is on and its supply
stands. -/
def State.trains (s : State) : Bool := s.pd3 && !s.host.pd3Fault && (s.clk.hckOk || s.pow.dom == .save)

/-- Polka ends (R150). -/
def State.polkaDone (s : State) (x : Sub) (dies : List PolkaDie) : State :=
  if (s.tr x).phase != .polka || !s.trains then s else
  let j := s.polkaJudge x dies
  let s := { s with train := { s.train with pairs := satAdd s.train.pairs j.2 } }
  if j.1 = 0 then s.polkaPass x
  else if s.host.resume.isSome then s.polkaFailResume x j.1
  else s.polkaFail x j.1

/-- A training step's failing ranks (R143): EV17 for each. -/
def State.failRanks (s : State) (x : Sub) (m : Nat) : State :=
  (onesOf 4 m).foldl (fun s k =>
    let s := s.setTr x (fun t => { t with rankFail := t.rankFail ||| BitVec.ofNat 4 (2 ^ k) })
    (s.resetRank x k).raise 17 (BitVec.ofNat 24 (subNo x + 2 * k))) s

/-- The phase after a Quadrille step. -/
def nextPhase : Phase → Phase
  | .reel => .gavotte | .gavotte => .minuet | p => p

/-- A Quadrille step ends (R136, R142): `failed` are the ranks that failed it twice. -/
def State.stepDone (s : State) (x : Sub) (failed : BitVec 4) : State :=
  let ph := (s.tr x).phase
  if (ph != .reel && ph != .gavotte && ph != .minuet) || !s.trains then s else
  let s := s.trainFrames x (trainCodes ph)
  let good := s.goodRanks x
  let s := s.failRanks x (good &&& failed.toNat)
  let s := (onesOf 4 (s.goodRanks x)).foldl (fun s k => s.trainRank x ph k) s
  if s.goodRanks x = 0 then ((s.setPhase x .fail).trainFrames x [0]).raise 17 (BitVec.ofNat 24 (subNo x))
  else if ph == .minuet then
    let s := { s with train := { s.train with trainedRate := s.clk.hckMhz } }
    let s := ((s.noteTemps x 15).publish false).recStore 1
    s.trainDone x
  else (s.setPhase x (nextPhase ph)).trainFrames x ((trainCodes (nextPhase ph)).take 1)

/-- Before the first INIT of a boot the rate turns out not to be the record's, which condition 3 of R146 puts before the
conditions 4 and 5 that failed at management ready. -/
def State.rateLate (s : State) : Bool :=
  s.train.path == 0 && (s.train.coldCause == 4 || s.train.coldCause == 5)
    && s.train.stored.any (fun r => !rateNear s.clk.hckMhz.toNat r.rate.toNat)

/-- Initialization starts (R139): RESET_n high with HCK present. A record whose rate is not the one measured is not
used (R146). -/
def State.trainInit (s : State) (x : Sub) : State :=
  if (s.tr x).phase != .wait || !s.host.resetHigh || !s.clk.hckOk || !s.trains then s else
  let s := { s with host := { s.host with yrst := true } }
  let s := if (s.tr x).replayed && !rateNear s.clk.hckMhz.toNat s.train.trainedRate.toNat then
      { (s.discardWork x) with train := { (s.discardWork x).train with coldCause := 3 } }
    else if s.rateLate then { s with train := { s.train with coldCause := 3 } } else s
  let s := s.setTr x (fun t => { t with phase := .init, rankFail := 0, want := 0, reelDone := false, skip := false })
  s.setSub x (fun t => { t with ranks := (List.range 4).map (fun k => if s.rankFitted x k then .active else .absent) })

/-- Initialization ends (R139, R141, R142): the DRAMs are out of reset, which RESET_n and HCK allow; the mode registers are the ZX8-R's own for the rate, which the manual does
not give. -/
def State.initDone (s : State) (x : Sub) : State :=
  if (s.tr x).phase != .init || !s.host.resetHigh || !s.clk.hckOk || !s.trains then s else
  let s := { s with host := { s.host with yrst := true, yrstMs := 0 } }
  let m : MrShadow := ⟨0, s.freeVal 7, s.took.freeVal 7, false, false⟩
  let s := s.took.took.setSub x (fun t => { t with shadow := List.replicate 4 m })
  if s.pow.straps.nodb then (s.setPath 6).trainDone x
  else if (s.tr x).replayed then s.setPhase x .polka
  else (s.coldPath.setPhase x .reel).trainFrames x (trainCodes .reel)

/-- Reel-H ends (R137), before its subchannel has reached its host: receivers centred, HCS_n at the mean of the HCA taps, or REEL_H_SKIP. -/
def State.reelH (s : State) (x : Sub) (enough : Bool) (es : List TapVref) : State :=
  if (s.tr x).reelDone || (s.sub x).owner != .notReady || !s.clk.hckOk || !s.trains then s
  else if !enough then s.setTr x (fun t => { t with reelDone := true, skip := true })
  else
    let mean := roundDiv s.free ((es.take 14).foldl (fun a e => a + e.tap) 0) 14
    let ca := es.zipIdx.map (fun e => (⟨toField (if e.2 < 15 then e.1.tap else mean), toField e.1.vref⟩ : TapSt))
    (s.took.limitOff (subNo x)).setTr x (fun t => { t with ca := ca, caRef := ca, reelDone := true, skip := false })

/-! ## Maintenance (R159 to R161) -/

/-- Ranks whose temperature has moved since their last transmit training want a unit (R159). -/
def State.wantByTemp (s : State) : State :=
  match s.hotNow with
  | none => s
  | some h => subs.foldl (fun s x =>
      let m := maskOf ((s.tr x).temps.zipIdx.map (fun e =>
        decide (fld s.train.maintCfg 6 0 * 4 ≤ (h - e.1).natAbs) && (s.goodRanks x).testBit e.2))
      if (s.tr x).phase == .done && m != 0 then s.wantRanks x m else s) s

/-- Units whose temperature has moved since their last calibration are calibrated (R170). -/
def State.calByTemp (s : State) : State :=
  (List.range 11).foldl (fun s u =>
    match s.unitTemp u with
    | some t => if fld s.cal.cfg 21 16 * 4 ≤ (t - nth s.cal.temps u 0).natAbs && (s.calRun u).isNone
        then s.calBoth u false else s
    | none => s) s

/-- A unit's saved bursts are back in their row, and the next unit takes the next row of the die (R161; log entry 92,
DESIGN CHOICE). -/
def State.unitRestore (s : State) (x : Sub) : State :=
  (s.setDbs x (fun d => { d with saved := false })).setTr x (fun t => { t with row := (t.row + 1) % s.dieRows x })

/-- A maintenance unit starts on the lowest wanted rank (R160): one burst of each bank group of its row goes into the save
stores (R161). -/
def State.unitStart (s : State) (x : Sub) : State :=
  match onesOf 4 (s.tr x).want.toNat with
  | [] => s
  | k :: _ => (s.saveStore x true).setTr x (fun t => { t with phase := .maint, unit := some (Fin.ofNat 4 k) })

/-- A maintenance unit ends (R161): the saved bursts are written back and compared, and on a match Reel, Gavotte and Minuet
write of its rank take effect. -/
def State.unitDone (s : State) (x : Sub) (pass changed : Bool) (lane : Nat) : State :=
  match (s.tr x).unit with
  | none => s
  | some k =>
    let s := ((s.unitRestore x).setTr x (fun t => { t with phase := .done, unit := none })).trainFrames x [0]
    if pass then
      let s := s.setTr x (fun t => { t with want := t.want &&& ~~~(BitVec.ofNat 4 (2 ^ k.val)) })
      let s := s.noteTemps x (2 ^ k.val)
      if changed then
        (((s.reelRank x k).genPath x (2 + 2 * k) true).writeRank x k).recStore 2
      else s
    else (s.raise 17 (BitVec.ofNat 24 (subNo x + 2 * k.val))).fault 1 (10 * subNo x + lane) 1

/-- A grant ends or is abandoned with a unit running (R86, R161): the saved bursts are written back, and the values held
before the unit stand. -/
def State.unitAbandon (s : State) (x : Sub) : State :=
  if (s.tr x).unit.isSome then
    ((s.unitRestore x).setTr x (fun t => { t with phase := .done, unit := none })).trainFrames x [0]
  else s

/-! ## HRX settle (R153) -/

/-- A write of GO_x: one starts a settle in state HOST, zero abandons a running one. -/
def State.settleGo (s : State) (x : Sub) (go : Bool) : State :=
  if go then
    if (s.sub x).owner == .host && !(s.tr x).settleGo then
      s.setTr x (fun t => { t with settleGo := true, settleDone := false, settleFail := false })
    else s
  else s.setTr x (fun t => { t with settleGo := false })

/-- The HRX accumulators of a subchannel are cleared (R180). -/
def State.hrxClear (s : State) (x : Sub) : State :=
  { s with trim := { s.trim with acc := s.trim.acc.filter (fun e =>
      let u := e.1 / 1024
      !(2 ≤ u && dbSub (u - 2) == x && e.1 / 64 % 16 == 0)) } }

/-- A settle ends: every HRX tap and Vref code of the reachable buffers together, ten entries each, or FAIL_x; the HRX
accumulators are cleared (R180). -/
def State.settleEnd (s : State) (x : Sub) (edges : Bool) (es : List TapVref) : State :=
  if !(s.tr x).settleGo then s else
  let s := if edges then
      (subDbs x).foldl (fun s n => if !s.reaches n then s else (List.range 10).foldl (fun s i =>
        let e := nth es (10 * (n % 5) + i) ⟨64, 60⟩
        s.writeDbTap n 0 i ⟨toField e.tap, if i < 8 then toField e.vref else 0⟩) s) s
    else s
  let s := s.hrxClear x
  (s.setTr x (fun t => { t with settleGo := false, settleDone := edges, settleFail := !edges })).raise 23
    (BitVec.ofNat 24 (subNo x + 2 * (!edges).toNat))

/-! ## Registers (R162) -/

/-- Codes of a phase (R142). -/
def phaseCode : Phase → Nat
  | .off => 0 | .wait => 1 | .held => 2 | .init => 3 | .polka => 4 | .reel => 5 | .gavotte => 6 | .minuet => 7
  | .done => 8 | .maint => 9 | .fail => 10

/-- TRM_STATUS. -/
def State.trmStatus (s : State) : Word :=
  let a := s.train.a
  let b := s.train.b
  let mis := s.clk.hckOk && s.train.trainedRate != 0 && !rateNear s.clk.hckMhz.toNat s.train.trainedRate.toNat
  packWord [(0, phaseCode a.phase), (4, phaseCode b.phase), (8, a.rankFail.toNat), (12, b.rankFail.toNat),
    (16, a.skip.toNat), (17, b.skip.toNat), (18, s.train.unverified.toNat), (19, mis.toNat)]

/-- TRM_REC_STATUS. -/
def State.recStatus (s : State) : Word :=
  let t := s.train
  packWord [(0, t.recValid.toNat), (1, t.storedSlot.toNat), (2, t.recPending.toNat), (3, t.drifted.toNat),
    (4, match t.stored with | some r => r.rate.toNat | none => 0), (16, t.storedGen.toNat % 65536)]

/-- The index of the host blob of a path moves on (TRM_HBLOB_DATA). -/
def State.blobNext (s : State) (p : Path) : State := s.setSel p (fun x => { x with hblob := x.hblob + 1 })

/-- TRM_REC_CMD (R147, R148). -/
def State.recCmd (s : State) (key : Nat) : State :=
  if key = 0x5A01 then s.recStore 3
  else { s with train := { s.train with recPending := true, recInvalid := true } }.pendRegion 5

/-- The training registers as path `p` finds them. -/
def trainReg (p : Path) (a : Nat) (s : State) : Option RegDef :=
  let t := s.train
  let wb := s.regOn .warmBoot
  let idx := (s.sel p).hblob.toNat
  if a = 0x1100 then some (RegDef.ro s.trmStatus)
  else if a = 0x1104 then
    some (RegDef.ro (packWord [(0, t.path.toNat), (3, t.coldCause.toNat), (8, t.pairs.toNat)]))
  else if a = 0x1108 then some (RegDef.ro (packWord [(0, t.a.ready.toNat), (16, t.b.ready.toNat)]))
  else if a = 0x110C then
    some { flds := [Fld.kept' 6 0 (fun v => 10 ≤ v && v ≤ 80), Fld.kept' 11 8 (fun v => 2 ≤ v && v ≤ 15),
                    Fld.kept' 19 16 (fun v => 1 ≤ v && v ≤ 8)], read := t.recCfg,
           write := fun v s => { s with train := { s.train with recCfg := v } } }
  else if a = 0x1110 && wb then
    some { flds := [⟨15, 0, .wo, false, fun k => k == 0x5A01 || k == 0x5A02⟩], read := 0,
           write := fun v s => s.recCmd (fld v 15 0) }
  else if a = 0x1114 then some (RegDef.ro s.recStatus)
  else if a = 0x1118 && wb then some (RegDef.ro (BitVec.ofNat 32 t.hpub.toNat))
  else if a = 0x111C && wb then some (RegDef.ro t.hfp)
  else if a = 0x1120 && wb then
    some { flds := [Fld.any .rw 7 0], read := (s.sel p).hblob.setWidth 32,
           write := fun v s => s.setSel p (fun x => { x with hblob := v.setWidth 8 }) }
  else if a = 0x1124 && wb then
    some { flds := [Fld.keptAny 31 0], read := sget 0 t.blob idx, onRead := fun s => s.blobNext p,
           write := fun v s => { s with train := { s.train with blob := sset 0 s.train.blob idx v } }.blobNext p }
  else if a = 0x1128 && wb then
    some { flds := [Fld.kept' 8 0 (· ≤ 256)], read := t.blobLen.setWidth 32,
           write := fun v s => { s with train := { s.train with blobLen := v.setWidth 9 } } }
  else if a = 0x112C && s.regOn .dbPresent then
    some { flds := [Fld.any .rw 0 0, Fld.any .rw 1 1, Fld.ro 2 2, Fld.ro 3 3, Fld.ro 4 4, Fld.ro 5 5],
           read := packWord [(0, t.a.settleGo.toNat), (1, t.b.settleGo.toNat), (2, t.a.settleDone.toNat),
             (3, t.b.settleDone.toNat), (4, t.a.settleFail.toNat), (5, t.b.settleFail.toNat)],
           write := fun v s => (s.settleGo .a (bitAt v 0)).settleGo .b (bitAt v 1) }
  else if a = 0x1130 then
    some { flds := [Fld.kept' 6 0 (fun v => 5 ≤ v && v ≤ 60)], read := t.maintCfg,
           write := fun v s => { s with train := { s.train with maintCfg := v } } }
  else if a = 0x1134 then
    some (RegDef.ro (packWord [(0, t.a.want.toNat), (4, t.b.want.toNat), (8, t.a.unit.isSome.toNat),
      (9, t.b.unit.isSome.toNat)]))
  else none

/-! ## Rows -/

/-- TRAINING_INIT (R139). -/
def execTrainingInit (x : Sub) (s : State) : Out := .next (if s.up then s.trainInit x else s)
/-- TRAINING_INIT_DONE (R142). -/
def execTrainingInitDone (x : Sub) (s : State) : Out := .next (if s.up then s.initDone x else s)
/-- QUADRILLE_STEP_DONE (R136). -/
def execQuadrilleStepDone (x : Sub) (failed : BitVec 4) (s : State) : Out :=
  .next (if s.up then s.stepDone x failed else s)
/-- REEL_H_END (R137). -/
def execReelHEnd (x : Sub) (enough : Bool) (es : List TapVref) (s : State) : Out :=
  .next (if s.up then s.reelH x enough es else s)
/-- MAINT_UNIT_DONE (R161): `lane` is the nibble of the subchannel whose compare failed. -/
def execMaintUnitDone (x : Sub) (rank : Fin 4) (pass changed : Bool) (lane : Fin 10) (s : State) : Out :=
  .next (if s.up && (s.tr x).unit == some rank then s.unitDone x pass changed lane else s)
/-- HSETTLE_END (R153). -/
def execHsettleEnd (x : Sub) (edges : Bool) (es : List TapVref) (s : State) : Out :=
  .next (if s.up then s.settleEnd x edges es else s)
/-- DB_STATUS_POLL (R117, R159, R170). -/
def execDbStatusPoll (s : State) : Out := .next (if s.up then s.statusPoll.wantByTemp.calByTemp else s)

end Sys2Proof.Machine
end

