-- ==== Sys2Proof/Machine/TrimOps.lean ====
section
/-! DEFINITION. Live trim (07): the SME rotation, accumulation and decisions, the queues of steps, re-centring, and the
live-trim registers. Trim units are 0 CA A, 1 CA B and 2 + n for buffer n (R174). -/

namespace Sys2Proof.Machine

/-- The subchannel of a trim unit. -/
def trimSub (u : Nat) : Sub := if u = 0 then .a else if u = 1 then .b else dbSub (u - 2)

/-- The calibration unit of a trim unit. -/
def trimCal (u : Nat) : Nat := if u < 2 then 0 else u - 1

/-- The key of an accumulator. -/
def accKey (u path entry mode : Nat) : Nat := ((u * 16 + path) * 32 + entry) * 2 + mode

/-- The mode a path measures in: phase mode alone while VREF_EN is 0 (R177). -/
def State.trimMode (s : State) (u path : Nat) : Nat :=
  if bitAt s.trim.cfg 14 then sget 0 s.trim.modes (u * 16 + path) else 0

/-- A value of a trimmed entry. -/
def State.trimVal (s : State) (u path entry : Nat) : TapSt :=
  if u < 2 then nth (s.tr (trimSub u)).ca entry ⟨64, 60⟩ else s.dbTap (u - 2) path entry

/-- The reference of a trimmed entry (R179). -/
def State.trimRef (s : State) (u path entry : Nat) : TapSt :=
  if u < 2 then nth (s.tr (trimSub u)).caRef entry ⟨64, 60⟩ else s.dbRef (u - 2) path entry

/-- A unit's subchannel measures (R180). -/
def State.measures (s : State) (x : Sub) : Bool := (s.sub x).owner == .host && s.fnOn .liveTrim

/-- A source can deliver in its slot (R64, R175): a buffer while DB_PRESENT behaves as present (R16). -/
def State.smeReady (s : State) (u : Nat) : Bool :=
  s.measures (trimSub u) && s.clk.hckOk && (s.calRun (trimCal u)).isNone
    && (u < 2 || (s.fnOn .dbPresent && !s.unreach (u - 2) && s.dbcOn))

/-- The receiver of an entry is swapped (R167, R175). -/
def State.swapped (s : State) (u path entry : Nat) : Bool :=
  if u < 2 then s.swapOf 0 (19 * u + entry) != 0 else s.swapOf (u - 1) ((if path = 0 then 0 else 8) + entry) != 0

/-- A step of an entry is queued or pending (R177), in its receiver or its buffer. -/
def State.hasStep (s : State) (u path entry : Nat) : Bool :=
  (nth s.trim.queues u []).any (fun t => t.path == path && t.entry == entry)
    || (nth s.trim.placed u none).any (fun t => t.path == path && t.entry == entry)
    || (2 ≤ u && (let d := s.db (u - 2)
      d.stagePend && d.stage.toNat % 16 == path && d.stage.toNat / 16 % 16 == entry))

/-- The key of a bit in `Trim.last`. -/
def lastKey (u path entry : Nat) : Nat := (u * 16 + path) * 32 + entry

/-- The bit whose last decision has the highest S / ΣN; of equal ones that of the lowest unit, path and entry (log entry 96,
DESIGN CHOICE). -/
def worstOf : List (Nat × (Nat × Nat × Nat)) → Option (Nat × (Nat × Nat × Nat))
  | [] => none
  | e :: r =>
    match worstOf r with
    | none => some e
    | some w => some (if e.2.2.1 * w.2.2.2 < w.2.2.1 * e.2.2.2 then w else e)

/-- TRM_TRIM_WORST. -/
def Trim.worst (t : Trim) : Word :=
  match worstOf t.last with
  | none => 0
  | some (k, mode, sum, n) =>
    packWord [(0, k / 512), (4, k / 32 % 16), (8, k % 32), (13, mode), (16, min 65535 (sum * 65536 / n))]

/-- One bit's decision, when it is due (R177). -/
def State.trimDecide (s : State) (u path mode entry : Nat) : State :=
  let k := accKey u path entry mode
  let a := sget (⟨0, 0, 0, 0⟩ : Acc) s.trim.acc k
  if a.results < fld s.trim.cfg 12 8 || a.n < 4096 || s.hasStep u path entry then s else
  let d : Int := (a.e : Int) - a.l
  let sum := a.e + a.l
  let t := { s.trim with acc := serase s.trim.acc k, last := sput s.trim.last (lastKey u path entry) (mode, sum, a.n) }
  let t := if decide (fld s.trim.lim 23 16 ≤ d.natAbs) && decide (sum < 4 * d.natAbs) then
      let down := if mode = 0 then decide (0 < d) else decide (d < 0)
      { t with queues := upd t.queues u (fun q => q ++ [⟨path, entry, mode == 1, down, false⟩]) }
    else t
  let next := if mode = 0 && bitAt s.trim.cfg 14 then 1 else 0
  { s with trim := { t with modes := sset 0 t.modes (u * 16 + path) next } }

/-- One SME result joins the accumulators of its bits, and decisions follow (R176, R177). -/
def State.smeResult (s : State) (u path mode n : Nat) (counts : List EyeCount) : State :=
  let es := counts.zipIdx.filter (fun c => !s.swapped u path c.2)
  let acc := es.foldl (fun acc c =>
    let k := accKey u path c.2 mode
    let a := sget (⟨0, 0, 0, 0⟩ : Acc) acc k
    sput acc k ⟨a.results + 1, a.n + n, a.e + c.1.early, a.l + c.1.late⟩) s.trim.acc
  es.foldl (fun s c => s.trimDecide u path mode c.2) { s with trim := { s.trim with acc := acc } }

/-- A shadow window of buffer `n` closes (R122): its result goes out on DBR_x. -/
def State.windowClose (s : State) (n uis : Nat) (counts : List EyeCount) : State :=
  s.setDb n (fun d => { d with streaming := false, window := none, dbr := dbrStream (d.window.getD 0) uis counts })

/-- A result that came in on DBR_x (R122): a CRC failure or a full crossing discards it (R63). -/
def State.dbrResult (s : State) (n path mode : Nat) (rx : List Bool) (room : Bool) : State :=
  if !dbrGood rx then { s with trim := { s.trim with lossCrc := satAdd s.trim.lossCrc 1 } }
  else if !room then { s with trim := { s.trim with lossOver := satAdd s.trim.lossOver 1 } }
  else s.smeResult (n + 2) path mode (dbrUis rx) (dbrCounts rx)

/-- The HRX trim of a subchannel is suspended while its HRX settle runs (R180). -/
def State.suspended (s : State) (u path : Nat) : Bool := path == 0 && 2 ≤ u && (s.tr (trimSub u)).settleGo

/-- The rank a DRX slot samples (R175). -/
def State.drxRank (s : State) (x : Sub) : Nat :=
  let rs := onesOf 4 (s.goodRanks x)
  nth rs (s.trim.frame.toNat % (max rs.length 1)) 0

/-- The source of an SME slot: trim unit and path (R175). -/
def State.slotSource (s : State) (slot : Nat) : Option (Nat × Nat) :=
  let order := [0, 5, 1, 6, 2, 7, 3, 8, 4, 9]
  if slot < 10 then some (nth order slot 0 + 2, 0)
  else if slot < 20 then
    let n := nth order (slot - 10) 0
    some (n + 2, 3 + 2 * s.drxRank (dbSub n))
  else if slot = 20 then some (0, 0) else if slot = 21 then some (1, 0) else none

/-- What DBD_SHADOW is set to for a slot (R176). -/
def State.shadowFor (s : State) (path mode : Nat) : Word :=
  packWord [(0, mode), (1, if path = 0 then 0 else (path - 3) / 2),
    (8, if mode = 0 then fld s.trim.cfg 29 24 else fld s.trim.lim 29 24), (16, fld s.trim.cfg 21 16)]

/-- A re-centre's sweep in a spare slot has its result (R268): the new centres are what the sweep measured, which the
manual does not give, and the steps toward them are queued. -/
def State.centreSweep (s : State) : State :=
  match s.trim.recentre.find? (fun r => r.2 == 0) with
  | none => s
  | some r =>
    let c := r.1 / 512
    let i := r.1 % 512
    let u := if c = 1 then i / 2 + 2 else i
    let es := if c = 1 then (List.range 4).map (· + 4 * (i % 2)) else List.range 19
    if !s.smeReady u then s else
    let steps := es.flatMap (fun e =>
      let now := s.trimVal u 0 e
      let aim := freeTap s.free e true
      let mk := fun (v : Bool) (a b : Nat) => List.replicate (if a ≤ b then b - a else a - b)
        (⟨0, e, v, decide (b < a), true⟩ : TrimStep)
      mk false now.tap.toNat aim.tap.toNat ++ mk true now.vref.toNat aim.vref.toNat)
    { s with free := s.free + 64,
             trim := { s.trim with queues := upd s.trim.queues u (· ++ steps),
                                   recentre := s.trim.recentre.map (fun q => if q = r then (r.1, 1) else q) } }

/-- A buffer slot (R176): DBD_SHADOW is written over the ZLB, SAMPLE is sent, and the result comes in, `flips` of its bits
inverted on the way. A buffer that still streams, or is in TRAIN mode, takes no SAMPLE. -/
def State.smeBuffer (s : State) (n path uis : Nat) (counts : List EyeCount) (flips : List (Fin 157)) (room : Bool) : State :=
  let s := s.zlbTry n
  if !s.reaches n then s else
  let mode := s.trimMode (n + 2) path
  let w := s.shadowFor path mode
  let s := (s.warrenAccess n 0x020 w 0).setDb n (fun d => { d with shadow := w })
  if (s.db n).streaming || (s.db n).train != 0 then s else
  let s := s.dbcCmd (dbSub n) (.sample (BitVec.ofNat 3 (n % 5)) (path != 0))
  if !(s.db n).streaming then s else
  let s := s.windowClose n uis counts
  s.dbrResult n path mode (dbrFlip (flips.map Fin.val) (s.db n).dbr) room

/-- One SME slot (R175, R176): the rotation moves on; a source that cannot deliver is skipped. -/
def State.smeSlot (s : State) (n : Nat) (counts : List EyeCount) (flips : List (Fin 157)) (room : Bool) : State :=
  let slot := s.trim.slot.toNat
  let nxt := if slot = 23 then 0 else slot + 1
  let fr := if slot = 23 then s.trim.frame + 1 else s.trim.frame
  let s' := { s with trim := { s.trim with slot := BitVec.ofNat 5 nxt, frame := fr } }
  match s.slotSource slot with
  | none => s'.centreSweep
  | some (u, path) =>
    if !s.smeReady u || s.suspended u path then s'
    else if u < 2 then
      if !room then { s' with trim := { s'.trim with lossOver := satAdd s'.trim.lossOver 1 } }
      else s'.smeResult u 0 (s.trimMode u 0) n counts
    else s'.smeBuffer (u - 2) path n counts flips room

/-! ## Steps (R178, R179) -/

/-- A step leaves the codes of its entry (R179). -/
def stepEdge (t : TapSt) (vref down : Bool) : Bool :=
  let v := if vref then t.vref.toNat else t.tap.toNat
  if down then v == 0 else v == (if vref then 120 else 127)

/-- A step carries its entry beyond the span from its reference; a step toward the reference does not (R179). -/
def State.beyond (s : State) (t r : TapSt) (vref down : Bool) : Bool :=
  let v := if vref then t.vref.toNat else t.tap.toNat
  let c := if vref then r.vref.toNat else r.tap.toNat
  let span := if vref then fld s.trim.lim 12 8 else fld s.trim.lim 4 0
  if down then v ≤ c && span < c + 1 - v else c ≤ v && span < v + 1 - c

/-- Every entry of a unit lies inside its span (R179). -/
def State.inSpan (s : State) (u : Nat) : Bool :=
  let inside := fun (path e : Nat) =>
    let t := s.trimVal u path e
    let r := s.trimRef u path e
    let near := fun (a b span : Nat) => decide (a < b + span) && decide (b < a + span)
    near t.tap.toNat r.tap.toNat (fld s.trim.lim 4 0) && near t.vref.toNat r.vref.toNat (fld s.trim.lim 12 8)
  if u < 2 then (List.range 19).all (inside 0)
  else [0, 3, 5, 7, 9].all (fun p => (List.range 8).all (inside p))

/-- A refused step (R179): counted, and on the rise of LIMIT EV22 and one lane fault. -/
def State.refuseStep (s : State) (u : Nat) (t : TrimStep) : State :=
  let rise := !s.trim.limit.getLsbD u
  let s := { s with trim := { s.trim with refused := satAdd s.trim.refused 1,
                                          limit := s.trim.limit ||| BitVec.ofNat 12 (2 ^ u) } }
  if !rise then s else
  let s := s.raise 22 (BitVec.ofNat 24 u)
  if u < 2 then s.fault 2 u 1 else s.fault 1 (2 * (u - 2) + t.entry / 4) 1

/-- An applied step is counted (R178); LIMIT follows, and drift is checked against the stored record (R147). -/
def State.countStep (s : State) (u : Nat) : State :=
  let s := { s with trim := { s.trim with applied := satAdd s.trim.applied 1 } }
  if s.trim.limit.getLsbD u && s.inSpan u then
    { s with trim := { s.trim with limit := s.trim.limit &&& ~~~(BitVec.ofNat 12 (2 ^ u)) } }
  else s

/-- The value of an entry in the stored record. -/
def State.storedVal (s : State) (u path entry : Nat) : Option TapSt :=
  s.train.stored.map (fun r =>
    if u = 0 then nth r.caA entry ⟨64, 60⟩ else if u = 1 then nth r.caB entry ⟨64, 60⟩
    else let d := nth r.dbs (u - 2) ⟨[], []⟩
      tapOf d.taps d.gens path entry)

/-- Drift of an entry against the stored record (R147), `now` being the value it moves to. -/
def State.drift (s : State) (u path entry : Nat) (now : TapSt) : State :=
  match s.storedVal u path entry with
  | some r => s.driftCheck r now
  | none => s

/-- A step leaves its unit's queue. -/
def State.popStep (s : State) (u : Nat) (t : TrimStep) : State :=
  { s with trim := { s.trim with queues := upd s.trim.queues u (fun q => q.erase t) } }

/-- TRIM_APPLY on a subchannel: every step staged in its buffers is armed (R123). -/
def State.trimApply (s : State) (x : Sub) : State := s.dbcCmd x .trimApply

/-- Live trim applies steps on a unit (R64, R180): on a buffer while DB_PRESENT behaves as present (R16). -/
def State.trimOn (s : State) (u : Nat) : Bool :=
  (s.sub (trimSub u)).owner == .host && s.fnActive .liveTrim && !bitAt s.trim.cfg 15 && s.clk.hckOk
    && (u < 2 || s.fnOn .dbPresent)

/-- The step a unit's tick takes (R178): the first of its queue that is not suspended (R180). -/
def State.stepDue (s : State) (u : Nat) : Option TrimStep :=
  (nth s.trim.queues u []).find? (fun t => !s.suspended u t.path)

/-- What a unit's tick stages in its buffer (R123, R178). -/
def stageCode (t : TrimStep) : BitVec 10 :=
  BitVec.ofNat 10 (t.path + 16 * t.entry + 256 * t.vref.toNat + 512 * t.down.toNat)

/-- A step is placed: in its receiver, or staged in its buffer, and no longer queued. -/
def State.placeStep (s : State) (u : Nat) (t : TrimStep) : State :=
  { s.popStep u t with trim := { (s.popStep u t).trim with placed := upd s.trim.placed u (fun _ => some t) } }

/-- A called-for step is taken at a tick (R178): the code limits, the span, then the buffer or the ZX8-R receiver. A
buffer that holds a step staged before makes live trim wait. -/
def State.takeStep (s : State) (u : Nat) (t : TrimStep) : State :=
  let v := s.trimVal u t.path t.entry
  let r := s.trimRef u t.path t.entry
  if stepEdge v t.vref t.down || (!t.centre && s.beyond v r t.vref t.down) then (s.popStep u t).refuseStep u t
  else if u < 2 then if (nth s.trim.placed u none).isSome then s else s.placeStep u t
  else if (s.db (u - 2)).stagePend then s
  else
    let s := s.zlbTry (u - 2)
    if !s.reaches (u - 2) then s else
    let w := (stageCode t).setWidth 32
    ((s.warrenAccess (u - 2) 0x024 w 0).placeStep u t).setDb (u - 2) (fun d =>
      { d with stagePend := true, stageArmed := false, stage := stageCode t })

/-- A re-centre whose steps are through (R268): the value becomes the reference, and EV45 is raised. -/
def State.centreEnd (s : State) (u : Nat) : State :=
  match s.trim.recentre.find? (fun r => r.2 == 1 && (if r.1 / 512 = 1 then r.1 % 512 / 2 + 2 else r.1 % 512) == u) with
  | none => s
  | some r =>
    if (nth s.trim.queues u []).any (·.centre) || (nth s.trim.placed u none).any (·.centre) then s else
    let c := r.1 / 512
    let i := r.1 % 512
    let s := { s with trim := { s.trim with recentre := s.trim.recentre.filter (· != r) } }
    let s := if c = 1 then
        { s with train := { s.train with dbRefs := upd s.train.dbRefs (u - 2) (fun l =>
          l.filter (fun e => !(decide (e.1 < 16) && e.1 / 4 == i % 2))) } }
      else s.setTr (trimSub u) (fun t => { t with caRef := t.ca })
    let s := if s.trim.limit.getLsbD u && s.inSpan u then
        { s with trim := { s.trim with limit := s.trim.limit &&& ~~~(BitVec.ofNat 12 (2 ^ u)) } }
      else s
    s.raise 45 (BitVec.ofNat 24 (c + 8 * i))

/-- One trim tick of one unit (R174, R178, R180): a unit under calibration defers its steps; TRIM_APPLY goes out on a
buffer's subchannel at every tick (R123). -/
def State.trimTick (s : State) (u : Nat) : State :=
  if !s.trimOn u then s else
  let busy := (s.calRun (trimCal u)).isSome
  let s := if busy then s else match s.stepDue u with
    | none => s
    | some t => s.takeStep u t
  let s := if 2 ≤ u then s.trimApply (trimSub u) else s
  if busy then s else s.centreEnd u

/-- The step that live trim placed in a unit has taken effect (R147, R178): it is counted, and the drift is looked at. -/
def State.stepTaken (s : State) (u : Nat) : State :=
  match nth s.trim.placed u none with
  | none => s
  | some t =>
    let s := { s with trim := { s.trim with placed := upd s.trim.placed u (fun _ => none) } }
    (s.drift u t.path t.entry (s.trimVal u t.path t.entry)).countStep u

/-- A ZX8-R receiver has been idle for 2 HCK: its pending step takes effect (R178), not while the receivers are calibrated
(R180). A step that a direct write has meanwhile put at a limit leaves the entry there (log entry 82). -/
def State.caApply (s : State) (x : Sub) : State :=
  let u := subNo x
  match nth s.trim.placed u none with
  | none => s
  | some t =>
    if (s.calRun 0).isSome || !s.clk.hckOk then s else
    let v := (s.trimVal u 0 t.entry).step t.vref t.down
    (s.setTr x (fun r => { r with ca := upd r.ca t.entry (fun _ => v) })).stepTaken u

/-- A buffer's path has been idle for 2 HCK: its armed step takes effect (R123). -/
def State.dbApply (s : State) (n : Nat) : State :=
  let d := s.db n
  if d.stageArmed && d.stagePend then (s.applyStage n).stepTaken (n + 2) else s

/-- CLK_CRST.SME (R181). -/
def State.smeReset (s : State) : State :=
  { s with trim := { s.trim with acc := [], queues := List.replicate 12 [],
                                 placed := s.trim.placed.zipIdx.map (fun q => if q.2 < 2 then none else q.1),
                                 applied := 0, refused := 0, lossCrc := 0, lossOver := 0 } }

/-! ## Registers -/

/-- The live-trim registers as path `p` finds them (R182). -/
def trimReg (_p : Path) (a : Nat) (s : State) : Option RegDef :=
  let t := s.trim
  if !s.regOn .liveTrim then none
  else if a = 0x1200 then
    some { flds := [Fld.kept' 7 0 (fun v => 1 ≤ v && v ≤ 250), Fld.kept' 12 8 (1 ≤ ·), Fld.keptAny 14 14,
                    Fld.any .rw 15 15, Fld.kept' 21 16 (fun v => 1 ≤ v && v ≤ 29),
                    Fld.kept' 29 24 (fun v => 1 ≤ v && v ≤ 32)], read := t.cfg,
           write := fun v s => { s with trim := { s.trim with cfg := v } } }
  else if a = 0x1204 then
    some { flds := [Fld.kept' 4 0 (fun v => 1 ≤ v && v ≤ 24), Fld.kept' 12 8 (fun v => 1 ≤ v && v ≤ 24),
                    Fld.kept' 23 16 (4 ≤ ·), Fld.kept' 29 24 (fun v => 1 ≤ v && v ≤ 32)], read := t.lim,
           write := fun v s => { s with trim := { s.trim with lim := v } } }
  else if a = 0x1208 then
    some (RegDef.ro (packWord [(0, (s.measures .a).toNat), (1, (s.measures .b).toNat), (4, t.limit.toNat)]))
  else if a = 0x120C then
    some { flds := Fld.counters, read := packWord [(0, t.applied.toNat), (16, t.refused.toNat)],
           write := fun _ s => { s with trim := { s.trim with applied := 0, refused := 0 } } }
  else if a = 0x1210 then
    some { flds := Fld.counters, read := packWord [(0, t.lossCrc.toNat), (16, t.lossOver.toNat)],
           write := fun _ s => { s with trim := { s.trim with lossCrc := 0, lossOver := 0 } } }
  else if a = 0x1214 then some (RegDef.ro t.worst)
  else if a = 0x1220 then some (RegDef.ro (packWord [(0, t.slot.toNat), (8, t.frame.toNat)]))
  else none

/-! ## Rows -/

/-- SME_SLOT (R175). -/
def execSmeSlot (n : Nat) (counts : List EyeCount) (flips : List (Fin 157)) (room : Bool) (s : State) : Out :=
  .next (if s.up then s.smeSlot n counts flips room else s)
/-- TRIM_TICK (R178). -/
def execTrimTick (u : Fin 12) (s : State) : Out := .next (if s.up then s.trimTick u else s)
/-- CA_TRIM_STEP_APPLY (R178). -/
def execCaTrimStepApply (x : Sub) (s : State) : Out := .next (if s.up then s.caApply x else s)
/-- TRIM_STEP_APPLY (R123). -/
def execTrimStepApply (n : Fin 10) (s : State) : Out := .next (if s.dbcOn then s.dbApply n else s)
/-- SHADOW_WINDOW_END (R122): an open window closes and its result is streamed to the ZX8-R. MODE and RANK are those that
DBD_SHADOW holds as the window ends (log entry 83, DESIGN CHOICE). -/
def execShadowWindowEnd (n : Fin 10) (uis : Nat) (counts : List EyeCount) (flips : List (Fin 157)) (s : State) : Out :=
  .next (if !s.dbcOn || !(s.db n).streaming then s else
    let d := s.db n
    let path := if d.window.any (·.getLsbD 3) then 3 + 2 * fld d.shadow 2 1 else 0
    let s := s.windowClose n uis counts
    if s.up && s.smeReady (n + 2) && !s.suspended (n + 2) path then
      s.dbrResult n path (fld d.shadow 0 0) (dbrFlip (flips.map Fin.val) (s.db n).dbr) true
    else s)

end Sys2Proof.Machine
end

