-- ==== Sys2Proof/Machine/NvsOps.lean ====
section
/-! DEFINITION. The settings memory (08): slots, gating and wear, explicit commits, the firmware image load, the log
rings, and the NVS_ registers. What needs the register map (a settings snapshot) stands in NvsRows.lean. -/

namespace Sys2Proof.Machine

/-! ## Slots -/

/-- What the registers and the commit rules read of a slot: generation, whether its body is good, erases. -/
structure SlotInfo where
  gen : Word
  ok : Bool
  erases : Nat
  deriving DecidableEq, Repr

/-- The CRC that BIND carries for regions 4 and 5 (R188). -/
def State.bind (s : State) : Word := crc32c (leBytes 8 s.modl.serial.toNat)

/-- The header of a region's slot is valid (R188): the firmware supports layout 1, and regions 4 and 5 are bound to this
ZX8-R. -/
def State.hdrOk (s : State) (r : Nat) (h : SlotHdr) : Bool :=
  h.sound r && h.layout == 1 && ((r != 4 && r != 5) || h.bind == s.bind)

/-- A slot with a valid header, seen without its body; every other slot is empty (R191). -/
def State.infoOf {β : Type} (s : State) (r : Nat) (h : Option (Held β)) : Option SlotInfo :=
  (h.filter (fun x => s.hdrOk r x.hdr)).map (fun x => ⟨x.hdr.gen, x.hdr.bodyOk, x.hdr.erases⟩)

/-- The two slots of an A/B region 2 to 6 (R186). -/
def State.slots (s : State) (r : Nat) : Option SlotInfo × Option SlotInfo :=
  match r with
  | 2 => (s.infoOf 2 s.nv.fw.a, s.infoOf 2 s.nv.fw.b)
  | 3 => (s.infoOf 3 s.nv.settings.a, s.infoOf 3 s.nv.settings.b)
  | 4 => (s.infoOf 4 s.nv.cal.a, s.infoOf 4 s.nv.cal.b)
  | 5 => (s.infoOf 5 s.nv.warm.a, s.infoOf 5 s.nv.warm.b)
  | 6 => (s.infoOf 6 s.nv.keep.a, s.infoOf 6 s.nv.keep.b)
  | _ => (none, none)

/-- The slot of a region that is in use (true: B). -/
def State.slotUse (s : State) (r : Nat) : Bool := nth s.nvs.inUse (r - 2) false

/-- Erases of the two slots of a region as W9 counts them. -/
def State.wear (s : State) (r : Nat) : Nat × Nat := nth s.nvs.wear (r - 2) (0, 0)

/-- A slot of a region is erased once more (NOR); FRAM has no erase (R192). -/
def State.addErase (s : State) (r : Nat) (b : Bool) : State :=
  if s.nv.fram then s else
  { s with nvs := { s.nvs with wear := upd s.nvs.wear (r - 2) (fun w => if b then (w.1, w.2 + 1) else (w.1 + 1, w.2)) } }

/-- A slot put into the pair. -/
def Slots.put {β : Type} (x : Slots β) (b : Bool) (h : Held β) : Slots β :=
  if b then { x with b := some h, rawB := false } else { x with a := some h, rawA := false }

/-- A slot of the pair without a header; `raw`: not erased either. -/
def Slots.wipe {β : Type} (x : Slots β) (b raw : Bool) : Slots β :=
  if b then { x with b := none, rawB := raw } else { x with a := none, rawA := raw }

/-- A slot is not erased. -/
def Slots.full {β : Type} (x : Slots β) (b : Bool) : Bool := if b then x.b.isSome || x.rawB else x.a.isSome || x.rawA

/-- A slot of a region is left without a header (R191), erased or not. -/
def State.wipeSlot (s : State) (r : Nat) (b raw : Bool) : State :=
  { s with nv := match r with
    | 2 => { s.nv with fw := s.nv.fw.wipe b raw }
    | 3 => { s.nv with settings := s.nv.settings.wipe b raw }
    | 4 => { s.nv with cal := s.nv.cal.wipe b raw }
    | 5 => { s.nv with warm := s.nv.warm.wipe b raw }
    | 6 => { s.nv with keep := s.nv.keep.wipe b raw }
    | _ => s.nv }

/-- A slot is not erased (R192). -/
def State.slotFull (s : State) (r : Nat) (b : Bool) : Bool :=
  match r with
  | 2 => s.nv.fw.full b | 3 => s.nv.settings.full b | 4 => s.nv.cal.full b | 5 => s.nv.warm.full b
  | 6 => s.nv.keep.full b | _ => false

/-- Commands go out on the NVS bus (R184). -/
def State.nvsIssue (s : State) (ops : List NvsOp) : State := { s with nvs := { s.nvs with bus := ops.filter NvsOp.inSpace } }

/-- A slot is erased (R192). -/
def State.eraseSlot (s : State) (r : Nat) (b : Bool) : State :=
  ((s.addErase r b).wipeSlot r b false).nvsIssue (nvsErase s.nv r b)

/-- The generation of the next header of a region (R192); past the last one a header is not valid (R188). -/
def State.nextGen (s : State) (r : Nat) : Word :=
  let g := fun (x : Option SlotInfo) => match x with
    | some i => i.gen.toNat
    | none => 0
  BitVec.ofNat 32 (max (g (s.slots r).1) (g (s.slots r).2) + 1)

/-- The wear allowance of an A/B region (R197). -/
def State.wearLimit (s : State) : Nat := 24 + s.clk.life.toNat / 3200

/-- The wear test (R197): none on FRAM. -/
def State.wearOk (s : State) (r : Nat) : Bool := s.nv.fram || (s.wear r).1 + (s.wear r).2 < s.wearLimit

/-- A region may be committed as far as features go: WARM_BOOT besides for the warm record (R147, R198). -/
def State.regionOpen (s : State) (r : Nat) : Bool := !s.gated && (r != 5 || s.fnActive .warmBoot)

/-- A region is put on the throttled list, with EV35 when its bit rises (R197). -/
def State.throttle (s : State) (r : Nat) : State :=
  if s.nvs.throttled.getLsbD r then s else
  { s with nvs := { s.nvs with throttled := s.nvs.throttled ||| BitVec.ofNat 9 (2 ^ r) } }.raise 35 (BitVec.ofNat 24 r)

/-- NVS_CMD COMMIT (R196, R198): held before the lock, spacing lifted for every pending region after it, one that failed
twice among them (R194). -/
def State.cmdCommit (s : State) : State :=
  let n := s.nvs
  if s.locked || n.rescue then
    let all := n.pend ++ n.failedPend.filter (fun r => !n.pend.contains r)
    { s with nvs := { n with pend := all, failedPend := [], lifted := all } }
  else { s with nvs := { n with held := true } }

/-- The spacing of a region has run out (R196, R204). -/
def State.spaced (s : State) (r : Nat) : Bool := nth s.nvs.spacing (r - 2) 0 == 0

/-- A region's spacing of 10 s begins. -/
def State.startSpace (s : State) (r : Nat) : State :=
  { s with nvs := { s.nvs with spacing := upd s.nvs.spacing (r - 2) (fun _ => 10000) } }

/-- The pre-erase is done (R192 step 7). -/
def State.preEraseEnd (s : State) : State :=
  match s.nvs.preErase with
  | none => s
  | some (r, b) => { s.wipeSlot r b false with nvs := { (s.wipeSlot r b false).nvs with preErase := none } }

/-! ## Firmware image load (R200) -/

/-- Words the load still takes. -/
def ImgLoad.left (i : ImgLoad) : Nat := i.kib * 256 - i.count

/-- NVS_IMG_STATUS.SPACE. -/
def State.imgSpace (s : State) : Nat :=
  match s.nvs.img with
  | some i => min 256 i.left
  | none => 0

/-- A load starts (R200): the slot not booted is erased in full, and the programs that follow leave it without a header
until the load is good. -/
def State.imgStart (s : State) (kib : Nat) : State :=
  let t := !s.slotUse 2
  let s := (s.eraseSlot 2 t).wipeSlot 2 t true
  { s with nvs := { s.nvs with img := some ⟨kib, [], 0⟩, imgKib := BitVec.ofNat 9 kib, imgDone := false,
                               imgReject := false, imgReason := 0, imgTarget := t } }

/-- One word of the body; every 64 of them are a page of program. -/
def State.imgData (s : State) (w : Word) : State :=
  match s.nvs.img with
  | some i => if i.left = 0 then s else
      let s := if (i.count + 1) % 64 = 0 then
          s.nvsIssue (nvsPages ((regionAt 2 s.nvs.imgTarget).1 + 32 + 4 * (i.count - 63)) 256) else s
      { s with nvs := { s.nvs with img := some { i with words := w :: i.words, count := i.count + 1 } },
               pool := if (i.count + 1) % 64 = 0 then s.pool.brief .w9 else s.pool }
  | none => s

/-- A load ends without a header (R200). -/
def State.imgFail (s : State) (reason : BitVec 3) : State :=
  if s.nvs.img.isNone then s else
  { s with nvs := { s.nvs with img := none, imgReject := true, imgReason := reason } }

/-! ## Log rings (R203, R204) -/

/-- The highest sequence a ring holds. -/
def highSeq {ρ : Type} (l : List (Nat × ρ)) : Nat := match l.getLast? with
  | some e => e.1
  | none => 0

/-- The region of a ring. -/
def ringRegion : Ring → Nat
  | .fault => 7 | .event => 8

/-- Bytes of a record. -/
def recSize : Ring → Nat
  | .fault => 32 | .event => 16

/-- Records that a ring holds, and that a sector holds. -/
def ringSize : Ring → Nat
  | .fault => 2048 | .event => 4096
/-- Records in a 4 KiB sector. -/
def sectorSize : Ring → Nat
  | .fault => 128 | .event => 256

/-- A ring sector may be erased (R204): sector erases so far against the allowance; none needed on FRAM. -/
def State.ringErases (s : State) (g : Ring) : Nat :=
  match g with
  | .fault => highSeq s.nv.faultRing * 32 / 4096
  | .event => highSeq s.nv.eventRing * 16 / 4096
/-- The allowance of R204. -/
def State.ringLimit (s : State) : Nat := 16 + s.clk.life.toNat / 438
/-- A sector erase is allowed now. -/
def State.ringOk (s : State) (g : Ring) : Bool := s.nv.fram || s.ringErases g < s.ringLimit

/-- Appends a record with the next sequence: entering a sector discards the oldest records, those it held (R203). -/
def ringAppend {ρ : Type} (g : Ring) (l : List (Nat × ρ)) (r : ρ) : List (Nat × ρ) :=
  let n := highSeq l + 1
  let l := if (n - 1) % sectorSize g = 0 then
      l.filter (fun e => n + sectorSize g ≤ e.1 + ringSize g) else l
  l ++ [(n, r)]

/-- What a fault record stands for: a resource, a repair entry, or neither (R272). -/
def recKey (r : FaultRec) : Option (Bool × Nat) :=
  if r.kind = 1 || r.kind = 2 || r.kind = 4 then some (false, resKey r.cls r.index)
  else if r.kind = 3 then some (true, (nth r.tail 0 0).toNat)
  else none

/-- The record still has to be in the ring: its resource is not NONE, or its repair entry is live (R272). -/
def State.recLive (s : State) (r : FaultRec) : Bool :=
  match recKey r with
  | some (false, k) => (sget Res.fresh s.flt.res k).state != .none
  | some (true, e) => (nth s.flt.repairs e Repair.none).status != .empty
  | none => false

/-- The records that the sector about to be erased holds as newest of a live resource or entry: they are appended
again (R272). -/
def State.carried (s : State) : List FaultRec :=
  let l := s.nv.faultRing
  let n := highSeq l + 1
  if (n - 1) % 128 != 0 then [] else
  let old := l.filter (fun e => e.1 + ringSize .fault < n + 128)
  (old.filter (fun e => s.recLive e.2 && !l.any (fun f => e.1 < f.1 && recKey f.2 == recKey e.2))).map (·.2)

/-- A ring takes another record: its sequence has a number left (R203; log entry 103, DESIGN CHOICE), and the sector it
enters may be erased. -/
def State.ringTakes (s : State) (g : Ring) (high : Nat) : Bool :=
  high < 0xFFFFFFFE && (high % sectorSize g != 0 || s.ringOk g)

/-- Waiting fault records go into the ring, those that an erased sector carried over following the record that entered it
(R272); the batch stops before a sector that may not be erased. At most `fuel` records are programmed. -/
def State.batchFault (s : State) : Nat → List FaultRec → State
  | _, [] => { s with nvs := { s.nvs with waitF := [], dropping := s.nvs.dropping.set 0 false } }
  | 0, l => { s with nvs := { s.nvs with waitF := l } }
  | fuel + 1, r :: rest =>
    if !s.ringTakes .fault (highSeq s.nv.faultRing) then { s with nvs := { s.nvs with waitF := r :: rest } }
    else
      let again := s.carried
      State.batchFault { s with nv := { s.nv with faultRing := ringAppend .fault s.nv.faultRing r } } fuel (again ++ rest)

/-- The same for the event log ring. -/
def State.batchEvent (s : State) : List EventRec → State
  | [] => { s with nvs := { s.nvs with waitE := [], dropping := s.nvs.dropping.set 1 false } }
  | r :: rest =>
    if !s.ringTakes .event (highSeq s.nv.eventRing) then { s with nvs := { s.nvs with waitE := r :: rest } }
    else State.batchEvent { s with nv := { s.nv with eventRing := ringAppend .event s.nv.eventRing r } } rest

/-- Records that wait for a ring. -/
def State.ringWaits (s : State) : Ring → Nat
  | .fault => s.nvs.waitF.length
  | .event => s.nvs.waitE.length

/-- After its commit W9 starts nothing more: a cut or an MRST waits for it (R46, R73). -/
def State.w9Ends (s : State) : Bool := s.clk.mrstWait || s.pow.dom == .curl || s.pow.dom == .commitHold

/-- A batch of a ring is due (R204): after its scan, while writes are not gated and W9 still starts work, once per 10 s or
with 32 records waiting. -/
def State.batchDue (s : State) (g : Ring) : Bool :=
  !s.gated && !s.nvs.rescue && !s.w9Ends && (match g with | .fault => s.nvs.scanF | .event => s.nvs.scanE)
    && s.ringWaits g != 0 && (s.spaced (ringRegion g) || 32 ≤ s.ringWaits g)

/-- The commands of a batch that appends records `lo` + 1 to `hi` of a ring: a sector's erase before its first record. -/
def ringOps (v : Nv) (g : Ring) (lo hi : Nat) : List NvsOp :=
  (List.range (hi - lo)).flatMap (fun i =>
    let n := lo + i
    let a := (regionAt (ringRegion g) false).1 + n % ringSize g * recSize g
    (if n % sectorSize g = 0 && !v.fram then [.writeEnable, .erase a, .poll] else []) ++ nvsPages a (recSize g))

/-- A batch of a ring (R204), once W9 has a buffer (R373); records of it that a cut or an MRST dropped count as lost no
more (R199). -/
def State.ringBatch (s : State) (g : Ring) : State :=
  if !s.batchDue g then s else
  let ok := (s.pool.claim .w9).2
  let s := { s with pool := s.pool.brief .w9 }
  if !ok then s else
  let s := s.startSpace (ringRegion g)
  let s := { s with nvs := { s.nvs with lost := s.nvs.lost &&& ~~~(BitVec.ofNat 9 (2 ^ ringRegion g)) } }
  match g with
  | .fault =>
    let t := s.batchFault 4096 s.nvs.waitF
    t.nvsIssue (ringOps s.nv .fault (highSeq s.nv.faultRing) (highSeq t.nv.faultRing))
  | .event =>
    let t := s.batchEvent s.nvs.waitE
    t.nvsIssue (ringOps s.nv .event (highSeq s.nv.eventRing) (highSeq t.nv.eventRing))

/-- The valid records of a ring: those that fail their CRC are skipped (R203). -/
def ringGood {ρ : Type} (torn : List Nat) (l : List (Nat × ρ)) : List (Nat × ρ) := l.filter (fun e => !torn.contains e.1)

/-- The heads of the rings (R203): each follows its valid record of the highest sequence. -/
def State.ringHeads (s : State) : State :=
  let s := { s with nv := { s.nv with faultRing := ringGood s.nv.tornF s.nv.faultRing,
                                      eventRing := ringGood s.nv.tornE s.nv.eventRing, tornF := [], tornE := [] } }
  s.nvsIssue [nvsRead s.nv (regionAt 7 false).1 0x10000, nvsRead s.nv (regionAt 8 false).1 0x10000]

/-- The ring scan (R203), which restores the fault state once per POR or PD2 restart (R273); without an image the DRAMs
hold no repair (R266). -/
def State.ringScan (s : State) : State :=
  let s := s.ringHeads
  let s := { s with nvs := { s.nvs with scanF := true, scanE := true } }
  if s.flt.restored then s else
  let s := (s.nv.faultRing.map (·.2)).foldl State.restoreRec s
  let s := if s.pow.image then s else subs.foldl State.repairsLost s
  { s with flt := { s.flt with restored := true } }

/-- All records of a ring in sequence order: those it holds and those waiting in RAM (R297). -/
def State.faultAll (s : State) : List (Nat × FaultRec) :=
  s.nv.faultRing ++ s.nvs.waitF.zipIdx.map (fun e => (highSeq s.nv.faultRing + 1 + e.2, e.1))
/-- The same for the event log. -/
def State.eventAll (s : State) : List (Nat × EventRec) :=
  s.nv.eventRing ++ s.nvs.waitE.zipIdx.map (fun e => (highSeq s.nv.eventRing + 1 + e.2, e.1))

/-- The bytes of an event log record (R286). -/
def eventBytes (n : Nat) (r : EventRec) : List Byte :=
  let b := leBytes 4 n ++ [r.src.setWidth 8, r.count] ++ leBytes 5 r.life.toNat ++ leBytes 3 r.arg.toNat
  b ++ leBytes 2 (crc16 b).toNat

/-- The bytes of a fault history record (R271). -/
def faultBytes (n : Nat) (r : FaultRec) : List Byte :=
  let b := leBytes 4 n ++ [BitVec.ofNat 8 r.kind, BitVec.ofNat 8 r.cls] ++ leBytes 2 r.index ++ leBytes 5 r.life.toNat
    ++ [BitVec.ofNat 8 (if r.kind = 3 || r.kind = 5 then 0 else fltCode r.state + 4 * r.quiet)]
    ++ (if r.kind = 3 || r.kind = 5 then List.replicate 8 0 else r.buckets) ++ r.tail
  b ++ leBytes 2 (crc16 b).toNat

/-! ## Registers (R206) -/

/-- NVS_STATUS. -/
def State.nvsStatus (s : State) : Word :=
  let n := s.nvs
  packWord [(0, n.ready.toNat), (1, n.rescue.toNat), (2, n.fallback.toNat), (3, s.gated.toNat),
    (4, (n.commit.isSome || n.preErase.isSome || n.img.isSome).toNat), (5, n.commit.isSome.toNat), (6, n.bootBad.toNat),
    (7, n.factoryBad.toNat)]

/-- NVS_PART. -/
def State.nvsPart (s : State) : Word :=
  packWord [(0, s.nv.jedec.toNat), (24, s.nv.density.toNat), (27, if s.nvs.partOk then s.nv.kind else 0),
    (29, ((s.nv.sfdp.bind Sfdp.quad).isSome && s.nvs.partOk).toNat)]

/-- A region's nibble of NVS_SLOTS; a module without Hoard has no keep map. -/
def State.slotNibble (s : State) (r : Nat) : Nat :=
  let v := fun (x : Option SlotInfo) => (x.any (·.ok)).toNat
  if r = 6 && !s.modl.hoardFitted then 0
  else if r = 7 then s.nvs.scanF.toNat else if r = 8 then s.nvs.scanE.toNat
  else v (s.slots r).1 + 2 * v (s.slots r).2 + 4 * (s.slotUse r).toNat + 8 * (nth s.nvs.defaults (r - 2) false).toNat

/-- NVS_PENDING. -/
def State.nvsPending (s : State) : Word :=
  let m := maskOf ((List.range 9).map (fun r => s.nvs.pend.contains r || s.nvs.failedPend.contains r
    || (r == 7 && !s.nvs.waitF.isEmpty) || (r == 8 && !s.nvs.waitE.isEmpty)))
  packWord [(0, s.nvs.img.isSome.toNat), (1, s.nvs.held.toNat), (2, m / 4), (10, s.nvs.throttled.toNat / 4),
    (18, s.nvs.lost.toNat / 4)]

/-- NVS_GEN_A, NVS_GEN_B, NVS_WEAR_A and NVS_WEAR_B of a region. -/
def State.nvsSel (s : State) (r : Nat) : Word × Word × Nat × Nat :=
  let g := fun (x : Option SlotInfo) => match x with
    | some i => i.gen
    | none => 0
  let w := if s.nv.fram then (0, 0) else s.wear r
  if r = 7 then (BitVec.ofNat 32 (highSeq s.nv.faultRing), 0, if s.nv.fram then 0 else s.ringErases .fault, 0)
  else if r = 8 then (BitVec.ofNat 32 (highSeq s.nv.eventRing), 0, if s.nv.fram then 0 else s.ringErases .event, 0)
  else (g (s.slots r).1, g (s.slots r).2, w.1, w.2)

/-- NVS_ALLOW of a region. -/
def State.nvsAllow (s : State) (r : Nat) : Word :=
  if s.nv.fram then 0xFFFFFFFF
  else if r = 7 then BitVec.ofNat 32 (s.ringLimit - s.ringErases .fault)
  else if r = 8 then BitVec.ofNat 32 (s.ringLimit - s.ringErases .event)
  else BitVec.ofNat 32 (s.wearLimit - ((s.wear r).1 + (s.wear r).2))

/-- NVS_RING of a region. -/
def State.nvsRing (s : State) (r : Nat) : Word :=
  if r = 7 then packWord [(0, s.nvs.dropF.toNat), (16, highSeq s.nv.faultRing % 2048)]
  else if r = 8 then packWord [(0, s.nvs.dropE.toNat), (16, highSeq s.nv.eventRing % 4096)]
  else 0

/-- The NVS_ registers as path `p` finds them. -/
def nvsReg (p : Path) (a : Nat) (s : State) : Option RegDef :=
  let r := (s.sel p).nvsRegion.toNat
  let v := s.nvsSel r
  let w := s.nvs.rescue || s.regOn .settingsWrite
  if a = 0x2000 then some (RegDef.ro s.nvsStatus)
  else if a = 0x2004 then some (RegDef.ro s.nvsPart)
  else if a = 0x2008 then
    some (RegDef.ro (packWord ((List.range 7).map (fun i => (4 * i, s.slotNibble (i + 2))))))
  else if a = 0x200C then some (RegDef.ro s.nvsPending)
  else if a = 0x2010 && w then
    some { flds := [⟨31, 0, .wo, false, fun x => x == 0x9E570001 || x == 0x9E570002⟩], read := 0,
           write := fun x s => if x = 0x9E570001 then s.cmdCommit else s.imgFail 5 }
  else if a = 0x2014 then
    some { flds := [Fld.rng 3 0 (fun x => 2 ≤ x && x ≤ 8)], read := (s.sel p).nvsRegion.setWidth 32,
           write := fun x s => s.setSel p (fun t => { t with nvsRegion := x.setWidth 4 }) }
  else if a = 0x2018 then some (RegDef.ro v.1)
  else if a = 0x201C then some (RegDef.ro v.2.1)
  else if a = 0x2020 then some (RegDef.ro (BitVec.ofNat 32 v.2.2.1))
  else if a = 0x2024 then some (RegDef.ro (BitVec.ofNat 32 v.2.2.2))
  else if a = 0x2028 then some (RegDef.ro (s.nvsAllow r))
  else if a = 0x202C then
    some { flds := Fld.counters, read := packWord [(0, s.nvs.errRead.toNat), (16, s.nvs.errWrite.toNat)],
           write := fun _ s => { s with nvs := { s.nvs with errRead := 0, errWrite := 0 } } }
  else if a = 0x2030 && w then
    some { flds := [Fld.rng 8 0 (fun x => 1 ≤ x && x ≤ 447 && s.nvs.img.isNone && !s.gated),
                    ⟨31, 16, .wo, false, (· == 0x1A0D)⟩], read := s.nvs.imgKib.setWidth 32,
           write := fun x s => s.imgStart (fld x 8 0) }
  else if a = 0x2034 && w then
    some { flds := [Fld.any .rw 31 0], read := s.nvs.imgCrc,
           write := fun x s => { s with nvs := { s.nvs with imgCrc := x } } }
  else if a = 0x2038 && w then
    some { flds := [⟨31, 0, .wo, false, fun _ => s.imgSpace != 0⟩], read := 0, write := fun x s => s.imgData x }
  else if a = 0x203C && w then
    some (RegDef.ro (packWord [(0, s.nvs.img.isSome.toNat), (1, s.nvs.imgDone.toNat), (2, s.nvs.imgReject.toNat),
      (3, s.nvs.imgReason.toNat), (6, s.nvs.imgTarget.toNat), (16, s.imgSpace)]))
  else if a = 0x2040 then some (RegDef.ro (s.nvsRing r))
  else none

/-! ## Rows -/

/-- NVS_PRE_ERASE_DONE (R192). -/
def execNvsPreEraseDone (s : State) : Out := .next s.preEraseEnd
/-- NVS_RING_SCAN (R203). -/
def execNvsRingScan (s : State) : Out := .next (if s.up && !s.nvs.rescue then s.ringScan else s)
/-- NVS_RING_BATCH (R204). -/
def execNvsRingBatch (g : Ring) (s : State) : Out := .next (if s.up then s.ringBatch g else s)
/-- LIFETIME_PERSIST (R62): the settings region is to be stored. -/
def execLifetimePersist (s : State) : Out := .next (if s.up then s.pendRegion 3 else s)

end Sys2Proof.Machine
end

