-- ==== Sys2Proof/Machine/TwbOps.lean ====
section
/-! DEFINITION. The two-wire ports (13): addresses, PEC, the bulk stream of the log rings, alerts, the controller role
and polls, timeouts, and the TWB_ registers. What reads or writes a hub register stands in TwbRows.lean. -/

namespace Sys2Proof.Machine

/-- One port. -/
def State.port (s : State) : Port → TwbPort
  | .host => s.twb.host | .loc => s.twb.loc

/-- Changes one port. -/
def State.setPort (s : State) (p : Port) (f : TwbPort → TwbPort) : State :=
  match p with
  | .host => { s with twb := { s.twb with host := f s.twb.host } }
  | .loc => { s with twb := { s.twb with loc := f s.twb.loc } }

/-- The pool holder of a port. -/
def portHolder : Port → Holder
  | .host => .host | .loc => .loc

/-! ## Addresses (R289, R290) -/

/-- The own address of a function: 0 A0, 1 A1, 2 A2. -/
def State.ownAddr (s : State) (p : Port) (fn : Nat) : Nat :=
  (match fn with | 0 => 0x58 | 1 => 0x60 | _ => 0x70) + (match p with | .host => s.pow.straps.hsa.toNat | .loc => 0)

/-- The alias admits an address byte. -/
def a3Match (a3 : Word) (byte : Nat) : Bool :=
  (byte &&& fld a3 15 8) == ((fld a3 6 0 * 2 + fld a3 18 18) &&& fld a3 15 8)

/-- The port answers an address byte for a function. -/
def State.answers (s : State) (p : Port) (fn : Nat) (addr : BitVec 7) (rd : Bool) : Bool :=
  s.up && (addr.toNat == s.ownAddr p fn
    || (p == .host && bitAt s.twb.a3 31 && fld s.twb.a3 17 16 == fn && a3Match s.twb.a3 (2 * addr.toNat + rd.toNat)))

/-- An address that no alias may admit (R290). -/
def State.aliasBad (s : State) (a : Nat) : Bool :=
  a < 9 || 0x78 ≤ a || a == 0x0C || (List.range 3).any (fun fn => s.ownAddr .host fn == a)

/-- A value of TWB_A3 is in range. -/
def State.a3Ok (s : State) (v : Nat) : Bool :=
  let w : Word := BitVec.ofNat 32 v
  v / 65536 % 4 != 3
    && (!v.testBit 31 || !(List.range 256).any (fun b => a3Match w b && s.aliasBad (b / 2)))

/-! ## PEC (R292) -/

/-- PEC is on. -/
def TwbPort.pec (t : TwbPort) : Bool := bitAt t.cfg 0

/-- An address byte. -/
def addrByte (a : BitVec 7) (rd : Bool) : Byte := BitVec.ofNat 8 (2 * a.toNat + rd.toNat)

/-- The PEC over the bytes of a transaction. -/
def pecOf (bs : List Byte) : Byte := crc8 0x07 0 bs

/-- A PEC failure is counted. -/
def TwbPort.pecBad (t : TwbPort) : TwbPort := { t with errPec := satAdd t.errPec 1 }
/-- A discarded transaction is counted. -/
def TwbPort.discard (t : TwbPort) : TwbPort := { t with errDiscard := satAdd t.errDiscard 1 }

/-! ## The bulk stream (R297, R298) -/

/-- The sequence that the next record of a ring takes. -/
def State.nextSeq (s : State) : Ring → Nat
  | .fault => highSeq s.nv.faultRing + s.nvs.waitF.length + 1
  | .event => highSeq s.nv.eventRing + s.nvs.waitE.length + 1

/-- The records of a ring as bytes, with their sequence. -/
def State.ringBytes (s : State) : Ring → List (Nat × List Byte)
  | .fault => s.faultAll.map (fun e => (e.1, faultBytes e.1 e.2))
  | .event => s.eventAll.map (fun e => (e.1, eventBytes e.1 e.2))

/-- The oldest sequence a ring holds; the next one where it holds none. -/
def State.oldSeq (s : State) (g : Ring) : Nat :=
  match s.ringBytes g with
  | [] => s.nextSeq g
  | e :: _ => e.1

/-- The cursor of a port. -/
def TwbPort.cursor (t : TwbPort) : Ring → Nat
  | .fault => t.curF | .event => t.curE

/-- Sets the cursor of a port. -/
def TwbPort.setCursor (t : TwbPort) (g : Ring) (n : Nat) : TwbPort :=
  match g with
  | .fault => { t with curF := n } | .event => { t with curE := n }

/-- A READ in hand is dropped and its buffer freed. -/
def State.dropRead (s : State) (p : Port) : State :=
  if (s.port p).read.isNone then s else
  { s.setPort p (fun t => { t with read := none }) with pool := s.pool.free (portHolder p) }

/-- No buffer could be given: the byte is not acknowledged, and BUSY counts it (R300). -/
def State.twbBusy (s : State) (p : Port) : State := s.setPort p (fun t => { t with busyCount := satAdd t.busyCount 1 })

/-- A1 READ: claims a buffer and starts the fill. -/
def State.a1Read (s : State) (p : Port) (g : Ring) : State :=
  let s := s.dropRead p
  let c := s.pool.claim (portHolder p)
  let s := { s with pool := c.1 }
  if c.2 then s.setPort p (fun t => { t with read := some ⟨g, false, false, false, 0, []⟩ }) else s.twbBusy p

/-- The most records of a read phase. -/
def ringMost : Ring → Nat
  | .fault => 7 | .event => 15

/-- The fill of a READ: the records from the cursor on that still exist. -/
def State.a1Fill (s : State) (p : Port) : State :=
  match (s.port p).read with
  | none => s
  | some r =>
    if r.filled then s else
    let cur := (s.port p).cursor r.ring
    let from_ := (s.ringBytes r.ring).filter (fun e => cur ≤ e.1)
    let rs := from_.take (ringMost r.ring)
    let first := match rs with
      | [] => cur
      | e :: _ => e.1
    s.setPort p (fun t => { t with read := some { r with
      filled := true, gap := decide (cur < first), more := decide (rs.length < from_.length), first := first,
      recs := rs.map (·.2) } })

/-- A1 READ of a ring, the command byte. -/
def readCmd : Ring → Byte
  | .fault => 0x17 | .event => 0x18

/-- The bytes of a read phase, the PEC behind them; `again` is that it follows the READ command in one transaction. -/
def TwbPort.phase (t : TwbPort) (addr : BitVec 7) (again : Bool) : List Byte :=
  let lead := match t.read with
    | some r => if again then [addrByte addr false, readCmd r.ring] else []
    | none => []
  let body := match t.read with
    | none => [0]
    | some r => if !r.filled then [0x40] else
      BitVec.ofNat 8 (r.recs.length + 16 * r.gap.toNat + 32 * r.more.toNat) :: r.recs.flatten
  if t.pec then body ++ [pecOf (lead ++ addrByte addr true :: body)] else body

/-- An A1 read phase: the cursor advances when a STOP follows. -/
def State.a1Phase (s : State) (p : Port) (addr : BitVec 7) (again stop : Bool) : State :=
  let s := s.setPort p (fun t => { t with sent := t.phase addr again })
  match (s.port p).read with
  | some r => if !r.filled || !stop then s else
      (s.setPort p (fun t => t.setCursor r.ring (r.first + r.recs.length))).dropRead p
  | none => s

/-- An A1 command that moves the cursor of a ring. -/
def State.a1Seek (s : State) (p : Port) (g : Ring) (n : Nat) (pecOk : Bool) : State :=
  if (s.port p).pec && !pecOk then s.setPort p TwbPort.pecBad else
  (s.dropRead p).setPort p (fun t => t.setCursor g (max (s.oldSeq g) (min n (s.nextSeq g))))

/-! ## Alerts (R301, R302) -/

/-- HALRT_n is low. -/
def State.halrtLow (s : State) : Bool := s.pd2 && (s.evt.halrt || s.twb.a1Pend)

/-- An Alert Response read: the lower address wins the arbitration. -/
def State.alertResponse (s : State) (other : Option (BitVec 7)) : State :=
  if !s.up || (!s.evt.halrt && !s.twb.a1Pend) then s else
  let mine := if s.evt.halrt then s.ownAddr .host 0 else s.ownAddr .host 1
  if (other.map (fun a => decide (a.toNat < mine))).getD false then s else
  let b : Byte := BitVec.ofNat 8 (2 * mine)
  let out := if s.twb.host.pec then [b, pecOf [addrByte 0x0C true, b]] else [b]
  let s := s.setPort .host (fun t => { t with sent := out })
  if s.evt.halrt then { s with evt := { s.evt with halrt := false } } else { s with twb := { s.twb with a1Pend := false } }

/-! ## Controller (R303 to R306) -/

/-- What a port sends as controller: a Host Notify (R303), or the bytes of a poll up to its answer (R306). -/
def State.jobBytes (s : State) (p : Port) : List Byte :=
  match (s.port p).job with
  | some (.notify src n) => [addrByte 8 false, BitVec.ofNat 8 (2 * s.ownAddr p 0), src, n]
  | some (.poll k) =>
    let cfg := (nth s.twb.polls k ⟨0, 0, false, false, 0⟩).cfg
    [addrByte (cfg.setWidth 7) false, BitVec.ofNat 8 (fld cfg 15 8), addrByte (cfg.setWidth 7) true]
  | none => []

/-- An attempt of a port as controller; each lost arbitration is counted. -/
def State.attempt (s : State) (p : Port) (o : Attempt) : State :=
  s.setPort p (fun t => { t with tries := t.tries + 1, sent := s.jobBytes p,
                                 arbLost := if o == .arbLost then satAdd t.arbLost 1 else t.arbLost })

/-- The transfer in hand ends. -/
def State.jobEnd (s : State) (p : Port) : State := s.setPort p (fun t => { t with job := none, tries := 0 })

/-- The next poll that waits for the local port takes it (R306). -/
def State.nextPoll (s : State) : State :=
  match s.twb.due with
  | [] => s
  | k :: r => State.setPort { s with twb := { s.twb with due := r } } .loc (fun t => { t with job := some (.poll k) })

/-- Changes one poll entry. -/
def State.setPoll (s : State) (k : Nat) (f : PollSt → PollSt) : State :=
  { s with twb := { s.twb with polls := upd s.twb.polls k f } }

/-- An attempt of a Host Notify: the ninth failure abandons it and asserts HALRT_n (R282, R305). -/
def State.notifyTry (s : State) (o : Attempt) : State :=
  let s := s.attempt .host o
  if o == .ack then { (s.jobEnd .host) with twb := { (s.jobEnd .host).twb with hnSent := satAdd s.twb.hnSent 1 } }
  else if s.twb.host.tries < 9 then s
  else
    let s := s.jobEnd .host
    { s with twb := { s.twb with hnAband := satAdd s.twb.hnAband 1 }, evt := { s.evt with halrt := true } }

/-- The bytes of a poll that its PEC covers. -/
def pollBytes (cfg : Word) (bs : List Byte) : List Byte :=
  let dev : BitVec 7 := cfg.setWidth 7
  [addrByte dev false, BitVec.ofNat 8 (fld cfg 15 8), addrByte dev true] ++ bs

/-- A poll's answer (R306). -/
def PollSt.take (q : PollSt) (data : List Byte) : PollSt :=
  let n := 1 + fld q.cfg 16 16
  let bs := (List.range n).map (fun i => nth data i 0xFF)
  if bitAt q.cfg 17 && nth data n 0xFF != pecOf (pollBytes q.cfg bs) then { q with fail := true }
  else { q with data := BitVec.ofNat 16 (leNat bs), valid := true, fail := false, ageMs := 0 }

/-- An attempt of a poll. -/
def State.pollTry (s : State) (k : Nat) (o : Attempt) (data : List Byte) : State :=
  let s := s.attempt .loc o
  if o == .ack then ((s.setPoll k (fun q => q.take data)).jobEnd .loc).nextPoll
  else if s.twb.loc.tries < 9 then s
  else ((s.setPoll k (fun q => { q with fail := true })).jobEnd .loc).nextPoll

/-- A further attempt of the transfer in hand, or the first one of a poll that had to wait. -/
def State.retryJob (s : State) (p : Port) (o : Attempt) (data : List Byte) : State :=
  match (s.port p).job with
  | some (.notify _ _) => if (s.port p).tries = 0 then s else s.notifyTry o
  | some (.poll k) => s.pollTry k o data
  | none => s

/-- The period of a poll entry ends (R306): its first attempt; where its poll still runs or waits the period is skipped,
and where another's runs it waits for the port (log entry 110). -/
def State.pollDue (s : State) (k : Fin 4) (o : Attempt) (data : List Byte) : State :=
  if !bitAt (nth s.twb.polls k ⟨0, 0, false, false, 0⟩).cfg 31 || s.twb.loc.job == some (.poll k) || s.twb.due.contains k then s
  else if s.twb.loc.job.isSome then { s with twb := { s.twb with due := s.twb.due ++ [k] } }
  else (s.setPort .loc (fun t => { t with job := some (.poll k), tries := 0 })).pollTry k o data

/-! ## Reset of a port (R307, R308) -/

/-- The interface of a port is reset: staged write and READ are dropped, an access already executing stands. -/
def State.portReset (s : State) (p : Port) : State := (s.dropRead p).setPort p (fun t => { t with staged := none })

/-- SCL was low for more than 25 ms (R307). -/
def State.sclTimeout (s : State) (p : Port) : State :=
  if !s.up || !bitAt (s.port p).cfg 1 then s else
  ((s.portReset p).setPort p (fun t => { t with tmout := satAdd t.tmout 1 })).raise 61
    (match p with | .host => 0 | .loc => 1)

/-- CLK_CRST of a port (R308): transfers in flight are gone, cursors and poll entries are kept. -/
def State.crstPort (s : State) (p : Port) : State :=
  let s := (s.portReset p).setPort p (fun t => { t with pointer := 0, readLen := 4, job := none, tries := 0, sent := [] })
  match p with
  | .host => s
  | .loc => { s with twb := { s.twb with due := [] } }

/-! ## Registers (R309) -/

/-- TWB_HOST_STATUS, TWB_LOC_STATUS. -/
def State.twbStatus (s : State) (p : Port) : Word :=
  let t := s.port p
  let h := p == .host
  packWord [(0, t.busy.toNat), (1, t.staged.isSome.toNat), (2, (h && s.evt.halrt).toNat), (3, (h && s.twb.a1Pend).toNat),
    (4, (h && s.halrtLow).toNat), (5, t.job.isSome.toNat), (6, min 9 t.tries)]

/-- Fields of TWB_HOST_CFG and TWB_LOC_CFG; A1_ALERT is the host's alone. -/
def twbCfgFlds (p : Port) : List Fld :=
  [Fld.keptAny 0 0, Fld.keptAny 1 1, Fld.kept' 3 2 (· != 3)]
    ++ (match p with | .host => [Fld.keptAny 4 4] | .loc => [])

/-- A value of TWB_POLLk is in range. -/
def pollOk (v : Nat) : Bool :=
  let d := v % 128
  1 ≤ v / 2 ^ 20 % 256 && (!v.testBit 31 || !(d == 0x08 || d == 0x0C || d == 0x58 || d == 0x60 || d == 0x70))

/-- TWB_POLL_DATAk. -/
def pollData (q : PollSt) : Word :=
  packWord [(0, q.data.toNat), (16, q.valid.toNat), (17, q.fail.toNat), (24, min 255 (q.ageMs / 10))]

/-- The TWB_ registers as path `p` finds them. -/
def twbReg (_p : Path) (a : Nat) (s : State) : Option RegDef :=
  let cfg := fun (p : Port) => some (RegDef.mk (twbCfgFlds p) (s.port p).cfg
    (fun v s => s.setPort p (fun t => { t with cfg := v })) false (fun _ => true) id (fun _ s => s))
  let pair := fun (x y : BitVec 16) (f : State → State) => some (RegDef.mk Fld.counters
    (packWord [(0, x.toNat), (16, y.toNat)]) (fun _ s => f s) false (fun _ => true) id (fun _ s => s))
  let err := fun (p : Port) => pair (s.port p).errPec (s.port p).errDiscard
    (fun s => s.setPort p (fun t => { t with errPec := 0, errDiscard := 0 }))
  let tmo := fun (p : Port) => pair (s.port p).tmout (s.port p).arbLost
    (fun s => s.setPort p (fun t => { t with tmout := 0, arbLost := 0 }))
  if 0x2428 ≤ a && a < 0x2438 && a % 4 = 0 then
    let k := (a - 0x2428) / 4
    some { flds := [Fld.keptAny 6 0, Fld.keptAny 15 8, Fld.keptAny 16 16, Fld.keptAny 17 17, Fld.keptAny 27 20,
                    Fld.keptAny 31 31],
           read := (nth s.twb.polls k ⟨0, 0, false, false, 0⟩).cfg, whole := pollOk,
           write := fun v s => s.setPoll k (fun q => { q with cfg := v }) }
  else if 0x2438 ≤ a && a < 0x2448 && a % 4 = 0 then
    some (RegDef.ro (pollData (nth s.twb.polls ((a - 0x2438) / 4) ⟨0, 0, false, false, 0⟩)))
  else match a with
  | 0x2400 => cfg .host
  | 0x2404 => some (RegDef.ro (s.twbStatus .host))
  | 0x2408 => err .host
  | 0x240C => tmo .host
  | 0x2410 => if s.regOn .hostNotify then
      pair s.twb.hnSent s.twb.hnAband (fun s => { s with twb := { s.twb with hnSent := 0, hnAband := 0 } })
    else none
  | 0x2414 => some { flds := [Fld.keptAny 6 0, Fld.keptAny 15 8, Fld.keptAny 17 16, Fld.keptAny 18 18, Fld.keptAny 31 31],
                     read := s.twb.a3, whole := s.a3Ok, write := fun v s => { s with twb := { s.twb with a3 := v } } }
  | 0x2418 => cfg .loc
  | 0x241C => some (RegDef.ro (s.twbStatus .loc))
  | 0x2420 => err .loc
  | 0x2424 => tmo .loc
  | 0x2448 => pair s.twb.host.busyCount s.twb.loc.busyCount
      (fun s => (s.setPort .host (fun t => { t with busyCount := 0 })).setPort .loc (fun t => { t with busyCount := 0 }))
  | _ => none

/-! ## Rows -/

/-- TWB_A1_READ (R297). -/
def execTwbA1Read (p : Port) (addr : BitVec 7) (g : Ring) (s : State) : Out :=
  .next (if s.answers p 1 addr false then s.a1Read p g else s)
/-- TWB_A1_SEEK_SEQ (R297). -/
def execTwbA1SeekSeq (p : Port) (addr : BitVec 7) (g : Ring) (seq : Word) (pecOk : Bool) (s : State) : Out :=
  .next (if s.answers p 1 addr false then s.a1Seek p g seq.toNat pecOk else s)
/-- TWB_A1_SEEK_OLDEST (R297). -/
def execTwbA1SeekOldest (p : Port) (addr : BitVec 7) (g : Ring) (pecOk : Bool) (s : State) : Out :=
  .next (if s.answers p 1 addr false then s.a1Seek p g 0 pecOk else s)
/-- TWB_A1_SEEK_NEXT (R297). -/
def execTwbA1SeekNext (p : Port) (addr : BitVec 7) (g : Ring) (pecOk : Bool) (s : State) : Out :=
  .next (if s.answers p 1 addr false then s.a1Seek p g (s.nextSeq g) pecOk else s)
/-- TWB_A1_FILL_DONE (R298). -/
def execTwbA1FillDone (p : Port) (s : State) : Out := .next (if s.up then s.a1Fill p else s)
/-- TWB_A1_READ_PHASE (R298). -/
def execTwbA1ReadPhase (p : Port) (addr : BitVec 7) (again stop : Bool) (s : State) : Out :=
  .next (if s.answers p 1 addr true then s.a1Phase p addr again stop else s)
/-- TWB_A1_READ_EXPIRY (R298): a filled READ alone expires. -/
def execTwbA1ReadExpiry (p : Port) (s : State) : Out :=
  .next (if s.up && (s.port p).read.any (·.filled) then s.dropRead p else s)
/-- ALERT_RESPONSE (R302). -/
def execAlertResponse (other : Option (BitVec 7)) (s : State) : Out := .next (s.alertResponse other)
/-- HOST_NOTIFY_SEND (R303): the first attempt. -/
def execHostNotifySend (o : Attempt) (s : State) : Out :=
  .next (if s.up && s.twb.host.job.isSome && s.twb.host.tries = 0 then s.notifyTry o else s)
/-- TWB_CONTROLLER_RETRY (R305). -/
def execTwbControllerRetry (p : Port) (o : Attempt) (data : List Byte) (s : State) : Out :=
  .next (if s.up then s.retryJob p o data else s)
/-- TWB_POLL_DUE (R306). -/
def execTwbPollDue (k : Fin 4) (o : Attempt) (data : List Byte) (s : State) : Out :=
  .next (if s.up then s.pollDue k o data else s)
/-- TWB_SCL_TIMEOUT (R307). -/
def execTwbSclTimeout (p : Port) (s : State) : Out := .next (s.sclTimeout p)

end Sys2Proof.Machine
end

