-- ==== Sys2Proof/Machine/Zxp.lean ====
section
/-! DEFINITION. The ZX8-P (09): comparators, charger, converter, the time-sliced ADC, and its local registers. -/

namespace Sys2Proof.Machine

/-! ## Faults, charger -/

/-- A ZX8-P is fitted and VKA is up. -/
def State.zxpOn (s : State) : Bool := s.modl.zxpFitted && s.pow.dom != .off

/-- A KPA_FAULT bit rises: EV31 (KPA_FAULT). -/
def State.kpaFault (s : State) (bit : Nat) : State :=
  if s.zxp.fault.getLsbD bit then s else
  let f := s.zxp.fault ||| BitVec.ofNat 5 (2 ^ bit)
  { s with zxp := { s.zxp with fault := f } }.raise 31 (f.setWidth 24)

/-- The charger may run (R208, R212, R213, R395): enabled, no fault or thermal pause, no over-voltage stop, no pack
test; its source is the plant bus while present, else host bulk while host power good and PFAIL_n high. -/
def State.chargerOk (s : State) : Bool :=
  let z := s.zxp
  s.modl.zxpFitted && bitAt z.chgCfg 16 && !z.chgFaulted && !z.thermal && z.vmax != 0 && !z.plantOv && !z.convCurrent
    && (z.plant || (s.pow.hostPg && !s.pow.pfailLow))

/-- The charger follows its conditions: off, or constant current when it starts (KPA_STATUS.CHG, CHG_SRC). -/
def State.charger (s : State) : State :=
  { s with zxp := { s.zxp with chg := if !s.chargerOk then 0 else if s.zxp.chg = 0 then 1 else s.zxp.chg,
                               chgPlant := s.zxp.plant } }

/-- The bank-to-bulk converter runs. -/
def State.conv (s : State) (on : Bool) : State := { s with zxp := { s.zxp with convOn := on } }

/-! ## Plant bus (R208, R224) -/

/-- Plant present: PD1 on, the charger takes the plant bus, EV26. -/
def State.plantOn (s : State) : State :=
  if !s.zxpOn || s.zxp.plant || s.zxp.plantOv || s.zxp.plantRev then s else
  let s := { s with zxp := { s.zxp with plant := true }, pow := { s.pow with on := s.pow.on ||| 2 } }
  s.charger.raise 26 0

/-- Plant absent: PD1 off, EV25. -/
def State.plantOff (s : State) : State :=
  if !s.zxp.plant then s.charger else
  let s := { s with zxp := { s.zxp with plant := false }, pow := { s.pow with on := s.pow.on &&& 0x7D } }
  s.charger.raise 25 0

/-! ## The ADC (R229 to R232) -/

/-- A channel has an auto and a coarse mode. -/
def adcVoltage (n : Nat) : Bool := n == 0 || n == 2 || n == 4 || n == 5 || n == 8 || n == 13 || n == 14

/-- A code clipped to the converter's span, and whether it was over range (R231). -/
def adcClip (c : Int) : Nat × Bool :=
  if c < 0 then (0, true) else if 16383 < c then (16383, true) else (c.toNat, false)

/-- The corrected voltage of a code (R169) as a fraction of mV: its numerator over `adcDen`. -/
def adcNum (fullScale : Nat) (code : Nat) (offset gain : BitVec 16) : Int :=
  (1000000 + gain.toInt) * ((code * fullScale * 100000 : Nat) - offset.toInt * 16384)

/-- The denominator that goes with `adcNum`. -/
def adcDen : Nat := 1000000 * 16384 * 100

/-- The span of a fine-only channel in its unit (R231): bottom and width; `none` where the reading is in mV. -/
def adcSpan (n : Nat) : Option (Int × Nat) :=
  match n with
  | 1 => some (-500, 5000) | 3 => some (-5000, 10000) | 6 => some (-500, 6000) | 9 => some (-6000, 23000)
  | _ => none

/-- VALUE of a sample (R169, R232). -/
def State.adcValue (s : State) (n : Nat) (coarse : Bool) (code : Nat) : Int :=
  let ofs := nth s.zxp.corr (if coarse then 2 else 0) 0
  let gain := nth s.zxp.corr (if coarse then 3 else 1) 0
  let num := adcNum (if coarse then 80 else 20) code ofs gain
  match adcSpan n with
  | none => roundInt s.free num adcDen
  | some (lo, w) => lo + roundInt s.free (num * w) (adcDen * 20000)

/-- The conversion of channel `n`: whether it ends in the coarse range, the code, over-range, whether the range
changed in the slot, and the range of the channel's next slot (R230). -/
def adcConvert (mode : Nat) (nextCoarse : Bool) (fine coarse : Int) : Bool × Nat × Bool × Bool × Bool :=
  let f := adcClip fine
  let c := adcClip coarse
  if mode = 1 || (mode = 0 && !nextCoarse) then
    if mode = 0 && (decide (19 * 16384 ≤ f.1 * 20) || f.2) then (true, c.1, c.2, true, true)
    else (false, f.1, f.2, false, false)
  else (true, c.1, c.2, false, mode = 2 || 18 * 16384 < c.1 * 80)

/-- VBANK has reached VTARGET while the charger runs at constant current: it holds the target at constant voltage
(R212; log entry 22). -/
def State.chargeHold (s : State) (n : Nat) : State :=
  let v := (nth s.zxp.chans 2 AdcCh.fresh).value.toInt
  if n = 2 && s.zxp.chg = 1 && (fld s.zxp.chgCfg 6 0 * 500 : Nat) ≤ v then
    { s with zxp := { s.zxp with chg := 2 } }
  else s

/-- VBANK on its slot stands at the floors of R210 or above: the comparators, which see VBANK and no result of the ADC, are
on the permitting side (log entry 94, DEDUCED). The code of the coarse range says where VBANK is. -/
def State.bankSeen (s : State) (n : Nat) (coarse : Int) : State :=
  if n != 2 then s else
  { s with zxp := { s.zxp with above16 := s.zxp.above16 || decide (16384 ≤ coarse * 5),
                               above20 := s.zxp.above20 || decide (16384 ≤ coarse * 4) } }

/-- The mode of a channel's slot: its KPA_ADC_RANGE, or in the REFIN slot that of the running sub-mode of an ADC
calibration, auto-ranging being suspended (R168): 0 auto, 1 fine, 2 coarse. -/
def State.slotMode (s : State) (n : Nat) : Nat :=
  match s.adcMode with
  | some m => if n = 8 then 1 + m % 2 else if adcVoltage n then fld s.zxp.range (2 * n + 1) (2 * n) else 1
  | none => if adcVoltage n then fld s.zxp.range (2 * n + 1) (2 * n) else 1

/-- One ADC slot (R229 to R232): `fine` and `coarse` are the codes the two ranges would give, beyond the span where
the input is. A slot after an over-range one is discarded with SETTLE. A REFIN slot gives an ADC calibration its next
sample (R168). -/
def State.adcSlot (s : State) (fine coarse : Int) : State :=
  let z := s.zxp
  let n := z.slot.toNat
  let ch := nth z.chans n AdcCh.fresh
  let mode := s.slotMode n
  let r := adcConvert mode ch.nextCoarse fine coarse
  let left := if r.2.2.1 then 2 else z.settleLeft - 1
  let ch' : AdcCh :=
    if z.settleLeft != 0 then { ch with settle := true }
    else { value := BitVec.ofInt 18 (s.adcValue n r.1 r.2.1), coarse := r.1, ovr := r.2.2.1, settle := false,
           range := r.2.2.2.1, valid := true, frame := z.frame, nextCoarse := r.2.2.2.2 }
  let s := { s with free := s.free + 1,
                    zxp := { z with chans := upd z.chans n (fun _ => ch'), settleLeft := left, slot := z.slot + 1,
                                    frame := if n = 15 then z.frame + 1 else z.frame } }
  let s := if n = 8 then s.adcSample r.2.1 (r.2.2.1 || r.2.2.2.1 || z.settleLeft != 0) else s
  (s.bankSeen n coarse).chargeHold n

/-! ## Local registers (R233) -/

/-- KPA_STATUS. -/
def State.kpaStatus (s : State) : Word :=
  let z := s.zxp
  packWord [(0, z.plant.toNat), (1, z.plantOv.toNat), (2, z.plantRev.toNat), (3, s.pow.hostPg.toNat),
    (4, s.pow.pfailLow.toNat), (5, z.convOn.toNat), (6, z.orHost.toNat), (7, z.chg.toNat),
    (9, z.chgPlant.toNat), (10, z.bankArm.toNat), (11, z.above16.toNat), (12, 1), (13, z.vmax.toNat),
    (20, z.cMeas.toNat), (30, z.measValid.toNat)]

/-- KPA_ADCn of a channel. -/
def adcWord (c : AdcCh) (stale : Bool) : Word :=
  packWord [(0, c.value.toNat), (18, c.coarse.toNat), (19, c.ovr.toNat), (20, c.settle.toNat), (21, c.range.toNat),
    (22, stale.toNat), (23, c.valid.toNat), (24, c.frame.toNat)]

/-- What KPA_ADCn reads: live, or held with STALE during an ADC calibration (R171). -/
def Zxp.adcRead (z : Zxp) (n : Nat) : Word :=
  match z.held with
  | some h => adcWord (nth h n AdcCh.fresh) true
  | none => adcWord (nth z.chans n AdcCh.fresh) false

/-- A value of KPA_ADC_RANGE is in range: each channel's mode is one its rotation row allows. -/
def adcRangeOk (v : Nat) : Bool :=
  (List.range 16).all (fun n => let m := v / 4 ^ n % 4
    if adcVoltage n then m != 3 else m == 1)

/-- The local registers of the ZX8-P at byte offset `o`, as ZLB requests find them. -/
def zxpLocal (o : Nat) (s : State) : Option RegDef :=
  let z := s.zxp
  let t := s.tgt 10
  if o = 0x1C then
    some { flds := [⟨31, 0, .rw, true, adcRangeOk⟩], read := z.range,
           write := fun v s => { s with zxp := { s.zxp with range := v } } }
  else if 0x40 ≤ o && o < 0x80 then some (RegDef.ro (z.adcRead ((o - 0x40) / 4)))
  else match o with
  | 0x00 => some (RegDef.ro 0x00020A3A)
  | 0x04 => some { flds := Fld.counters, read := packWord [(0, t.errEdge.toNat), (16, t.errCrc.toNat)],
                   write := fun _ s => s.setTgt 10 (fun t => { t with errEdge := 0, errCrc := 0 }) }
  | 0x08 => some (RegDef.ro s.kpaStatus)
  | 0x0C => some { flds := [Fld.any .w1c 4 0], read := z.fault.setWidth 32,
                   write := fun v s => { s with zxp := { s.zxp with fault := s.zxp.fault &&& ~~~(v.setWidth 5) } } }
  | 0x10 => some { flds := [Fld.kept' 6 0 (fun v => 40 ≤ v && v ≤ 116 && v ≤ z.vmax.toNat),
                            Fld.kept' 12 8 (fun v => 1 ≤ v && v ≤ 30), Fld.keptAny 16 16],
                   read := z.chgCfg, write := fun v s => ({ s with zxp := { s.zxp with chgCfg := v } }).charger }
  | 0x14 => some { flds := [Fld.kept' 5 0 (fun v => 1 ≤ v && v ≤ 40), Fld.kept' 13 8 (fun v => 1 ≤ v && v ≤ 20)],
                   read := z.limits, write := fun v s => { s with zxp := { s.zxp with limits := v } } }
  | 0x18 => some { flds := [Fld.kept' 9 0 (fun v => 10 ≤ v && v ≤ 1000)], read := z.pack,
                   write := fun v s => { s with zxp := { s.zxp with pack := v } } }
  | 0x20 => some (RegDef.ro (z.aclk.setWidth 32))
  | _ => none

/-- The hub window of the ZX8-P's registers as path `p` finds them: present with RETAIN offered, and the ADC ones
with CAL_ADC (R233). -/
def kpaReg (p : Path) (a : Nat) (s : State) : Option RegDef :=
  if a < 0x1D00 || 0x1E00 ≤ a then none else
  let o := a - 0x1D00
  let adc := o == 0x1C || (0x40 ≤ o && o < 0x80)
  if !s.modl.zxpFitted || (if adc then !s.regOn .calAdc else !s.offers .retain) then none
  else if !adc && !(o ≤ 0x18 || o == 0x20) then none
  else proxied p 10 o (zxpLocal o s) s

/-! ## Rows -/

/-- PLANT_PRESENT (R208, R224). -/
def execPlantPresent (s : State) : Out := .next s.plantOn
/-- PLANT_ABSENT (R208, R224). -/
def execPlantAbsent (s : State) : Out := .next (if s.zxpOn then s.plantOff else s)
/-- PLANT_OVER_VOLTAGE (R208): the charger stops, OV_SEEN, and the plant bus counts as absent. -/
def execPlantOverVoltage (s : State) : Out :=
  .next (if !s.zxpOn then s else
    ({ s with zxp := { s.zxp with plantOv := true } }.kpaFault 0).plantOff)
/-- PLANT_REVERSE (R208): PLANT_REV, REV_SEEN, and the plant bus counts as absent. -/
def execPlantReverse (s : State) : Out :=
  .next (if !s.zxpOn then s else
    ({ s with zxp := { s.zxp with plantRev := true } }.kpaFault 1).plantOff)
/-- OVER_VOLTAGE_RESUME (R208). -/
def execOverVoltageResume (s : State) : Out :=
  .next (if s.zxpOn then { s with zxp := { s.zxp with plantOv := false } }.charger else s)
/-- PLANT_REVERSE_CLEAR (R208). -/
def execPlantReverseClear (s : State) : Out :=
  .next (if s.zxpOn then { s with zxp := { s.zxp with plantRev := false } } else s)
/-- BANK_ARM_CHANGE (R210, R217): at 21 V the bank is above both floors. -/
def execBankArmChange (armed : Bool) (s : State) : Out :=
  .next (if !s.zxpOn then s else
    { s with zxp := { s.zxp with bankArm := armed, above20 := s.zxp.above20 || armed,
                                 above16 := s.zxp.above16 || armed } })
/-- CHARGER_FULL (R212): VBANK stands at VTARGET, 20 V or more. -/
def execChargerFull (s : State) : Out :=
  .next (if !s.zxpOn || s.zxp.chg = 0 then s
    else { s with zxp := { s.zxp with chg := 3, above16 := true, above20 := true } })
/-- CHARGER_RESUME (R212): VBANK has fallen 1.0 V below VTARGET. -/
def execChargerResume (s : State) : Out :=
  .next (if !s.zxpOn || s.zxp.chg = 0 then s else { s with zxp := { s.zxp with chg := 1 } })
/-- CHARGER_FAULT (R213): off until MRST, CHG_FAULT. -/
def execChargerFault (s : State) : Out :=
  .next (if !s.zxpOn then s else
    ({ s with zxp := { s.zxp with chgFaulted := true } }.kpaFault 2).charger)
/-- CONVERTER_FAULT (R215): it runs on while it can. -/
def execConverterFault (s : State) : Out := .next (if s.zxpOn then s.kpaFault 3 else s)
/-- OR_REVERSE_FAULT (R216). -/
def execOrReverseFault (s : State) : Out := .next (if s.zxpOn then s.kpaFault 4 else s)
/-- THERMAL_CHARGER_PAUSE (R395): CHG reads 0, no fault. -/
def execThermalChargerPause (s : State) : Out :=
  .next (if s.zxpOn then { s with zxp := { s.zxp with thermal := true } }.charger else s)
/-- THERMAL_CHARGER_RESUME (R395). -/
def execThermalChargerResume (s : State) : Out :=
  .next (if s.zxpOn then { s with zxp := { s.zxp with thermal := false } }.charger else s)
/-- ADC_SLOT (R229). -/
def execAdcSlot (fine coarse : Int) (s : State) : Out :=
  .next (if s.zxpOn then s.adcSlot fine coarse else s)

end Sys2Proof.Machine
end

