-- ==== Sys2Proof/Machine/DomOps.lean ====
section
/-! DEFINITION. Power domains and what their switching clears (02, 03, 09): the legal combinations, PD2, PD3 and PD5
going off and coming up, the end of a save, and the ways a Dormouse is entered and left. -/

namespace Sys2Proof.Machine

/-! ## Domain combinations (R67) -/

/-- The domains that are on in a domain state, PD1 left out; `buf` that ZX8-D are fitted, `nand` that PD6 is on for
the check of a ZX8-H. -/
def domMask (d : Dom) (buf nand : Bool) : BitVec 7 :=
  let b : Nat := if buf then 32 else 0
  let h : Nat := if nand then 64 else 0
  match d with
  | .off => 0 | .keepOnly => 1
  | .boot => BitVec.ofNat 7 (1 + 4 + 8 + 16 + b + h)
  | .run | .curl | .wake => BitVec.ofNat 7 (1 + 4 + 8 + 16 + b)
  | .commitHold | .attended => 1 + 4 + 16
  | .dormouse => 1 + 16
  | .save | .restore => BitVec.ofNat 7 (1 + 4 + 8 + 16 + b + 64)

/-- ZX8-D are fitted. -/
def State.buffers (s : State) : Bool := s.modl.dbFitted && !s.pow.straps.nodb

/-- The set takes a domain state and its combination of domains; PD1 follows the plant bus alone. -/
def State.setDom (s : State) (d : Dom) : State :=
  let m := domMask d s.buffers s.modl.hoardFitted ||| (if d == .off then 0 else s.pow.on &&& 2)
  { s with pow := { s.pow with dom := d, pd2Down := false, on := m } }

/-! ## What switching off clears (R72) -/

/-- The regions of a list as a mask with bit r for region r. -/
def regionMask (rs : List Nat) : BitVec 9 := rs.foldl (fun m r => m ||| BitVec.ofNat 9 (2 ^ r)) 0

/-- Pending changes are dropped, the records that wait for a ring among them, and the island latches their regions (R46,
R199). -/
def State.dropPending (s : State) : State :=
  let rings := (if s.nvs.waitF.isEmpty then [] else [7]) ++ (if s.nvs.waitE.isEmpty then [] else [8])
  { s with pow := { s.pow with lost := s.pow.lost ||| regionMask (s.nvs.pend ++ s.nvs.failedPend ++ rings) },
           nvs := { s.nvs with pend := [], failedPend := [], lifted := [], held := false, waitF := [], waitE := [] } }

/-- A commit in flight is torn: its target slot is empty, the previous generation stands, and the island latches its
region (R191, R199, R207). -/
def State.tearCommit (s : State) : State :=
  match s.nvs.commit with
  | none => s
  | some c =>
    let s := s.wipeSlot c.region c.target true
    { s with pow := { s.pow with lost := s.pow.lost ||| regionMask [c.region] },
             nvs := { s.nvs with commit := none }, pool := { s.pool with curl := false } }

/-- Hoard's work on a restore or an erase stops (R243): a partial erase leaves the spare area incomplete. -/
def State.hoardHalt (s : State) : State :=
  match s.hrd.st with
  | .restoring | .lending => { s with hrd := { s.hrd with st := .idle } }
  | .erasing =>
    let h := s.hrd
    let h := if h.spare.state = 0 then h else h.setArea h.spareB { h.spare with torn := true }
    { s with hrd := { h with st := .idle } }
  | _ => s

/-- The domain state goes back from RESTORE to RUN once nothing is restored or erased (R67, R243). -/
def State.restoreEnd (s : State) : State := if s.pow.dom == .restore then s.setDom .run else s

/-- What MRST leaves of a subchannel's training: the values and the phase; a maintenance unit is back in DONE, a Resume's
replay in HELD. -/
def TrainSub.keep (t : TrainSub) : TrainSub :=
  { t with rankFail := 0, ready := 0, want := 0, unit := none, settleGo := false, settleDone := false, settleFail := false,
           skip := false, vrefDone := false, phase := if t.phase == .maint then .done else t.phase }

/-- What MRST leaves of a subchannel: ownership and pipeline run on (R72, R74). A grant that runs keeps its subchannel
GRANTED until its hand-back, but the work in it is dropped (log entry 79, DESIGN CHOICE). -/
def SubSt.keep (t : SubSt) : SubSt :=
  { t with grant := t.grant.map (fun g => { g with ecs := [], unitsLeft := 0 }), win := Win.fresh, parCount := 0,
           dropCount := 0, yalertCount := 0 }

/-- PWR_DOMAIN_FAULT without its PD2_BROWNOUT, and PWR_ENERGY: their fields are not stated held in PD0 (R12, R79,
R233). -/
def Pow.clear (p : Pow) : Pow := { p with faults := p.faults &&& 1, energyJ := 0, reserveHit := false, cSrc := false }

/-- PD2's registers and RAM at MRST (R12, R72, R74): what PD0 holds, what R108 and R273 keep, and what PD3 and the
other parts hold stays. -/
def State.mgmtClear (s : State) : State :=
  let s := (s.tearCommit.layCopy.dropPending).hoardHalt.restoreEnd
  let resumed := s.host.resume.isSome
  let back := fun (t : TrainSub) =>
    if resumed && (t.phase == .polka || t.phase == .done) then { t.keep with phase := .held } else t.keep
  { s with
    feat := { Feat.fresh with phase := .booting }
    clk := { s.clk with wallStage := 0, mrstWait := false }
    host := { s.host with cause := 0, merged := false, ainc := false, resume := none, reports := [] }
    subA := s.subA.keep, subB := s.subB.keep
    zlb := { Zlb.fresh with targets := s.zlb.targets }
    train := { Train.fresh with a := back s.train.a, b := back s.train.b, trainedRate := s.train.trainedRate,
                                devMs := s.train.devMs, dbGens := s.train.dbGens, dbRefs := s.train.dbRefs }
    cal := Cal.fresh, trim := Trim.fresh, evt := Evt.fresh, twb := Twb.fresh, con := Con.fresh, pool := Pool.fresh
    sels := List.replicate 6 PathSel.fresh
    wrn := { Wrn.fresh with fault := s.wrn.fault }
    nvs := Nvs.fresh
    flt := { s.flt with cfg := Flt.fresh.cfg, pack := Flt.fresh.pack, lastFail := 0, busyA := none, busyB := none,
                        saturated := false, test := Flt.fresh.test }
    hrd := { s.hrd with lend := false, extents := Hrd.fresh.extents, factoryBad := [], retired := [], corrected := 0,
                        uncorrectable := 0, uncorr := none }
    zxp := { s.zxp with held := none, convCurrent := false } }

/-- PD2 goes off: its state is lost with it, the MPLL stops, and the island drives ZLB_CK at the keep rate
(R58, R60). -/
def State.pd2Off (s : State) : State :=
  let s := s.mgmtClear
  { s with feat := Feat.fresh, flt := { Flt.fresh with cutEntry := s.flt.cutEntry },
           clk := { s.clk with mpllLock := false, zlbKeep := s.modl.zxpFitted }, zxp := { s.zxp with aclk := 1 } }

/-- PD2 starts: a restart (R72) acts as MRST, with its cause bit and the registers that MRST alone keeps at their reset
values. A start that is no restart, at BOOT or for a fixture, has no cause. -/
def State.pd2Start (s : State) (cause : BitVec 8) : State :=
  let s := s.mgmtClear
  { s with feat := { Feat.fresh with phase := .booting },
           pow := if cause = 0 then s.pow else s.pow.clear,
           flt := { Flt.fresh with cutEntry := s.flt.cutEntry },
           clk := { s.clk with mpllLock := true, zlbKeep := false, cause := s.clk.cause ||| cause },
           zxp := { s.zxp with aclk := 8 },
           host := { s.host with lat := false, parEn := false, parStop := false, alertW := 16 },
           train := { s.train with devMs := 0 } }

/-- PD3 is switched on (R86): subchannels NOT_READY, but in SAVE, where no host is served, they stay BLOCKED. -/
def State.pd3Start (s : State) : State :=
  let own : Owner := if s.pow.dom == .save then .blocked else .notReady
  { s with subA := { s.subA with owner := own }, subB := { s.subB with owner := own },
           host := { s.host with caBlock := false, pd3Fault := false, latActive := false, latLoad := true } }

/-- The ZX8-D after their supply was off: reset values (R402), each with the position it reads from its DBPOS pins
(R110); they answer once discovered. -/
def State.dbsFresh (s : State) : State :=
  { s with dbs := (List.range 10).map (fun n => { Db.fresh with pos := nth s.modl.dbPos n 0 }),
           zlb := { s.zlb with targets := List.replicate 10 ZTarget.fresh ++ s.zlb.targets.drop 10 },
           trim := { s.trim with placed := s.trim.placed.zipIdx.map (fun q => if q.2 < 2 then q.1 else none) } }

/-- PD5 is switched on. -/
def State.pd5Start (s : State) : State :=
  { s.dbsFresh with host := { s.host with pd5Fault := false } }

/-- What PD3's switching off leaves of a subchannel: PD4 holds YCS_n high, the ranks keep their state. -/
def SubSt.off (t : SubSt) : SubSt :=
  { t with owner := .blocked, grant := none, win := Win.fresh, drive := none, hostDq := none }

/-- PD3 and PD5 go off: the trained values and the pipeline are gone (R72). -/
def State.pd3Off (s : State) : State :=
  { s with subA := s.subA.off, subB := s.subB.off, dbs := s.dbsFresh.dbs, zlb := s.dbsFresh.zlb,
           trim := s.dbsFresh.trim,
           host := { s.host with pulse := none, waitPar := false, waitCrc := false, resume := none, pd3Fault := false,
                                 pd5Fault := false, latActive := false, yrstMs := 0, reports := [] },
           clk := { s.clk with hckOk := false, hckValid := false, hckMhz := 0 },
           train := { s.train with a := TrainSub.fresh, b := TrainSub.fresh, trainedRate := 0,
                                   dbGens := List.replicate 10 [], dbRefs := List.replicate 10 [] },
           hrd := { s.hrd with readyHeldA := false, readyHeldB := false } }

/-! ## The end of a save (R246, R247) -/

/-- A save ends before its trailer: the area is left incomplete, EV49 carries the outcome. -/
def State.saveEnd (s : State) (outcome : BitVec 3) : State :=
  match s.hrd.st with
  | .saving =>
    { s with hrd := { s.hrd with st := .idle, lastOutcome := outcome,
                                 lastTime := BitVec.ofNat 16 (min 65535 (s.hrd.saveMs / 10)) } }.raise 49
      (outcome.setWidth 24)
  | .held => { s with hrd := { s.hrd with st := .idle } }
  | _ => s

/-! ## Dormouse -/

/-- VBANK's 20 V floor has been passed downward and not been left again. -/
def State.floorTripped (s : State) : Bool := !s.zxp.above20

/-- Everything but PD0 and PD1 goes off and no image is held (R207, R67): keep state EMPTY, domain state KEEP_ONLY; with
the DRAM rails off no rank is known. A host power good that already stands makes it NORMAL. -/
def State.powerDown (s : State) (lastEnd : BitVec 3) : State :=
  let s := ((s.conv false).yrstLow).pd3Off.pd2Off.setDom .keepOnly
  let s := (s.setSub .a (fun t => { t with ranks := List.replicate 4 .absent })).setSub .b
    (fun t => { t with ranks := List.replicate 4 .absent })
  { s with pow := { s.pow with keep := if s.pow.hostPg then .normal else .empty, image := false, kdeep := false,
                               lastEnd := lastEnd } }

/-- A save begins (R49, R207): KDEEP_n is asserted, PD2, PD3, PD5 and PD6 are powered from the bank, and PD2 boots. -/
def State.enterSave (s : State) : State :=
  let s := { s with pow := { s.pow with keep := .save, kdeep := true },
                    hrd := { s.hrd with provedA := false, provedB := false, retiredNow := [], pages := 0, saveMs := 0 } }
  ((s.setDom .save).pd2Start 2).pd3Start.pd5Start

/-- Every fitted rank of a subchannel is in self-refresh. -/
def SubSt.asleep (t : SubSt) : Bool := t.ranks.all (fun r => r == .absent || r == .selfRefresh || r == .held)

/-- The ranks of a subchannel that a save woke go back into self-refresh under the hold (R243, R246): PREab, then SRE. -/
def State.sleepSub (s : State) (x : Sub) : State :=
  if (s.sub x).asleep then s else (s.setRanks x .held).issue x [(.preAb, 1), (.sre, 1)]

/-- A save that ends short leaves every rank in self-refresh under the hold again (R246), and the record to be replayed
at management ready as for an image that no save began (R142). -/
def State.saveAsleep (s : State) : State :=
  let s := (s.sleepSub .a).sleepSub .b
  (s.setPhase .a .off).setPhase .b .off

/-- Wake (R207, R216, R225): a save stops, the ideal-diode OR carries host bulk again, the converter stops, the charger
resumes and PD2 restarts. -/
def State.wake (s : State) : State :=
  let saving := s.pow.keep == .save
  let s := s.saveEnd 2
  let s := if saving then s.saveAsleep else s
  let s := { s with pow := { s.pow with keep := .wake, kdeep := false }, zxp := { s.zxp with convOn := false, orHost := true } }
  let s := ((s.setDom .wake).pd2Start 2).pd3Start
  (if saving then s else s.pd5Start).charger

/-- A fixture powers PD2 (R67). -/
def State.attend (s : State) : State := (s.setDom .attended).pd2Start 0

/-- E ≤ PWR_RESERVE.JOULES (R223), with E as the island last computed it (R222). -/
def State.atReserve (s : State) : Bool := s.pow.energyX.any (fun e => e ≤ s.pow.reserve.toNat * 200000000)

/-- The reserve trigger of R223: the save starts with EV28. -/
def State.reserveTrigger (s : State) : State :=
  if s.pow.keep == .hold && s.pow.copy && s.atReserve then s.enterSave.raise 28 1 else s

/-- The bank floor ends a HOLD (R207, R223). -/
def State.floorEnd (s : State) : State := (s.powerDown 3).raise 28 2

/-- Dormouse is entered with an image (R207): the span starts at zero, and what already stands acts at once: host power
good, a bank below its floor, the reserve, a fixture. -/
def State.enterHold (s : State) : State :=
  let s := s.pd2Off.setDom .dormouse
  let s := { s with pow := { s.pow with keep := .hold, usedMs := 0, kdeep := false } }
  if s.pow.hostPg then s.wake
  else if s.floorTripped then s.floorEnd
  else if s.pow.copy && s.atReserve then s.reserveTrigger
  else if s.pow.svc then s.attend else s

end Sys2Proof.Machine
end

