-- ==== Sys2Proof/Machine/Feat.lean ====
section
/-! DEFINITION. Identity and feature negotiation (01): the lock, the deadline, the release at SETTLED, and the ID_ and
FEAT_ registers. -/

namespace Sys2Proof.Machine

/-- A lock (R30, R25): ACTIVE is OFFER AND ACCEPT, BY records the path, and the lock copy of HOARD is laid down. -/
def State.lock (s : State) (lockedBy : BitVec 3) : State :=
  let active := s.feat.offer &&& s.feat.accept
  { s with feat := { s.feat with phase := .locked, active := active, lockedBy := lockedBy },
           pow := { s.pow with lockCopy := active.getLsbD 4 } }

/-- The negotiation still waits for a lock. -/
def State.negotiating (s : State) : Bool := s.feat.phase == .waitHost || s.feat.phase == .counting

/-- The deadline lock (R36): the baseline is accepted and BY is 6. -/
def State.deadlineLock (s : State) : State :=
  { s with feat := { s.feat with accept := 0x4007 } }.lock 6

/-- The deadline has passed (R37): the baseline is locked. -/
def State.deadlinePassed (s : State) : State :=
  if s.feat.phase == .counting && s.feat.deadline.toNat * 100 ≤ s.feat.elapsed then s.deadlineLock else s

/-- A lock without LIVE_TRIM clears the accumulators and queues of live trim (R180). -/
def State.trimSwitch (s : State) : State :=
  if s.feat.active.getLsbD 5 then s
  else { s with trim := { s.trim with acc := [], queues := List.replicate 12 [], placed := s.trim.placed.zipIdx.map (fun q => if q.2 < 2 then none else q.1),
                                      recentre := [] } }

/-- An explicit commit held for the lock runs when SETTINGS_WRITE is active, and is dropped otherwise (R198). -/
def State.heldSwitch (s : State) : State :=
  { s with nvs := { s.nvs with held := false,
                               lifted := if s.nvs.held && s.feat.active.getLsbD 15 then s.nvs.pend else s.nvs.lifted } }

/-- SETTLED rises (R38): the events latched in PD0 join the pending ones (R224), the units are switched and the deferred
events released (R279). -/
def State.settle (s : State) : State :=
  (({ s.releaseLatched with feat := { s.feat with phase := .settled } }.evtSettle s.feat.lockedBy).trimSwitch).heldSwitch

/-- The programmed deadline in milliseconds (R36). -/
def Feat.limitMs (f : Feat) : Nat := f.deadline.toNat * 100

/-- The deadline timer starts at the later of host power good and management ready (R36). -/
def State.startDeadline (s : State) : State :=
  if s.feat.phase == .waitHost && s.pow.hostPg then
    { s with feat := { s.feat with phase := .counting, elapsed := 0 } }
  else s

/-! ## Registers (R41) -/

/-- The firmware body that runs: the slot that booted. -/
def State.running (s : State) : Option FwBody :=
  if s.nvs.rescue then none
  else (if nth s.nvs.inUse 0 false then s.nv.fw.b else s.nv.fw.a).map (·.body)

/-- ID_FIRMWARE. -/
def State.idFirmware (s : State) : Word :=
  match s.running with
  | none => 0
  | some f => packWord [(0, f.build.toNat), (8, f.minor.toNat), (16, f.major.toNat),
                        (24, (nth s.nvs.inUse 0 false).toNat)]

/-- FEAT_STATUS. -/
def State.featStatus (s : State) : Word :=
  packWord [(0, s.locked.toNat), (1, s.feat.lockedBy.toNat), (4, s.settled.toNat), (5, s.retainPending.toNat)]

/-- FEAT_REMAIN: counts while the deadline timer runs. -/
def State.featRemain (s : State) : Word :=
  if s.feat.phase == .counting then packWord [(0, s.feat.limitMs - s.feat.elapsed), (15, 1)] else 0

/-- The ID_ and FEAT_ registers as path `p` finds them. -/
def featReg (p : Path) (a : Nat) (s : State) : Option RegDef :=
  match a with
  | 0x0000 => some (RegDef.ro 0x00020A38)
  | 0x0004 => some (RegDef.ro 0x00000508)
  | 0x0008 => some (RegDef.ro (s.modl.serial.setWidth 32))
  | 0x000C => some (RegDef.ro ((s.modl.serial >>> 32).setWidth 32))
  | 0x0010 => some (RegDef.ro s.idFirmware)
  | 0x0014 => some (RegDef.ro (packWord [(0, s.pow.straps.hsa.toNat), (3, s.pow.straps.nvsWp.toNat),
                (4, s.pow.straps.conWp.toNat), (5, s.pow.straps.nodb.toNat)]))
  | 0x0018 => some (RegDef.ro (s.zlb.peer.setWidth 32))
  | 0x0040 => some (RegDef.ro (s.feat.offer.setWidth 32))
  | 0x0044 => some (RegDef.ro 0)
  | 0x0048 => some { flds := [Fld.any .rwl 15 0], read := s.feat.accept.setWidth 32, locked := s.locked,
                     write := fun v s => { s with feat := { s.feat with accept := v.setWidth 16 } } }
  | 0x004C => some { flds := [⟨31, 0, .rwl, false, (· == 0)⟩], read := 0, locked := s.locked,
                     write := fun _ s => s }
  | 0x0050 => some { flds := [⟨15, 0, .wo, false, fun k => k == 0xA5C3 && s.negotiating && s.feat.accept.getLsbD 0⟩],
                     read := 0, write := fun _ s => s.lock (pathCode p) }
  | 0x0054 => some (RegDef.ro s.featStatus)
  | 0x0058 => some (RegDef.ro (s.feat.active.setWidth 32))
  | 0x005C => some (RegDef.ro 0)
  | 0x0060 => some { flds := [⟨8, 0, .rwl, true, fun t => 5 ≤ t && t ≤ 300⟩], read := s.feat.deadline.setWidth 32,
                     locked := s.locked,
                     write := fun v s => { s with feat := { s.feat with deadline := v.setWidth 9 } }.deadlinePassed }
  | 0x0064 => some (RegDef.ro s.featRemain)
  | _ => none

/-! ## Rows -/

/-- FEAT_DEADLINE_LOCK (R36): FEAT_REMAIN has reached 0 before any lock. -/
def execFeatDeadlineLock (s : State) : Out :=
  .next (if s.up && s.feat.phase == .counting then s.deadlineLock else s)

end Sys2Proof.Machine
end

