-- ==== Sys2Proof/Machine/HrdPage.lean ====
section
/-! DEFINITION. What Hoard writes (10): the order of the keep-region stream, the bytes of the control pages, and the BCH
check fields of a page. -/

namespace Sys2Proof.Machine

/-! ## The stream (R238) -/

/-- A stream of extents with their indices, the enabled ones in index order. -/
def streamOf (es : List Extent) : List (Nat × Extent) := (es.zipIdx.filter (·.1.en)).map (fun e => (e.2, e.1))

/-- Row `r` of a stream: its extent and its row address. -/
def streamRow : List (Nat × Extent) → Nat → Option (Nat × Nat)
  | [], _ => none
  | (i, e) :: l, r => if r < e.rows then some (i, e.first + r) else streamRow l (r - e.rows)

/-- Burst `n` of a stream, counting from 0: 4096 of 80 bytes in a row, bank group by bank group, bank by bank, column by
column. -/
def streamBurst (es : List (Nat × Extent)) (n : Nat) : Option StreamPos :=
  (streamRow es (n / 4096)).map (fun r => ⟨r.1, r.2, n % 4096 / 512, n % 512 / 128, n % 128⟩)

/-- Byte `k` of a burst: its beat, and the buffer whose two packages give it. -/
def burstByte (k : Nat) : Nat × Nat := (k / 5, k % 5)

/-- The burst at which a 64 KiB unit of a subchannel's stream begins (R251). -/
def unitBurst (es : List Extent) (x : Sub) (unit : Nat) : Option StreamPos :=
  streamBurst ((streamOf es).filter (fun e => e.2.sub == x)) (unit * 65536 / 80)

/-- Row `r` of a subchannel's stream has been restored (R251). -/
def Hrd.rowBack (h : Hrd) (x : Sub) (r : Nat) : Bool := (r + 1) * 320 ≤ h.wmark x * 64

/-- Where data position `n` of the stream lies (R240): channel, LUN, and data page of the LUN. -/
def pagePlace (luns n : Nat) : Nat × Nat × Nat := (n % 4, n / 4 % luns, n / (4 * luns))

/-! ## Control pages (R241) -/

/-- Bytes with their CRC-32C behind them. -/
def sealed (b : List Byte) : List Byte := b ++ leBytes 4 (crc32c b).toNat

/-- Header page of an area: area A is 0, B 1 (log entry 99, DEDUCED from HRD_STATUS.NEWEST). -/
def hdrBytes (b : Bool) (h : AreaHdr) : List Byte :=
  sealed ([0x5A, 0x48, 0x44, 0x48] ++ leBytes 4 h.gen.toNat ++ leBytes 1 b.toNat ++ leBytes 3 0 ++ leBytes 4 h.rows
    ++ leBytes 5 h.life.toNat ++ leBytes 3 0
    ++ ((List.range 16).flatMap (fun i => let e := nth h.extents i ⟨0, 0⟩; leBytes 4 e.lo.toNat ++ leBytes 4 e.hi.toNat)))

/-- Trailer page of an area. -/
def trlBytes (t : AreaTrl) : List Byte :=
  sealed ([0x5A, 0x48, 0x44, 0x54] ++ leBytes 4 t.gen.toNat ++ leBytes 4 t.pages ++ leBytes 2 t.retired.length
    ++ (t.retired.take 256).flatMap (fun b => leBytes 1 b.channel ++ leBytes 1 b.lun ++ leBytes 2 b.block))

/-- Marker page of an area. -/
def markBytes (m : AreaMark) : List Byte :=
  sealed ([0x5A, 0x48, 0x44, 0x43] ++ leBytes 4 m.gen.toNat ++ leBytes 5 m.life.toNat)

/-! ## BCH (R241) -/

/-- An element of GF(2¹⁴) times α, by x¹⁴ + x¹⁰ + x⁶ + x + 1. -/
def gfAlpha (a : Nat) : Nat := if a < 8192 then 2 * a else (2 * a - 16384) ^^^ 0x443

/-- A product in GF(2¹⁴), by the bits of `b`, of which there are `n`. -/
def gfMul (a b : Nat) : Nat → Nat
  | 0 => 0
  | n + 1 => (if b % 2 = 1 then a else 0) ^^^ gfMul (gfAlpha a) (b / 2) n

/-- A power of α. -/
def gfPow : Nat → Nat
  | 0 => 1
  | n + 1 => gfAlpha (gfPow n)

/-- A polynomial over GF(2¹⁴), lowest coefficient first, times x + `r`. -/
def polyRoot (r : Nat) (p : List Nat) : List Nat :=
  List.zipWith (· ^^^ ·) (0 :: p) ((p.map (fun c => gfMul c r 14)) ++ [0])

/-- The minimal polynomial of an element: the product over its 14 conjugates, the squares of one another. -/
def minPoly (a : Nat) : List Nat :=
  ((List.range 14).foldl (fun st _ => (polyRoot st.2 st.1, gfMul st.2 st.2 14)) ([1], a)).1

/-- A polynomial of coefficients 0 and 1 as a number. -/
def polyNat (p : List Nat) : Nat := p.foldr (fun c a => c + 2 * a) 0

/-- A product of polynomials over GF(2), by the bits of `b`, of which there are `n`. -/
def bitMul (a b : Nat) : Nat → Nat
  | 0 => 0
  | n + 1 => (if b % 2 = 1 then a else 0) ^^^ bitMul (2 * a) (b / 2) n

/-- The generator: the minimal polynomials of α¹, α³, … α⁸¹ multiplied, of degree 574. -/
def bchGen : Nat := (List.range 41).foldl (fun g i => bitMul g (polyNat (minPoly (gfPow (2 * i + 1)))) 15) 1

/-- One bit into the encoder, whose 574 bits hold the remainder. -/
def bchBit (g reg : Nat) (b : Bool) : Nat :=
  let r := 2 * reg
  if reg.testBit 573 != b then (r % 2 ^ 574) ^^^ (g % 2 ^ 574) else r % 2 ^ 574

/-- The check field of a chunk: 72 bytes, parity highest-order bit first, the last two bits zero. -/
def bchField (chunk : List Byte) : List Byte :=
  let bits := chunk.flatMap (fun b => (List.range 8).map (fun i => b.getLsbD (7 - i)))
  let p := 4 * bits.foldl (bchBit bchGen) 0
  (List.range 72).map (fun i => BitVec.ofNat 8 (p >>> (8 * (71 - i))))

/-- A page as it is programmed: 16 KiB of data, zero behind its content, and the check fields of its 16 chunks in its
spare. -/
def nandPage (content : List Byte) : List Byte :=
  let data := (content ++ List.replicate 16384 0).take 16384
  data ++ (List.range 16).flatMap (fun i => bchField ((data.drop (1024 * i)).take 1024))

end Sys2Proof.Machine
end

