-- ==== Sys2Proof/Machine/Hoard.lean ====
section
/-! DEFINITION. Hoard (10): Polka at the save rate, the save, the restore and the spare erase, the discard, and the HRD_
registers. -/

namespace Sys2Proof.Machine

/-! ## Saving (R243 to R245) -/

/-- The bad blocks that Hoard skips. -/
def Hrd.bad (h : Hrd) : List NandBlock := h.factoryBad ++ h.retired ++ h.retiredNow

/-- The ranks of a subchannel leave self-refresh (R243). -/
def State.wakeSub (s : State) (x : Sub) : State := (s.setRanks x .active).issue x [(.srx, 1)]

/-- A control page of an area is programmed (R241). -/
def State.controlPage (s : State) (b : Bool) (page : Nat) (content : List Byte) : State :=
  let at_ := (controlBlock s.modl.nandHalf.toNat s.hrd.bad b).getD 0
  { s with hrd := { s.hrd with prog := some ⟨0, 0, at_, page, content⟩ } }

/-- Where the LUNs stand as a save begins (R240): each at its first good data block, which is still to be erased where the
spare area is not clean (R245). -/
def State.firstCurs (s : State) : List (Option NandCur) :=
  let h := s.hrd
  (List.range 32).map (fun i => if h.luns.toNat ≤ i % 8 then none else
    (firstData s.modl.nandHalf.toNat h.bad h.spareB (i / 8) (i % 8)).map (fun n => ⟨n, 0, h.spare.state == 0, 0⟩))

/-- The save starts (R243, R245): the ranks leave self-refresh and the header of the spare area is programmed, with
a generation one above the higher of the two. -/
def State.saveStart (s : State) : State :=
  let h := s.hrd
  let hdr : AreaHdr := ⟨BitVec.ofNat 32 (max h.areaA.gen h.areaB.gen + 1), mapRows h.extents, s.clk.life, h.extents⟩
  let b := h.spareB
  let curs := s.firstCurs
  let h := { h.setArea b ⟨false, some hdr, none, none⟩ with
             st := .saving, lastNotClean := h.spare.state != 0, pages := 0, saveMs := 0, retiredNow := [], curs := curs }
  let s := State.controlPage { s with hrd := h } b 0 (hdrBytes b hdr)
  (s.wakeSub .a).wakeSub .b

/-- The save is HELD (R243): the ranks are in self-refresh, after PREab and SRE where the save had woken them, and HRD_LAST
records outcome 4. -/
def State.saveHeld (s : State) : State :=
  let s := (s.sleepSub .a).sleepSub .b
  { s with hrd := { s.hrd with st := .held, lastOutcome := 4,
                               lastTime := BitVec.ofNat 16 (min 65535 (s.hrd.saveMs / 10)) } }

/-- Polka at the save rate ends on a subchannel (R243, R244): the save starts when both have passed. -/
def State.savePolka (s : State) (x : Sub) (dies : List PolkaDie) : State :=
  if s.hrd.st != .idle || (s.tr x).phase != .held || !s.trains then s else
  let j := s.polkaJudge x dies
  let s := { s with train := { s.train with pairs := satAdd s.train.pairs j.2 } }
  if j.1 != 0 then s.saveHeld.raise 49 4 else
  let s := match x with
    | .a => { s with hrd := { s.hrd with provedA := true } }
    | .b => { s with hrd := { s.hrd with provedB := true } }
  if s.hrd.provedA && s.hrd.provedB then s.saveStart else s

/-- A block is retired (R245): during a save it goes into the trailer, else into region 6; EV52 names it. -/
def State.retireBlock (s : State) (b : NandBlock) : State :=
  let s := if s.hrd.st == .saving then
      { s with hrd := { s.hrd with retiredNow := s.hrd.retiredNow ++ [b] } }
    else { s with hrd := { s.hrd with retired := s.hrd.retired ++ [b] } }.pendRegion 6
  s.raise 52 (BitVec.ofNat 24 (b.channel + 4 * b.lun + 32 * b.block))

/-- The trailer of the running save (R241): its data pages and the blocks it retired, at most 256. -/
def Hrd.saveTrailer (h : Hrd) : AreaTrl :=
  match h.spare.hdr with
  | some d => ⟨d.gen, 20 * d.rows, h.retiredNow.take 256⟩
  | none => ⟨0, 0, []⟩

/-- Every data page of the running save has been programmed. -/
def Hrd.allPages (h : Hrd) : Bool := h.pages == h.saveTrailer.pages

/-- A LUN has no good block left while pages of the save remain (R243). -/
def Hrd.noRoom (h : Hrd) : Bool :=
  !h.allPages && (List.range 32).any (fun i => i % 8 < h.luns.toNat && (nth h.curs i none).isNone)

/-- A place in the LUN table. -/
def curKey (b : NandBlock) : Nat := b.channel * 8 + b.lun

/-- The program or erase that a save has running in a LUN (R245): it has a page of the stream left. -/
def State.nandCur (s : State) (b : NandBlock) : Option NandCur :=
  (nth s.hrd.curs (curKey b) none).filter (fun u => u.block == b.block
    && dataPos s.hrd.luns.toNat b.channel b.lun u.done < s.hrd.saveTrailer.pages)

/-- The place of a LUN from its block `n` on: the next good block, erased first where the spare area was not clean. -/
def State.curFrom (s : State) (b : NandBlock) (n done : Nat) : Option NandCur :=
  (goodFrom s.modl.nandHalf.toNat s.hrd.bad s.hrd.spareB b.channel b.lun n).map (fun k =>
    ⟨k, 0, !s.hrd.lastNotClean, done⟩)

/-- A LUN goes on to a place. -/
def State.setCur (s : State) (b : NandBlock) (u : Option NandCur) : State :=
  { s with hrd := { s.hrd with curs := upd s.hrd.curs (curKey b) (fun _ => u) } }

/-- A data page has been programmed: the LUN goes on to its next page. -/
def State.pageDone (s : State) (b : NandBlock) (u : NandCur) : State :=
  let next := if u.page + 1 < 2 ^ s.hrd.ppbLog2.toNat then some { u with page := u.page + 1, done := u.done + 1 }
    else s.curFrom b (u.block + 1) (u.done + 1)
  State.setCur { s with hrd := { s.hrd with pages := s.hrd.pages + 1,
                                            prog := some ⟨b.channel, b.lun, u.block, u.page, []⟩ } } b next

/-- A page program or a block erase has completed (R245). In a save a block is erased before its first page where the spare
area was not clean; after a failure the block is retired and the page goes to the next good block of the LUN. -/
def State.nandDone (s : State) (b : NandBlock) (ok : Bool) : State :=
  match s.hrd.st with
  | .erasing => if ok then s else s.retireBlock b
  | .saving =>
    match s.nandCur b with
    | none => s
    | some u =>
      if !ok then
        let s := s.retireBlock b
        s.setCur b (s.curFrom b (b.block + 1) u.done)
      else if !u.erased then s.setCur b (some { u with erased := true })
      else s.pageDone b u
  | _ => s

/-- With every page programmed, the trailer has been read back (R243, R245): the image is complete, the newest from now on,
so that no discard of an older one owes its marker page any more; EV48, and everything but PD0 goes off. -/
def State.saveComplete (s : State) : State :=
  if s.hrd.st != .saving || !s.hrd.allPages then s else
  let h := s.hrd
  let s := s.controlPage h.spareB 1 (trlBytes h.saveTrailer)
  let h := s.hrd
  let h := { h.setArea h.spareB { h.spare with trl := some h.saveTrailer } with
             st := .idle, lastOutcome := 1, lastTime := BitVec.ofNat 16 (min 65535 (h.saveMs / 10)), markerOwed := false }
  ({ s with hrd := h }.raise 48 0).powerDown 2

/-- The area is full, or a channel or the control block fails (R243). -/
def State.areaFull (s : State) (noSpace : Bool) : State :=
  if s.hrd.st != .saving || (noSpace && !s.hrd.noRoom) then s
  else if noSpace then s.saveHeld.raise 53 0 else s.saveHeld.raise 49 4

/-! ## Restoring (R248 to R253) -/

/-- READY_x that only a restore held back rises (R249). -/
def State.releaseReady (s : State) : State :=
  let a := s.hrd.readyHeldA
  let b := s.hrd.readyHeldB
  let s := { s with hrd := { s.hrd with readyHeldA := false, readyHeldB := false } }
  let s := if a then s.goHost .a else s
  if b then s.goHost .b else s

/-- Both subchannels are trained; restore-first needs them still NOT_READY (R243, R249). -/
def State.restoreReady (s : State) : Bool :=
  s.train.a.phase == .done && s.train.b.phase == .done
    && (s.hrd.lend || (s.subA.owner == .notReady && s.subB.owner == .notReady))

/-- A restore starts (R243, R248); HRD_UNCORR is of the restore that starts from the beginning. -/
def State.restoreStart (s : State) : State :=
  if s.hrd.st != .idle || !(s.pow.dom == .run || s.pow.dom == .restore) || !s.restoreDue || !s.restoreReady then s else
  let fresh := s.hrd.wmarkA == 0 && s.hrd.wmarkB == 0
  let s := { s with hrd := { s.hrd with st := if s.hrd.lend then .lending else .restoring,
                                        uncorr := if fresh then none else s.hrd.uncorr } }
  s.setDom .restore

/-- A grant on a subchannel still has units to restore (R250). -/
def State.unitsDue (s : State) (x : Sub) : Bool :=
  match (s.sub x).grant with
  | some g => g.lend && g.unitsLeft != 0
  | none => false

/-- EV51 for each uncorrectable chunk of a unit. -/
def State.uncorrectable (s : State) (x : Sub) (unit : Nat) : Nat → State
  | 0 => s
  | k + 1 => (s.raise 51 (BitVec.ofNat 24 (subNo x + 2 * unit))).uncorrectable x unit k

/-- One 64 KiB unit of a subchannel's stream is restored (R250, R251). -/
def State.restoreUnit (s : State) (x : Sub) (corrected uncorr : Nat) : State :=
  if !(s.hrd.st == .restoring || (s.hrd.st == .lending && s.unitsDue x)) || s.hrd.done x || (s.tr x).phase != .done
  then s else
  let unit := s.hrd.wmark x
  let h := s.hrd.setWmark x (unit + 1)
  let h := { h with unitAt := unitBurst h.imageMap x unit, corrected := satAdd h.corrected corrected, uncorrectable := satAdd h.uncorrectable uncorr,
                    uncorr := if uncorr != 0 && h.uncorr.isNone then some (x, BitVec.ofNat 20 unit) else h.uncorr }
  let s := { s with hrd := h }
  let s := s.setSub x (fun t => { t with grant := t.grant.map (fun g => { g with unitsLeft := g.unitsLeft - 1 }) })
  s.uncorrectable x unit uncorr

/-- The newest image is consumed: its marker page is programmed (R253). -/
def State.consume (s : State) : State :=
  let h := s.hrd
  let a := h.newest
  let s := { s with hrd := { h with markerOwed := false } }
  match a.hdr with
  | none => s
  | some d =>
    let m : AreaMark := ⟨d.gen, s.clk.life⟩
    let s := s.controlPage h.newestB 2 (markBytes m)
    { s with hrd := s.hrd.setArea h.newestB { a with marker := some m } }

/-- Both watermarks stand at the size of their subchannel's extents. -/
def State.fullMarks (s : State) : State :=
  let m := s.hrd.imageMap
  { s with hrd := (s.hrd.setWmark .a (mapUnits m .a)).setWmark .b (mapUnits m .b) }

/-- Both watermarks are at size (R243): marker page, EV50, and READY_x where a restore held it. -/
def State.restoreComplete (s : State) : State :=
  if !(s.hrd.st == .restoring || s.hrd.st == .lending) || s.hrd.unfinished then s else
  let s := { s.consume with hrd := { s.consume.hrd with st := .erasing } }
  (s.raise 50 0).releaseReady

/-- HRD_CMD DISCARD (R243): the watermarks are DONE and EV55 is raised; in IDLE the marker page is owed. -/
def State.discardImage (s : State) : State :=
  let s := s.fullMarks
  let s := if s.hrd.st == .restoring || s.hrd.st == .lending then
      { s.consume with hrd := { s.consume.hrd with st := .erasing } }
    else { s with hrd := { s.hrd with markerOwed := true } }
  (s.raise 55 0).releaseReady

/-- The spare erase starts (R243). -/
def State.eraseStart (s : State) : State :=
  if s.hrd.st != .idle || s.pow.dom != .run || !s.fnOn .hoard || s.hrd.unfinished
      || (s.hrd.spare.state = 0 && !s.hrd.markerOwed) then s else
  let s := if s.hrd.markerOwed then s.consume else s
  { s with hrd := { s.hrd with st := .erasing } }.setDom .restore

/-- The spare area is clean (R243). -/
def State.eraseEnd (s : State) : State :=
  if s.hrd.st != .erasing then s else
  { s with hrd := { s.hrd.setArea s.hrd.spareB Area.clean with st := .idle } }.restoreEnd

/-- SETTLED finds HOARD not active (R243): its work stops, and READY_x is no longer held. -/
def State.hoardSwitch (s : State) : State :=
  if s.feat.active.getLsbD 4 then s else s.hoardHalt.restoreEnd.releaseReady

/-! ## Registers (R255) -/

/-- Codes of the unit's state (HRD_STATUS). -/
def hrdCode : HrdSt → Nat
  | .idle => 0 | .saving => 1 | .held => 2 | .restoring => 3 | .lending => 4 | .erasing => 5

/-- HRD_STATUS. -/
def State.hrdStatus (s : State) : Word :=
  let h := s.hrd
  packWord [(0, hrdCode h.st), (3, h.unfinished.toNat), (4, (h.spare.state == 0).toNat), (5, h.newestB.toNat),
    (6, s.hoardCopy.toNat)]

/-- HRD_IMAGE_A, HRD_IMAGE_B. -/
def imageWord (a : Area) : Word := packWord [(0, a.state), (16, if a.state = 0 then 0 else a.gen % 65536)]

/-- HRD_WMARK_A, HRD_WMARK_B. -/
def State.wmarkWord (s : State) (x : Sub) : Word := packWord [(0, s.hrd.wmark x), (31, (s.hrd.done x).toNat)]

/-- HRD_UNCORR. -/
def uncorrWord : Option (Sub × BitVec 20) → Word
  | some (x, u) => packWord [(0, u.toNat), (20, subNo x), (31, 1)]
  | none => 0

/-- The HRD_ registers as path `p` finds them. -/
def hrdReg (p : Path) (a : Nat) (s : State) : Option RegDef :=
  let h := s.hrd
  let i := (s.sel p).hrdMap.toNat
  let e := nth h.extents i ⟨0, 0⟩
  if !s.regOn .hoard then none
  else match a with
  | 0x3800 => some (RegDef.ro s.hrdStatus)
  | 0x3804 => some (RegDef.ro (packWord [(0, h.luns.toNat), (8, h.ppbLog2.toNat), (16, h.areaBlocks.toNat)]))
  | 0x3808 => some (RegDef.ro (imageWord h.areaA))
  | 0x380C => some (RegDef.ro (imageWord h.areaB))
  | 0x3810 => some { flds := [⟨0, 0, .rw, true, fun _ => !h.unfinished⟩], read := BitVec.ofNat 32 h.lend.toNat,
                     write := fun v s => { s with hrd := { s.hrd with lend := bitAt v 0 } } }
  | 0x3814 => some { flds := [Fld.any .rw 3 0], read := (s.sel p).hrdMap.setWidth 32,
                     write := fun v s => s.setSel p (fun x => { x with hrdMap := v.setWidth 4 }) }
  | 0x3818 =>
    some { flds := [Fld.keptAny 21 0, Fld.keptAny 31 31], read := e.lo,
           whole := fun v => !v.testBit 31 || s.extentOk i ⟨BitVec.ofNat 32 v, e.hi⟩,
           write := fun v s => s.setExtent i ⟨v, e.hi⟩ }
  | 0x381C => some { flds := [⟨17, 0, .rw, true, fun v => 1 ≤ v && v ≤ 131072 && !e.en⟩], read := e.hi,
                     write := fun v s => s.setExtent i ⟨e.lo, v⟩ }
  | 0x3820 => some (RegDef.ro (BitVec.ofNat 32 (mapRows h.extents)))
  | 0x3824 => some (RegDef.ro (s.wmarkWord .a))
  | 0x3828 => some (RegDef.ro (s.wmarkWord .b))
  | 0x382C => some { flds := Fld.counters, read := packWord [(0, h.corrected.toNat), (16, h.uncorrectable.toNat)],
                     write := fun _ s => { s with hrd := { s.hrd with corrected := 0, uncorrectable := 0 } } }
  | 0x3830 => some (RegDef.ro (packWord [(0, h.factoryBad.length), (16, h.retired.length)]))
  | 0x3834 => some (RegDef.ro (packWord [(0, min 4095 h.minJ), (12, s.reserveShort.toNat)]))
  | 0x3838 => some { flds := [⟨31, 0, .wo, false, fun v => v == 0x4B0D0001 && h.unfinished⟩], read := 0,
                     write := fun _ s => s.discardImage }
  | 0x383C => some (RegDef.ro (uncorrWord h.uncorr))
  | 0x3840 => some (RegDef.ro (packWord [(0, h.lastTime.toNat), (16, h.lastOutcome.toNat), (19, h.lastNotClean.toNat)]))
  | _ => none

/-! ## Rows -/

/-- POLKA_DONE (R150): in SAVE it proves the save rate (R244). -/
def execPolkaDone (x : Sub) (dies : List PolkaDie) (s : State) : Out :=
  .next (if !s.up then s else if s.pow.dom == .save then s.savePolka x dies else s.polkaDone x dies)
/-- NAND_PROGRAM_DONE (R245). -/
def execNandProgramDone (c : Fin 4) (l : Fin 8) (b : BitVec 16) (ok : Bool) (s : State) : Out :=
  .next (if s.up then s.nandDone ⟨c, l, b.toNat⟩ ok else s)
/-- HOARD_SAVE_COMPLETE (R245). -/
def execHoardSaveComplete (s : State) : Out := .next (if s.up then s.saveComplete else s)
/-- HOARD_AREA_FULL (R243). -/
def execHoardAreaFull (noSpace : Bool) (s : State) : Out := .next (if s.up then s.areaFull noSpace else s)
/-- HOARD_RESTORE_START (R248). -/
def execHoardRestoreStart (s : State) : Out := .next (if s.up then s.restoreStart else s)
/-- HOARD_RESTORE_UNIT (R251). -/
def execHoardRestoreUnit (x : Sub) (corrected uncorr : Nat) (s : State) : Out :=
  .next (if s.up then s.restoreUnit x corrected uncorr else s)
/-- HOARD_RESTORE_COMPLETE (R253). -/
def execHoardRestoreComplete (s : State) : Out := .next (if s.up then s.restoreComplete else s)
/-- HOARD_SPARE_ERASE_START (R243). -/
def execHoardSpareEraseStart (s : State) : Out := .next (if s.up then s.eraseStart else s)
/-- HOARD_SPARE_CLEAN (R243). -/
def execHoardSpareClean (s : State) : Out := .next (if s.up then s.eraseEnd else s)

end Sys2Proof.Machine
end

