-- ==== Sys2Proof/Machine/Warren.lean ====
section
/-! DEFINITION. The Warren (16): routes, sends, pops, SELECT, liveness and core faults, the user core, what CRST does
to it, and the WRN_ and MCH_ registers. -/

namespace Sys2Proof.Machine

/-! ## Routes (R354, R357) -/

/-- MCH_ROUTEn.EN. -/
def routeEn (r : Word) : Bool := bitAt r 31
/-- MCH_ROUTEn.SRC. -/
def routeSrc (r : Word) : Nat := fld r 3 0
/-- MCH_ROUTEn.DST. -/
def routeDst (r : Word) : Nat := fld r 7 4
/-- MCH_ROUTEn.PORT. -/
def routePort (r : Word) : Nat := fld r 10 8
/-- MCH_ROUTEn.PRIO. -/
def routePrio (r : Word) : Nat := fld r 13 12
/-- MCH_ROUTEn.BLOCK. -/
def routeBlock (r : Word) : Bool := bitAt r 14

/-- The blocking edges that still end in a core of `cs`. -/
def blockEdges (rs : List Word) (cs : List Nat) : List (Nat × Nat) :=
  (rs.filter (fun r => routeEn r && routeBlock r && cs.contains (routeDst r) && cs.contains (routeSrc r))).map
    (fun r => (routeSrc r, routeDst r))

/-- The cores that keep a blocking edge out after `k` rounds of removing those with none. -/
def pruneCores (rs : List Word) : Nat → List Nat → List Nat
  | 0, cs => cs
  | k + 1, cs => pruneCores rs k (cs.filter (fun c => (blockEdges rs cs).any (fun e => e.1 == c)))

/-- The rules of R357. -/
def routesOk (rs : List Word) : Bool :=
  let en := rs.filter routeEn
  en.all (fun r => routeSrc r < 12 && routeDst r < 12)
    && decide (en.map (fun r => (routeDst r, routePort r))).Nodup
    && (pruneCores rs 12 (List.range 12)).isEmpty
    && nth rs 60 0 == 0x800030B0 && nth rs 61 0 == 0 && nth rs 62 0 == 0x8000471B && nth rs 63 0 == 0x8000473B
    && (rs.take 60).all (fun r => !routeEn r || (routeSrc r != 11 && routeDst r != 11))
    && rs.all (fun r => routeEn r || r == 0)

/-- The enabled channel that feeds a port of a core. -/
def Wrn.feeder (w : Wrn) (core port : Nat) : Option Nat :=
  (List.range 64).find? (fun n => let r := nth w.routes n 0
    routeEn r && routeDst r == core && routePort r == port)

/-! ## Cores and channels -/

/-- A core. -/
def Wrn.core (w : Wrn) (n : Nat) : Core := nth w.cores n Core.fresh
/-- Changes a core. -/
def Wrn.setCore (w : Wrn) (n : Nat) (f : Core → Core) : Wrn := { w with cores := upd w.cores n f }
/-- A channel. -/
def Wrn.chan (w : Wrn) (n : Nat) : Chan := nth w.chans n Chan.fresh
/-- Changes a channel. -/
def Wrn.setChan (w : Wrn) (n : Nat) (f : Chan → Chan) : Wrn := { w with chans := upd w.chans n f }
/-- Changes the Warren. -/
def State.setWrn (s : State) (f : Wrn → Wrn) : State := { s with wrn := f s.wrn }

/-- A core runs: it has been started and has not stopped. -/
def Core.live (c : Core) : Bool := c.st == .running || c.st == .select || c.st == .sendStall || c.st == .zlbStall

/-- A tuple enters a channel (R359). -/
def Chan.push (c : Chan) (ws : List Word) : Chan :=
  let q := c.q ++ [ws]
  { c with q := q, count := satAdd c.count 1, high := BitVec.ofNat 5 (max c.high.toNat q.length) }

/-- The wait that a core is in ends otherwise than by a row that gives its cycles: `v` of them join the counters of the
stall (R359) or of the SELECT (R361). -/
def Wrn.waitCut (w : Wrn) (core v : Nat) : Wrn :=
  let c := w.core core
  match c.st, c.stall with
  | .sendStall, some x => (w.setChan x.1 (fun c => { c with stall := satAdd c.stall v })).setCore core
      (fun c => { c with sstall := satAdd c.sstall v })
  | .select, _ => w.setCore core (fun c => { c with swait := satAdd c.swait v })
  | _, _ => w

/-- A core fault (R365): the core stops, its stall ends without enqueuing, WRN_FAULT records it; for W1 to W10 the
watchdog is forced to expire, for W11 EV62 is raised. The cycles of a wait that it ends are free (log entry 8). -/
def State.coreFault (s : State) (core : Nat) (kind : Nat) (pc : BitVec 15) : State :=
  if !(s.wrn.core core).live then s else
  let w := (s.wrn.waitCut core (s.freeVal 32).toNat).setCore core (fun c => { c with st := .stopped, stall := none })
  let w := { w with fault := packWord [(0, core), (4, kind), (7, 1), (8, pc.toNat)],
                    wdogForced := w.wdogForced || (core != 0 && core != 11) }
  let s := State.took { s with wrn := w }
  if core = 11 then s.raise 62 0 else s

/-- A fault of the running instruction, whose address the command does not give (log entry 8). -/
def State.misuse (s : State) (core kind : Nat) : State := (s.coreFault core kind (s.freeVal 15)).took

/-- A write of SEND_GO (R359). -/
def State.wrnSend (s : State) (core ch : Nat) (ws : List Word) (try_ : Bool) : State :=
  let r := nth s.wrn.routes ch 0
  if (s.wrn.core core).st != .running then s else
  let s := s.setWrn (fun w => w.setCore core (fun c => { c with sendW := (ws ++ c.sendW.drop ws.length).take 4 }))
  if !routeEn r || routeSrc r != core || (!try_ && !routeBlock r) then s.misuse core 3
  else if (s.wrn.chan ch).q.length < 16 then
    let s := s.setWrn (fun w => w.setChan ch (fun c => c.push ws))
    if try_ then s.setWrn (fun w => w.setCore core (fun c => { c with sendOk := true })) else s
  else if try_ then
    s.setWrn (fun w => (w.setChan ch (fun c => { c with tryfail := satAdd c.tryfail 1 })).setCore core
      (fun c => { c with sendOk := false }))
  else s.setWrn (fun w => w.setCore core (fun c => { c with st := .sendStall, stall := some (ch, ws) }))

/-- A stalled tuple enters its channel and the core runs on. -/
def Wrn.unstall (w : Wrn) (core ch : Nat) (ws : List Word) (cycles : Nat) : Wrn :=
  (w.setChan ch (fun c => { c.push ws with stall := satAdd c.stall cycles })).setCore core
    (fun c => { c with st := .running, stall := none, sstall := satAdd c.sstall cycles })

/-- A blocked send finds room (R359, R362). -/
def State.stallEnd (s : State) (core cycles : Nat) : State :=
  match (s.wrn.core core).stall with
  | some (ch, ws) => if (s.wrn.chan ch).q.length < 16 then s.setWrn (fun w => w.unstall core ch ws cycles) else s
  | none => s

/-- The text of a tuple on MC62 (R367): up to a zero byte, unprintable characters as `?`. -/
def userText (ws : List Word) : Text :=
  ((ws.flatMap (fun w => leBytes 4 w.toNat)).takeWhile (· != 0)).map
    (fun b => if 32 ≤ b.toNat && b.toNat ≤ 126 then charOf b else '?')

/-- What the firmware of W1 and W3 does with a tuple of the user core (R367). -/
def State.userTuple (s : State) (ch : Nat) (ws : List Word) : State :=
  if ch = 62 then s.asyncLine (tx "!user " ++ userText ws)
  else if ch = 63 then s.raise 63 ((nth ws 0 0 &&& 0xFFFF).setWidth 24)
  else s

/-- A write of POP (R360). -/
def State.wrnPop (s : State) (core port : Nat) : State :=
  if (s.wrn.core core).st != .running then s else
  match s.wrn.feeder core port with
  | none => s.misuse core 4
  | some ch =>
    match (s.wrn.chan ch).q with
    | [] => s.misuse core 4
    | ws :: q => (s.setWrn (fun w => w.setChan ch (fun c => { c with q := q }))).userTuple ch ws

/-- A write of SELECT (R361). -/
def State.wrnSelect (s : State) (core : Nat) (mask : BitVec 8) (round : Bool) (tmo : BitVec 24) : State :=
  if (s.wrn.core core).st != .running then s
  else if mask = 0 && tmo = 0 then
    (s.setWrn (fun w => w.setCore core (fun c => { c with selTmo := tmo }))).misuse core 5
  else s.setWrn (fun w => w.setCore core
    (fun c => { c with st := .select, selMask := mask, selRound := round, selTmo := tmo }))

/-- A port of a core holds a tuple. -/
def Wrn.portFull (w : Wrn) (core port : Nat) : Bool :=
  match w.feeder core port with
  | some ch => !(w.chan ch).q.isEmpty
  | none => false

/-- The priority of a port: that of its channel. -/
def Wrn.portPrio (w : Wrn) (core port : Nat) : Nat :=
  match w.feeder core port with
  | some ch => routePrio (nth w.routes ch 0)
  | none => 0

/-- The port that a SELECT returns (R361). -/
def Wrn.choose (w : Wrn) (core : Nat) : Option Nat :=
  let c := w.core core
  let ready := fun (p : Nat) => c.selMask.getLsbD p && w.portFull core p
  if c.selRound then ((List.range 8).map (fun k => (c.rp.toNat + k) % 8)).find? ready
  else ((List.range 8).filter ready).foldl (fun b p => match b with
    | none => some p
    | some q => if w.portPrio core q < w.portPrio core p then some p else some q) none

/-- A SELECT wait ends (R361, R362): a tuple at a masked port wins over the timeout. -/
def State.selectEnd (s : State) (core : Nat) (timedOut : Bool) (cycles : Nat) : State :=
  let c := s.wrn.core core
  if c.st != .select then s else
  let fin := fun (r : BitVec 4) (rp : BitVec 3) => s.setWrn (fun w => w.setCore core (fun c =>
    { c with st := .running, selResult := r, rp := rp, swait := satAdd c.swait cycles }))
  match s.wrn.choose core with
  | some p => fin (BitVec.ofNat 4 p) (if c.selRound then BitVec.ofNat 3 (p + 1) else c.rp)
  | none => if timedOut && c.selTmo != 0 then fin 0xF c.rp else s

/-! ## Liveness (R364, R368) -/

/-- A core writes HEARTBEAT. -/
def State.beat (s : State) (core : Nat) : State :=
  if (s.wrn.core core).st != .running then s else
  s.setWrn (fun w => { w with alive := w.alive ||| BitVec.ofNat 12 (2 ^ core) })

/-- W0 services the watchdog, once every running core of W0 to W10 has been heard. -/
def State.wdogService (s : State) : State :=
  if s.wrn.wdogForced || !(s.wrn.core 0).live
      || !(List.range 11).all (fun n => !(s.wrn.core n).live || s.wrn.alive.getLsbD n) then s
  else s.setWrn (fun w => { w with alive := 0 })

/-- W11 may run (R366). -/
def State.userOn (s : State) : Bool := s.fnActive .userCore && s.wrn.coreMask.getLsbD 11

/-- W11 starts (R366). -/
def State.userStart (s : State) : State :=
  if s.userOn && (s.wrn.core 11).st == .held then
    s.setWrn (fun w => w.setCore 11 (fun c => { c with st := .running }))
  else s

/-! ## Resets (R369) -/

/-- Channels are flushed; a sender stalled into one has its tuple enqueued and runs on. The cycles of its stall are free
values from number `k` on (log entry 8). -/
def Wrn.flush (w : Wrn) (k : Nat) (which : Nat → Bool) : Wrn :=
  let w := { w with chans := w.chans.zipIdx.map (fun c => if which c.2 then { c.1 with q := [] } else c.1) }
  (List.range 12).foldl (fun w n => match (w.core n).stall with
    | some (ch, ws) => if which ch then w.unstall n ch ws (Config.freeValue 32 (k + n) : Word).toNat else w
    | none => w) w

/-- A core is cleared; its counters and IMEM stay. -/
def Core.cleared (c : Core) (st : CoreRun) : Core :=
  { Core.fresh with st := st, sstall := c.sstall, swait := c.swait, imem := c.imem }

/-- A core is cleared and starts in a state, the wait it was in cut. -/
def Wrn.restart (w : Wrn) (k core : Nat) (st : CoreRun) : Wrn :=
  (w.waitCut core (Config.freeValue 32 (k + core) : Word).toNat).setCore core (fun c => c.cleared st)

/-- CLK_CRST.CON: channels into W1 flushed, W1 cleared and restarted. -/
def Wrn.crstCon (w : Wrn) (k : Nat) : Wrn :=
  (w.flush k (fun n => let r := nth w.routes n 0
    routeEn r && routeDst r == 1)).restart (k + 12) 1 .running

/-- CLK_CRST.USER: MC60 to MC63 flushed, W11 cleared and restarted. -/
def State.crstUser (s : State) : State :=
  { s with wrn := (s.wrn.flush s.free (fun n => 60 ≤ n)).restart (s.free + 12) 11 (if s.userOn then .running else .held),
           free := s.free + 24 }

/-! ## The channel interface (R352) -/

/-- The channel that feeds a port, and the tuples at the port. -/
def Wrn.portQueue (w : Wrn) (core port : Nat) : List (List Word) :=
  match w.feeder core port with
  | some ch => (w.chan ch).q
  | none => []

/-- QPk_STAT. -/
def Wrn.portStat (w : Wrn) (core port : Nat) : Word :=
  let q := w.portQueue core port
  packWord [(0, (!q.isEmpty).toNat), (1, (nth q 0 []).length - 1), (3, q.length), (8, (w.feeder core port).getD 0),
    (14, (w.feeder core port).isSome.toNat)]

/-- What a core reads at an offset of its channel interface; none where nothing is to be read. -/
def Wrn.chanRead (w : Wrn) (core off : Nat) : Option Word :=
  let c := w.core core
  if off % 4 != 0 then none
  else if off < 0x80 then some (nth (nth (w.portQueue core (off / 16)) 0 []) (off % 16 / 4) 0)
  else if off < 0xA0 then some (w.portStat core ((off - 0x80) / 4))
  else match off with
    | 0x0D4 => some (BitVec.ofNat 32 c.sendOk.toNat)
    | 0x0E4 => some (c.selTmo.setWidth 32)
    | 0x0E8 => some (c.selResult.setWidth 32)
    | 0x0F4 => some (BitVec.ofNat 32 core)
    | 0x0F8 => some w.cycle
    | _ => none

/-! ## Registers (R371) -/

/-- Codes of a core's state (WRN_CORE). -/
def coreCode : CoreRun → Nat
  | .off => 0 | .running => 1 | .select => 2 | .sendStall => 3 | .zlbStall => 4 | .stopped => 5 | .held => 6

/-- WRN_STATUS. -/
def Wrn.status (w : Wrn) : Word :=
  packWord [(0, maskOf (w.cores.map Core.live)), (12, maskOf (w.cores.map (·.st == .stopped))),
    (24, ((w.core 11).st == .held).toNat)]

/-- WRN_CORE of a core. -/
def coreWord (c : Core) : Word :=
  packWord [(0, coreCode c.st), (8, match c.stall with
    | some x => x.1
    | none => 0), (16, c.rp.toNat)]

/-- A map of the channels for which `f` holds, from channel `lo` on. -/
def Wrn.chanMap (w : Wrn) (lo : Nat) (f : Chan → Bool) : Word := BitVec.ofNat 32 (maskOf (((w.chans.drop lo).take 32).map f))

/-- A write of MCH_ROUTEn keeps rules 1 and 2 of R357. -/
def Wrn.routeOk (w : Wrn) (n v : Nat) : Bool :=
  let r : Word := BitVec.ofNat 32 v
  !routeEn r || (routeSrc r < 12 && routeDst r < 12 && !w.routes.zipIdx.any (fun e => e.2 != n && routeEn e.1
    && routeDst e.1 == routeDst r && routePort e.1 == routePort r))

/-- A counter register of 32 bits. -/
def counterReg (r : Word) (f : State → State) : RegDef :=
  { flds := [Fld.rng 31 0 (· == 0)], read := r, write := fun _ s => f s }

/-- The WRN_ and MCH_ registers as path `p` finds them. -/
def wrnReg (p : Path) (a : Nat) (s : State) : Option RegDef :=
  let w := s.wrn
  let n := (s.sel p).wrnCore.toNat
  let k := (s.sel p).mch.toNat
  let c := w.chan k
  if 0x3040 ≤ a && a < 0x3060 && a % 4 = 0 then
    let i := (a - 0x3040) / 4
    if !s.regOn .userCore then none else
    some { flds := [Fld.any .rw 31 0], read := nth w.scratch i 0,
           write := fun v s => s.setWrn (fun w => { w with scratch := upd w.scratch i (fun _ => v) }) }
  else if 0x3100 ≤ a && a < 0x3200 && a % 4 = 0 then
    let i := (a - 0x3100) / 4
    some { flds := [Fld.any .rwl 10 0, Fld.any .rwl 14 12, Fld.any .rwl 31 31], read := nth w.routes i 0,
           locked := w.locked, whole := w.routeOk i,
           write := fun v s => s.setWrn (fun w => { w with routes := upd w.routes i (fun _ => v) }) }
  else match a with
  | 0x3000 => some { flds := [Fld.any .rwl 0 0], read := BitVec.ofNat 32 w.locked.toNat, locked := w.locked,
                     write := fun v s => s.setWrn (fun w => { w with locked := bitAt v 0 }) }
  | 0x3004 => some (RegDef.ro w.status)
  | 0x3008 => some (RegDef.ro (w.alive.setWidth 32))
  | 0x300C => some { flds := [Fld.ro 3 0, Fld.ro 6 4, Fld.any .w1c 7 7, Fld.ro 22 8], read := w.fault,
                     write := fun v s => if bitAt v 7 then s.setWrn (fun w => { w with fault := 0 }) else s }
  | 0x3010 => some { flds := [Fld.rng 3 0 (· ≤ 11)], read := (s.sel p).wrnCore.setWidth 32,
                     write := fun v s => s.setSel p (fun x => { x with wrnCore := v.setWidth 4 }) }
  | 0x3014 => some (RegDef.ro (coreWord (w.core n)))
  | 0x3018 => some (counterReg (w.core n).sstall
                (fun s => s.setWrn (fun w => w.setCore n (fun c => { c with sstall := 0 }))))
  | 0x301C => some (counterReg (w.core n).swait
                (fun s => s.setWrn (fun w => w.setCore n (fun c => { c with swait := 0 }))))
  | 0x3020 => some (RegDef.ro (packWord [(0, w.version.toNat), (16, w.coreMask.toNat)]))
  | 0x3024 => some (RegDef.ro w.routeCrc)
  | 0x3080 => some { flds := [Fld.any .rw 5 0], read := (s.sel p).mch.setWidth 32,
                     write := fun v s => s.setSel p (fun x => { x with mch := v.setWidth 6 }) }
  | 0x3084 => some (counterReg c.count (fun s => s.setWrn (fun w => w.setChan k (fun c => { c with count := 0 }))))
  | 0x3088 => some (counterReg c.stall (fun s => s.setWrn (fun w => w.setChan k (fun c => { c with stall := 0 }))))
  | 0x308C => some { flds := [Fld.ro 4 0, Fld.rng 12 8 (· == 0), Fld.rng 31 16 (· == 0)], whole := (· == 0),
                     read := packWord [(0, c.q.length), (8, c.high.toNat), (16, c.tryfail.toNat)],
                     write := fun _ s => s.setWrn (fun w => w.setChan k (fun c => { c with high := 0, tryfail := 0 })) }
  | 0x3090 => some (RegDef.ro (w.chanMap 0 (fun c => !c.q.isEmpty)))
  | 0x3094 => some (RegDef.ro (w.chanMap 32 (fun c => !c.q.isEmpty)))
  | 0x3098 => some (RegDef.ro (w.chanMap 0 (fun c => c.q.length == 16)))
  | 0x309C => some (RegDef.ro (w.chanMap 32 (fun c => c.q.length == 16)))
  | _ => none

/-! ## Rows -/

/-- WARREN_SEND (R359). -/
def execWarrenSend (core : Fin 12) (ch : Fin 64) (ws : List Word) (try_ : Bool) (s : State) : Out :=
  .next (if s.up then s.wrnSend core ch ws try_ else s)
/-- SEND_STALL_END (R359). -/
def execSendStallEnd (core : Fin 12) (cycles : Nat) (s : State) : Out := .next (if s.up then s.stallEnd core cycles else s)
/-- WARREN_POP (R360). -/
def execWarrenPop (core : Fin 12) (port : Fin 8) (s : State) : Out := .next (if s.up then s.wrnPop core port else s)
/-- SELECT (R361). -/
def execSelect (core : Fin 12) (mask : BitVec 8) (round : Bool) (tmo : BitVec 24) (s : State) : Out :=
  .next (if s.up then s.wrnSelect core mask round tmo else s)
/-- SELECT_RETURN (R361). -/
def execSelectReturn (core : Fin 12) (timedOut : Bool) (cycles : Nat) (s : State) : Out :=
  .next (if s.up then s.selectEnd core timedOut cycles else s)
/-- HEARTBEAT (R364). -/
def execHeartbeat (core : Fin 12) (s : State) : Out := .next (if s.up then s.beat core else s)
/-- WATCHDOG_SERVICE (R75). -/
def execWatchdogService (s : State) : Out := .next (if s.up then s.wdogService else s)
/-- CORE_FAULT (R365). -/
def execCoreFault (core : Fin 12) (kind : BitVec 3) (pc : BitVec 15) (s : State) : Out :=
  .next (if s.up then s.coreFault core kind.toNat pc else s)
/-- USER_HEARTBEAT_MISS (R368). -/
def execUserHeartbeatMiss (s : State) : Out := .next (if s.up then s.misuse 11 6 else s)
/-- USER_CORE_START (R366). -/
def execUserCoreStart (s : State) : Out := .next (if s.up then s.userStart else s)

end Sys2Proof.Machine
end

