-- ==== Sys2Proof/Machine/ZlbOps.lean ====
section
/-! DEFINITION. The local bus (05): what a frame's bits say, frames as a target receives them, its response queue, and
the requests of the ZX8-R, outstanding or waiting. -/

namespace Sys2Proof.Machine

/-! ## Frames (R124, R125, R127) -/

/-- The CRC-8 of a frame: header bits [31:8] and the data (R124, R127). -/
def frameCrc (header data : Word) : Byte :=
  crc8 0x07 0 ((leBytes 4 header.toNat).reverse.take 3 ++ (leBytes 4 data.toNat).reverse)

/-- A header with its CRC over itself and the data: code in [31:28], TAG, ADDR. -/
def frameHeader (code : Nat) (tag : BitVec 5) (word : BitVec 15) (data : Word) : Word :=
  let h := packWord [(8, word.toNat), (23, tag.toNat), (28, code)]
  packWord [(0, (frameCrc h data).toNat), (8, word.toNat), (23, tag.toNat), (28, code)]

/-- A header carries a defined OP: 1 to 4, with or without RETRY. -/
def opDefined (header : Word) : Bool := 1 ≤ fld header 30 28 && fld header 30 28 ≤ 4

/-- The RETRY bit of a request header. -/
def hdrRetry (header : Word) : Bool := bitAt header 31
/-- The TAG of a request header. -/
def hdrTag (header : Word) : BitVec 5 := BitVec.ofNat 5 (fld header 27 23)
/-- The ADDR of a request header. -/
def hdrWord (header : Word) : BitVec 15 := BitVec.ofNat 15 (fld header 22 8)

/-- A response as its header and data (R125): STATUS 1 DONE. -/
def ZResp.bits (r : ZResp) : Word × Word := (frameHeader 1 r.tag r.word r.data, r.data)

/-- What a target drives on MISO in a frame (R125): the response at the head of its queue, or EMPTY. -/
def zDrive (z : ZTarget) : ZTarget :=
  { z with driven := match z.queue with
      | [] => (0, 0)
      | r :: _ => r.bits }

/-! ## The target's side (R125 to R129) -/

/-- Local register of target `t` at byte offset `o`. -/
def tgtReg (t o : Nat) (s : State) : Option RegDef := if t < 10 then dbReg t o s else zxpLocal o s

/-- A response joins the queue of a target (R128). -/
def State.tgtQueue (s : State) (t : Nat) (r : ZResp) : State := s.setTgt t (fun z => { z with queue := z.queue ++ [r] })

/-- A target executes a request (R128): R5 to R7 judge the local access. -/
def State.tgtDo (s : State) (t : Nat) (tag : BitVec 5) (write : Bool) (word : BitVec 15) (data : Word) : State :=
  let d := tgtReg t (4 * word.toNat) s
  let v : Word := match d with
    | some d => if write then 0 else d.read
    | none => 0
  let s := match d with
    | some d => if !write then d.onRead s else if d.allows data then d.write (d.merge data) s else s
    | none => s
  (s.remember t tag word (if write then data else 0) v).tgtQueue t ⟨tag, word, v⟩

/-- A target answers discovery (R132): it is on the bus, and a ZX8-D returns the position of its select index. -/
def State.found (s : State) (t : Nat) : Bool := (s.tgt t).alive && (10 ≤ t || (s.db t).pos.toNat == t)

/-- Frames reach a target: the bus runs, the target answers, and it is not marked unreachable (R131). -/
def State.tgtOn (s : State) (t : Nat) : Bool := s.pd2 && (s.tgt t).alive && !s.unreach t

/-- A target takes a request frame: frames reach it and its queue has room. A request that finds four responses queued is
dropped without trace (log entry 81, DESIGN CHOICE: the ZX8-R's own credit never sends one). -/
def State.tgtTakes (s : State) (t : Nat) : Bool := s.tgtOn t && (s.tgt t).queue.length < 4

/-- A frame reaches a target: it drives its head response, and does `f`. -/
def State.zlbFrame (s : State) (t : Nat) (f : ZTarget → ZTarget) : State :=
  if s.tgtOn t then s.setTgt t (fun z => f (zDrive z)) else s

/-- A target takes a valid FETCH (R125): the head response leaves and is kept as the last response. -/
def zFetch (z : ZTarget) : ZTarget :=
  match z.queue with
  | [] => z
  | r :: q => { z with queue := q, last := some r }

/-- A target takes a valid REFETCH (R125): the last response is the head again. -/
def zRefetch (z : ZTarget) : ZTarget :=
  match z.last with
  | none => z
  | some r => { z with queue := r :: z.queue, last := none }

/-- A request frame reaches a target. -/
def State.zlbAsk (s : State) (t : Nat) (tag : BitVec 5) (write : Bool) (word : BitVec 15) (data : Word) : State :=
  let s := s.zlbFrame t id
  if s.tgtTakes t then s.tgtDo t tag write word data else s

/-- A RETRY frame (R129): the remembered response again where address and data match the tag's record, otherwise a
new request. -/
def State.zlbAgain (s : State) (t : Nat) (write : Bool) (tag : BitVec 5) (word : BitVec 15) (data : Word) : State :=
  let s := s.zlbFrame t id
  if !s.tgtTakes t then s else
  let data := if write then data else 0
  match (s.tgt t).memo.find? (fun e => e.1 == tag.toNat) with
  | some e => if e.2.word = word && e.2.data = data then s.tgtQueue t e.2.resp else s.tgtDo t tag write word data
  | none => s.tgtDo t tag write word data

/-- What a target counts for a frame it discards (R126): EDGE for another edge count, otherwise CRC. -/
def zDiscard (edges : Nat) (z : ZTarget) : ZTarget :=
  if edges != 64 then { z with errEdge := satAdd z.errEdge 1 } else { z with errCrc := satAdd z.errCrc 1 }

/-- A target executes a frame of 64 edges whose CRC matches and whose OP is defined (R126). -/
def frameGood (edges : Nat) (header data : Word) : Bool :=
  edges == 64 && opDefined header && frameCrc header data == header.setWidth 8

/-- 64 bits, or another number of edges, arrive at a target (R124 to R126, R129): its header says what it executes. -/
def State.zlbBits (s : State) (t : Nat) (edges : Nat) (header data : Word) : State :=
  if !frameGood edges header data then s.zlbFrame t (zDiscard edges) else
  let tag := hdrTag header
  let word := hdrWord header
  match fld header 30 28 with
  | 1 => if hdrRetry header then s.zlbAgain t true tag word data else s.zlbAsk t tag true word data
  | 2 => if hdrRetry header then s.zlbAgain t false tag word 0 else s.zlbAsk t tag false word 0
  | 3 => s.zlbFrame t zFetch
  | _ => s.zlbFrame t zRefetch

/-! ## The ZX8-R's side (R130, R131) -/

/-- Requests outstanding at a target (R130). -/
def State.tgtOut (s : State) (t : Nat) : Nat := (s.zlb.out.filter (fun q => q.tgt == t)).length

/-- A request can be sent: its tag is free and its target below four outstanding (R130). -/
def State.zlbCredit (s : State) (t : Nat) (tag : BitVec 5) : Bool :=
  !s.zlb.out.any (fun q => q.tag == tag) && s.tgtOut t < 4

/-- The core whose request of a target it is: W4 and W5 keep the buffers of A and B, W8 the ZX8-P (log entry 89, DEDUCED
from 16 'Warren cores'). -/
def zlbCore (t : Nat) : Nat := if t < 5 then 4 else if t < 10 then 5 else 8

/-- A request is sent: outstanding, and a frame on the bus. -/
def State.zlbSend (s : State) (q : ZReq) : State :=
  let s := State.zlbLevel { s with zlb := { s.zlb with out := s.zlb.out ++ [q] } } 0
  s.zlbAsk q.tgt q.tag q.write q.word q.data

/-- A request that finds no tag or no credit waits, and a Warren request stalls its core (R130). -/
def State.zlbWait (s : State) (q : ZReq) : State :=
  let s := { s with zlb := { s.zlb with waiting := s.zlb.waiting ++ [q] } }
  if 29 ≤ q.tag.toNat then s else
  s.setWrn (fun w => w.setCore (zlbCore q.tgt) (fun c => if c.st == .running then { c with st := .zlbStall } else c))

/-- The wait of a request ends: its core runs on, and the cycles it waited, which no row gives, join CYCLES
(log entry 8). -/
def State.zlbUnstall (s : State) (q : ZReq) : State :=
  if 29 ≤ q.tag.toNat then s else
  (State.setWrn { s with zlb := { s.zlb with stall := satAdd s.zlb.stall (s.freeVal 32).toNat } } (fun w =>
    w.setCore (zlbCore q.tgt) (fun c => if c.st == .zlbStall then { c with st := .running } else c))).took

/-- A waiting request is sent if it can be; at a target marked unreachable it completes at once (R131). -/
def State.zlbPumpOne (s : State) (q : ZReq) : State :=
  if s.unreach q.tgt then s.zlbUnstall q
  else if s.zlbCredit q.tgt q.tag then (s.zlbUnstall q).zlbSend q
  else { s with zlb := { s.zlb with waiting := s.zlb.waiting ++ [q] } }

/-- Waiting requests are sent as tags and credit come free, oldest first (R130). -/
def State.zlbPump (s : State) : State :=
  s.zlb.waiting.foldl State.zlbPumpOne { s with zlb := { s.zlb with waiting := [] } }

/-- A new request (R124, R128, R130); at a target marked unreachable it completes at once (R131). -/
def State.zlbRequest (s : State) (t : Nat) (tag : BitVec 5) (write : Bool) (word : BitVec 15) (data : Word) : State :=
  let q : ZReq := ⟨t, tag, write, word, data, 0⟩
  if !s.pd2 || s.unreach t then s
  else if s.zlbCredit t tag then s.zlbSend q else s.zlbWait q

/-- A request leaves the table of those outstanding. -/
def State.zlbDrop (s : State) (t : Nat) (tag : BitVec 5) : State :=
  { s with zlb := { s.zlb with out := s.zlb.out.filter (fun q => !(q.tgt == t && q.tag == tag)) } }

/-- A request with its tag's DONE received is complete (R131), and the next that waits goes out. -/
def State.zlbDone (s : State) (t : Nat) (tag : BitVec 5) : State := (s.zlbDrop t tag).zlbPump

/-- An attempt fails (R131): it is counted and the request resent with RETRY; the fourth failure ends the access. -/
def State.zlbTimeout (s : State) (t : Nat) (tag : BitVec 5) : State :=
  match s.zlb.out.find? (fun q => q.tgt == t && q.tag == tag) with
  | none => s
  | some q =>
    if 3 ≤ q.attempt then ((s.zlbDrop t tag).lastFail t).zlbPump
    else
      let next := fun (r : ZReq) => if r.tgt == t && r.tag == tag then { r with attempt := r.attempt + 1 } else r
      let s := State.attemptFail { s with zlb := { s.zlb with out := s.zlb.out.map next } } t
      s.zlbAgain t q.write tag q.word q.data

/-- CLK_CRST.ZLB (R130): every outstanding tag completes as failed and every target's outstanding count is 0, so the
requests that wait are sent. -/
def State.crstZlb (s : State) : State := State.zlbPump { s with zlb := { s.zlb with out := [] } }

end Sys2Proof.Machine
end

