-- ==== Sys2Proof/Machine/Clk.lean ====
section
/-! DEFINITION. Clocks, resets and the keep-alive island as registers (03, 09): MRST requests, the unit resets of
CLK_CRST, the console's own registers, and the CLK_, PWR_ and CON_ registers. -/

namespace Sys2Proof.Machine

/-! ## MRST (R73) -/

/-- An MRST waits, its cause recorded: ignored in CURL and COMMIT_HOLD, merged with one that still waits. A commit in
flight may take the reserved buffer (R375). -/
def State.mrstPend (s : State) (cause : BitVec 8) : State :=
  if s.pow.dom == .curl || s.pow.dom == .commitHold then s else
  { s with clk := { s.clk with mrstWait := true, cause := s.clk.cause ||| cause },
           pool := if s.nvs.commit.isSome then s.pool.reserve else s.pool }

/-- A request for MRST by a path. -/
def State.mrstRequest (s : State) (p : Path) : State :=
  if s.pow.dom == .curl || s.pow.dom == .commitHold then s else
  { s.mrstPend 4 with clk := { (s.mrstPend 4).clk with mrstPath := pathCode p } }

/-! ## CLK_CRST (R77) -/

/-- CLK_CRST.CON (R311, R369): every session is reset, no command is in hand, W1 restarts. -/
def State.crstCon (s : State) : State :=
  let s := ((s.resetSes .uart).resetSes .host).resetSes .loc
  State.promptAll { s with con := { s.con with queue := [], exec := none }, pool := { s.pool with con := 0 },
                           wrn := s.wrn.crstCon s.free, free := s.free + 24 }

/-- CLK_CRST.HRD. -/
def State.crstHrd (s : State) : State := s.hoardHalt.restoreEnd

/-- The transfers in flight at a ZLB target are gone. -/
def State.tgtReset (s : State) (t : Nat) : State :=
  let s := s.setTgt t (fun z => { z with queue := [], last := none, memo := [] })
  State.zlbPump { s with zlb := { s.zlb with out := s.zlb.out.filter (fun q => q.tgt != t) } }

/-- A target answers discovery again (R131): its mark goes, EV14. -/
def State.recover (s : State) (t : Nat) : State :=
  let was := s.unreach t
  let s := { s with zlb := { s.zlb with unreach := s.zlb.unreach &&& ~~~(BitVec.ofNat 11 (2 ^ t)),
                                        present := s.zlb.present ||| BitVec.ofNat 11 (2 ^ t),
                                        peer := if t = 10 then 0x20A3A else s.zlb.peer } }
  if was then s.raise 14 (BitVec.ofNat 24 t) else s

/-- Rediscovery by CRST (R131, R132): offset 0x000 is read with retries. A buffer that does not answer, or a ZX8-P that
answered before, stays or is marked; a ZX8-P that never answered is absent (R21) and counts nothing. -/
def State.rediscover (s : State) (t : Nat) : State :=
  if s.found t then s.recover t
  else if t = 10 && !s.zlb.present.getLsbD 10 && !s.unreach 10 then s
  else s.noAnswer t

/-- CLK_CRST.DB and CLK_CRST.ZXP: the management state of a unit, and its rediscovery. Calibrations on it are
abandoned (R172); data path, taps and power functions are untouched. The table of R72 keeps the taps "except a DB unit
reset", the CLK_CRST table leaves them untouched: the model follows the latter (log entry 78, DESIGN CHOICE). -/
def State.crstUnit (s : State) (t : Nat) : State :=
  let s := ((s.calAbandon (t + 1)).tgtReset t)
  let s := if t < 10 then s.setDb t (fun d => { d with streaming := false, window := none, stagePend := false,
                                                       stageArmed := false }) else s
  let s := if t < 10 then { s with trim := { s.trim with placed := upd s.trim.placed (t + 2) (fun _ => none) } } else s
  s.rediscover t

/-- CLK_CRST names only units that are present and may be reset now (R77). -/
def State.crstOk (s : State) (v : Nat) : Bool :=
  (!v.testBit 6 || (s.regOn .hoard && s.hrdFree))
    && (!v.testBit 7 || (s.locked && s.feat.active.getLsbD 13))
    && (v / 256 % 1024 == 0 || s.buffers)
    && (!v.testBit 18 || s.modl.zxpFitted)

/-- One bit of CLK_CRST. -/
def State.crstBit (s : State) (i : Nat) : State :=
  match i with
  | 0 => s.crstCon
  | 1 => s.crstPort .host
  | 2 => s.crstPort .loc
  | 3 => s.evtFlush
  | 4 => s.smeReset
  | 5 => s.crstZlb
  | 6 => s.crstHrd
  | 7 => s.crstUser
  | i => s.crstUnit (i - 8)

/-- A write of CLK_CRST. One that names no unit resets nothing and sets no bit (log entry 76, DESIGN CHOICE). -/
def State.crst (s : State) (v : Word) : State :=
  if v = 0 then s else
  let s := { s with clk := { s.clk with cause := s.clk.cause ||| 64 } }
  (onesOf 19 v.toNat).foldl State.crstBit s

/-! ## The lifetime counter and wall time (R62) -/

/-- A read of CLK_LIFE_LO latches the high bits for its path. -/
def State.latchLife (s : State) (p : Path) : State :=
  s.setSel p (fun x => { x with lifeHi := (s.clk.life >>> 32).setWidth 8 })

/-- A write of CLK_WALL_HI commits the offset with the staged low word. The stage is one for all paths, keeps the word
last written (0 after a PD2 restart or MRST), and CLK_WALL_LO reads the committed offset (log entry 75, DESIGN
CHOICE). -/
def State.wallWrite (s : State) (v : Word) : State :=
  let w : BitVec 48 := (v.setWidth 16 : BitVec 16) ++ s.clk.wallStage
  let moved := w != s.clk.wall || bitAt v 31 != s.clk.wallSet
  let s := { s with clk := { s.clk with wall := w, wallSet := bitAt v 31 } }
  if moved then s.pendRegion 3 else s

/-! ## The island as registers -/

/-- CLK_STATUS. -/
def Clk.status (c : Clk) : Word :=
  packWord [(0, c.rootOk.toNat), (1, c.onBackup.toNat), (2, c.mpllLock.toNat), (3, c.hckOk.toNat), (4, c.zlbKeep.toNat)]

/-- CLK_RST_CAUSE. -/
def Clk.causeWord (c : Clk) : Word := packWord [(0, c.cause.toNat), (8, c.mrstPath.toNat)]

/-- Codes of a domain state (R67). -/
def domCode : Dom → Nat
  | .off => 0 | .keepOnly => 1 | .boot => 2 | .run => 3 | .curl => 4 | .commitHold => 5 | .dormouse => 6
  | .attended => 7 | .save => 8 | .wake => 9 | .restore => 10

/-- Codes of a keep state (R207). -/
def keepCode : Keep → Nat
  | .normal => 0 | .curl => 1 | .commitHold => 2 | .hold => 3 | .save => 4 | .wake => 5 | .empty => 6

/-- PWR_DOMAIN. -/
def State.pwrDomain (s : State) : Word := packWord [(0, s.pow.on.toNat), (8, domCode s.pow.dom)]

/-- HOLD_MS (R226): the time to the discard. -/
def State.holdMs (s : State) : Nat :=
  if s.pow.keep != .wake || !s.pow.image || s.host.resume.isSome then 0 else s.feat.limitMs - s.feat.elapsed

/-- PWR_KEEP. -/
def State.pwrKeep (s : State) : Word :=
  packWord [(0, keepCode s.pow.keep), (3, s.pow.image.toNat), (4, s.hoardCopy.toNat), (5, s.zxp.plant.toNat),
    (6, s.pow.lastEnd.toNat), (16, s.holdMs)]

/-- PWR_CURL. -/
def CurlRec.word (c : CurlRec) : Word :=
  packWord [(0, c.sr.toNat), (8, c.reg.toNat), (16, c.off.toNat), (24, c.commit.toNat), (25, c.hckLost.toNat),
    (26, c.noBank.toNat)]

/-- The NVS energy gate (R217). -/
def State.energyGate (s : State) : Bool := !s.modl.zxpFitted || s.zxp.bankArm

/-- PWR_ENERGY. -/
def State.pwrEnergy (s : State) : Word :=
  packWord [(0, min 65535 s.pow.energyJ), (16, s.pow.reserveHit.toNat), (17, s.energyGate.toNat), (18, s.pow.cSrc.toNat)]

/-- The CLK_ registers as path `p` finds them (R79). -/
def clkReg (p : Path) (a : Nat) (s : State) : Option RegDef :=
  let c := s.clk
  match a with
  | 0x2C00 => some (RegDef.ro c.status)
  | 0x2C04 => some (RegDef.ro (packWord [(0, c.hckMhz.toNat), (12, c.hckValid.toNat)]))
  | 0x2C08 => some { flds := [Fld.any .w1c 7 0, Fld.ro 10 8], read := c.causeWord,
                     write := fun v s => { s with clk := { s.clk with cause := s.clk.cause &&& ~~~(v.setWidth 8) } } }
  | 0x2C0C => some { flds := [⟨15, 0, .wo, false, (· == 0x3C5A)⟩, ⟨31, 16, .wo, false, (· == 0)⟩], read := 0,
                     write := fun _ s => s.mrstRequest p }
  | 0x2C10 => some { flds := [Fld.any .wo 18 0], read := 0, whole := s.crstOk, write := fun v s => s.crst v }
  | 0x2C14 => some { flds := [Fld.ro 31 0], read := c.life.setWidth 32, write := fun _ s => s,
                     onRead := fun s => s.latchLife p }
  | 0x2C18 => some (RegDef.ro ((s.sel p).lifeHi.setWidth 32))
  | 0x2C1C => some { flds := [Fld.any .rw 31 0], read := c.wall.setWidth 32,
                     write := fun v s => { s with clk := { s.clk with wallStage := v } } }
  | 0x2C20 => some { flds := [Fld.any .rw 15 0, Fld.any .rw 31 31],
                     read := packWord [(0, (c.wall >>> 32).toNat % 65536), (31, c.wallSet.toNat)],
                     write := fun v s => s.wallWrite v }
  | _ => none

/-- The PWR_ registers as path `p` finds them (R79, R233). -/
def pwrReg (_p : Path) (a : Nat) (s : State) : Option RegDef :=
  let w := s.pow
  if a = 0x1C00 then some (RegDef.ro s.pwrDomain)
  else if a = 0x1C04 then
    some { flds := [Fld.any .w1c 6 2], read := packWord [(2, w.faults.toNat)],
           write := fun v s => { s with pow := { s.pow with faults := s.pow.faults &&& ~~~((v >>> 2).setWidth 5) } } }
  else if !s.offers .retain then none
  else match a with
  | 0x1C08 => some (RegDef.ro s.pwrKeep)
  | 0x1C0C => some { flds := [Fld.kept' 15 0 (10 ≤ ·)], read := w.span.setWidth 32,
                     write := fun v s => { s with pow := { s.pow with span := v.setWidth 16 } } }
  | 0x1C10 => some (RegDef.ro (packWord [(0, min 65535 (w.usedMs / 1000)), (16, w.cuts.toNat)]))
  | 0x1C14 => some { flds := [Fld.kept' 11 0 (· ≤ 4000)], read := w.reserve.setWidth 32,
                     write := fun v s => { s with pow := { s.pow with reserve := v.setWidth 12 } } }
  | 0x1C18 => some (RegDef.ro w.curl.word)
  | 0x1C1C => some (RegDef.ro s.pwrEnergy)
  | _ => none

/-! ## Console registers (R332) -/

/-- The UART takes the rate of CON_CFG.BAUD when no character is in progress (R313). -/
def State.baudApply (s : State) : State :=
  if s.con.uart.out.isEmpty then
    { s with con := { s.con with rate := if s.con.breakRate then 4 else s.con.cfg.setWidth 4 } }
  else s

/-- A write of CON_CFG (R313, R314): an armed revert is armed anew against the value in force before. -/
def State.conCfg (s : State) (v : Word) : State :=
  let c := s.con
  { s with con := { c with cfg := v, breakRate := false,
                           revertTo := if c.revertTo.isSome then some (c.cfg.setWidth 4) else none } }.baudApply

/-- CON_STATUS. -/
def Con.status (c : Con) : Word :=
  packWord [(0, maskOf [c.uart.machine, c.host.machine, c.loc.machine]),
    (3, maskOf [c.uart.unlocked, c.host.unlocked, c.loc.unlocked]), (6, c.lockout.toNat), (7, c.breakRate.toNat),
    (8, c.queue.length), (11, match c.exec with
      | some e => sessCode e.req.sess
      | none => 0), (16, c.rate.toNat), (20, c.revertTo.isSome.toNat)]

/-- The CON_ registers as path `p` finds them. -/
def conReg (_p : Path) (a : Nat) (s : State) : Option RegDef :=
  let c := s.con
  match a with
  | 0x2800 => some { flds := [Fld.kept' 3 0 (· ≤ 11), Fld.kept' 15 8 (· ≤ 240), Fld.keptAny 16 16, Fld.keptAny 17 17,
                              Fld.keptAny 18 18], read := c.cfg, write := fun v s => s.conCfg v }
  | 0x2804 => some (RegDef.ro c.status)
  | 0x2808 => some { flds := Fld.counters, read := packWord [(0, c.dropped.toNat), (16, c.reported.toNat)],
                     write := fun _ s => { s with con := { s.con with dropped := 0, reported := 0 } } }
  | 0x280C => some { flds := Fld.counters, read := packWord [(0, c.errCrc.toNat), (16, c.errBusy.toNat)],
                     write := fun _ s => { s with con := { s.con with errCrc := 0, errBusy := 0 } } }
  | 0x2810 => some { flds := Fld.counters, read := packWord [(0, c.denied.toNat), (16, c.granted.toNat)],
                     write := fun _ s => { s with con := { s.con with denied := 0, granted := 0 } } }
  | _ => none

end Sys2Proof.Machine
end

