-- ==== Sys2Proof/Machine/Regs.lean ====
section
/-! DEFINITION. The hub address space (00, 19): which register an address names, reads and writes on a path, and the
Kept fields that the settings slot stores. -/

namespace Sys2Proof.Machine

/-- The register at a hub address as path `p` finds it; `none` where the address is reserved or the register's unit or
feature is absent (R6, R399). -/
def hubReg (p : Path) (a : Nat) (s : State) : Option RegDef :=
  if a % 4 != 0 then none
  else if a < 0x0100 then featReg p a s
  else if a < 0x0C00 then hostReg p a s
  else if a < 0x1000 then dbmReg p a s
  else if a < 0x1100 || a = 0x1218 || a = 0x121C then calReg p a s
  else if a < 0x1200 then trainReg p a s
  else if a < 0x1400 then trimReg p a s
  else if a < 0x1800 then fltReg p a s
  else if a < 0x1C00 then evtReg p a s
  else if a < 0x1D00 then pwrReg p a s
  else if a < 0x2000 then kpaReg p a s
  else if a < 0x2400 then nvsReg p a s
  else if a < 0x2800 then twbReg p a s
  else if a < 0x2C00 then conReg p a s
  else if a < 0x3000 then clkReg p a s
  else if a < 0x3800 then wrnReg p a s
  else if a < 0x3C00 then hrdReg p a s
  else if a < 0x4000 then poolReg p a s
  else none

/-- What answers in rescue mode (R202): the ID_, CLK_ and NVS_ registers and PWR_DOMAIN and PWR_DOMAIN_FAULT, on the
two-wire ports and the console. -/
def rescueOpen (p : Path) (a : Nat) : Bool :=
  (p == .hostTwb || p == .localTwb || p == .console)
    && (a < 0x0040 || (0x2C00 ≤ a && a < 0x3000) || (0x2000 ≤ a && a < 0x2400) || a == 0x1C00 || a == 0x1C04)

/-- The register that an access of path `p` reaches now: management is ready, and rescue mode leaves the address open. -/
def State.reg (s : State) (p : Path) (a : Addr) : Option RegDef :=
  if !s.up || (s.nvs.rescue && !rescueOpen p a.toNat) then none else hubReg p a.toNat s

/-- A read on a path (R5, R10): its value; a disallowed read is zero. -/
def State.hubRead (s : State) (p : Path) (a : Addr) : Word :=
  match s.reg p a with
  | some d => d.read
  | none => 0

/-- What a read does besides: nothing where it is disallowed. -/
def State.afterRead (s : State) (p : Path) (a : Addr) : State :=
  match s.reg p a with
  | some d => d.onRead s
  | none => s

/-- The region in which a register's Kept fields are stored (R189): CAL_REJECT in the calibration region, DBD_TAP and the
host blob in the warm record, the extents in the keep map, every other one in the settings region. -/
def homeOf (a : Nat) : Nat :=
  if a = 0x1010 then 4
  else if (0x0D80 ≤ a && a < 0x1000) || a = 0x1124 || a = 0x1128 then 5
  else if a = 0x3818 || a = 0x381C then 6 else 3

/-- A change of a Kept field marks its region pending (R195); one of the warm record leaves the working set not stored. -/
def State.homePend (s : State) (r : Nat) : State :=
  if r = 5 then s.recOwed else s.pendRegion r

/-- A judged value is written: a change of a Kept field marks the field's region pending (R195). -/
def RegDef.put (d : RegDef) (a : Nat) (v : Word) (s : State) : State :=
  let w := d.merge v
  let changed := (w.toNat &&& d.keptMask) != (d.read.toNat &&& d.keptMask)
  let s := d.write w s
  if changed then s.homePend (homeOf a) else s

/-- A write on a path (R5 to R8): ignored in whole when it is disallowed for any field. -/
def State.hubWrite (s : State) (p : Path) (a : Addr) (v : Word) : State :=
  match s.reg p a with
  | some d => d.sent v (if d.allows v then d.put a.toNat v s else s)
  | none => s

/-! ## The settings body (R189) -/

/-- Hub addresses of the ZX8-R's registers with Kept fields in the settings region (19). -/
def keptAddrs : List Nat :=
  [0x0060, 0x0100, 0x0104, 0x0108, 0x1004, 0x110C, 0x1130, 0x1200, 0x1204]
    ++ (List.range 6).map (fun c => 0x1410 + 4 * c) ++ [0x1450] ++ (List.range 64).map (fun n => 0x1900 + 4 * n)
    ++ [0x1C0C, 0x1C14, 0x2400, 0x2414, 0x2418] ++ (List.range 4).map (fun k => 0x2428 + 4 * k) ++ [0x2800, 0x3810]

/-- Every stored entry: its address and unit. DBD_TEMP_HI of each buffer, and the ZX8-P's Kept registers. -/
def entryKeys : List (Nat × Nat) :=
  keptAddrs.map (fun a => (a, 0)) ++ (List.range 10).map (fun n => (0x0C9C, n + 1))
    ++ [0x1D10, 0x1D14, 0x1D18, 0x1D1C].map (fun a => (a, 11))

/-- A register of an entry belongs to the entry's unit (R189): the proxy window to units 1 to 10, the ZX8-P's registers to
unit 11, every other one to unit 0. -/
def unitHolds (unit a : Nat) : Bool :=
  if 0x0C80 ≤ a && a < 0x1000 then 1 ≤ unit && unit ≤ 10
  else if 0x1D00 ≤ a && a < 0x1E00 then unit == 11
  else unit == 0

/-- The Warren internal path with DBM_SEL at a buffer: how W9 and W0 reach an entry's register. -/
def State.atUnit (s : State) (unit : Nat) : State :=
  if 1 ≤ unit && unit ≤ 10 then s.setSel .warren (fun x => { x with dbm := BitVec.ofNat 4 (unit - 1) }) else s

/-- What a settings entry would hold now: the register's value, or, while it is absent, what is stored. -/
def State.entryNow (s : State) (old : List SetEntry) (k : Nat × Nat) : Option SetEntry :=
  match hubReg .warren k.1 (s.atUnit k.2) with
  | some d => if d.keptMask = 0 then old.find? (fun e => e.addr.toNat == k.1 && e.unit == k.2)
      else some ⟨BitVec.ofNat 16 k.1, k.2, d.read⟩
  | none => old.find? (fun e => e.addr.toNat == k.1 && e.unit == k.2)

/-- The settings body in force. -/
def State.storedSet (s : State) : Option SetBody :=
  (if nth s.nvs.inUse 1 false then s.nv.settings.b else s.nv.settings.a).map (·.body)

/-- A snapshot of the settings region (R189, R192). -/
def State.setBody (s : State) : SetBody :=
  let old := match s.storedSet with
    | some b => b.entries
    | none => []
  ⟨s.clk.life, s.clk.wall, s.clk.wallSet, entryKeys.filterMap (s.entryNow old)⟩

/-- A stored entry is one that boot writes although a hub write of it would be ignored: HRD_CFG.LEND while a restore is
unfinished, since a module boots after a saved Dormouse with the LEND it kept (10 'Worked example'). -/
def lendEntry (a : Nat) (s : State) : Bool := a == 0x3810 && s.regOn .hoard

/-- A stored entry is written at boot (R189): every field that is not Kept stays; an entry that is disallowed, or of a
unit that is not there, is skipped. -/
def State.loadEntry (s : State) (e : SetEntry) : State :=
  if !unitHolds e.unit e.addr.toNat then s else
  let s := s.atUnit e.unit
  match hubReg .warren e.addr.toNat s with
  | some d =>
    let v := BitVec.ofNat 32 ((e.value.toNat &&& d.keptMask) ||| (d.read.toNat &&& (0xFFFFFFFF ^^^ d.keptMask)))
    if d.keptMask != 0 && (d.allows v || lendEntry e.addr.toNat s) then d.sent v (d.write (d.merge v) s) else s
  | none => s

/-- The settings are loaded; the Warren path's selector and the counts that MRST keeps (R273) are as they were. -/
def State.loadSettings (s : State) (es : List SetEntry) : State :=
  let t := (es.foldl State.loadEntry s).setSel .warren (fun x => { x with dbm := (s.sel .warren).dbm })
  { t with flt := { t.flt with res := s.flt.res } }

end Sys2Proof.Machine
end

