-- ==== Sys2Proof/Machine/Boot.lean ====
section
/-! DEFINITION. Boot (03, 08, 16): slot choice, the Flaef image, rescue mode, discovery, the offer, the loads, and
management ready. -/

namespace Sys2Proof.Machine

/-! ## Slot choice (R188, R190) -/

/-- The slots of region `r` whose header is valid, the higher generation first, A before B at equal ones. -/
def State.candidates {β : Type} (s : State) (r : Nat) (x : Slots β) : List (Bool × Held β) :=
  let ok := fun (h : Held β) => s.hdrOk r h.hdr
  match x.a.filter ok, x.b.filter ok with
  | some a, some b => if a.hdr.gen.toNat < b.hdr.gen.toNat then [(true, b), (false, a)] else [(false, a), (true, b)]
  | some a, none => [(false, a)]
  | none, some b => [(true, b)]
  | none, none => []

/-- The chosen slot, and how many bodies failed their CRC before it. -/
def State.pickSlot {β : Type} (s : State) (r : Nat) (x : Slots β) : Option (Bool × Held β) × Nat :=
  let c := s.candidates r x
  (c.find? (fun e => e.2.hdr.bodyOk), (c.takeWhile (fun e => !e.2.hdr.bodyOk)).length)

/-- The firmware slots that boot may use: valid ones that have not failed twice in a row (R201). -/
def State.fwSlots (s : State) : List Bool :=
  ((s.candidates 2 s.nv.fw).filter (fun e => e.2.hdr.bodyOk && nth s.pow.failedBoots e.1.toNat 0 < 2)).map (·.1)

/-- The firmware slot that boots. -/
def State.fwSlot (s : State) : Option Bool := s.fwSlots.head?

/-- An older slot boots because a newer valid one has failed twice: the slot that failed. -/
def State.fwFailed (s : State) : Option Bool :=
  match s.fwSlot with
  | none => none
  | some b => if nth s.pow.failedBoots (!b).toNat 0 < 2 then none
      else ((s.candidates 2 s.nv.fw).find? (fun e => e.2.hdr.bodyOk && e.1 != b)).map (·.1)

/-- The firmware body in a slot. -/
def State.fwBody (s : State) (b : Bool) : Option FwBody := (if b then s.nv.fw.b else s.nv.fw.a).map (·.body)

/-- The image checks of R355, R356 and R357, and that the body names this part and issue (R200). -/
def FwBody.boots (f : FwBody) : Bool :=
  f.sound && f.part == 0x0A38 && f.issues.getLsbD 2 && (List.range 11).all (fun n => f.cores.getLsbD n)
    && routesOk f.routes

/-- A region's slot use, defaults bit and read-check count as the boot read leaves them. -/
def State.noteRegion (s : State) (r : Nat) (c : Option Bool) (bad : Nat) : State :=
  { s with nvs := { s.nvs with inUse := s.nvs.inUse.set (r - 2) (c.getD false),
                               defaults := s.nvs.defaults.set (r - 2) c.isNone,
                               errRead := satAdd s.nvs.errRead bad } }

/-- Erase counts of a region's slots: a slot without a header takes the other slot's (R190). -/
def wearOf {β : Type} (x : Slots β) : Nat × Nat :=
  let e := fun (h : Option (Held β)) => h.map (·.hdr.erases)
  (((e x.a).orElse (fun _ => e x.b)).getD 0, ((e x.b).orElse (fun _ => e x.a)).getD 0)

/-- How many bodies of each region 3 to 6 and 2 failed their CRC. -/
def State.readBad (s : State) : List (Nat × Nat) :=
  [(3, (s.pickSlot 3 s.nv.settings).2), (4, (s.pickSlot 4 s.nv.cal).2), (5, (s.pickSlot 5 s.nv.warm).2),
   (6, (s.pickSlot 6 s.nv.keep).2), (2, (s.pickSlot 2 s.nv.fw).2)]

/-- The erase counts that the headers give (R190); a part without erases has none. -/
def State.readWear (s : State) : State :=
  if s.nv.fram then s else
  { s with nvs := { s.nvs with
      wear := [wearOf s.nv.fw, wearOf s.nv.settings, wearOf s.nv.cal, wearOf s.nv.warm, wearOf s.nv.keep] } }

/-- What the ZX8-R issues at PD2 power good (R185): reset, JEDEC ID, the SFDP signature, and without one the boot block. -/
def discoveryOps (v : Nv) : List NvsOp :=
  [.reset, .jedec, .sfdp] ++ (if v.sfdp.isNone then [.read 0 0x1000] else [])

/-- The reads of a slot: its header, and the body of one that is valid. -/
def State.slotOps {β : Type} (s : State) (r : Nat) (b : Bool) (h : Option (Held β)) : List NvsOp :=
  let a := (regionAt r b).1
  nvsRead s.nv a 32 :: (match h.filter (fun x => s.hdrOk r x.hdr) with
    | some x => [nvsRead s.nv (a + 32) x.hdr.length.toNat]
    | none => [])

/-- The commands of the boot read (R190): boot block, factory, settings, calibration, warm record, keep map, firmware. -/
def State.bootOps (s : State) : List NvsOp :=
  let v := s.nv
  discoveryOps v ++ [nvsRead v 0 0x1000, nvsRead v 0x1000 (32 + v.factoryHdr.length.toNat)]
    ++ s.slotOps 3 false v.settings.a ++ s.slotOps 3 true v.settings.b ++ s.slotOps 4 false v.cal.a
    ++ s.slotOps 4 true v.cal.b ++ s.slotOps 5 false v.warm.a ++ s.slotOps 5 true v.warm.b
    ++ s.slotOps 6 false v.keep.a ++ s.slotOps 6 true v.keep.b ++ s.slotOps 2 false v.fw.a ++ s.slotOps 2 true v.fw.b

/-- The boot read (R190). -/
def State.bootRead (s : State) : State :=
  let pick := fun {β : Type} (x : Option (Bool × Held β) × Nat) => x.1.map (·.1)
  let s := s.noteRegion 3 (pick (s.pickSlot 3 s.nv.settings)) (s.pickSlot 3 s.nv.settings).2
  let s := s.noteRegion 4 (pick (s.pickSlot 4 s.nv.cal)) (s.pickSlot 4 s.nv.cal).2
  let s := s.noteRegion 5 (pick (s.pickSlot 5 s.nv.warm)) (s.pickSlot 5 s.nv.warm).2
  let s := s.noteRegion 6 (pick (s.pickSlot 6 s.nv.keep)) (s.pickSlot 6 s.nv.keep).2
  let s := s.noteRegion 2 s.fwSlot (s.pickSlot 2 s.nv.fw).2
  let s := (s.readWear).nvsIssue s.bootOps
  { s with nvs := { s.nvs with ready := true, fallback := s.fwFailed.isSome, retireFw := s.fwFailed } }

/-- Read failures and defaults, reported once the offer is fixed (R190, R191): a module without Hoard has no keep map. -/
def State.bootReports (s : State) : State :=
  let s := s.readBad.foldl (fun s e => (List.range e.2).foldl (fun s _ =>
    (s.fault 4 e.1 1).raise 32 (BitVec.ofNat 24 e.1)) s) s
  [3, 4, 5, 6].foldl (fun s r =>
    if nth s.nvs.defaults (r - 2) false && (r != 6 || s.modl.hoardFitted) then s.raise 34 (BitVec.ofNat 24 r) else s) s

/-- BOOT ends in RUN (R67). -/
def State.bootRun (s : State) : State := if s.pow.dom == .boot then s.setDom .run else s

/-! ## Rescue mode (R202) -/

/-- Rescue mode: the boot ROM runs, nothing is offered, both subchannels stay NOT_READY. -/
def State.rescue (s : State) (partOk : Bool) : State :=
  let s := { s with nvs := { s.nvs with ready := true, rescue := true, partOk := partOk, bootBad := partOk && !s.nv.boot.ok,
                                        factoryBad := partOk && s.nv.boot.ok && !s.nv.factoryOk } }
  s.bootRun

/-- Rescue mode because the part, the boot block or the factory slot does not serve (R202). A factory body that fails its CRC
under a valid header is a read check failure (R191); the erase counts are those of the part's headers. -/
def State.rescuePart (s : State) : State :=
  let partOk := s.nv.kind != 0
  let s := s.nvsIssue (discoveryOps s.nv ++ (if partOk then [nvsRead s.nv 0 0x1000] else []))
  let s := if partOk then s.readWear else s
  let s := if partOk && s.nv.boot.ok && s.nv.factoryHdr.sound 1 && s.nv.factoryHdr.layout == 1 && !s.nv.factoryHdr.bodyOk then
      ({ s with nvs := { s.nvs with errRead := satAdd s.nvs.errRead 1 } }.fault 4 1 1).raise 32 1
    else s
  s.rescue partOk

/-! ## Discovery and the offer (R18, R21, R22, R132, R234) -/

/-- Which targets answer. -/
def State.discover (s : State) (b : BootReport) : State :=
  let on := s.pow.on.getLsbD 5 && s.buffers
  let alive := fun (n : Nat) => if n < 10 then on && b.dbAnswers.getLsbD n else s.modl.zxpFitted && b.zxpAnswers
  let ts := s.zlb.targets.zipIdx.map (fun t => { t.1 with alive := alive t.2 })
  let s := { s with zlb := { s.zlb with targets := ts } }
  { s with zlb := { s.zlb with present := BitVec.ofNat 11 (maskOf ((List.range 11).map s.found)),
                               peer := if alive 10 then 0x20A3A else 0 } }

/-- The buffers that should answer discovery and do not (R110, R132). -/
def State.silent (s : State) : List Nat :=
  if !s.pow.on.getLsbD 5 || s.pow.straps.nodb then [] else (List.range 10).filter (fun n => !s.found n)

/-- Discovery's attempts and marks, once the offer is fixed: EV13, and PD5_FAIL when no buffer answers (R70). -/
def State.discoveryReports (s : State) : State :=
  match s.silent with
  | [] => s
  | m =>
    let s := (m.foldl State.noAnswer s).raise 13 (BitVec.ofNat 24 (m.foldl (fun a n => a + 2 ^ n) 0))
    if m.length < 10 then s else
    let f := s.pow.faults ||| 8
    { s with pow := { s.pow with faults := f } }.raise 30 (f.setWidth 24 <<< 2)

/-- Everything of FEAT_OFFER_LO (R13 to R23). -/
def State.offer (s : State) (nandOk : Bool) : BitVec 16 :=
  let db := !s.pow.straps.nodb && (List.range 10).all (fun n => s.zlb.present.getLsbD n)
  let zxp := s.zlb.present.getLsbD 10
  let hoard := s.modl.hoardFitted && nandOk && db && (s.pow.dom != .boot || s.pow.on.getLsbD 6)
  let ranks := 1 < s.stack .a || 1 < s.stack .b
  BitVec.ofNat 16 (0xF1E7 + 8 * zxp.toNat + 16 * hoard.toNat + 512 * db.toNat + 1024 * ranks.toNat
    + 2048 * zxp.toNat)

/-! ## Loads -/

/-- The factory body (R186): DRM_CFG. Ranks that boot finds unknown are taken from it. -/
def State.loadFactory (s : State) : State :=
  let s := { s with host := { s.host with cfgA := s.nv.factory.cfgA, cfgB := s.nv.factory.cfgB } }
  subs.foldl (fun s x => s.setSub x (fun t => { t with
    ranks := t.ranks.zipIdx.map (fun e => if !s.rankFitted x e.2 then .absent
      else if e.1 == .absent then .active else e.1) })) s

/-- The persisted lifetime and wall offset, once after POR (R62, R12): at the first boot that loads settings, so also
where the boot after POR ended before its load (log entry 77, DESIGN CHOICE). -/
def State.loadLife (s : State) : State :=
  if !s.clk.lifeLoad then s else
  let c := { s.clk with lifeLoad := false }
  match s.storedSet with
  | some b => { s with clk := if nth s.nvs.defaults 1 false then c else
      { c with life := c.life + b.life, wall := b.wall, wallSet := b.wallSet } }
  | none => { s with clk := c }

/-- The settings entries (R189); PWR_SPAN and PWR_RESERVE start from their reset values. -/
def State.loadSet (s : State) : State :=
  let s := { s with pow := { s.pow with span := 300, reserve := 600 } }
  match s.storedSet with
  | some b => if nth s.nvs.defaults 1 false then s else s.loadSettings b.entries
  | none => s

/-- Stored calibration results, or the factory values (R173), of which TPH is none; the ZX8-P takes its correction. -/
def State.loadCal (s : State) : State :=
  let b := match s.pickSlot 4 s.nv.cal with
    | (some c, _) => c.2.body
    | (none, _) => { CalBody.fresh with units := s.nv.factory.cal, adc := s.nv.factory.adc }
  let b := { b with units := b.units.map (fun u => { u with tph := 0 }) }
  { s with cal := { s.cal with body := b }, zxp := if s.reaches 10 then { s.zxp with corr := b.adc } else s.zxp }

/-- The keep-region map and the NAND (R240, R242): blocks that the areas' trailers retired join the list. -/
def State.loadKeep (s : State) : State :=
  if !s.offers .hoard then s else
  let body := match s.pickSlot 6 s.nv.keep with
    | (some c, _) => c.2.body
    | (none, _) => ⟨List.replicate 16 ⟨0, 0⟩, [], []⟩
  let late := [s.hrd.areaA, s.hrd.areaB].flatMap (fun a => match a.trl with
    | some t => t.retired
    | none => [])
  let new := (late.filter (fun b => !body.retired.contains b)).dedup
  let retired := body.retired ++ new
  let luns := s.modl.nandLuns.toNat
  let s := { s with hrd := { s.hrd with
    luns := s.modl.nandLuns, ppbLog2 := s.modl.nandPpbLog2,
    areaBlocks := BitVec.ofNat 16 (fewestBlocks luns s.modl.nandHalf.toNat (body.factoryBad ++ retired)),
    extents := body.extents, factoryBad := body.factoryBad, retired := retired } }
  if new.isEmpty then s else s.pendRegion 6

/-- The Warren starts (R356): IMEM, routes, ROUTE_LOCK, W1 to W10; W11 is held. -/
def State.loadFw (s : State) (f : FwBody) : State :=
  { s with wrn := { s.wrn with
      routes := f.routes, locked := true, version := f.version, coreMask := f.cores,
      routeCrc := crc32c (f.routes.flatMap (fun r => leBytes 4 r.toNat)),
      cores := (List.range 12).map (fun n => { Core.fresh with
        st := if n = 11 then .held else .running, imem := nth f.sections n [] }) } }

/-! ## The warm record (R142, R146) -/

/-- The warm record slot that boot picks. -/
def State.warmSlot (s : State) : Option (Held WarmRec) :=
  match s.pickSlot 5 s.nv.warm with
  | (some c, _) => some c.2
  | (none, _) => none

/-- The population fingerprint (R145), `ids` being the identification values of every die in record order. -/
def State.fingerprint (s : State) (ids : List Byte) : Word :=
  crc32c ([s.host.cfgA, s.host.cfgB] ++ leBytes 4 s.zlb.present.toNat ++ leBytes 4 s.nv.factoryHdr.bodyCrc.toNat ++ ids)

/-- The stored record as the registers and the drift test see it; its host blob is Kept. -/
def State.noteRecord (s : State) (ids : List Byte) : State :=
  let s := { s with train := { s.train with finger := s.fingerprint ids } }
  match s.warmSlot with
  | none => { s with train := { s.train with stored := none } }
  | some h =>
    { s with train := { s.train with
        stored := some h.body, storedSlot := s.slotUse 5, storedGen := h.hdr.gen, blob := h.body.blob,
        blobLen := h.body.blobLen, hfp := h.body.blobCrc } }

/-- The record's fingerprint is the live one (R146). -/
def State.sameFinger (s : State) : Bool := s.warmSlot.any (fun h => h.body.finger == s.train.finger)

/-- Every buffer that a record names has answered discovery (R146). -/
def State.named (s : State) : Bool :=
  match s.warmSlot with
  | none => true
  | some h => h.body.nodb || (List.range 10).all (fun n => s.zlb.present.getLsbD n)

/-- R146 is judged and the record replayed, or reset values stand; each subchannel waits, or is held with the image. -/
def State.warmStart (s : State) (hottest : Int) : State :=
  let image := s.pow.image
  let cause := s.replayCause s.warmSlot (s.sameFinger && s.named) hottest image
  let s := { s with train := { s.train with coldCause := BitVec.ofNat 4 cause } }
  let s := match s.warmSlot with
    | some h => if cause = 0 then s.replay h.body else s
    | none => s
  (s.setPhase .a (if image then .held else .wait)).setPhase .b (if image then .held else .wait)

/-! ## Management ready (R78) -/

/-- What the island held for the next management ready (R199, R224, and a repair that PFAIL stopped). -/
def State.islandReports (s : State) (first : Bool) : State :=
  let s := if s.clk.noStart && first then s.raise 58 1 else s
  let s := if first then s else s.raise 57 (s.clk.causeWord.setWidth 24)
  let s := if s.nvs.fallback then s.raise 37 (BitVec.ofNat 24 (nth s.nvs.inUse 0 false).toNat) else s
  let lost := s.pow.lost
  let s := { s with nvs := { s.nvs with lost := lost }, pow := { s.pow with lost := 0 } }
  let s := if lost = 0 then s else s.raise 38 ((lost >>> 2).setWidth 24)
  match s.flt.cutEntry with
  | some e => { s with flt := { s.flt with cutEntry := none } }.raise 43 (BitVec.ofNat 24 (e + 64))
  | none => s

/-- The tap calibrations of management ready (R170): they wait for HCK_OK, and for the domain states that allow them. -/
def State.bootCal (s : State) : State :=
  if s.calDom then (List.range 11).foldl (fun s u => s.calTap u false [] false) s
  else if s.pow.dom == .wake then (List.range 11).foldl (fun s u => s.calWait u false [] false) s else s

/-- Latency, buffer copies and the rank shadow's consequences once the settings stand (R81, R114). -/
def State.loadHost (s : State) : State :=
  let s := if s.host.latLoad then { s with host := { s.host with latActive := s.host.lat, latLoad := false } } else s
  (s.copyCfg .a).copyCfg .b

/-- Discovery, and with it the offer (R78). -/
def State.bootOffer (s : State) (b : BootReport) : State :=
  let s := (s.loadFactory.loadLife).discover b
  { s with feat := { s.feat with phase := .waitHost, offer := s.offer b.nandOk } }

/-- What the settings memory holds is loaded, and the firmware slot has booted. -/
def State.bootStore (s : State) (f : FwBody) : State :=
  let s := ((s.loadSet.loadCal).loadKeep).loadFw f
  let booted := s.pow.failedBoots.set (nth s.nvs.inUse 0 false).toNat 0
  { s with pow := { s.pow with lockCopy := s.offers .hoard, failedBoots := booted } }

/-- W4 and W5 read the CRC counters of the buffers that answer for the first time (R115). -/
def State.firstCounts (s : State) : State :=
  (List.range 10).foldl (fun s n => if s.reaches n then s.attributeOne n else s) s

/-- The CRC counters, the host path and the warm record. -/
def State.bootParts (s : State) (b : BootReport) : State :=
  let s := s.bootReports.discoveryReports.firstCounts
  let s := (if s.pd3 then s.loadHost else s).noteRecord b.dieIds
  if s.pd3 && !s.host.pd3Fault && s.train.a.phase == .off then s.warmStart b.hottest else s

/-- Reports that waited for management ready, and the cursors of the ports (R297). Events arise in the event unit from
here on; those latched before wait for the lock (R224). -/
def State.bootLogs (s : State) (first : Bool) : State :=
  let s := { (s.islandReports first) with pow := { (s.islandReports first).pow with cutOpen := false } }
  { s with twb := { s.twb with
    host := { s.twb.host with curF := s.nextSeq .fault, curE := s.nextSeq .event },
    loc := { s.twb.loc with curF := s.nextSeq .fault, curE := s.nextSeq .event } } }

/-- Boot completes with good firmware. -/
def State.bootDone (s : State) (b : BootReport) (f : FwBody) : State :=
  ((((s.bootOffer b).bootStore f).bootParts b).bootLogs s.clk.lifeLoad).bootRun.bootCal.startDeadline

/-- A boot is under way: PD2 is on and no management is ready. -/
def State.bootRuns (s : State) : Bool :=
  s.pd2 && s.feat.phase == .booting && !s.nvs.rescue && s.pow.dom != .curl && s.pow.dom != .commitHold && s.clk.mpllLock
    && !s.nvs.ready && !s.clk.mrstWait

/-- Boot ends (R78): in rescue mode, with its firmware refused (R356), or with management ready. -/
def State.bootEnd (s : State) (b : BootReport) : State :=
  if !s.bootRuns then s
  else if s.nv.kind = 0 || !s.nv.boot.ok || !s.nv.factoryOk then s.rescuePart.promptAll
  else
    let s := s.bootRead
    let s := { s with nvs := { s.nvs with partOk := true } }
    match s.fwSlot with
    | none => (s.bootReports.rescue true).promptAll
    | some k =>
      match s.fwBody k with
      | none => (s.bootReports.rescue true).promptAll
      | some f =>
        if f.boots && b.imageOk then (s.bootDone b f).promptAll
        else { s with wrn := { s.wrn with wdogForced := true } }

/-- MANAGEMENT_READY (R78). -/
def execManagementReady (b : BootReport) (s : State) : Out := .next (s.bootEnd b)

end Sys2Proof.Machine
end

