-- ==== Sys2Proof/Machine/Access.lean ====
section
/-! DEFINITION. Accesses that other steps carry out: the captured commits of the hub window (04) and the executing and
staged accesses of a two-wire port (13). -/

namespace Sys2Proof.Machine

/-! ## The hub window (R96 to R98) -/

/-- The oldest captured commit of a window is applied as one write on its path, and a fetch is launched. -/
def State.winApply (s : State) (x : Sub) : State :=
  match (s.sub x).win.commits with
  | [] => s
  | (a, v) :: r =>
    let s := (s.setWin x (fun w => { w with commits := r })).hubWrite (subPath x) a v
    s.setWin x Win.launch

/-- Every captured commit of a window is applied. -/
def State.winFlush (s : State) (x : Sub) : State := (List.range (s.sub x).win.commits.length).foldl (fun s _ => s.winApply x) s

/-- A fetch completes: one read of the staged address (R97). With HCK lost its result is offered to a crossing that
completes it as not sent (R64): RVALID stays 0. -/
def State.winFetch (s : State) (x : Sub) : State :=
  let w := (s.sub x).win
  if !s.up || !w.fetch then s else
  if !s.clk.hckOk then (s.afterRead (subPath x) w.addr).setWin x (fun w => { w with fetch := false }) else
  let v := s.hubRead (subPath x) w.addr
  (s.afterRead (subPath x) w.addr).setWin x (fun w => { w with read := v, rvalid := true, fetch := false })

/-- WINDOW_COMMIT_APPLIED (R106). -/
def execWindowCommitApplied (x : Sub) (s : State) : Out := .next (if s.up then s.winApply x else s)
/-- WINDOW_FETCH_DONE (R97). -/
def execWindowFetchDone (x : Sub) (s : State) : Out := .next (s.winFetch x)

/-! ## Two-wire accesses (R295) -/

/-- The access a port executes is applied. -/
def State.twbExec (s : State) (p : Port) : State :=
  match (s.port p).exec with
  | none => s
  | some (a, v) => (s.setPort p (fun t => { t with exec := none })).hubWrite (portPath p) a v

/-- The staged write moves to execution when the access before it is through. -/
def State.twbMove (s : State) (p : Port) : State :=
  if (s.port p).exec.isSome then s else s.setPort p (fun t => { t with exec := t.staged, staged := none })

/-- At PFAIL: the executing access is applied, the staged write and the READ are gone (R45, R375). -/
def State.twbCut (s : State) (p : Port) : State :=
  ((s.twbExec p).dropRead p).setPort p (fun t => { t with staged := none, job := none, tries := 0 })

end Sys2Proof.Machine
end

