-- ==== Sys2Proof/Machine/SlotBody.lean ====
section
/-! DEFINITION. The bytes of the slot bodies (08, 06, 07): settings, calibration and warm record. -/

namespace Sys2Proof.Machine

/-- `n` zero bytes. -/
def zeros (n : Nat) : List Byte := List.replicate n 0

/-- Bytes padded with zeros to `n`. -/
def padTo (n : Nat) (b : List Byte) : List Byte := (b ++ zeros n).take n

/-- Two's complement in one byte. -/
def int8 (v : Int) : Byte := BitVec.ofInt 8 v

/-- The settings body (R189). -/
def SetBody.bytes (b : SetBody) : List Byte :=
  leBytes 5 b.life.toNat ++ zeros 3 ++ leBytes 6 b.wall.toNat ++ [if b.wallSet then 0x80 else 0, 0]
    ++ leBytes 4 b.entries.length ++ zeros 12
    ++ b.entries.flatMap (fun e => leBytes 2 e.addr.toNat ++ leBytes 1 e.unit ++ [0] ++ leBytes 4 e.value.toNat)

/-- A unit of the calibration body (R173): 38 receivers for unit 0, 16 for the buffers, main comparator then shadow. -/
def CalUnit.bytes (rxs : Nat) (u : CalUnit) : List Byte :=
  padTo 256 (leBytes 2 u.size.toNat ++ zeros 2 ++ leBytes 5 u.tapLife.toNat ++ leBytes 5 u.vrefLife.toNat ++ zeros 2
    ++ (List.range (2 * rxs)).flatMap (fun k => let c := sget ((0, 0) : Byte × Byte) u.comps k; [c.1, c.2]))

/-- The calibration body (R173), 0x0B40 bytes. -/
def CalBody.bytes (b : CalBody) : List Byte :=
  leBytes 4 b.count.toNat ++ leBytes 2 b.reject.toNat ++ leBytes 2 b.abandon.toNat
    ++ leBytes 4 b.last.toNat ++ leBytes 8 b.lastLife.toNat ++ leBytes 8 b.lastUtc.toNat ++ zeros 4
    ++ (List.range 11).flatMap (fun u => (nth b.units u CalUnit.fresh).bytes (if u = 0 then 38 else 16))
    ++ padTo 32 ((List.range 4).flatMap (fun i => leBytes 2 (nth b.adc i 0).toNat) ++ leBytes 2 b.adcRef.toNat
      ++ leBytes 5 b.adcLife.toNat ++ [if b.adcValid then 1 else 0])

/-- A trained set of a record, by its key in `TrainSub.gens`. -/
def genOf (gens : List (Nat × Nat)) (key : Nat) : Option Nat := (gens.find? (fun g => g.1 == key)).map (·.2)

/-- Byte `i` of a trained set, 0 where nothing was trained. -/
def genByte (g : Option Nat) (i : Nat) : Byte := match g with
  | some n => Config.freeValue 8 (n + i)
  | none => 0

/-- The ZX8-R part of a subchannel (R144): the receivers' pairs, and from 0x40 on 18 output taps for each rank. -/
def recHost (ca : List TapSt) (gens : List (Nat × Nat)) : List Byte :=
  padTo 64 (ca.flatMap (fun t => [t.tap.setWidth 8, t.vref.setWidth 8]))
    ++ padTo 192 ((List.range 4).flatMap (fun k => (List.range 18).map (fun i =>
      match genOf gens (k * 16) with
      | some g => (Config.freeValue 7 (g + i) : BitVec 7).setWidth 8
      | none => 64)))

/-- The part of a buffer (R144): its 100 entries as pairs, and from 0xC8 on the oscillator references of rank and nibble. -/
def recDb (gens : List (Nat × Nat)) (n : Nat) (d : DbTaps) : List Byte :=
  padTo 256 ((List.range 100).flatMap (fun k =>
      let t := tapOf d.taps d.gens (k / 10) (k % 10)
      [t.tap.setWidth 8, t.vref.setWidth 8])
    ++ (List.range 8).flatMap (fun i =>
      let g := genOf gens ((i / 2) * 16 + 2)
      [genByte g (4 * (n % 5) + 2 * (i % 2)), genByte g (4 * (n % 5) + 2 * (i % 2) + 1)]))

/-- The DRAM values of a package of one die (R144): VrefCA, VrefCS, VrefDQ, duty cycle and DFE. -/
def recDram (gens : List (Nat × Nat)) (rank die pkg : Nat) : List Byte :=
  let g1 := genOf gens ((rank * 4 + die) * 4 + 1)
  let g3 := genOf gens ((rank * 4 + die) * 4 + 3)
  [genByte g1 (2 * pkg), genByte g1 (2 * pkg + 1)] ++ (List.range 10).map (fun i => genByte g3 (10 * pkg + i)) ++ zeros 4

/-- The warm record body (R144), 0x2440 bytes. -/
def WarmRec.bytes (r : WarmRec) : List Byte :=
  leBytes 4 (r.invalid.toNat + 2 * r.nodb.toNat + 4 * r.blobPresent.toNat) ++ leBytes 2 r.rate.toNat ++ [int8 r.temp]
    ++ leBytes 1 r.source ++ leBytes 4 r.finger.toNat ++ leBytes 5 r.life.toNat ++ zeros 3 ++ leBytes 4 r.blobCrc.toNat
    ++ leBytes 2 r.blobLen.toNat ++ zeros 38
    ++ recHost r.caA r.gensA ++ recHost r.caB r.gensB
    ++ (List.range 10).flatMap (fun n => recDb (if n < 5 then r.gensA else r.gensB) n (nth r.dbs n ⟨[], []⟩))
    ++ (List.range 320).flatMap (fun k => recDram (if k < 160 then r.gensA else r.gensB) (k / 40 % 4) (k / 10 % 4) (k % 10))
    ++ (List.range 256).flatMap (fun i => leBytes 4 (sget 0 r.blob i).toNat)

end Sys2Proof.Machine
end

