-- ==== Sys2Proof/Machine/Curl.lean ====
section
/-! DEFINITION. A power cut (02, 03, 09): POR and the loss of VKA, host power good, Curl and its outcome, the keep-pack
test, the domain faults, and the ends of a Dormouse. -/

namespace Sys2Proof.Machine

/-! ## Power on and off (R57, R67, R72, R209) -/

/-- POR is released (R78): every part at its reset value, the straps sampled. The module, the settings memory and the
NAND are what they were. -/
def State.por (s : State) (st : Straps) : State :=
  let t : State :=
    { State.reset with
      pending := s.pending, free := s.free, modl := s.modl, nv := s.nv, pow := Pow.fresh st, zxp := Zxp.fresh st
      zlb := Zlb.por s.modl.zxpFitted, hrd := { Hrd.fresh with areaA := s.hrd.areaA, areaB := s.hrd.areaB } }
  if s.modl.zxpFitted && st.vmax = 0 then t.raise 31 4 else t

/-- VKA is lost (R67): a commit in flight leaves its target slot empty, an erase its area incomplete; no domain is on
and everything volatile is gone. -/
def State.vkaLost (s : State) : State :=
  let t := s.tearCommit.hoardHalt.por s.pow.straps
  { t with pow := { t.pow with dom := .off, on := 0, latched := [] },
           clk := { t.clk with rootOk := false, cause := 0 },
           zlb := Zlb.por false }

/-- The root could not start on the crystal (R57, 03 'Clock faults'). -/
def State.porBackup (s : State) (st : Straps) : State :=
  let t := s.por st
  { t with clk := { t.clk with rootOk := false, onBackup := true, noStart := true } }

/-- A PD2 restart or an MRST rearms a charger that a fault had stopped (R213). -/
def State.chgRearm (s : State) : State :=
  { s with zxp := { s.zxp with chgFaulted := s.zxp.vmax == 0 } }.charger

/-- Host power good at the comparators (R68, R211, R216): PFAIL_n is released, and the ideal-diode OR carries host
bulk. -/
def State.hostUp (s : State) : State :=
  { s with pow := { s.pow with hostPg := true, pfailLow := false },
           zxp := { s.zxp with orHost := s.modl.zxpFitted, convOn := false } }.charger

/-- Host power good (R68, R207): the keep state follows; during Curl and COMMIT_HOLD it waits for Dormouse (R44). -/
def State.hostGood (s : State) : State :=
  let s := s.hostUp
  match s.pow.keep with
  | .empty => { s with pow := { s.pow with keep := .normal } }
  | .hold => s.wake.chgRearm
  | .save => s.wake.chgRearm
  | _ => s.startDeadline

/-- BOOT (R67, R405): PD2, PD3 and PD5 on, and PD6 for the check of a ZX8-H. -/
def State.bootStart (s : State) : State :=
  if s.pow.dom != .keepOnly || !s.pow.hostPg || s.pow.keep != .normal then s
  else ((((s.setDom .boot).pd2Start 0).pd3Start).pd5Start).chgRearm

/-! ## The keep-pack test (R270) -/

/-- VBANK as the ADC last had it, in mV. -/
def State.vbank (s : State) : Int := (nth s.zxp.chans 2 AdcCh.fresh).value.toInt

/-- The conditions under which a due test runs. -/
def State.packOk (s : State) : Bool :=
  s.up && s.fnOn .faultWindows && s.offers .retain && s.pow.dom == .run && s.pow.hostPg && s.zxp.chg == 3
    && 24000 ≤ s.vbank && s.hrd.st != .restoring && s.hrd.st != .lending

/-- A keep-pack test starts: the charger stops and the converter draws from the bank. -/
def State.packStart (s : State) : State :=
  if !s.flt.test.due || s.flt.test.busy || !s.packOk then s else
  { s with flt := { s.flt with test := { s.flt.test with due := false, busy := true,
                                                         startMv := BitVec.ofInt 16 s.vbank } },
           zxp := { s.zxp with convCurrent := true } }.charger

/-- The record of a test (R271 kind 5) and EV46. -/
def State.packReport (s : State) (c esr outcome : Nat) : State :=
  let mv := s.flt.test.startMv.toNat
  let s := { s with flt := { s.flt with test := { s.flt.test with due := false, busy := false,
                                                                  outcome := BitVec.ofNat 2 outcome } },
                    zxp := { s.zxp with convCurrent := false } }.charger
  let s := if s.acts 5 24 then
      s.faultRecord ⟨5, 5, 0, s.clk.life, .none, 0, List.replicate 8 0,
        leBytes 2 c ++ leBytes 2 esr ++ leBytes 2 mv ++ [BitVec.ofNat 8 outcome, 0]⟩
    else s
  s.raise 46 (BitVec.ofNat 24 outcome)

/-- A test ends: a result feeds the energy accounting (R222) and the two keep-pack resources. -/
def State.packEnd (s : State) (r : PackEnd) : State :=
  match r with
  | .dropped => if s.flt.test.due && !s.flt.test.busy then
      { s with flt := { s.flt with test := { s.flt.test with startMv := 0 } } }.packReport 0 0 3 else s
  | .noResult => if s.flt.test.busy then s.packReport 0 0 2 else s
  | .result c esr =>
    if !s.flt.test.busy then s else
    let s := { s with flt := { s.flt with test := { s.flt.test with c := BitVec.ofNat 10 c, esr := BitVec.ofNat 12 esr } },
                      zxp := { s.zxp with cMeas := BitVec.ofNat 10 c, measValid := true } }
    let s := if c * 100 < fld s.flt.pack 17 10 * fld s.zxp.pack 9 0 then s.fault 5 0 1 else s
    let s := if fld s.flt.pack 29 18 < esr then s.fault 5 1 1 else s
    s.packReport c esr 1

/-- SETTLED finds FAULT_WINDOWS inactive (R32, 11 'When it goes wrong'): a test stops without a report. -/
def State.packSwitch (s : State) : State :=
  if s.fnOn .faultWindows then s else
  { s with flt := { s.flt with test := { s.flt.test with due := false, busy := false } },
           zxp := { s.zxp with convCurrent := false } }.charger

/-- SETTLED finds DB_PRESENT inactive (R32): a running HRX settle ends without a result. -/
def State.hrxSwitch (s : State) : State :=
  if s.fnOn .dbPresent then s else (s.settleGo .a false).settleGo .b false

/-! ## Curl (R42 to R46, R207, R218) -/

/-- The CA block on a subchannel (R86, R218): BLOCKED, its grant and its training stop, the buffers hold. -/
def State.cutSub (s : State) (x : Sub) : State :=
  let s := ((((s.winFlush x).trimLeave x).unitAbandon x).repairCut x)
  let s := s.setSub x (fun t => { t with owner := .blocked, grant := none, win := Win.fresh })
  let s := s.setDbs x (fun d => { d with hold := true, burst := none })
  s.setTr x (fun t => { t with phase := .off, settleGo := false })

/-- Console input, commands that have not been executed, the response in hand and every unlock are discarded (R45; 14, 15
'When it goes wrong'). -/
def State.cutCon (s : State) : State :=
  let quiet := fun (t : SessSt) => { t with line := [], tooLong := false, resp := [], ending := none, unlocked := false }
  { s with con := { s.con with uart := quiet s.con.uart, host := quiet s.con.host, loc := quiet s.con.loc, queue := [],
                               exec := none }, pool := { s.pool with con := 0 } }

/-- PFAIL stops the host path: both subchannels, and Hoard's work (R218, R243). -/
def State.stopHost (s : State) : State := ((s.layCopy.cutSub .a).cutSub .b).hoardHalt

/-- PFAIL stops the ports and the console, and drops the settings not yet stored (R45, R46). -/
def State.stopPorts (s : State) : State := (((s.twbCut .host).twbCut .loc).cutCon).dropPending

/-- PFAIL ends every calibration, the pre-erase and an image load (R172, R193, R200). -/
def State.stopWork (s : State) : State :=
  ({ s.imgFail 5 with nvs := { (s.imgFail 5).nvs with preErase := none } }).calAbandonAll

/-- What PFAIL stops at once (R42 to R46). -/
def State.curlStop (s : State) : State := s.stopHost.stopPorts.stopWork

/-- The island enters Curl (R207, R211): the converter starts, and the CA block is set; `bankOk` is VBANK at or above
20 V. -/
def State.curlEnter (s : State) (bankOk : Bool) : State :=
  let z := s.modl.zxpFitted
  { s with
    pow := { s.pow with dom := .curl, keep := .curl, pd2Down := false, kdeep := false,
                        on := s.pow.on &&& (domMask .curl s.buffers false ||| 2), cuts := satAdd s.pow.cuts 1,
                        curl := ⟨255, 255, 0, false, false, z && !bankOk⟩ }
    zxp := { s.zxp with convOn := z && bankOk, orHost := false }
    host := { s.host with caBlock := true, pulse := none, waitPar := false, waitCrc := false, resume := none }
    pool := if s.nvs.commit.isSome then s.pool.reserve else s.pool }

/-- PFAIL begins Curl (R207, R211, R218). -/
def State.curlStart (s : State) (bankOk : Bool) : State :=
  let s := s.curlStop.curlEnter bankOk
  let s := if s.flt.test.busy then s.packEnd .noResult else s
  s.raise 24 0

/-- PFAIL_n falls at the comparators (R211): host power good ends, the OR isolates host bulk (R216), and while the module
is powered the converter starts when `bankOk`, VBANK at or above 20 V (R215). -/
def State.pfailNote (s : State) (bankOk : Bool) : State :=
  let held := s.pow.dom == .boot || s.pow.dom == .run || s.pow.dom == .restore || s.pow.dom == .wake || s.pow.dom == .curl
    || s.pow.dom == .commitHold
  { s with pow := { s.pow with hostPg := false, pfailLow := true, cutOpen := true },
           zxp := { s.zxp with above20 := bankOk, above16 := s.zxp.above16 || bankOk, orHost := false,
                               convOn := s.zxp.convOn || (!s.pow.pfailLow && held && s.modl.zxpFitted && bankOk) } }.charger

/-- A falling edge of PFAIL_n (R211): Curl starts in BOOT, RUN, RESTORE and WAKE. -/
def State.pfail (s : State) (bankOk : Bool) : State :=
  let t := s.pfailNote bankOk
  if !s.pow.pfailLow && (s.pow.dom == .boot || s.pow.dom == .run || s.pow.dom == .restore || s.pow.dom == .wake)
  then t.curlStart bankOk else t

/-- The times of a Curl as PWR_CURL holds them (R220). -/
def State.curlTimes (s : State) (t : CurlTimes) (reached : Bool) : State :=
  let c := s.pow.curl
  { s with pow := { s.pow with curl := { c with
      sr := if reached then BitVec.ofNat 8 (min 254 (t.sr.getD 0)) else 255
      reg := match t.reg with
        | some r => if s.zxp.convOn then BitVec.ofNat 8 (min 254 r) else 255
        | none => 255
      off := BitVec.ofNat 8 (min 255 t.off), hckLost := s.modl.zxpFitted && !reached } } }

/-- The outcome of Curl (R207): the ranks that hold the image, or EV27 with its flags, and the set without PD3 and
PD5. -/
def State.curlMark (s : State) (image hold : Bool) : State :=
  let s := { s with pow := { s.pow with curl := { s.pow.curl with commit := hold } } }
  let flags : Nat := hold.toNat + 2 * s.pow.curl.hckLost.toNat + 4 * s.pow.curl.noBank.toNat
  let s := if image then (s.setRanks .a .held).setRanks .b .held
    else if s.modl.zxpFitted then s.raise 27 (BitVec.ofNat 24 flags) else s
  { s.pd3Off with pow := { s.pd3Off.pow with image := image } }

/-- COMMIT_HOLD (R207): the commit in flight runs on from the bank. -/
def State.enterCommitHold (s : State) : State :=
  let s := s.setDom .commitHold
  { s with pow := { s.pow with keep := .commitHold, kdeep := true } }

/-- Curl's own commands on a subchannel (R42, R218): PREab, then SRE, on every rank. -/
def State.curlSleep (s : State) (x : Sub) : State := (s.setRanks x .selfRefresh).issue x [(.preAb, 1), (.sre, 1)]

/-- The 1 ms step of Curl (R207): PD3 and PD5 go off, and the image and the commit in flight decide. An image needs
every fitted rank in self-refresh with YRST_n high, and VBANK at 20 V at PFAIL. -/
def State.curlEnd (s : State) (t : CurlTimes) : State :=
  if s.pow.keep != .curl then s else
  let reached := t.sr.isSome || (s.subA.asleep && s.subB.asleep)
  let image := s.modl.zxpFitted && reached && s.host.yrst && !s.pow.curl.noBank
  let hold := s.nvs.commit.isSome && s.zxp.convOn
  let s := if t.sr.isSome then (s.curlSleep .a).curlSleep .b else s
  let u := (s.curlTimes t reached).curlMark image hold
  if hold then u.enterCommitHold
  else if image then u.enterHold
  else u.powerDown (if s.modl.zxpFitted then 6 else s.pow.lastEnd)

/-- The commit in flight has ended (R207). -/
def State.commitHoldEnd (s : State) : State :=
  if s.pow.keep != .commitHold || s.nvs.commit.isSome then s
  else if s.pow.image then s.enterHold else s.powerDown 6

/-! ## Domain faults (R70, R71, R406) -/

/-- A PWR_DOMAIN_FAULT bit (index in [6:2]) and EV30. -/
def State.domFault (s : State) (i : Nat) : State :=
  let f := s.pow.faults ||| BitVec.ofNat 5 (2 ^ i)
  { s with pow := { s.pow with faults := f } }.raise 30 (f.setWidth 24 <<< 2)

/-- PD2 is off until its supplies are valid again, the domain state being `d` (R406). -/
def State.pd2Fall (s : State) (d : Dom) : State :=
  let s := s.pd3Off.pd2Off
  { s with pow := { s.pow with dom := d, pd2Down := true, on := s.pow.on &&& 0x13 } }

/-- Where a PD2 brownout leaves the set, by its domain state (R406). In COMMIT_HOLD that is DORMOUSE; where no image is held
the torn commit has ended COMMIT_HOLD with IMAGE = 0, and R207 and R67 go on to EMPTY and KEEP_ONLY. -/
def State.pd2Drop (s : State) : State :=
  match s.pow.dom with
  | .wake => ((s.setRanks .a .held).setRanks .b .held).pd2Fall .wake
  | .commitHold =>
    let s := { s with pow := { s.pow with svc := false } }.pd2Off.setDom .dormouse
    if s.pow.image then s.enterHold else s.powerDown 6
  | .attended =>
    let s := s.pd2Off.setDom .dormouse
    { s with pow := { s.pow with svc := false } }
  | .save => (s.saveEnd 3).powerDown 7
  | _ => (s.hoardHalt.yrstLow).pd2Fall .boot

/-- A PD2 brownout (R406). -/
def State.pd2Brownout (s : State) : State :=
  if !s.pd2 || s.pow.dom == .curl then s else
  let s := { s with pow := { s.pow with faults := s.pow.faults ||| 1 } }.pd2Drop
  s.raise 30 (s.pow.faults.setWidth 24 <<< 2)

/-- PD2 restarts after a brownout, PD3 and PD5 following it (R406). -/
def State.pd2Again (s : State) : State :=
  if !s.pow.pd2Down then s else ((((s.setDom s.pow.dom).pd2Start 16).pd3Start).pd5Start).chgRearm

/-- One subchannel at a PD3 brownout (R71): BLOCKED, the work of a grant abandoned. -/
def State.pd3Block (s : State) (x : Sub) : State :=
  let s := (((s.trimLeave x).unitAbandon x).repairStop x)
  let s := s.setTr x (fun t => { t with settleGo := false })
  s.setSub x (fun t => { t with owner := .blocked, grant := none, drive := none })

/-- A PD3 brownout (R71); a Resume that it stops may be written again. -/
def State.pd3Brownout (s : State) : State :=
  if !s.pd3 || s.pow.pfailLow || s.host.pd3Fault then s else
  let resumed := s.host.resume.isSome
  let s := (s.pd3Block .a).pd3Block .b
  let s := { s with host := { s.host with pd3Fault := true, resume := none },
                    hrd := { s.hrd with st := if s.hrd.st == HrdSt.restoring || s.hrd.st == HrdSt.lending then .idle
                                              else s.hrd.st } }
  let s := if resumed then (s.setPhase .a .held).setPhase .b .held else s
  s.domFault 1

/-- VDDIO_H is valid again (R71): with an image the subchannels wait as before; otherwise a DRAM reset and the warm
path, its device time counted anew, from now or, while management boots, from management ready. -/
def State.pd3Back (s : State) : State :=
  if !s.host.pd3Fault then s else
  let s := { s with host := { s.host with pd3Fault := false } }
  let s := (s.setSub .a (fun t => { t with owner := .notReady })).setSub .b (fun t => { t with owner := .notReady })
  if s.pow.image then s else
  let s := { s.yrstPulse with hrd := { s.yrstPulse.hrd with readyHeldA := false, readyHeldB := false } }
  let s := (((s.discardWork .a).discardWork .b).setPhase .a .off).setPhase .b .off
  if !s.mgmtReady || s.nvs.rescue then s else
  { s with train := { s.train with devMs := 0 } }.warmStart (wholeDeg s.free ((s.hotNow).getD 0))

/-- PD5 is lost while PD3 is on (R70, R66): every buffer is gone from the bus with what it held, its pins at high
impedance, until PD5 starts again. -/
def State.pd5Lost (s : State) : State :=
  if !s.pow.on.getLsbD 5 || !s.pd3 || s.pow.pfailLow then s else
  let s := { s.pd5Start with train := { s.train with dbGens := List.replicate 10 [], dbRefs := List.replicate 10 [] } }
  { s with host := { s.host with pd5Fault := true } }.domFault 3

/-- The NAND rail does not come up (R70): PD6_FAIL; boot offers no HOARD, a save is HELD, other work stops. -/
def State.pd6Fail (s : State) : State :=
  if !s.pow.on.getLsbD 6 then s else
  let s := s.domFault 4
  match s.pow.dom with
  | .boot => { s with pow := { s.pow with on := s.pow.on &&& 0x3F } }
  | .save => s.saveHeld.raise 49 4
  | _ => s.hoardHalt.restoreEnd

/-! ## The ends of a Dormouse (R48, R207) -/

/-- The DRAM rails are lost during Dormouse (R70, R207). -/
def State.pd4Lost (s : State) : State :=
  if s.pow.keep != .hold then s else (s.powerDown 4).domFault 2

/-- SVC_n is asserted with VAUX valid (R67). -/
def State.svcOn (s : State) : State :=
  let s := { s with pow := { s.pow with svc := true } }
  if s.pow.dom == .dormouse then s.attend else s

/-- SVC_n is released, or VAUX is lost (R67). -/
def State.svcOff (s : State) : State :=
  let s := { s with pow := { s.pow with svc := false } }
  if s.pow.dom == .attended then s.pd2Off.setDom .dormouse else s

/-- VBANK falls through 20 V (R207, R215): it ends a HOLD and a SAVE, and stops the converter unless KDEEP_n holds
it. -/
def State.bankFloor (s : State) : State :=
  let s := { s with zxp := { s.zxp with above20 := false } }
  match s.pow.keep with
  | .hold => s.floorEnd
  | .save => (s.saveEnd 3).powerDown 3
  | _ => if s.pow.kdeep then s else s.conv false

/-- VBANK falls through 16 V (R207): it ends a COMMIT_HOLD, whose commit is torn. -/
def State.commitFloor (s : State) : State :=
  let s := { s with zxp := { s.zxp with above20 := false, above16 := false } }
  if s.pow.keep == .commitHold then (s.powerDown (if s.pow.image then 3 else 6)).raise 28 2
  else s.conv false

/-- Usable energy (R222): E = ½ × C × (VBANK² − (20 V)²) in J, as c × (V² − 4 × 10⁸) over 2 × 10⁸ with c in 10 mF and
V in mV. -/
def energyNum (c : Nat) (mv : Int) : Nat := c * (mv.toNat ^ 2 - 400000000)

/-- C of R222: measured, or nominal. -/
def Zxp.cBank (z : Zxp) : Nat := if z.measValid then z.cMeas.toNat else fld z.pack 9 0

/-- The island reads VBANK and keeps the usable energy, and whether it stands at the reserve (R222, R223). -/
def State.energyRead (s : State) : State :=
  let mv := match s.zxp.held with
    | some h => (nth h 2 AdcCh.fresh).value.toInt
    | none => s.vbank
  let e := energyNum s.zxp.cBank mv
  { s with pow := { s.pow with energyJ := nearest e 200000000, energyX := some e, cSrc := s.zxp.measValid,
                               reserveHit := decide (e ≤ s.pow.reserve.toNat * 200000000) } }

/-- The island reads VBANK (R222) and, in HOLD, tests the reserve (R223). -/
def State.energyUpdate (s : State) : State :=
  if !s.zxpOn || !s.reaches 10 then s else s.energyRead.reserveTrigger

/-- The span expires (R221): a save with the HOARD copy at 1, else nothing. -/
def State.spanExpire (s : State) : State :=
  if s.pow.keep != .hold || s.zxp.plant then s else
  let s := { s with pow := { s.pow with usedMs := max s.pow.usedMs (s.pow.span.toNat * 1000) } }
  if s.pow.copy then s.enterSave else s

/-- The training phase of a subchannel goes from HELD to INIT (R142). -/
def State.heldInit (s : State) (x : Sub) : State :=
  if (s.tr x).phase != .held then s else
  let s := s.setTr x (fun t => { t with phase := .init, rankFail := 0, want := 0, reelDone := false, skip := false })
  s.setRanks x .active

/-- The deadline passes with an image held and no Resume sampled (R226, R227). -/
def State.deadlineDiscard (s : State) : State :=
  if s.pow.keep != .wake || !s.pow.image || s.host.resume.isSome || !s.mgmtReady then s
  else ((s.dropImage 1).heldInit .a).heldInit .b

/-! ## Rows -/

/-- POR_RELEASE (R78). -/
def execPorRelease (st : Straps) (s : State) : Out := .next (if s.pow.dom == .off then s.por st else s)
/-- CRYSTAL_NO_START (R65): POR is released all the same. -/
def execCrystalNoStart (st : Straps) (s : State) : Out := .next (if s.pow.dom == .off then s.porBackup st else s)
/-- VKA_LOST (R67). -/
def execVkaLost (s : State) : Out := .next (if s.pow.dom == .off then s else s.vkaLost)
/-- HOST_POWER_GOOD (R68). -/
def execHostPowerGood (s : State) : Out := .next (if s.pow.dom == .off || s.pow.hostPg then s else s.hostGood)
/-- BOOT_START (R405). -/
def execBootStart (s : State) : Out := .next s.bootStart
/-- PFAIL (R211). -/
def execPfail (bankOk : Bool) (s : State) : Out := .next (if s.pow.dom == .off then s else s.pfail bankOk)
/-- CURL_COMPLETE (R207). -/
def execCurlComplete (t : CurlTimes) (s : State) : Out := .next (s.curlEnd t)
/-- COMMIT_HOLD_END (R207). -/
def execCommitHoldEnd (s : State) : Out := .next s.commitHoldEnd
/-- PD2_BROWNOUT (R406). -/
def execPd2Brownout (s : State) : Out := .next s.pd2Brownout
/-- PD2_BROWNOUT_RESTART (R406). -/
def execPd2BrownoutRestart (s : State) : Out := .next s.pd2Again
/-- PD3_BROWNOUT (R71). -/
def execPd3Brownout (s : State) : Out := .next s.pd3Brownout
/-- PD3_BROWNOUT_END (R71). -/
def execPd3BrownoutEnd (s : State) : Out := .next s.pd3Back
/-- PD4_LOST (R207). -/
def execPd4Lost (s : State) : Out := .next s.pd4Lost
/-- PD5_LOST (R70). -/
def execPd5Lost (s : State) : Out := .next s.pd5Lost
/-- PD6_RAIL_TIMEOUT (R70). -/
def execPd6RailTimeout (s : State) : Out := .next s.pd6Fail
/-- SVC_ATTEND (R67). -/
def execSvcAttend (s : State) : Out := .next s.svcOn
/-- SVC_RELEASE (R67). -/
def execSvcRelease (s : State) : Out := .next s.svcOff
/-- BANK_FLOOR (R207). -/
def execBankFloor (s : State) : Out := .next (if s.zxpOn then s.bankFloor else s)
/-- COMMIT_FLOOR (R207). -/
def execCommitFloor (s : State) : Out := .next (if s.zxpOn then s.commitFloor else s)
/-- ENERGY_UPDATE (R222). -/
def execEnergyUpdate (s : State) : Out := .next s.energyUpdate
/-- SPAN_EXPIRY (R221). -/
def execSpanExpiry (s : State) : Out := .next s.spanExpire
/-- RETAIN_DEADLINE_DISCARD (R227). -/
def execRetainDeadlineDiscard (s : State) : Out := .next s.deadlineDiscard
/-- PACK_TEST_START (R270). -/
def execPackTestStart (s : State) : Out := .next s.packStart
/-- FEAT_SETTLED (R38): every function of an inactive feature stops (R32). -/
def execFeatSettled (s : State) : Out :=
  .next (if s.up && s.feat.phase == .locked then s.settle.calSwitch.hrxSwitch.packSwitch.hoardSwitch.conSettled else s)
/-- PACK_TEST_END (R270). -/
def execPackTestEnd (r : PackEnd) (s : State) : Out := .next (if s.up then s.packEnd r else s)

end Sys2Proof.Machine
end

