-- ==== Sys2Proof/Machine/Resets.lean ====
section
/-! DEFINITION. Clock faults and the resets MRST and HRST (03), and HCK's loss and return (03, 06, 07). -/

namespace Sys2Proof.Machine

/-! ## The root and the MPLL (R58, R65) -/

/-- The crystal stops (03 'Clock faults'): the root runs from KOSC, and the MPLL locks anew. -/
def State.crystalStop (s : State) : State :=
  if s.pow.dom == .off || !s.clk.rootOk then s else
  { s with clk := { s.clk with rootOk := false, onBackup := true, mpllLock := false } }.raise 58 2

/-- The MPLL loses lock (03 'Clock faults'). -/
def State.mpllLoss (s : State) : State :=
  if !s.pd2 || !s.clk.mpllLock then s else { s with clk := { s.clk with mpllLock := false } }.raise 58 3

/-! ## Watchdog and MRST (R73 to R75, R201) -/

/-- A boot that a watchdog ends before management ready has failed its slot once more (R201). With its second failure in a row
the other slot is the one to boot, whatever it failed before. -/
def State.bootFailed (s : State) : State :=
  if s.feat.phase != .booting || s.nvs.rescue then s else
  match s.fwSlot with
  | some k =>
    let n := upd s.pow.failedBoots k.toNat (· + 1)
    { s with pow := { s.pow with failedBoots := if 2 ≤ nth n k.toNat 0 then upd n (!k).toNat (fun _ => 0) else n } }
  | none => s

/-- MRST takes effect (R73, R74): no commit is in flight. -/
def State.mrst (s : State) : State :=
  if !s.pd2 || !s.clk.mrstWait || s.nvs.commit.isSome || s.pow.dom == .curl || s.pow.dom == .commitHold then s
  else { s.mgmtClear with pow := s.mgmtClear.pow.clear }.chgRearm

/-! ## HRST (R52, R76, R86, R142) -/

/-- The window of a subchannel at HRST: commits already sampled are applied, an open transfer is lost with EV6. -/
def State.hrstWin (s : State) (x : Sub) : State :=
  let s := if s.up then s.winFlush x else s
  let opened := (s.sub x).win.opened
  let s := s.setWin x (fun w => { Win.fresh with result := w.result })
  if opened then s.raise 6 (BitVec.ofNat 24 (subNo x)) else s

/-- A subchannel without retention at HRST: NOT_READY, the work of a grant abandoned, training back to WAIT. -/
def State.hrstSub (s : State) (x : Sub) : State :=
  let s := ((s.trimLeave x).unitAbandon x).repairAbandon x
  let s := s.setSub x (fun t => { t with grant := none, owner := if t.owner == .blocked then .blocked else .notReady })
  s.setTr x (fun t => { t with settleGo := false, phase := if t.phase == .off then .off else .wait })

/-- HRST takes effect. -/
def State.hrstDo (s : State) : State :=
  let s := { s with clk := { s.clk with cause := s.clk.cause ||| 32 } }.raise 2 0
  let s := (s.hrstWin .a).hrstWin .b
  let s := (s.setSub .a (fun t => { t with drive := none, hostDq := none })).setSub .b
    (fun t => { t with drive := none, hostDq := none })
  let s := (s.dbcAll .a hostResetFrame).dbcAll .b hostResetFrame
  let s := { s with host := { s.host with cause := 0, merged := false, pulse := none, waitPar := false, waitCrc := false } }
  if s.pow.image then s else
  let s := (s.hrstSub .a).hrstSub .b
  let s := { s with hrd := { s.hrd with readyHeldA := false, readyHeldB := false } }
  if s.host.yrst then s.yrstLow else s

/-- RESET_n is low for 100 ns (R76): the pin's level stands; the reset acts while PD3 is on, and not during Curl. -/
def State.hrst (s : State) : State :=
  let s := { s with host := { s.host with resetHigh := false } }
  if s.pd3 && s.pow.dom != .curl then s.hrstDo else s

/-- RESET_n rises (R52, R76, R81): YRST_n follows unless an image is held or a DRAM reset still runs, and a held latency
takes effect, in the buffers too (R114). -/
def State.hrstEnd (s : State) : State :=
  if s.host.resetHigh then s else
  let h := { s.host with resetHigh := true }
  if !s.pd3 || s.pow.dom == .curl then { s with host := h } else
  let lat := if h.latLoad then h.latActive else h.lat
  let s := { s with host := { h with latActive := lat, yrst := h.yrst || (!s.pow.image && h.yrstMs == 0) } }
  if lat == h.latActive then s else (s.copyCfg .a).copyCfg .b

/-! ## HCK (R64, R140, R170, R172) -/

/-- What stood in a window's crossing to HCK is flushed: the fetch and the read staging's RVALID (R63, R64). -/
def State.winLost (s : State) (x : Sub) : State := s.setWin x (fun w => { w with rvalid := false, fetch := false })

/-- HCK_OK falls: the crossings into HCK are flushed, and a trim step of the CA receivers waiting there is not sent. -/
def State.hckLoss (s : State) : State :=
  if !s.clk.hckOk then s else
  (({ s with clk := { s.clk with hckOk := false, hckValid := false } }.raise 7 0).calAbandonHck.winLost .a).winLost .b

/-- A subchannel whose training a change of rate interrupts starts over from the initialization and runs Quadrille; in a
Resume that is also one whose Polka has passed while the other's still runs. -/
def State.rateRestart (s : State) (resumed : Bool) (x : Sub) : State :=
  let ph := (s.tr x).phase
  if ph != .init && ph != .polka && ph != .reel && ph != .gavotte && ph != .minuet && !(resumed && ph == .done) then s else
  let s := (s.discardWork x).setTr x (fun t => { t with phase := .init, replayed := false, rankFail := 0, want := 0,
                                                        reelDone := false, skip := false })
  let s := { s with train := { s.train with coldCause := 8 } }.coldPath
  (s.setRanks x .active).trainFrames x [0]

/-- HCK is back at a rate in MHz that two measurements agree on; a Resume that the change interrupts has failed. -/
def State.hckReturn (s : State) (mhz : Nat) : State :=
  if !s.pd3 || s.pow.dom == .save || s.pow.dom == .curl || s.clk.hckOk || mhz < 1600 || 4000 < mhz then s else
  let old := s.clk.hckMhz.toNat
  let s := { s with clk := { s.clk with hckOk := true, hckValid := true, hckMhz := BitVec.ofNat 12 mhz } }
  let moved := old != 0 && !rateNear mhz old
  let resumed := s.host.resume.isSome
  let s := if moved && resumed then (s.resumeEnd 2).dropImage 2 else s
  let s := if moved then (s.rateRestart resumed .a).rateRestart resumed .b else s
  let s := if old != 0 && old != mhz then
      (List.range 11).foldl (fun s u => s.calTap u false [] false) s
    else s
  s.calResume

/-! ## Rows -/

/-- CRYSTAL_STOP (R65). -/
def execCrystalStop (s : State) : Out := .next s.crystalStop
/-- MPLL_LOCK_LOSS (R58). -/
def execMpllLockLoss (s : State) : Out := .next s.mpllLoss
/-- MPLL_RELOCK (R58, R63): WCLK runs again, and takes the reports that wait. -/
def execMpllRelock (s : State) : Out :=
  .next (if s.pd2 then State.reportsDrain { s with clk := { s.clk with mpllLock := true } } else s)
/-- MPLL_RELOCK_TIMEOUT (R72): MRST with CLK_RST_CAUSE.CLOCK. -/
def execMpllRelockTimeout (s : State) : Out := .next (if s.pd2 && !s.clk.mpllLock then s.mrstPend 128 else s)
/-- HCK_LOSS (R64). -/
def execHckLoss (s : State) : Out := .next s.hckLoss
/-- HCK_RETURN (R64). -/
def execHckReturn (mhz : Nat) (s : State) : Out := .next (s.hckReturn mhz)
/-- WATCHDOG_EXPIRY (R75): MRST with CLK_RST_CAUSE.WDOG. -/
def execWatchdogExpiry (s : State) : Out := .next (if s.pd2 && s.pow.dom != .curl && s.pow.dom != .commitHold
  then s.bootFailed.mrstPend 8 else s)
/-- MRST (R74). -/
def execMrst (s : State) : Out := .next s.mrst
/-- HRST (R76). -/
def execHrst (s : State) : Out := .next s.hrst
/-- HRST_END (R81). -/
def execHrstEnd (s : State) : Out := .next s.hrstEnd

end Sys2Proof.Machine
end

