-- ==== Sys2Proof/Machine/ZlbRows.lean ====
section
/-! DEFINITION. The rows of the local bus (05). -/

namespace Sys2Proof.Machine

/-- ZLB_WRITE (R128). -/
def execZlbWrite (t : Fin 11) (tag : Fin 32) (word : BitVec 15) (data : Word) (s : State) : Out :=
  .next (s.zlbRequest t (BitVec.ofNat 5 tag) true word data)
/-- ZLB_READ (R128). -/
def execZlbRead (t : Fin 11) (tag : Fin 32) (word : BitVec 15) (s : State) : Out :=
  .next (s.zlbRequest t (BitVec.ofNat 5 tag) false word 0)
/-- ZLB_FETCH (R125). -/
def execZlbFetch (t : Fin 11) (s : State) : Out := .next (s.zlbFrame t zFetch)
/-- ZLB_REFETCH (R125). -/
def execZlbRefetch (t : Fin 11) (s : State) : Out := .next (s.zlbFrame t zRefetch)
/-- ZLB_RETRY (R129). -/
def execZlbRetry (t : Fin 11) (write : Bool) (tag : Fin 32) (word : BitVec 15) (data : Word) (s : State) : Out :=
  .next (s.zlbAgain t write (BitVec.ofNat 5 tag) word data)
/-- ZLB_FRAME_DISCARD (R126): the bits of a frame as the target received them. -/
def execZlbFrameDiscard (t : Fin 11) (edges : Nat) (header data : Word) (s : State) : Out :=
  .next (s.zlbBits t edges header data)
/-- ZLB_FETCH_TICK (R131): the ZX8-R fetches while a request is outstanding, and again after a bad response CRC. -/
def execZlbFetchTick (t : Fin 11) (crcOk : Bool) (s : State) : Out :=
  .next (if s.tgtOut t = 0 then s else s.zlbFrame t (if crcOk then zFetch else zRefetch))
/-- ZLB_RESPONSE (R131): the response last fetched from the target carries the tag. -/
def execZlbResponse (t : Fin 11) (tag : Fin 32) (data : Word) (s : State) : Out :=
  .next (if (s.tgt t).last.any (fun r => r.tag == BitVec.ofNat 5 tag && r.data == data)
    then s.zlbDone t (BitVec.ofNat 5 tag) else s)
/-- ZLB_ATTEMPT_TIMEOUT (R131). -/
def execZlbAttemptTimeout (t : Fin 11) (tag : Fin 32) (s : State) : Out := .next (s.zlbTimeout t (BitVec.ofNat 5 tag))

end Sys2Proof.Machine
end

