-- ==== Sys2Proof/Machine/TwbRows.lean ====
section
/-! DEFINITION. Register access over the two-wire ports (13): the A0 shapes, commit and staging, and reads. -/

namespace Sys2Proof.Machine

/-- The hub address that AL and AH spell. -/
def alah (bs : List Byte) : Addr := nth bs 1 0 ++ nth bs 0 0

/-- The pointer takes AL and AH once AH is acknowledged (R293). -/
def State.takePointer (s : State) (p : Port) (bs : List Byte) : State :=
  if bs.length < 2 then s else s.setPort p (fun t => { t with pointer := alah bs })

/-- A discarded transaction of another shape: it counts, and the pointer has taken AL and AH (R293). -/
def State.a0Discard (s : State) (p : Port) (bs : List Byte) : State := (s.takePointer p bs).setPort p TwbPort.discard

/-- SCL is held after the address while both places are occupied: the oldest access is applied first (R296). -/
def State.a0Room (s : State) (p : Port) : State :=
  if (s.port p).exec.isSome && (s.port p).staged.isSome then (s.twbExec p).twbMove p else s

/-- A committed write takes the execution place, or waits in staging (R294, R296). -/
def State.a0Commit (s : State) (p : Port) (a : Addr) (v : Word) : State :=
  s.setPort p (fun t => if t.exec.isNone then { t with exec := some (a, v) } else { t with staged := some (a, v) })

/-- The bytes after the address are `n` bytes and, with PEC on, a PEC byte: a whole frame. -/
def a0Len (pec : Bool) (bs : List Byte) (n : Nat) : Bool := bs.length == n + pec.toNat

/-- The PEC byte of a write transaction is valid, or PEC is off (R292). -/
def pecGood (pec : Bool) (addr : BitVec 7) (bs : List Byte) : Bool :=
  !pec || bs.getLast? == some (pecOf (addrByte addr false :: bs.dropLast))

/-- An A0 write transaction (R293, R294): a set-pointer, a write, or another shape. A wrong PEC discards all of it
(log entry 13). -/
def State.a0Write (s : State) (p : Port) (addr : BitVec 7) (bs : List Byte) (stop : Bool) : State :=
  if !s.answers p 0 addr false then s else
  let s := s.a0Room p
  let pec := (s.port p).pec
  let set := a0Len pec bs 2 && stop
  let write := a0Len pec bs 6
  if !set && !write then s.a0Discard p bs
  else if !pecGood pec addr bs then s.setPort p TwbPort.pecBad
  else if set then s.takePointer p bs
  else if !stop then s.a0Discard p bs
  else (s.takePointer p bs).a0Commit p (alah bs) (wordOfBytes (nth bs 2 0) (nth bs 3 0) (nth bs 4 0) (nth bs 5 0))

/-- Sends `bytes` bytes of registers from the pointer on, over at most `regs` registers (R295): each register is
fetched as its first byte is due, and the pointer advances after its fourth. -/
def State.a0Fetch (p : Port) : Nat → Nat → State → List Byte → State × List Byte
  | 0, _, s, sent => (s, sent)
  | regs + 1, bytes, s, sent =>
    let a := (s.port p).pointer
    let v := leBytes 4 (s.hubRead (portPath p) a).toNat
    let s := s.afterRead (portPath p) a
    let s := if 4 ≤ bytes then s.setPort p (fun t => { t with pointer := t.pointer + 4 }) else s
    State.a0Fetch p regs (bytes - 4) s (sent ++ v.take bytes)

/-- Every earlier access of the port is complete before a fetch (R296). -/
def State.a0Flush (s : State) (p : Port) : State := ((s.twbExec p).twbMove p).twbExec p

/-- The read phase of an A0 transaction that sends `count` bytes; `lead` are the bytes on the bus before it. -/
def State.a0Send (s : State) (p : Port) (addr : BitVec 7) (lead : List Byte) (count : Nat) (stop : Bool) : State :=
  let pec := (s.port p).pec
  let n := (s.port p).readLen
  if pec && (n == 0 || 32 < n) then
    s.setPort p (fun t => { t.discard with sent := List.replicate count 0xFF })
  else
    let bytes := min count (if pec then n else 32)
    let s := (s.a0Flush p).setPort p (fun t => { t with busy := true })
    let r := State.a0Fetch p ((bytes + 3) / 4) bytes s []
    let check := if pec && n < count then [pecOf (lead ++ addrByte addr true :: r.2)] else []
    let body := r.2 ++ check
    let whole := stop && (if pec then n + 1 == count else 0 < count)
    r.1.setPort p (fun t =>
      let t := { t with busy := false, sent := body ++ List.replicate (count - body.length) 0xFF }
      if whole then t else t.discard)

/-- An A0 read transaction (R293, R295): `head` are the bytes of its write part, none for a read from the pointer. -/
def State.a0Read (s : State) (p : Port) (addr : BitVec 7) (head : List Byte) (count : Nat) (stop : Bool) : State :=
  if !s.answers p 0 addr true || (!head.isEmpty && !s.answers p 0 addr false) then s else
  let s := s.a0Room p
  if head.isEmpty then s.a0Send p addr [] count stop
  else if !a0Len (s.port p).pec head 2 then s.a0Discard p head
  else
    let s := s.takePointer p head
    let s := if (s.port p).pec then s.setPort p (fun t => { t with readLen := (nth head 2 0).toNat }) else s
    s.a0Send p addr (addrByte addr false :: head) count stop

/-! ## Rows -/

/-- TWB_A0_SET_POINTER (R293). -/
def execTwbA0SetPointer (p : Port) (addr : BitVec 7) (bs : List Byte) (stop : Bool) (s : State) : Out :=
  .next (s.a0Write p addr bs stop)
/-- TWB_A0_WRITE (R294). -/
def execTwbA0Write (p : Port) (addr : BitVec 7) (bs : List Byte) (stop : Bool) (s : State) : Out :=
  .next (s.a0Write p addr bs stop)
/-- TWB_A0_READ (R295). -/
def execTwbA0Read (p : Port) (addr : BitVec 7) (head : List Byte) (count : Nat) (stop : Bool) (s : State) : Out :=
  .next (s.a0Read p addr head count stop)
/-- TWB_STAGED_APPLY (R296): the access before it completes, and the staged write follows. -/
def execTwbStagedApply (p : Port) (s : State) : Out := .next (if s.up then (s.twbExec p).twbMove p else s)

end Sys2Proof.Machine
end

