-- ==== Sys2Proof/Machine/WinRows.lean ====
section
/-! DEFINITION. Host commands (04): classes and parity, the window commands Resume and the two grants, and the work
inside a grant (06, 10, 11). -/

namespace Sys2Proof.Machine

/-! ## Window commands (R100) -/

/-- The conditions of RESUME (R100, R226). -/
def State.resumeOk (s : State) (x : Sub) : Bool :=
  s.winTakes x && s.fnActive .retain && s.retainPending && s.pow.keep == .wake && s.host.resume.isNone
    && s.feat.elapsed ≤ s.feat.limitMs

/-- RESUME (R103): HELD becomes POLKA on both subchannels; without buffers no Polka is run (R141). -/
def State.resumeStart (s : State) (x : Sub) : State :=
  if !s.resumeOk x then s else
  let s := { s with host := { s.host with resume := some x } }
  if s.pow.straps.nodb then
    subs.foldl State.polkaPass { s with train := { s.train with unverified := true } }
  else subs.foldl (fun s y => s.setPhase y .polka) s

/-- Write staging byte 0 of a window. -/
def State.grantByte (s : State) (x : Sub) : Nat := (s.sub x).win.stage.toNat % 256

/-- The conditions of MAINT_GRANT (R100), its duration at most `most`. -/
def State.grantOk (s : State) (x : Sub) (most : Nat) : Bool :=
  s.winTakes x && (s.sub x).owner == .host && !s.cmdBusy x && 1 ≤ s.grantByte x && s.grantByte x ≤ most

/-- A subchannel is granted (R86): PREab on every rank. -/
def State.grantStart (s : State) (x : Sub) (g : Grant) : State :=
  ((s.trimLeave x).issue x [(.preAb, 1)]).setSub x (fun t => { t with owner := .granted, grant := some g })

/-- The first work of a maintenance grant of `n` hundred us: a repair unit with 1.1 ms or more, otherwise a training
unit with 1.6 ms or more (R160, R265). -/
def State.grantWork (s : State) (x : Sub) (n : Nat) : State :=
  match (if 11 ≤ n && s.fnActive .pprAuto then s.nextRepair x else none) with
  | some e => s.repairStart x e
  | none => if 16 ≤ n && !s.pow.straps.nodb && (s.tr x).phase == .done then s.unitStart x else s

/-- A granted subchannel has work (R104): a repair, a maintenance unit, an ECS reading, or restore units. -/
def State.grantBusy (s : State) (x : Sub) : Bool :=
  (s.repairBusy x).isSome || (s.tr x).unit.isSome || ((s.sub x).grant.any (fun g => !g.ecs.isEmpty || g.unitsLeft != 0))

/-- Whether the grant has work is noted: without any it goes back at once, with no refresh owed (R104). -/
def State.grantNote (s : State) (x : Sub) : State :=
  let w := s.grantBusy x
  s.setSub x (fun t => { t with grant := t.grant.map (fun g => { g with worked := w }) })

/-- MAINT_GRANT (R104): `ecs` are the readings of the grant's ECS read, none where 60 s have not passed (R261). -/
def State.maintGrant (s : State) (x : Sub) (ecs : List EcsRead) : State :=
  if !s.grantOk x 20 then s
  else ((s.grantStart x ⟨false, if s.pow.straps.nodb then [] else ecs, 0, s.grantByte x, false⟩).grantWork x
    (s.grantByte x)).grantNote x

/-- Units that a lend grant of `n` hundred us restores (R250). -/
def lendUnits (n : Nat) : Nat := min 32 (4 * n - 8)

/-- LEND_GRANT (R100, R250). -/
def State.lendGrant (s : State) (x : Sub) : State :=
  if !s.grantOk x 10 || !s.fnActive .hoard || !s.restoreDue || !s.hrd.lend then s
  else (s.grantStart x ⟨true, [], lendUnits (s.grantByte x), s.grantByte x, false⟩).grantNote x

/-- The subchannel of a class 0 resource. -/
def ecsMine (s : State) (x : Sub) (r : EcsRead) : Bool := s.resPresent 0 r.res && devSub r.res == x

/-- One die's ECS count (R261, R262): an increase of k adds min(k, 16) and names the row. -/
def State.ecsOne (x : Sub) (s : State) (r : EcsRead) : State :=
  if !ecsMine s x r then s else
  let k := if (s.sub x).ecsBase then r.count - sget 0 (s.sub x).ecs r.res else 0
  let s := s.setSub x (fun t => { t with ecs := sset 0 t.ecs r.res r.count })
  if k = 0 || !s.fnOn .faultWindows then s
  else (s.suspectRow r.res ⟨r.bg, r.ba, r.row⟩).fault 0 r.res (min k 16)

/-- The ECS read of a grant. -/
def State.ecsRead (s : State) (x : Sub) (ecs : List EcsRead) : State :=
  if ecs.isEmpty then s else
  (ecs.foldl (State.ecsOne x) s).setSub x (fun t => { t with ecsBase := true })

/-- The unit at work when a grant's duration ends is abandoned: the values held before it stand (log entry 14). -/
def State.grantCut (s : State) (x : Sub) : State := (s.unitAbandon x).repairStop x

/-- The REFab commands that a grant owes each rank (R104): one for every tREFI of its declared duration, 3.9 us in the
normal refresh mode and 1.95 us in the fine one (log entry 4: JESD79-5); none where it had no work. -/
def State.grantRefs (s : State) (x : Sub) (g : Grant) : Nat :=
  if !g.worked then 0
  else g.span * 100000 / (if (nth (s.sub x).shadow (s.lowRank x) MrShadow.fresh).fgr then 1950 else 3900)

/-- A grant ends (R86, R104): refreshed and precharged, CRC_EN, WL and RL copied into the buffers (R114), with the host,
RESULT 1. -/
def State.handback (s : State) (x : Sub) : State :=
  match (s.sub x).grant with
  | none => s
  | some g =>
    let s := (((s.ecsRead x g.ecs).grantCut x).issue x [(.refAb, s.grantRefs x g), (.preAb, 1)]).copyCfg x
    s.setSub x (fun t => { t with owner := .host, grant := none, win := { t.win with result := 1 } })

/-- An MRW to MR 0xF6 (R100): any other code changes nothing. -/
def State.winCommand (s : State) (x : Sub) (cs : BitVec 4) (op : Byte) : State :=
  match op.toNat with
  | 1 => s.resumeStart x
  | 2 => s.maintGrant x []
  | 3 => s.lendGrant x
  | 4 => s.ceReport x
  | 5 => s.passMrw x (csRank cs)
  | _ => s

/-- An MRW to MR 0xF0 to 0xF7 (R95). -/
def State.winMrw (s : State) (x : Sub) (c : HostCycle) : State :=
  match c.mr.toNat with
  | 0xF0 => s.winAddress x false c.op
  | 0xF1 => s.winAddress x true c.op
  | 0xF2 => s.winStage x 0 c.op
  | 0xF3 => s.winStage x 1 c.op
  | 0xF4 => s.winStage x 2 c.op
  | 0xF5 => s.winCommit x c.op
  | 0xF6 => s.winCommand x c.cs c.op
  | _ => s.winAbort x c.op

/-- An MRR to MR 0xF0 to 0xF7 (R95). -/
def State.winMrr (s : State) (x : Sub) (c : HostCycle) : State :=
  match c.mr.toNat with
  | 0xF6 => s.passRead x (csRank c.cs) c.data
  | 0xF7 => s.winStatusRead x
  | m => s.winRead x (m - 0xF0)

/-! ## Host commands (R83, R87 to R90) -/

/-- An intercepted command (R83). -/
def isWindow (c : HostCycle) : Bool := (c.kind == .mrw || c.kind == .mrr) && 0xF0 ≤ c.mr.toNat && c.mr.toNat ≤ 0xF7

/-- Its second cycle has a parity error. -/
def secondBad (c : HostCycle) : Bool := c.second.any (fun p => parityBad p.1 p.2)

/-- What a command whose parity does not block it does, by its class (R83, R87). -/
def State.obey (s : State) (x : Sub) (c : HostCycle) : State :=
  if isWindow c then
    let s := s.hold x
    if c.kind == .mrw then s.winMrw x c else s.winMrr x c
  else if (s.sub x).owner == .host then s.pass x c
  else s.drop x

/-- A sampled command (R83): DES is no command; a discarded one leaves no trace; a parity error in its first cycle
blocks it, one in its second does so with a latency of 2 HCK or in a window MRW (R89). -/
def State.hostCommand (s : State) (x : Sub) (c : HostCycle) : State :=
  if !s.samples then s
  else if c.kind == .des || c.cs = 0 || s.discards x then s.hold x
  else
    let bad1 := s.host.parEn && parityBad c.ca1 c.par1
    let bad2 := s.host.parEn && secondBad c
    let s := if bad1 || (bad2 && (s.host.latActive || (isWindow c && c.kind == .mrw))) then s.hold x else s.obey x c
    let s := if bad1 then s.parityError x else s
    if bad2 then s.parityError x else s

/-! ## Rows -/

/-- HOST_COMMAND (R83). -/
def execHostCommand (x : Sub) (c : HostCycle) (s : State) : Out := .next (s.hostCommand x c)
/-- RESUME (R103). -/
def execResume (x : Sub) (s : State) : Out := .next (s.winSlot x (·.resumeStart x))
/-- MAINT_GRANT (R104). -/
def execMaintGrant (x : Sub) (ecs : List EcsRead) (s : State) : Out := .next (s.winSlot x (·.maintGrant x ecs))
/-- LEND_GRANT (R250). -/
def execLendGrant (x : Sub) (s : State) : Out := .next (s.winSlot x (·.lendGrant x))
/-- GRANT_HANDBACK (R104). -/
def execGrantHandback (x : Sub) (s : State) : Out := .next (s.handback x)

end Sys2Proof.Machine
end

