-- ==== Sys2Proof/Machine/NvsRows.lean ====
section
/-! DEFINITION. Commits of the settings memory (08 R192 to R199) and the end of a firmware image load (R200). -/

namespace Sys2Proof.Machine

/-! ## Commits -/

/-- What a commit of a region stores (R192 step 3). -/
def State.snapshot (s : State) (r : Nat) : Snapshot :=
  match r with
  | 4 => .cal s.cal.body
  | 5 => .warm s.warmBody
  | 6 => .keep ⟨s.hrd.extents, s.hrd.factoryBad, s.hrd.retired⟩
  | _ => .settings s.setBody

/-- The spacing of R196 holds a region back no more: it has run out, an explicit commit has lifted it, or the commit is of
region 6 during a Hoard save or restore. -/
def State.spaceOk (s : State) (r : Nat) : Bool :=
  s.spaced r || s.nvs.lifted.contains r
    || (r == 6 && (s.hrd.st == .saving || s.hrd.st == .restoring || s.hrd.st == .lending))

/-- A pending region that only wear holds back (R197): it waits, and a console command that waits for it is told. -/
def State.budget (s : State) (r : Nat) : State :=
  if s.regionOpen r && !s.wearOk r then (s.throttle r).conCommit r none (tx "budget") else s

/-- W9 is free for a commit: management runs and no cut is on, nothing is gated, no commit and no erase runs, and the
energy gate is open (R195, R198, R217). -/
def State.w9Free (s : State) : Bool :=
  s.up && !s.nvs.rescue && !s.gated && s.nvs.commit.isNone && s.nvs.preErase.isNone && s.energyGate && !s.w9Ends

/-- The bytes of a snapshot (08 'Slot bodies', R144, R173, R189). The manual gives region 6 none: its body's CRC-32C and
length are free values (log entry 100). -/
def Snapshot.bytes : Snapshot → List Byte
  | .settings b => b.bytes
  | .cal b => b.bytes
  | .warm b => b.bytes
  | .keep _ => []

/-- BODY_CRC and LENGTH of a commit; the free values are those of its start. -/
def Commit.sum (c : Commit) : Word × Nat :=
  match c.snap with
  | .keep _ => (Config.freeValue 32 c.free, 1 + (Config.freeValue 12 (c.free + 1)).toNat)
  | b => (crc32c b.bytes, b.bytes.length)

/-- The body programs of a commit. -/
def Commit.programs (c : Commit) : List NvsOp := nvsPages ((regionAt c.region c.target).1 + 32) c.sum.2

/-- The first page program of a commit (R192, R193): the target is erased first where it is not erased. -/
def State.commitBegin (s : State) (r : Nat) : State :=
  let t := !s.slotUse r
  let full := s.slotFull r t
  let s := if full then s.eraseSlot r t else s
  let s := if r = 4 || r = 5 || r = 6 then s.handOff else s
  let c : Commit := ⟨r, t, s.snapshot r, false, s.free⟩
  let s := ((s.wipeSlot r t true).startSpace r).nvsIssue ((if full then nvsErase s.nv r t else []) ++ c.programs)
  let n := s.nvs
  { s with free := s.free + 2,
           nvs := { n with commit := some c, pend := n.pend.filter (· != r), failedPend := n.failedPend.filter (· != r),
                           lifted := n.lifted.filter (· != r),
                           throttled := n.throttled &&& ~~~(BitVec.ofNat 9 (2 ^ r)) } }

/-- W9 starts the next commit (R192, R195, R196): every pending region that fails the wear test is throttled, the oldest
other one whose spacing allows it starts once it has a buffer (R373). -/
def State.commitStart (s : State) : State :=
  if !s.w9Free then s else
  let s := s.nvs.pend.foldl State.budget s
  match s.nvs.pend.find? (fun r => s.regionOpen r && s.wearOk r && s.spaceOk r) with
  | none => s
  | some r =>
    let c := s.pool.claim .w9
    if c.2 then State.commitBegin { s with pool := c.1 } r else { s with pool := c.1 }

/-- A body with its header (R188): GEN one above the higher of the two slots, BIND in regions 4 and 5. -/
def State.headed {β : Type} (s : State) (c : Commit) (b : β) : Held β :=
  ⟨mkHdr c.region (s.nextGen c.region).toNat c.sum.2 (if c.target then (s.wear c.region).2 else (s.wear c.region).1)
    (if c.region = 4 || c.region = 5 then s.bind else 0) c.sum.1, b⟩

/-- The target slot holds the snapshot (R192 steps 5 and 6). -/
def State.commitStore (s : State) (c : Commit) : State :=
  { s with nv := match c.snap with
    | .settings b => { s.nv with settings := s.nv.settings.put c.target (s.headed c b) }
    | .cal b => { s.nv with cal := s.nv.cal.put c.target (s.headed c b) }
    | .warm b => { s.nv with warm := s.nv.warm.put c.target (s.headed c b) }
    | .keep b => { s.nv with keep := s.nv.keep.put c.target (s.headed c b) } }

/-- What TRM_REC_STATUS and CAL_STATUS show once a region is stored: a change made meanwhile still waits. -/
def State.recStored (s : State) (c : Commit) : State :=
  match c.snap with
  | .warm b => { s with train := { s.train with stored := some b, storedSlot := c.target, storedGen := s.nextGen 5,
                                                drifted := false, recPending := s.nvs.pend.contains 5 } }
  | .cal b => { s with cal := { s.cal with pending := decide (b ≠ s.cal.body) } }
  | _ => s

/-- The buffer of a commit's programs goes back. -/
def State.commitFree (s : State) : State :=
  { s with pool := { s.pool.free .w9 with curl := false }, nvs := { s.nvs with commit := none } }

/-- The console line of a commit (R346). -/
def commitLine (r : Nat) (gen : Word) (b : Bool) : Text :=
  tx "nvs commit " ++ regionName r ++ tx " gen " ++ hexWord gen ++ tx (if b then " slot B" else " slot A")

/-- The commands that end a good commit: the body is read back, the header programmed and read back, and on NOR the other
slot's pre-erase begins. -/
def State.commitOps (s : State) (c : Commit) (erase : Bool) : List NvsOp :=
  let a := (regionAt c.region c.target).1
  nvsRead s.nv (a + 32) c.sum.2 :: nvsPages a 32 ++ [nvsRead s.nv a 32]
    ++ (if erase then nvsErase s.nv c.region (!c.target) else [])

/-- A commit has been verified (R192 steps 5 to 7): the target is in use, and on NOR the other slot's pre-erase begins,
which leaves it partly erased until it is done (R193). -/
def State.commitGood (s : State) (c : Commit) : State :=
  let r := c.region
  let gen := s.nextGen r
  let erase := !s.nv.fram && !s.w9Ends
  let s := (((s.recStored c).commitStore c).commitFree).nvsIssue (s.commitOps c erase)
  let n := s.nvs
  let s := { s with nvs := { n with inUse := n.inUse.set (r - 2) c.target, defaults := n.defaults.set (r - 2) false,
                                    lost := n.lost &&& ~~~(BitVec.ofNat 9 (2 ^ r)),
                                    preErase := if erase then some (r, !c.target) else n.preErase } }
  let s := if erase then (s.addErase r (!c.target)).wipeSlot r (!c.target) true else s
  s.conCommit r (some (commitLine r gen c.target)) []

/-- A second verification has failed (R194): the target stays empty, the change waits for the next MRST. -/
def State.commitBad (s : State) (c : Commit) : State :=
  let s := (s.eraseSlot c.region c.target).commitFree
  let s := { s with nvs := { s.nvs with errWrite := satAdd s.nvs.errWrite 1,
                                        failedPend := s.nvs.failedPend.filter (· != c.region) ++ [c.region] } }
  (s.raise 33 (BitVec.ofNat 24 c.region)).conCommit c.region none (tx "write")

/-- A commit ends (R192 to R194): a first failure erases the target and repeats it. A header whose generation is out of range
does not read back as valid (R188). -/
def State.commitEnd (s : State) (verified : Bool) : State :=
  match s.nvs.commit with
  | none => s
  | some c =>
    if verified && genOk (s.nextGen c.region).toNat then s.commitGood c
    else if c.second then s.commitBad c
    else
      let s := (s.eraseSlot c.region c.target).wipeSlot c.region c.target true
      let s := s.nvsIssue (nvsErase s.nv c.region c.target ++ c.programs)
      { s with nvs := { s.nvs with commit := some { c with second := true } } }

/-! ## The image (R200, R355) -/

/-- `n` bytes of a body from an offset, as a number. -/
def bodyNat (bs : List Byte) (off n : Nat) : Nat := leNat ((bs.drop off).take n)

/-- The section of core `n`: absent sections are zero, present ones fit the image and IMEM and match their CRC. -/
def sectionOk (img : List Byte) (mask n : Nat) : Bool :=
  let e := 0x110 + 12 * n
  let off := bodyNat img e 4
  let len := bodyNat img (e + 4) 4
  if mask.testBit n then
    4 ≤ len && len ≤ 32768 && len % 4 == 0 && off + len ≤ img.length
      && (crc32c ((img.drop off).take len)).toNat == bodyNat img (e + 8) 4
  else off == 0 && len == 0 && bodyNat img (e + 8) 4 == 0

/-- What boot reads of a firmware body. -/
def fwOf (bs : List Byte) : FwBody :=
  let img := bs.drop 7
  let mask := bodyNat img 6 2
  let routes := (img.drop 0x10).take 256
  { part := BitVec.ofNat 16 (bodyNat bs 0 2), issues := nth bs 2 0, build := nth bs 4 0, minor := nth bs 5 0,
    major := nth bs 6 0, version := BitVec.ofNat 16 (bodyNat img 4 2), cores := BitVec.ofNat 12 mask,
    routes := (List.range 64).map (fun i => BitVec.ofNat 32 (bodyNat routes (4 * i) 4)),
    sound := img.take 4 == [0x46, 0x4C, 0x46, 0x31] && bodyNat img 4 2 == 1 && mask < 4096
      && (crc32c routes).toNat == bodyNat img 8 4 && (List.range 12).all (sectionOk img mask),
    sections := (List.range 12).map (fun n => if mask.testBit n then
      (img.drop (bodyNat img (0x110 + 12 * n) 4)).take (bodyNat img (0x114 + 12 * n) 4) else []) }

/-- The bytes of a load, in body order. -/
def ImgLoad.bytes (i : ImgLoad) : List Byte := i.words.reverse.flatMap (fun w => leBytes 4 w.toNat)

/-- A load is complete and good: the header is written, DONE and EV36; no boot of the new image has failed (R201); in rescue
mode MRST follows (R202). -/
def State.imgGood (s : State) (body : List Byte) : State :=
  let t := s.nvs.imgTarget
  let a := (regionAt 2 t).1
  let h : Held FwBody := ⟨mkHdr 2 (s.nextGen 2).toNat body.length (if t then (s.wear 2).2 else (s.wear 2).1) 0 (crc32c body),
    fwOf body⟩
  let s := s.nvsIssue (nvsRead s.nv (a + 32) body.length :: nvsPages a 32 ++ [nvsRead s.nv a 32])
  let s := { s with nv := { s.nv with fw := s.nv.fw.put t h },
                    nvs := { s.nvs with img := none, imgDone := true, imgReason := 0 },
                    pow := { s.pow with failedBoots := upd s.pow.failedBoots t.toNat (fun _ => 0) } }
  let s := s.raise 36 (BitVec.ofNat 24 t.toNat)
  if s.nvs.rescue then s.mrstRequest .warren else s

/-- An image load whose words have all arrived ends (R200): REASON 1 CRC, 2 part or issue, 3 verify, 4 gated. -/
def State.imgEnd (s : State) (verified : Bool) : State :=
  match s.nvs.img with
  | none => s
  | some i =>
    if s.gated then s.imgFail 4 else if i.left != 0 then s else
    let body := i.bytes
    if crc32c body != s.nvs.imgCrc then s.imgFail 1
    else if bodyNat body 0 2 != 0x0A38 || !(nth body 2 0).getLsbD 2 then s.imgFail 2
    else if !verified || !genOk (s.nextGen 2).toNat then s.imgFail 3
    else s.imgGood body

/-! ## Rows -/

/-- NVS_COMMIT_START (R192). -/
def execNvsCommitStart (s : State) : Out := .next s.commitStart
/-- NVS_COMMIT_DONE (R192). -/
def execNvsCommitDone (verified : Bool) (s : State) : Out := .next (s.commitEnd verified)
/-- NVS_IMAGE_END (R200). -/
def execNvsImageEnd (verified : Bool) (s : State) : Out := .next (if s.up then s.imgEnd verified else s)

end Sys2Proof.Machine
end

