-- ==== Sys2Proof/Machine/ConShow.lean ====
section
/-! DEFINITION. What the console's read commands print (15 'Commands'; the worked examples of 01 to 13). Labels and the
layout of lines that no rule or example gives are log entry 16. -/

namespace Sys2Proof.Machine

/-! ## Pieces of a line -/

/-- A label, padded, and what follows it. -/
def lab (w : Nat) (l : String) (t : Text) : Text := tx l ++ List.replicate (w - (tx l).length) ' ' ++ t

/-- yes or no. -/
def yesNo (b : Bool) : Text := tx (if b then "yes" else "no")
/-- on or off. -/
def onOff (b : Bool) : Text := tx (if b then "on" else "off")

/-- Words with a space between them; `none` when there are none. -/
def wordsOr (e : String) (l : List Text) : Text := if l.isEmpty then tx e else List.intercalate [' '] l

/-- The fraction digits of a figure of `k` decimals, trailing zeros dropped down to `least`. -/
def fracOf (least k n : Nat) : Text :=
  let d := decPad k (n % 10 ^ k)
  d.take (max least (k - (d.reverse.takeWhile (· == '0')).length))

/-- A figure in units of its `k`-th decimal, exact, with at least `least` decimals. -/
def decEx (least k n : Nat) : Text :=
  let f := fracOf least k n
  dec (n / 10 ^ k) ++ (if f.isEmpty then [] else '.' :: f)

/-- Volts of a value in mV. -/
def volts (mv : Int) : Text := (if mv < 0 then ['-'] else []) ++ decEx 1 3 mv.natAbs ++ tx " V"

/-- MiB of rows: 320 KiB each (R251). -/
def mibOf (rows : Nat) : Text := decEx 0 4 (rows * 3125) ++ tx " MiB"

/-- A read on the console path. -/
def State.conRead (s : State) (a : Nat) : Word := s.hubRead .console (BitVec.ofNat 16 a)

/-- Registers by name, those that are absent left out. -/
def State.regLines (s : State) (rs : List (String × Nat)) : List Text :=
  (rs.filter (fun r => (s.reg .console (BitVec.ofNat 16 r.2)).isSome)).map
    (fun r => lab 16 r.1 (hexWord (s.conRead r.2)))

/-! ## Calendar (R62, R341) -/

/-- Days from 1970-01-01 to a date of the Gregorian calendar. -/
def daysOf (y m d : Nat) : Nat :=
  let y' := if m ≤ 2 then y - 1 else y
  let doy := (153 * (if 2 < m then m - 3 else m + 9) + 2) / 5 + d - 1
  y' * 365 + y' / 4 - y' / 100 + y' / 400 + doy - 719468

/-- The date of a day from 1970-01-01 on. -/
def dateOf (days : Nat) : Nat × Nat × Nat :=
  let z := days + 719468
  let doe := z % 146097
  let yoe := (doe - doe / 1460 + doe / 36524 - doe / 146096) / 365
  let doy := doe - (365 * yoe + yoe / 4 - yoe / 100)
  let mp := (5 * doy + 2) / 153
  let m := if mp < 10 then mp + 3 else mp - 9
  (yoe + z / 146097 * 400 + (if m ≤ 2 then 1 else 0), m, doy - (153 * mp + 2) / 5 + 1)

/-- A time of day and a date. -/
def utcText (secs : Nat) : Text :=
  let d := dateOf (secs / 86400)
  let t := secs % 86400
  decPad 4 d.1 ++ ['-'] ++ decPad 2 d.2.1 ++ ['-'] ++ decPad 2 d.2.2 ++ [' '] ++ decPad 2 (t / 3600) ++ [':']
    ++ decPad 2 (t / 60 % 60) ++ [':'] ++ decPad 2 (t % 60) ++ tx " UTC"

/-- Wall time: lifetime seconds and the offset (R62). -/
def State.wallText (s : State) : Text :=
  if s.clk.wallSet then utcText ((s.clk.life.setWidth 48 + s.clk.wall : BitVec 48).toNat) else tx "not set"

/-- Lines `life` and `wall`. -/
def State.timeLines (s : State) (w : Nat) : List Text :=
  [lab w "life" (dec s.clk.life.toNat ++ tx " s"), lab w "wall" s.wallText]

/-! ## Identity, negotiation, clocks and power -/

/-- `id`. -/
def State.idLines (s : State) : List Text :=
  [lab 10 "part" (hexWord (s.conRead 0x0000)), lab 10 "family" (hexWord (s.conRead 0x0004)),
   lab 10 "firmware" (hexWord (s.conRead 0x0010)), lab 10 "straps" (hexWord (s.conRead 0x0014)),
   lab 10 "peer" (hexWord (s.conRead 0x0018)), lab 10 "order" s.nv.factory.order]

/-- `feature show`. -/
def State.featureLines (s : State) : List Text :=
  [lab 8 "offer" (hexWord (s.conRead 0x0040)), lab 8 "accept" (hexWord (s.conRead 0x0048)),
   lab 8 "active" (hexWord (s.conRead 0x0058)),
   lab 8 "locked" (if s.locked then tx "yes by " ++ byWord s.feat.lockedBy.toNat ++ tx " settled " ++ yesNo s.settled
     else tx "no  deadline in " ++ dec (fld s.featRemain 14 0) ++ tx " ms")]

/-- `clock show`. -/
def State.clockLines (s : State) : List Text :=
  let c := s.clk
  [lab 9 "root" (tx "25.000 MHz " ++ tx (if c.onBackup then "kosc" else "crystal") ++ tx (if c.rootOk then "  ok" else "  failed")),
   lab 9 "mpll" (tx (if c.mpllLock then "locked  wclk 400 MHz" else "unlocked") ++ tx "  zlb "
     ++ tx (if c.zlbKeep then "12.5 MHz" else "100 MHz")),
   lab 9 "hck" (dec c.hckMhz.toNat ++ tx " MHz (" ++ dec (2 * c.hckMhz.toNat) ++ tx " MT/s)"
     ++ tx (if c.hckOk then "  ok" else "  lost"))] ++ s.timeLines 9

/-- The words of the domain states. -/
def domWord (d : Dom) : Text :=
  tx (nth ["off", "keep-only", "boot", "run", "curl", "commit-hold", "dormouse", "attended", "save", "wake", "restore"]
    (domCode d) "")

/-- The domains whose bit is as given. -/
def domList (on : BitVec 7) (up : Bool) : Text :=
  wordsOr "none" (((List.range 7).filter (fun i => on.getLsbD i == up)).map (fun i => tx "PD" ++ dec i))

/-- The power faults by name, in bit order. -/
def powerWords : List String := ["pd2-brownout", "pd3-brownout", "pd4-lost", "pd5-fail", "pd6-fail"]

/-- Names of the set bits of a mask. -/
def maskWords (ns : List String) (m : Nat) : List Text :=
  (ns.zipIdx.filter (fun e => m.testBit e.2)).map (fun e => tx e.1)

/-- `power domains` and `power faults`. -/
def State.powerLines (s : State) (faults : Bool) : List Text :=
  if faults then [lab 9 "faults" (wordsOr "none" (maskWords powerWords s.pow.faults.toNat))]
  else [lab 9 "state" (domWord s.pow.dom), lab 9 "on" (domList s.pow.on true), lab 9 "off" (domList s.pow.on false)]

/-! ## `show` -/

/-- The words of ownership. -/
def ownerWord (o : Owner) : Text := tx (nth ["not-ready", "host", "granted", "stopped", "blocked"] (ownerCode o) "")

/-- A subchannel in `show host`. -/
def State.subLine (s : State) (l : String) (x : Sub) : Text :=
  let t := s.sub x
  lab 10 l (ownerWord t.owner ++ tx (if t.owner == .host then "  ready" else "  not-ready") ++ tx "  parity "
    ++ dec t.parCount.toNat ++ tx "  dropped " ++ dec t.dropCount.toNat ++ tx "  yalert " ++ dec t.yalertCount.toNat)

/-- The hub window of a subchannel. -/
def winWord (w : Win) : Text := tx (if w.opened || w.fetch || !w.commits.isEmpty then "busy" else "idle")

/-- `show host`. -/
def State.hostLines (s : State) : List Text :=
  let h := s.host
  [lab 10 "latency" (dec s.latency ++ tx " HCK (applies at next HRST: " ++ dec (1 + h.lat.toNat) ++ tx " HCK)"),
   lab 10 "parity" (onOff h.parEn ++ tx "  stop " ++ onOff h.parStop ++ tx "  alert width " ++ dec h.alertW.toNat ++ tx " HCK"),
   s.subLine "subch A" .a, s.subLine "subch B" .b,
   lab 10 "cause" (wordsOr "none" (maskWords ["par-a", "par-b", "crc-a", "crc-b", "stop-a", "stop-b", "merged"] s.alertCause.toNat))]
  ++ (if s.regOn .hubwin then
    [lab 10 "window" (tx "A " ++ winWord s.subA.win ++ tx "  B " ++ winWord s.subB.win ++ tx "  autoinc " ++ onOff h.ainc)]
    else [])

/-- A buffer in `show db`. -/
def State.dbLine (s : State) (n : Nat) : Text :=
  let t := s.setSel .console (fun x => { x with dbm := BitVec.ofNat 4 n })
  tx "db " ++ dec n ++ tx "  " ++ (if !s.reaches n then tx "unreachable" else
    tx "status " ++ hexWord (t.conRead 0x0C88) ++ tx "  temp " ++ hexWord (t.conRead 0x0C98) ++ tx "  crc "
      ++ hexWord (t.conRead 0x0C90))

/-- The DBM_ registers by name. -/
def dbmNames : List (String × Nat) :=
  [("dbm-present", 0x0C04), ("dbm-unreach", 0x0C08), ("dbm-crc", 0x0C0C), ("dbm-dbc", 0x0C10), ("dbm-zlb", 0x0C14),
   ("dbm-stall", 0x0C18), ("dbm-out", 0x0C1C), ("dbm-temp", 0x0C20), ("dbm-hold", 0x0C24)]

/-- `show db`. -/
def State.dbLines (s : State) (n : Option Nat) : List Text :=
  match n with
  | some n => s.regLines dbmNames ++ [s.dbLine n]
  | none => s.regLines dbmNames ++ ((List.range 10).filter (fun n => s.zlb.present.getLsbD n || s.unreach n)).map s.dbLine

/-- The rate of a two-wire port. -/
def twbRate (cfg : Word) : Text := tx (nth ["100 kHz", "400 kHz", "1 MHz", ""] (fld cfg 3 2) "")

/-- The addresses of a port. -/
def State.twbAddrs (s : State) (p : Port) : Text :=
  tx "A0 " ++ hex0 2 (s.ownAddr p 0) ++ tx "  A1 " ++ hex0 2 (s.ownAddr p 1) ++ tx "  A2 " ++ hex0 2 (s.ownAddr p 2)

/-- PEC, time-out and rate of a port. -/
def twbModes (cfg : Word) : Text :=
  tx "  pec " ++ onOff (bitAt cfg 0) ++ tx "  timeout " ++ onOff (bitAt cfg 1) ++ tx "  " ++ twbRate cfg

/-- State and counters of a port. -/
def twbCounts (t : TwbPort) : Text :=
  tx "pec " ++ dec t.errPec.toNat ++ tx "  discard " ++ dec t.errDiscard.toNat ++ tx "  timeout " ++ dec t.tmout.toNat
    ++ tx "  arb-lost " ++ dec t.arbLost.toNat ++ tx "  busy " ++ dec t.busyCount.toNat

/-- `show twb`. -/
def State.twbLines (s : State) : List Text :=
  let h := s.twb.host
  let a3 := if bitAt s.twb.a3 31 then hex0 2 (fld s.twb.a3 6 0) else tx "off"
  let state := fun (t : TwbPort) => tx (if t.busy || t.exec.isSome || t.job.isSome then "busy" else "idle")
  [lab 10 "host" (s.twbAddrs .host ++ tx "  A3 " ++ a3 ++ twbModes h.cfg),
   lab 10 "" (state h ++ tx "  staged " ++ yesNo h.staged.isSome ++ tx "  halrt " ++ yesNo s.halrtLow),
   lab 10 "" (twbCounts h),
   lab 10 "local" (s.twbAddrs .loc ++ twbModes s.twb.loc.cfg),
   lab 10 "" (tx "polls " ++ dec (s.twb.polls.filter (fun q => bitAt q.cfg 31)).length ++ tx " enabled")]

/-- `show con`. -/
def State.conLines (s : State) : List Text :=
  s.regLines [("con-cfg", 0x2800), ("con-status", 0x2804), ("con-lost", 0x2808), ("con-err", 0x280C),
    ("con-unlock", 0x2810)]

/-- `service status`. -/
def State.serviceLines (s : State) : List Text :=
  let c := s.con
  let m := maskOf [c.uart.unlocked, c.host.unlocked, c.loc.unlocked]
  [lab 10 "unlocked" (wordsOr "none" (maskWords ["uart", "host", "local"] m)), lab 10 "lockout" (yesNo c.lockout),
   lab 10 "con-wp" (onOff s.pow.straps.conWp)]

/-! ## Training, trim and calibration -/

/-- The words of the training phases. -/
def phaseWord (p : Phase) : Text :=
  tx (nth ["off", "wait", "held", "init", "polka", "reel", "gavotte", "minuet", "done", "maint", "fail"] (phaseCode p) "")

/-- Ranks of a mask. -/
def rankWords (m : BitVec 4) : Text := wordsOr "none" (maskWords ["0", "1", "2", "3"] m.toNat)

/-- A subchannel in `train show`. -/
def trainLine (l : String) (t : TrainSub) : Text :=
  lab 10 l (phaseWord t.phase ++ tx "  ready " ++ dec t.ready.toNat ++ tx " ms  rank-fail " ++ rankWords t.rankFail)

/-- `train show`. -/
def State.trainLines (s : State) : List Text :=
  let t := s.train
  let path := tx (nth ["none", "warm", "cold", "resume", "warm-cold", "resume-cold", "no-db", ""] t.path.toNat "")
  let cause := tx (nth ["none", "no-record", "layout", "rate", "population", "temperature", "invalidated", "polka", "hck-rate"]
    t.coldCause.toNat "none")
  let recd := if t.recValid then
      tx "slot " ++ tx (if t.storedSlot then "B" else "A") ++ tx "  gen " ++ hex0 4 (t.storedGen.toNat % 65536) ++ tx "  "
        ++ dec (match t.stored with | some r => r.rate.toNat | none => 0) ++ tx " MHz"
    else tx "none"
  let want := (if t.a.want = 0 then [] else [tx "A " ++ rankWords t.a.want])
    ++ (if t.b.want = 0 then [] else [tx "B " ++ rankWords t.b.want])
  [lab 10 "path" (path ++ tx "  cold-cause " ++ cause ++ tx "  polka pairs repeated " ++ dec t.pairs.toNat),
   trainLine "subch A" t.a, trainLine "subch B" t.b,
   lab 10 "record" (recd ++ tx "  pending " ++ yesNo t.recPending)]
  ++ (if s.regOn .warmBoot then [lab 10 "host blob" (if t.hpub then
      tx "valid  " ++ dec t.blobLen.toNat ++ tx " words  fp " ++ hexWord t.hfp else tx "not valid")] else [])
  ++ [lab 10 "maint" (tx "want " ++ wordsOr "none" want)]

/-- `trim show`. -/
def State.trimLines (s : State) : List Text :=
  let unit := fun (u : Nat) => tx "trim " ++ tx (if u < 10 then "db " else "ca ") ++ dec (if u < 10 then u else u - 10)
    ++ (if u < 10 && !s.reaches u then tx "  unreachable" else
      tx "  steps " ++ dec (nth s.trim.queues u []).length ++ tx "  limit " ++ yesNo (s.trim.limit.getLsbD u))
  s.regLines [("trim-cfg", 0x1200), ("trim-lim", 0x1204), ("trim-status", 0x1208), ("trim-count", 0x120C),
    ("trim-loss", 0x1210), ("trim-worst", 0x1214), ("sme", 0x1220)]
  ++ ((List.range 12).filter (fun u => 10 ≤ u || s.zlb.present.getLsbD u || s.unreach u)).map unit

/-- `cal show`. -/
def State.calLines (s : State) : List Text :=
  let unit := fun (u : Nat) => tx "unit " ++ dec u ++ (if u != 0 && !s.reaches (u - 1) then tx "  unreachable" else
    tx "  tap " ++ decFix 4 ((s.calUnit u).size.toNat * 625) ++ tx " ps  tph " ++ dec (s.calUnit u).tph.toNat)
  s.regLines [("cal-status", 0x1000), ("cal-cfg", 0x1004), ("cal-count", 0x100C), ("cal-reject", 0x1010),
    ("cal-last", 0x1014), ("cal-life-lo", 0x1018), ("cal-life-hi", 0x101C), ("cal-utc-lo", 0x1020),
    ("cal-utc-hi", 0x1024), ("cal-adc-ref", 0x1038), ("cal-adc-fine", 0x103C), ("cal-adc-coarse", 0x1040),
    ("cal-adc-status", 0x1044)]
  ++ ((List.range 11).filter (fun u => u = 0 || s.zlb.present.getLsbD (u - 1) || s.unreach (u - 1))).map unit

/-! ## Keep-alive and Hoard -/

/-- The words of the keep states. -/
def keepWord (k : Keep) : Text :=
  tx (nth ["normal", "curl", "commit-hold", "dormouse", "save", "wake", "empty"] (keepCode k) "")

/-- An ADC channel's VALUE. -/
def State.adcVal (s : State) (n : Nat) : Int := (nth s.zxp.chans n AdcCh.fresh).value.toInt

/-- The words of an area's state (R242). -/
def areaWord (a : Area) : Text := tx (nth ["clean", "incomplete", "complete", "consumed"] a.state "")

/-- A or B. -/
def abText (b : Bool) : Text := if b then ['B'] else ['A']

/-- `keep status`. -/
def State.keepLines (s : State) : List Text :=
  let z := s.zxp
  let lost := !s.reaches 10
  let un := tx "unreachable"
  [lab 10 "state" (keepWord s.pow.keep),
   lab 10 "plant" (if lost then un else if z.plant then tx "present  " ++ volts (s.adcVal 0) else tx "absent"),
   lab 10 "span" (dec (s.pow.usedMs / 1000) ++ tx " s of " ++ dec s.pow.span.toNat ++ tx " s"),
   lab 10 "bank" (if lost then un else volts (s.adcVal 2) ++ tx "  " ++ dec s.pow.energyJ ++ tx " J usable  reserve "
     ++ dec s.pow.reserve.toNat ++ tx " J")]
  ++ (if s.pow.on.getLsbD 1 then
    [lab 10 "charger" (if lost then un else
      tx (nth ["off", "current", "voltage", "full"] z.chg.toNat "") ++ tx "  target " ++ decFix 1 (fld z.chgCfg 6 0 * 5)
        ++ tx " V  " ++ decFix 2 (fld z.chgCfg 12 8 * 5) ++ tx " A  from " ++ tx (if z.chgPlant then "plant" else "host"))]
    else [])
  ++ (if s.offers .hoard then
    [lab 10 "hoard" (tx (if s.hoardCopy then "armed" else "not armed") ++ tx "  keep region "
      ++ mibOf (mapRows s.hrd.extents) ++ (if s.hrd.newest.state < 2 then tx "  no image" else
        tx "  image " ++ abText s.hrd.newestB ++ [' '] ++ areaWord s.hrd.newest))]
    else [])

/-- The words of the Hoard unit's states. -/
def hrdWord (h : HrdSt) : Text := tx (nth ["idle", "saving", "held", "restoring", "lending", "erasing"] (hrdCode h) "")

/-- `hoard status`. -/
def State.hoardLines (s : State) : List Text :=
  let h := s.hrd
  let image := if h.newest.state < 2 then tx "none" else
    abText h.newestB ++ [' '] ++ areaWord h.newest ++ tx " gen " ++ hex0 4 (h.newest.gen % 65536)
  let part := fun (x : Sub) => dec (h.wmark x) ++ tx " of " ++ dec (mapUnits h.imageMap x) ++ tx " units"
  [lab 10 "state" (hrdWord h.st ++ tx "  image " ++ image ++ tx "  spare " ++ abText h.spareB ++ [' '] ++ areaWord h.spare),
   lab 10 "map" (dec (h.extents.filter Extent.en).length ++ tx " extents  " ++ dec (mapRows h.extents) ++ tx " rows  "
     ++ mibOf (mapRows h.extents) ++ tx "  reserve " ++ dec s.pow.reserve.toNat ++ tx " J (min " ++ dec h.minJ ++ tx " J)"),
   lab 10 "restore" (tx "A " ++ part .a ++ tx "  B " ++ part .b),
   lab 10 "ecc" (tx "corrected " ++ dec h.corrected.toNat ++ tx "  uncorrectable " ++ dec h.uncorrectable.toNat)]

/-- a or b. -/
def subWord : Sub → Text
  | .a => ['a'] | .b => ['b']

/-- `hoard map`. -/
def State.hoardMapLines (s : State) : List Text :=
  (s.hrd.extents.zipIdx.filter (fun e => e.1.en)).map (fun e =>
    tx "extent " ++ dec e.2 ++ tx "  sub " ++ subWord e.1.sub ++ tx "  rank " ++ dec e.1.rank ++ tx "  cid " ++ dec e.1.cid
      ++ tx "  first " ++ dec e.1.first ++ tx "  rows " ++ dec e.1.rows)

/-! ## Faults, repairs and events -/

/-- The class words (R333). -/
def classWords : List String := ["dram", "dq", "ca", "zlb", "nvs", "pack"]
/-- The word of a class. -/
def classWord (c : Nat) : Text := tx (nth classWords c "")

/-- The words of a fault state. -/
def stateWord (f : FltState) : Text := tx (nth ["none", "transient", "lasting", "was"] (fltCode f) "")

/-- What a resource is (R256). -/
def resText (c i : Nat) : Text :=
  match c with
  | 0 => tx "sub " ++ (if i < 160 then ['A'] else ['B']) ++ tx " rank " ++ dec (i / 40 % 4) ++ tx " cid " ++ dec (i / 10 % 4)
      ++ tx " pkg " ++ dec (i % 10)
  | 1 => tx "db " ++ dec (i / 2) ++ tx " nibble " ++ dec (i % 2)
  | 2 => tx "sub " ++ (if i = 0 then ['A'] else ['B'])
  | 3 => if i = 10 then tx "zxp" else tx "db " ++ dec i
  | 4 => regionName i
  | _ => tx (if i = 0 then "capacitance" else "esr")

/-- `fault list`. -/
def State.faultLines (s : State) : List Text :=
  (s.flt.res.filter (fun e => e.2.state != .none && s.resPresent (e.1 / 512) (e.1 % 512))).map (fun e =>
    classWord (e.1 / 512) ++ [' '] ++ dec (e.1 % 512) ++ [' '] ++ stateWord e.2.state ++ tx "  sum " ++ dec e.2.sum)

/-- The words of a repair entry. -/
def repWord (r : RepStatus) : Text := tx (nth ["empty", "wanted", "applied", "reapply", "failed"] (repCode r) "")

/-- Ω in UTF-8. -/
def ohm : Text := [Char.ofNat 0xCE, Char.ofNat 0xA9]

/-- `fault show`. -/
def State.faultShow (s : State) (c i : Nat) : List Text :=
  let r := s.res c i
  let t := s.flt.test
  [lab 10 "class" (classWord c ++ tx "  resource " ++ dec i ++ tx "  " ++ resText c i),
   lab 10 "state" (stateWord r.state ++ tx "  sum " ++ dec r.sum ++ tx "  current " ++ dec (nth r.buckets 7 0).toNat
     ++ tx "  quiet " ++ dec r.quiet)]
  ++ (match r.suspect with
    | some u => if c = 0 then [lab 10 "suspect" (tx "bg " ++ dec u.at_.bg.toNat ++ tx " ba " ++ dec u.at_.ba.toNat
        ++ tx " row " ++ hex0 5 u.at_.row.toNat ++ tx "  count " ++ dec u.count.toNat)] else []
    | none => [])
  ++ (if c = 0 && s.regOn .pprAuto then
    (s.flt.repairs.zipIdx.filter (fun e => e.1.status != .empty && e.1.device == i)).map (fun e =>
      lab 10 "repair" (tx "entry " ++ dec e.2 ++ tx "  " ++ repWord e.1.status ++ tx "  times " ++ dec e.1.applied.toNat))
    else [])
  ++ (if c = 5 then
    [lab 10 "test" (tx "c " ++ decFix 2 t.c.toNat ++ tx " F  esr " ++ dec t.esr.toNat ++ tx " m" ++ ohm ++ tx "  outcome "
      ++ tx (nth ["none", "result", "no result", "dropped"] t.outcome.toNat "") ++ tx "  limit "
      ++ (if i = 0 then decEx 2 4 (fld s.zxp.pack 9 0 * fld s.flt.pack 17 10) ++ tx " F"
          else dec (fld s.flt.pack 29 18) ++ tx " m" ++ ohm))]
    else [])

/-- The route words, in EVT_SRCn bit order from bit 1. -/
def routeWords : List String := ["halrt", "hn", "con", "evt", "log"]

/-- A source in `event show`. -/
def evShort (x : EvtSrc) (n : Nat) : Text :=
  tx "ev " ++ decPad 2 n ++ [' '] ++ evName n ++ tx "  total " ++ dec x.total.toNat ++ tx "  pend " ++ dec x.pend.toNat

/-- `event show`. -/
def State.eventLines (s : State) (n : Option Nat) : List Text :=
  match n with
  | none => (s.evt.srcs.zipIdx.filter (fun e => e.1.status && s.evtRegPresent e.2)).map (fun e => evShort e.1 e.2)
  | some n =>
    let x := nth s.evt.srcs n EvtSrc.fresh
    [evShort x n, lab 10 "status" (yesNo x.status), lab 10 "enable" (onOff x.en),
     lab 10 "route" (wordsOr "none" (maskWords routeWords (x.cfg.toNat / 2))),
     lab 10 "arg" (hex0 6 x.arg.toNat)]

/-- `maint show`. -/
def State.maintLines (s : State) : List Text := s.regLines [("maint", 0x1134), ("repair", 0x144C)]

/-! ## Logs (R345) -/

/-- An event record. -/
def eventRecLine (e : Nat × EventRec) : Text :=
  dec e.1 ++ tx " life " ++ dec e.2.life.toNat ++ tx " ev " ++ decPad 2 e.2.src.toNat ++ [' '] ++ evName e.2.src.toNat
    ++ tx " count " ++ dec e.2.count.toNat ++ tx " arg " ++ hex0 6 e.2.arg.toNat

/-- The fields of a fault record by its kind (R271). -/
def recFields (r : FaultRec) : Text :=
  let b := fun (i n : Nat) => leNat ((r.tail.drop i).take n)
  let row := fun (i : Nat) => tx " bg " ++ dec (b i 1) ++ tx " ba " ++ dec (b (i + 1) 1) ++ tx " row " ++ hex0 5 (b (i + 2) 3)
  let res := tx " state " ++ stateWord r.state ++ tx " quiet " ++ dec r.quiet ++ tx " buckets "
    ++ wordsOr "" (r.buckets.map (fun x => dec x.toNat))
  match r.kind with
  | 3 => tx " entry " ++ dec (b 0 1) ++ row 1 ++ [' '] ++ tx (nth ["empty", "wanted", "applied", "reapply", "failed"] (b 6 1) "")
      ++ tx " times " ++ dec (b 7 1)
  | 5 => tx " c " ++ decFix 2 (b 0 2) ++ tx " F esr " ++ dec (b 2 2) ++ tx " m" ++ ohm ++ tx " start " ++ dec (b 4 2)
      ++ tx " mV outcome " ++ tx (nth ["none", "result", "no result", "dropped"] (b 6 1) "")
  | 4 => res
  | _ => res ++ row 0 ++ tx " count " ++ dec (b 5 1)

/-- A fault record. -/
def faultRecLine (e : Nat × FaultRec) : Text :=
  dec e.1 ++ tx " life " ++ dec e.2.life.toNat ++ [' ']
    ++ tx (nth ["", "snapshot", "change", "repair", "clear", "pack-test"] e.2.kind "") ++ [' '] ++ classWord e.2.cls ++ [' ']
    ++ dec e.2.index ++ recFields e.2

/-- Lines by sequence, with `gap` where sequences are missing. -/
def gapped : Nat → List (Nat × Text) → List Text
  | _, [] => []
  | n, (k, t) :: r => if k = n then t :: gapped (k + 1) r else tx "gap" :: t :: gapped (k + 1) r

/-- The records a `log` command names: the last `k`, or up to `k` from a sequence on. -/
def logPick (start : Option Nat) (k : Nat) (all : List (Nat × Text)) : List Text :=
  match start with
  | none =>
    let l := all.drop (all.length - k)
    match l with
    | [] => []
    | e :: _ => gapped e.1 l
  | some n => gapped n ((all.filter (fun e => n ≤ e.1)).take k)

/-- `log`. -/
def State.logLines (s : State) (g : Ring) (start : Option Nat) (k : Nat) : List Text :=
  match g with
  | .fault => logPick start k (s.faultAll.map (fun e => (e.1, faultRecLine e)))
  | .event => logPick start k (s.eventAll.map (fun e => (e.1, eventRecLine e)))

/-! ## Settings memory -/

/-- A region in `nvs show`. -/
def State.nvsLine (s : State) (r : Nat) : Text :=
  let v := s.nvsSel r
  let n := regionName r
  n ++ List.replicate (12 - n.length) ' ' ++ (if r < 7 then
      tx "gen A " ++ hexWord v.1 ++ tx " B " ++ hexWord v.2.1 ++ tx "  wear A " ++ dec v.2.2.1 ++ tx " B " ++ dec v.2.2.2
    else tx "seq " ++ dec v.1.toNat ++ tx "  erases " ++ dec v.2.2.1 ++ tx "  ring " ++ hexWord (s.nvsRing r))
  ++ tx "  allow " ++ dec (s.nvsAllow r).toNat

/-- `nvs show`. -/
def State.nvsLines (s : State) : List Text :=
  s.regLines [("nvs-status", 0x2000), ("nvs-part", 0x2004), ("nvs-slots", 0x2008), ("nvs-pending", 0x200C),
    ("nvs-err", 0x202C)] ++ (List.range 7).map (fun i => s.nvsLine (i + 2))

/-- The words of NVS_IMG_STATUS.REASON. -/
def imgReason (n : Nat) : Text :=
  tx (nth ["none", "crc", "part or issue", "verify", "gated", "aborted"] n "")

/-- `nvs image status`. -/
def State.imageLines (s : State) : List Text :=
  [if s.nvs.img.isSome then tx "busy" else if s.nvs.imgDone then tx "done slot " ++ abText s.nvs.imgTarget
   else if s.nvs.imgReject then tx "rejected " ++ imgReason s.nvs.imgReason.toNat else tx "idle"]

end Sys2Proof.Machine
end

