-- ==== Sys2Proof/Machine/ConParse.lean ====
section
/-! DEFINITION. From a command line to a command (14 R316, 15 R333): the words of the command table, their
abbreviation, and the forms of the arguments. A wrong form is a syntax error; ranges are judged with the command. -/

namespace Sys2Proof.Machine

/-! ## Argument forms -/

/-- An argument word compared without regard to case. -/
def isWord (t : Text) (w : String) : Bool := upper t == upper (tx w)

/-- The position of a word in a list of names. -/
def wordIdx (ns : List String) (t : Text) : Option Nat :=
  (ns.zipIdx.find? (fun e => isWord t e.1)).map (·.2)

/-- `<addr>`: a multiple of 4 up to 0xFFFC. -/
def addrArg (t : Text) : Option Addr := (intArg t).bind fun n =>
  if n < 0x10000 && n % 4 = 0 then some (BitVec.ofNat 16 n) else none

/-- `<sub>`. -/
def subArg (t : Text) : Option Sub := if isWord t "a" then some .a else if isWord t "b" then some .b else none

/-- `<class>`. -/
def classArg (t : Text) : Option (Fin 6) := (wordIdx classWords t).bind fun n => if h : n < 6 then some ⟨n, h⟩ else none

/-- The names of the units that `reset unit` takes without a number. -/
def unitWords : List (String × UnitName) :=
  [("con", .con), ("twb-host", .twbHost), ("twb-local", .twbLocal), ("evt-queue", .evtQueue), ("sme", .sme),
   ("zlb", .zlb), ("hoard", .hoard), ("user", .user), ("zxp", .zxp)]

/-- A word with its mask bit from a list of names; `none` among them alone stands for no bit. -/
def maskArg (ns : List String) (ts : List Text) : Option Nat :=
  match ts with
  | [t] => if isWord t "none" then some 0 else (wordIdx ns t).map (2 ^ ·)
  | _ => ts.foldl (fun a t => a.bind fun m => (wordIdx ns t).map (fun i => m ||| 2 ^ i)) (some 0)

/-- A date or time: numbers of two digits, the year of four, and what stands between them. -/
def splitOn (c : Char) (t : Text) : List Text :=
  t.foldr (fun x (a : List Text) => match a with
    | [] => if x == c then [[], []] else [[x]]
    | h :: r => if x == c then [] :: h :: r else (x :: h) :: r) [[]]

/-- The numbers of fields of given widths. -/
def fieldsArg (ws : List Nat) (ts : List Text) : Option (List Nat) :=
  if ts.map List.length = ws then ts.mapM decNat else none

/-- `<yyyy-mm-dd> <hh:mm:ss>`. -/
def civilArg (d t : Text) : Option Civil := do
  let ds ← fieldsArg [4, 2, 2] (splitOn '-' d)
  let ts ← fieldsArg [2, 2, 2] (splitOn ':' t)
  return ⟨nth ds 0 0, nth ds 1 0, nth ds 2 0, nth ts 0 0, nth ts 1 0, nth ts 2 0⟩

/-- Pairs of hexadecimal digits as bytes. -/
def pairBytes : Text → Option (List Byte)
  | [] => some []
  | a :: b :: r => do
    let n ← hexNat [a, b]
    let bs ← pairBytes r
    return BitVec.ofNat 8 n :: bs
  | _ => none

/-- `<hex>`: 8 to 128 digits, a multiple of 8. -/
def hexArg (t : Text) : Option (List Byte) :=
  if 8 ≤ t.length && t.length ≤ 128 && t.length % 8 = 0 then pairBytes t else none

/-- A decimal figure in units of `step` of its last decimal. -/
def stepArg (k step : Nat) (t : Text) : Option Nat := (fixArg k t).bind fun n => if n % step = 0 then some (n / step) else none

/-- A 32-bit word. -/
def wordArg (t : Text) : Option Word := (intArg t).bind fun n => if n < 2 ^ 32 then some (BitVec.ofNat 32 n) else none

/-- `<unit>`: a number, or `all`. -/
def calUnitArg (t : Text) : Option (Option Nat) := if isWord t "all" then some none else (intArg t).map some

/-! ## The command table -/

/-- One command: its words, whether it is a write command (R334), and its arguments. -/
structure Leaf where
  path : List String
  w : Bool
  parse : List Text → Option ConCmd

/-- A command without arguments. -/
def leaf0 (path : List String) (w : Bool) (c : ConCmd) : Leaf := ⟨path, w, fun a => if a.isEmpty then some c else none⟩

/-- The arguments of `peek`. -/
def parsePeek : List Text → Option ConCmd
  | [a] => (addrArg a).map (.peek · 1)
  | [a, n] => do
    let a ← addrArg a
    let n ← intArg n
    if 1 ≤ n && n ≤ 8 then some (.peek a n) else none
  | _ => none

/-- The arguments of `show`. -/
def parseShowDb : List Text → Option ConCmd
  | [] => some (.show (.db none))
  | [n] => (intArg n).map (fun n => .show (.db (some n)))
  | _ => none

/-- The arguments of `hoard extent`. -/
def parseExtent : List Text → Option ConCmd
  | [i, o] => if isWord o "off" then (intArg i).map (.hoardExtent · none) else none
  | [i, s, r, c, f, n] => do
    return .hoardExtent (← intArg i) (some ⟨← subArg s, ← intArg r, ← intArg c, ← intArg f, ← intArg n⟩)
  | _ => none

/-- The words of the fault actions, in FLT_CFGc bit order from bit 24. -/
def actionWords : List String := ["log", "event", "repair", "retrain", "unreach"]

/-- The arguments of `fault cfg`. -/
def parseFaultCfg : List Text → Option ConCmd
  | c :: w :: t :: as => do
    let c ← classArg c
    let w ← intArg w
    let t ← intArg t
    if as.isEmpty then return .faultCfg c w t none
    let m ← maskArg actionWords as
    return .faultCfg c w t (some (BitVec.ofNat 5 m))
  | _ => none

/-- The arguments of `log`, after the ring. -/
def parseLog (g : Ring) : List Text → Option ConCmd
  | [] => some (.log g none 16)
  | [l] => if isWord l "last" then some (.log g none 16) else none
  | [l, k] => if isWord l "last" then (intArg k).map (.log g none ·)
      else if isWord l "from" then (intArg k).map (fun n => .log g (some n) 16) else none
  | [l, n, k] => if isWord l "from" then do return .log g (some (← intArg n)) (← intArg k) else none
  | _ => none

/-- The arguments of `reset unit`. -/
def parseUnit : List Text → Option ConCmd
  | [n] => (unitWords.find? (fun e => isWord n e.1)).map (fun e => .resetUnit e.2)
  | [d, n] => if isWord d "db" then (intArg n).map (fun n => .resetUnit (.db n)) else none
  | _ => none

/-- The command table (15 'Commands'), in its order. -/
def leaves : List Leaf :=
  [⟨["help"], false, fun a => some (.help a)⟩,
   leaf0 ["id"] false .id,
   leaf0 ["feature", "show"] false .featureShow,
   ⟨["feature", "accept"], true, fun | [m] => (intArg m).map .featureAccept | _ => none⟩,
   leaf0 ["feature", "lock"] true .featureLock,
   ⟨["feature", "deadline"], true, fun | [x] => (fixArg 1 x).map .featureDeadline | _ => none⟩,
   ⟨["peek"], false, parsePeek⟩,
   ⟨["poke"], true, fun | [a, v] => do return .poke (← addrArg a) (← wordArg v) | _ => none⟩,
   leaf0 ["show", "host"] false (.show .host), ⟨["show", "db"], false, parseShowDb⟩,
   leaf0 ["show", "twb"] false (.show .twb), leaf0 ["show", "con"] false (.show .con),
   leaf0 ["mode", "machine"] false .modeMachine, leaf0 ["mode", "typed"] false .modeTyped,
   ⟨["baud"], true, fun | [r] => (intArg r).map .baud | _ => none⟩,
   ⟨["service", "unlock"], false, fun | [c] => some (.serviceUnlock c) | _ => none⟩,
   leaf0 ["service", "lock"] false .serviceLock, leaf0 ["service", "status"] false .serviceStatus,
   leaf0 ["time", "show"] false .timeShow,
   ⟨["time", "set"], true, fun | [d, t] => (civilArg d t).map .timeSet | _ => none⟩,
   leaf0 ["time", "clear"] true .timeClear]
  ++ [leaf0 ["trim", "show"] false .trimShow, leaf0 ["trim", "pause"] true (.trimPause true),
   leaf0 ["trim", "resume"] true (.trimPause false),
   leaf0 ["train", "show"] false .trainShow,
   ⟨["train", "maint"], true, fun | [s, r] => do return .trainMaint (← subArg s) (← intArg r) | _ => none⟩,
   leaf0 ["train", "save"] true (.trainSave true), leaf0 ["train", "invalidate"] true (.trainSave false),
   leaf0 ["cal", "show"] false .calShow,
   ⟨["cal", "tap"], true, fun | [u] => (calUnitArg u).map (.calRun false) | _ => none⟩,
   ⟨["cal", "vref"], true, fun | [u] => (calUnitArg u).map (.calRun true) | _ => none⟩,
   ⟨["cal", "adc", "ref"], true, fun | [v] => (fixArg 3 v).map .calAdcRef | _ => none⟩,
   leaf0 ["keep", "status"] false .keepStatus,
   ⟨["keep", "span"], true, fun | [n] => (intArg n).map (.keepSpan false) | _ => none⟩,
   ⟨["keep", "reserve"], true, fun | [n] => (intArg n).map (.keepSpan true) | _ => none⟩,
   ⟨["keep", "charge"], true, fun
     | [o] => if isWord o "off" then some (.keepCharge none) else none
     | [v, a] => do return .keepCharge (some (← stepArg 1 5 v, ← stepArg 2 5 a))
     | _ => none⟩,
   ⟨["keep", "pack"], true, fun | [f] => (fixArg 2 f).map .keepPack | _ => none⟩]
  ++ [leaf0 ["hoard", "status"] false (.hoardStatus false), leaf0 ["hoard", "map"] false (.hoardStatus true),
   ⟨["hoard", "extent"], true, parseExtent⟩,
   leaf0 ["hoard", "lend", "on"] true (.hoardLend true), leaf0 ["hoard", "lend", "off"] true (.hoardLend false),
   leaf0 ["hoard", "discard"] true .hoardDiscard,
   leaf0 ["fault", "list"] false (.faultList none),
   ⟨["fault", "show"], false, fun | [c, i] => do return .faultList (some (← classArg c, ← intArg i)) | _ => none⟩,
   ⟨["fault", "cfg"], true, parseFaultCfg⟩,
   ⟨["fault", "clear"], true, fun
     | [c] => if isWord c "all" then some (.faultClear none) else (classArg c).map (fun c => .faultClear (some (c, none)))
     | [c, i] => do return .faultClear (some (← classArg c, some (← intArg i)))
     | _ => none⟩,
   ⟨["fault", "repair"], true, fun | [n] => (intArg n).map (.faultRepair false) | _ => none⟩,
   ⟨["fault", "forget"], true, fun | [n] => (intArg n).map (.faultRepair true) | _ => none⟩,
   leaf0 ["fault", "pack", "test"] true .faultPackTest,
   ⟨["event", "show"], false, fun | [] => some (.eventShow none) | [n] => (intArg n).map (fun n => .eventShow (some n)) | _ => none⟩,
   ⟨["event", "enable"], true, fun
     | [n, o] => if isWord o "on" then (intArg n).map (.eventEnable · true)
         else if isWord o "off" then (intArg n).map (.eventEnable · false) else none
     | _ => none⟩,
   ⟨["event", "route"], true, fun
     | n :: r :: rs => do return .eventRoute (← intArg n) (BitVec.ofNat 5 (← maskArg routeWords (r :: rs)))
     | _ => none⟩,
   ⟨["event", "clear"], true, fun
     | [n] => if isWord n "all" then some (.eventClear none) else (intArg n).map (fun n => .eventClear (some n))
     | _ => none⟩,
   ⟨["event", "raise"], true, fun | [a] => (intArg a).map .eventRaise | _ => none⟩]
  ++ [⟨["log", "fault"], false, parseLog .fault⟩, ⟨["log", "event"], false, parseLog .event⟩,
   leaf0 ["nvs", "show"] false .nvsShow, leaf0 ["nvs", "commit"] true .nvsCommit,
   ⟨["nvs", "image", "start"], true, fun
     | [k, c] => do return .nvsImageStart (← intArg k) (← (wordArg c).map BitVec.toNat)
     | _ => none⟩,
   ⟨["nvs", "image", "data"], true, fun | [h] => (hexArg h).map .nvsImageData | _ => none⟩,
   leaf0 ["nvs", "image", "abort"] true .nvsImageAbort, leaf0 ["nvs", "image", "status"] false .nvsImageStatus,
   leaf0 ["clock", "show"] false .clockShow,
   leaf0 ["power", "domains"] false (.powerDomains false), leaf0 ["power", "faults"] false (.powerDomains true),
   ⟨["power", "clear"], true, fun
     | [] => none
     | [a] => if isWord a "all" then some (.powerClear 31) else (wordIdx powerWords a).map (fun i => .powerClear (BitVec.ofNat 5 (2 ^ i)))
     | as => (as.foldl (fun a t => a.bind fun m => (wordIdx powerWords t).map (fun i => m ||| 2 ^ i)) (some 0)).map
         (fun m => .powerClear (BitVec.ofNat 5 m))⟩,
   leaf0 ["maint", "show"] false .maintShow,
   leaf0 ["reset", "mgmt"] true .resetMgmt,
   ⟨["reset", "unit"], true, parseUnit⟩]

/-! ## Words (R316) -/

/-- Why a line is not a command. -/
inductive ParseErr
  | unknown (w : Text)
  | ambiguous (w : Text) (cands : List String)
  | form
  deriving DecidableEq, Repr

/-- Removes later repetitions. -/
def distinct (l : List String) : List String := l.foldl (fun a x => if a.contains x then a else a ++ [x]) []

/-- The leaves that continue some words, with what is left of their paths. -/
def under (ls : List (List String × Leaf)) (w : String) : List (List String × Leaf) :=
  ls.filterMap (fun e => match e.1 with
    | x :: r => if x == w then some (r, e.2) else none
    | [] => none)

/-- The words allowed next, in the table's order. -/
def nextWords (ls : List (List String × Leaf)) : List String := distinct (ls.filterMap (fun e => e.1.head?))

/-- A typed word against the words allowed: in full, or, outside machine mode, a prefix of exactly one (R316, R319). -/
def pick (mach : Bool) (ws : List String) (t : Text) : Except ParseErr String :=
  match ws.find? (isWord t) with
  | some w => .ok w
  | none =>
    if mach then .error (.unknown t) else
    match ws.filter (fun w => (upper t).isPrefixOf (upper (tx w))) with
    | [w] => .ok w
    | [] => .error (.unknown t)
    | l => .error (.ambiguous t l)

/-- Words of a line down to a command and its arguments. -/
def walk (mach : Bool) (ls : List (List String × Leaf)) : List Text → Except ParseErr (Leaf × List Text)
  | [] => match ls.find? (fun e => e.1.isEmpty) with
    | some e => .ok (e.2, [])
    | none => .error .form
  | t :: ts =>
    match ls.find? (fun e => e.1.isEmpty) with
    | some e => .ok (e.2, t :: ts)
    | none => match pick mach (nextWords ls) t with
      | .error e => .error e
      | .ok w => walk mach (under ls w) ts

/-- All commands with their full paths. -/
def tree : List (List String × Leaf) := leaves.map (fun l => (l.path, l))

/-- A line as a command, with whether it is a write command. -/
def parseLine (mach : Bool) (t : Text) : Except ParseErr (Bool × ConCmd) :=
  match walk mach tree (wordsOf t) with
  | .error e => .error e
  | .ok (l, as) => match l.parse as with
    | some c => .ok (l.w, c)
    | none => .error .form

/-- The text of a syntax error. -/
def ParseErr.text : ParseErr → Text
  | .unknown w => tx "syntax unknown word " ++ w
  | .ambiguous w cs => tx "syntax ambiguous " ++ w ++ tx " (" ++ List.intercalate [' '] (cs.map tx) ++ tx ")"
  | .form => tx "syntax wrong form"

/-- `help`: the words allowed after the words given, with R or W. -/
def helpWalk (mach : Bool) (ls : List (List String × Leaf)) : List Text → Except ParseErr (List (List String × Leaf))
  | [] => .ok ls
  | t :: ts => match pick mach (nextWords ls) t with
    | .error e => .error e
    | .ok w => helpWalk mach (under ls w) ts

/-- One line per word of `help`. -/
def helpLines (ls : List (List String × Leaf)) : List Text :=
  (nextWords ls).map (fun w =>
    let us := (under ls w).map (fun e => e.2.w)
    lab 10 w (tx (if us.all id then "W" else if us.any id then "R W" else "R")))

end Sys2Proof.Machine
end

