-- ==== Sys2Proof/Machine/ConCmd.lean ====
section
/-! DEFINITION. The console's commands (15): how one runs (R323, R324, R327, R328), its checks, what it writes, and what
it answers. Each command is one operation here; the rows and CON_EXECUTE call it. -/

namespace Sys2Proof.Machine

/-! ## Running a command -/

/-- A request repeats the nn of its session's last executed request: the final line of that response again (R322). -/
def State.conAgain (s : State) (rq : Req) : State :=
  let x := rq.sess
  ((s.setSes x (fun t => { t with resp := t.resp ++ [t.lastFinal |> fun l => machineLine l ++ crlf] })).pump x).conRelease

/-- A line refused for want of a queue place or a pool buffer (R323, R324): from the session's own line space. -/
def State.conBusy (s : State) (x : Sess) (nn : Option (BitVec 8)) (why : Text) : State :=
  let s := { s with con := { s.con with errBusy := satAdd s.con.errBusy 1 } }
  let l := tx "err busy" ++ (if why.isEmpty then [] else ' ' :: why)
  s.answer x (match nn with
    | some n => '#' :: hexPad 2 n.toNat ++ [' '] ++ l
    | none => l)

/-- A write command is denied: CON_WP, and no unlock on its session (R328). -/
def State.conDenied (s : State) (rq : Req) : Bool := s.pow.straps.conWp && !(s.ses rq.sess).unlocked

/-- One command (R323, R324, R327): `w` marks a write command, `open_` one that rescue mode runs, `pre` is its first
refusal of the words syntax to range, `post` of the words after them, `act` what it does and answers. The console claims
its pool buffer first; without one the command is answered busy. -/
def State.conRun (s : State) (rq : Req) (w open_ : Bool) (pre post : Option Text) (act : State → State) : State :=
  if !s.conOn || !s.conIdle then s
  else if rq.nn.isSome && (s.ses rq.sess).lastNn == rq.nn then s.conAgain rq
  else
    let claim := s.pool.claim .con
    let t := { s with pool := claim.1 }
    let early := if w && s.conDenied rq then some (tx "denied service unlock required")
      else if s.nvs.rescue && !open_ then some (tx "absent in rescue mode") else pre
    match early, post with
    | some e, _ => t.respondErr rq e
    | none, some e => if claim.2 then t.respondErr rq e else t.conBusy rq.sess rq.nn (tx "no transfer buffer")
    | none, none => if claim.2 then act t else t.conBusy rq.sess rq.nn (tx "no transfer buffer")

/-- A syntax error found when the command is taken. -/
def State.conSyntax (s : State) (rq : Req) (t : Text) : State := s.conRun rq false true (some t) none (fun s => s)

/-- A read command's answer; the selectors stand as before (R336). -/
def State.conData (rq : Req) (lines : State → List Text) (s : State) : State := s.respondData rq (lines s)

/-- Reads of registers, for what they do at their target. -/
def State.conReads (as : List Nat) (s : State) : State :=
  as.foldl (fun s a => s.afterRead .console (BitVec.ofNat 16 a)) s

/-- The writes of a command in order, each read back (R335): one that is ignored ends the command with `err range`. -/
def State.conWrites (rq : Req) (done : State → State) : List (Nat × Word) → State → State
  | [], s => done s
  | (a, v) :: r, s =>
    let addr := BitVec.ofNat 16 a
    match s.reg .console addr with
    | some d => if d.allows v then ((s.hubWrite .console addr v).afterRead .console addr).conWrites rq done r
        else s.respondErr rq (tx "range not accepted")
    | none => s.respondErr rq (tx "absent register")

/-- `ok` after the writes of a command. -/
def State.conOk (rq : Req) (t : Text) (s : State) : State := s.respondOk rq t

/-- The console copy of the selectors as `old` had them (R336). -/
def State.selBack (old : State) (s : State) : State := s.setSel .console (fun _ => old.sel .console)

/-- The first of some checks that refuses. -/
def firstOf (cs : List (Bool × Text)) : Option Text := (cs.find? (·.1)).map (·.2)

/-- A refusal for an absent feature (R333, 15 'Commands'). -/
def State.lacks (s : State) (f : Feature) (name : Text) : Bool × Text :=
  (!s.regOn f, tx "absent " ++ name ++ tx (if s.offers f then " not active" else " not offered by this module"))

/-- A refusal for an argument outside its range. -/
def outOf (bad : Bool) (name : String) : Bool × Text := (bad, tx "range " ++ tx name)

/-- A target of the local bus is unreachable (15 'Command faults'). -/
def State.unreached (s : State) (t : Nat) : Bool × Text :=
  (s.unreach t, tx "timeout " ++ (if t = 10 then tx "zxp" else tx "db " ++ dec t) ++ tx " unreachable")

/-! ## General commands -/

/-- `help`. -/
def State.cmdHelp (s : State) (rq : Req) (ws : List Text) : State :=
  match helpWalk rq.nn.isSome tree ws with
  | .error e => s.conSyntax rq e.text
  | .ok ls => s.conRun rq false true none none (fun s => s.respondData rq (helpLines ls))

/-- `id`. -/
def State.cmdId (s : State) (rq : Req) : State := s.conRun rq false true none none (State.conData rq State.idLines)

/-- `peek` (R9): registers with ascending addresses. -/
def State.peekLines : Nat → Nat → State → State × List Text
  | 0, _, s => (s, [])
  | k + 1, a, s =>
    let l := hex0 4 a ++ tx " = " ++ hexWord (s.conRead a)
    let r := State.peekLines k (a + 4) (s.afterRead .console (BitVec.ofNat 16 a))
    (r.1, l :: r.2)

/-- `peek`. -/
def State.cmdPeek (s : State) (rq : Req) (a : Addr) (n : Nat) : State :=
  let bad := a.toNat % 4 != 0 || n < 1 || 8 < n || 0xFFFC < a.toNat + 4 * (n - 1)
  if bad then s.conSyntax rq ParseErr.form.text else
  s.conRun rq false false none none (fun s =>
    let r := State.peekLines n a.toNat s
    r.1.respondData rq r.2)

/-- `poke` (R9). -/
def State.cmdPoke (s : State) (rq : Req) (a : Addr) (v : Word) : State :=
  if a.toNat % 4 != 0 then s.conSyntax rq ParseErr.form.text else
  s.conRun rq true false none none (fun s => (s.hubWrite .console a v).respondOk rq [])

/-- Registers of a buffer that `show db` reads. -/
def State.dbReads (ns : List Nat) (s : State) : State :=
  ns.foldl (fun s n => State.conReads [0x0C88, 0x0C98, 0x0C90] (s.setSel .console (fun x => { x with dbm := BitVec.ofNat 4 n }))) s

/-- `show`. -/
def State.cmdShow (s : State) (rq : Req) (what : ShowWhat) : State :=
  match what with
  | .host => s.conRun rq false false none none (State.conData rq State.hostLines)
  | .twb => s.conRun rq false false none none (State.conData rq State.twbLines)
  | .con => s.conRun rq false false none none (State.conData rq State.conLines)
  | .db n =>
    let k := n.getD 0
    let ns := match n with
      | some n => [n]
      | none => (List.range 10).filter (fun n => s.zlb.present.getLsbD n)
    s.conRun rq false false (firstOf [s.lacks .dbPresent (tx "data buffers"), outOf (9 < k) "buffer",
        (n.isSome && !s.zlb.present.getLsbD k && !s.unreach k, tx "absent db " ++ dec k)]) none
      (fun s => (State.selBack s (State.dbReads ns s)).respondData rq (s.dbLines n))

/-- `mode machine` (R318). -/
def State.cmdModeMachine (s : State) (rq : Req) : State :=
  s.conRun rq false true (firstOf [(!s.locked, tx "denied feature set not locked"), s.lacks .conMachine (tx "machine mode")])
    none (fun s => s.respond rq [] (tx "ok") (some .toMachine))

/-- `mode typed` (R318). -/
def State.cmdModeTyped (s : State) (rq : Req) : State :=
  s.conRun rq false true none none (fun s => s.respond rq [] (tx "ok") (some .toTyped))

/-- The console rates by code (R312). -/
def rates : List Nat := [9600, 19200, 38400, 57600, 115200, 230400, 460800, 921600, 1000000, 1500000, 2000000, 3000000]

/-- `baud` (R340). -/
def State.cmdBaud (s : State) (rq : Req) (rate : Nat) : State :=
  s.conRun rq true false (firstOf [outOf (!rates.contains rate) "rate"]) none (fun s =>
    s.respond rq [] (tx "ok baud " ++ dec rate ++ tx " revert in 30 s")
      (some (.baud (BitVec.ofNat 4 (rates.findIdx (· == rate))))))

/-! ## Service unlock (R329, R330) -/

/-- The service code of the module is this text. -/
def State.codeRight (s : State) (code : Text) : Bool :=
  let u := upper code
  u.length == 8 && crc32c (u.map byteOf ++ leBytes 8 s.modl.serial.toNat) == s.nv.factory.service

/-- A grant. -/
def State.unlockGrant (s : State) (x : Sess) : State :=
  let s := s.setSes x (fun t => { t with unlocked := true })
  { s with con := { s.con with wrong := 0, granted := satAdd s.con.granted 1 } }.raise 59 1

/-- A wrong code: the third in a row starts the lockout; one during the lockout is no part of a run. -/
def State.unlockWrong (s : State) : State :=
  let c := { s.con with denied := satAdd s.con.denied 1 }
  { s with con := if c.lockout then c else if c.wrong = 2 then { c with wrong := 0, lockout := true }
    else { c with wrong := c.wrong + 1 } }

/-- `service unlock`. -/
def State.cmdUnlock (s : State) (rq : Req) (code : Text) : State :=
  s.conRun rq false false none none (fun s =>
    if s.codeRight code then
      if s.con.lockout then s.respondErr rq (tx "denied lockout") else (s.unlockGrant rq.sess).respondOk rq []
    else s.unlockWrong.respondErr rq (tx "denied wrong code"))

/-- `service lock` (R340). -/
def State.cmdServiceLock (s : State) (rq : Req) : State :=
  s.conRun rq false false none none (fun s => s.respond rq [] (tx "ok") (some .lock))

/-- `service status`. -/
def State.cmdServiceStatus (s : State) (rq : Req) : State :=
  s.conRun rq false false none none (State.conData rq State.serviceLines)

/-! ## Negotiation, clocks, power, resets -/

/-- A refusal once the set is locked (R327). -/
def State.lockedOut (s : State) : Bool × Text := (s.locked, s.errLocked)

/-- `feature show`. -/
def State.cmdFeatureShow (s : State) (rq : Req) : State :=
  s.conRun rq false false none none (State.conData rq State.featureLines)

/-- `feature accept`. -/
def State.cmdFeatureAccept (s : State) (rq : Req) (mask : Nat) : State :=
  s.conRun rq true false (firstOf [s.lockedOut, outOf (0xFFFF < mask) "mask"]) none
    (State.conWrites rq (State.conOk rq []) [(0x0048, BitVec.ofNat 32 mask)])

/-- `feature lock` (R339): it waits for SETTLED. -/
def State.cmdFeatureLock (s : State) (rq : Req) : State :=
  s.conRun rq true false (firstOf [s.lockedOut, (!s.feat.accept.getLsbD 0, tx "range base not accepted")]) none
    (State.conWrites rq (fun s => s.conHold ⟨rq, .settled, 2⟩) [(0x0050, 0xA5C3)])

/-- `feature deadline`. -/
def State.cmdFeatureDeadline (s : State) (rq : Req) (tenths : Nat) : State :=
  s.conRun rq true false (firstOf [s.lockedOut, outOf (tenths < 5 || 300 < tenths) "deadline"]) none
    (State.conWrites rq (State.conOk rq []) [(0x0060, BitVec.ofNat 32 tenths)])

/-- `time show`. -/
def State.cmdTimeShow (s : State) (rq : Req) : State :=
  s.conRun rq false false none none (State.conData rq (fun s => s.timeLines 9))

/-- Days of a month. -/
def monthDays (y m : Nat) : Nat :=
  if m = 2 then (if y % 4 = 0 && (y % 100 != 0 || y % 400 = 0) then 29 else 28)
  else if m = 4 || m = 6 || m = 9 || m = 11 then 30 else 31

/-- A time that `time set` accepts (R341). -/
def civilOk (t : Civil) : Bool :=
  2000 ≤ t.year && t.year ≤ 2199 && 1 ≤ t.month && t.month ≤ 12 && 1 ≤ t.day && t.day ≤ monthDays t.year t.month
    && t.hour < 24 && t.minute < 60 && t.second < 60

/-- Seconds since 1970-01-01. -/
def civilSecs (t : Civil) : Nat := daysOf t.year t.month t.day * 86400 + t.hour * 3600 + t.minute * 60 + t.second

/-- `time set` (R341). -/
def State.cmdTimeSet (s : State) (rq : Req) (t : Civil) : State :=
  s.conRun rq true false (firstOf [outOf (!civilOk t) "time"]) none (fun s =>
    let off : Int := (civilSecs t : Int) - s.clk.life.toNat
    let w := BitVec.ofInt 48 off
    s.conWrites rq (State.conOk rq (tx "time set offset " ++ decInt off ++ tx " s"))
      [(0x2C1C, w.setWidth 32), (0x2C20, (w >>> 32).setWidth 32 ||| 0x80000000)])

/-- `time clear`: CLK_WALL_HI = 0. -/
def State.cmdTimeClear (s : State) (rq : Req) : State :=
  s.conRun rq true false none none (State.conWrites rq (State.conOk rq []) [(0x2C20, 0)])

/-- `clock show`. -/
def State.cmdClockShow (s : State) (rq : Req) : State :=
  s.conRun rq false false none none (State.conData rq State.clockLines)

/-- `power domains` and `power faults`. -/
def State.cmdPower (s : State) (rq : Req) (faults : Bool) : State :=
  s.conRun rq false false none none (State.conData rq (fun s => s.powerLines faults))

/-- `power clear`. -/
def State.cmdPowerClear (s : State) (rq : Req) (mask : BitVec 5) : State :=
  s.conRun rq true false none none
    (State.conWrites rq (State.conOk rq []) [(0x1C04, (mask.setWidth 32 : Word) <<< 2)])

/-- `maint show`. -/
def State.cmdMaintShow (s : State) (rq : Req) : State :=
  s.conRun rq false false none none (State.conData rq State.maintLines)

/-- `reset mgmt` (R340). -/
def State.cmdResetMgmt (s : State) (rq : Req) : State :=
  s.conRun rq true true none none (fun s => s.respond rq [] (tx "ok mrst requested") (some .mrst))

/-- The name of a unit in the answer of `reset unit`. -/
def unitText : UnitName → Text
  | .con => tx "con" | .twbHost => tx "twb-host" | .twbLocal => tx "twb-local" | .evtQueue => tx "evt-queue"
  | .sme => tx "sme" | .zlb => tx "zlb" | .hoard => tx "hoard" | .user => tx "user" | .db n => tx "db " ++ dec n
  | .zxp => tx "zxp"

/-- The bit of CLK_CRST of a unit. -/
def unitBit : UnitName → Nat
  | .con => 0 | .twbHost => 1 | .twbLocal => 2 | .evtQueue => 3 | .sme => 4 | .zlb => 5 | .hoard => 6 | .user => 7
  | .db n => 8 + n | .zxp => 18

/-- Why `reset unit` is refused before busy. -/
def State.unitRefused (s : State) (u : UnitName) : Option Text :=
  match u with
  | .hoard => firstOf [s.lacks .hoard (tx "Hoard")]
  | .user => firstOf [(!(s.locked && s.feat.active.getLsbD 13), tx "absent user core")]
  | .db n => firstOf [(!s.buffers, tx "absent data buffers"), outOf (9 < n) "buffer"]
  | .zxp => firstOf [(!s.modl.zxpFitted, tx "absent zxp")]
  | _ => none

/-- `reset unit` (R340): the console's own acts once its answer has been sent. -/
def State.cmdResetUnit (s : State) (rq : Req) (u : UnitName) : State :=
  let bits : Word := BitVec.ofNat 32 (2 ^ unitBit u)
  s.conRun rq true true (s.unitRefused u)
    (firstOf [(u == .hoard && !s.hrdFree, tx "busy hoard")])
    (fun s => if u == .con then s.respond rq [] (tx "ok crst con") (some (.crst bits))
      else s.conWrites rq (State.conOk rq (tx "crst " ++ unitText u)) [(0x2C10, bits)])

/-! ## Training, trim and calibration -/

/-- `trim show`. -/
def State.cmdTrimShow (s : State) (rq : Req) : State :=
  s.conRun rq false false (firstOf [s.lacks .liveTrim (tx "live trim")]) none (State.conData rq State.trimLines)

/-- `trim pause` and `trim resume`. -/
def State.cmdTrimPause (s : State) (rq : Req) (pause : Bool) : State :=
  s.conRun rq true false (firstOf [s.lacks .liveTrim (tx "live trim")]) none (fun s =>
    s.conWrites rq (State.conOk rq []) [(0x1200, setFld (s.conRead 0x1200) 15 15 pause.toNat)])

/-- `train show`. -/
def State.cmdTrainShow (s : State) (rq : Req) : State :=
  s.conRun rq false false none none (State.conData rq State.trainLines)

/-- `train maint`. -/
def State.cmdTrainMaint (s : State) (rq : Req) (x : Sub) (rank : Nat) : State :=
  s.conRun rq true false (firstOf [(s.pow.straps.nodb, tx "absent in no-DB mode"),
      outOf (!s.rankFitted x rank || (s.tr x).rankFail.getLsbD rank) "rank"]) none
    (fun s => (s.wantRanks x (2 ^ rank)).respondOk rq [])

/-- `train save` and `train invalidate`. -/
def State.cmdTrainSave (s : State) (rq : Req) (save : Bool) : State :=
  s.conRun rq true false (firstOf [s.lacks .warmBoot (tx "warm boot")]) (firstOf [(s.gated, tx "nvs gated")])
    (State.conWrites rq (State.conOk rq (tx (if save then "train save pending" else "train invalidate pending")))
      [(0x1110, if save then 0x5A01 else 0x5A02)])

/-- `cal show`. -/
def State.cmdCalShow (s : State) (rq : Req) : State :=
  s.conRun rq false false none none (State.conData rq State.calLines)

/-- A unit's calibration is still to end: its run, or one that waits. -/
def State.calOpen (s : State) (u : Nat) : Bool :=
  (s.calRun u).isSome || s.cal.defer.any (fun d => d.unit == u)

/-- `cal tap` and `cal vref` (R342). -/
def State.cmdCalRun (s : State) (rq : Req) (vref : Bool) (unit : Option Nat) : State :=
  let u := unit.getD 15
  let all := 0 :: ((List.range 10).filter (fun n => s.fnOn .dbPresent && (s.zlb.present.getLsbD n || s.unreach n))).map (· + 1)
  let us := if unit.isSome then [u] else all
  s.conRun rq true false
    (firstOf [(unit.isSome && 1 ≤ u && u ≤ 10 && !all.contains u, tx "absent unit " ++ dec u), outOf (unit.isSome && 10 < u) "unit"])
    (firstOf [(!s.calDom, tx "busy"), if unit.isSome && u != 0 then s.unreached (u - 1) else (false, [])])
    (State.conWrites rq (fun s =>
        let got := (us.filter (fun u => u != 0 && s.unreach (u - 1))).map (fun u => tx "unit " ++ dec u ++ tx " unreachable")
        let open_ := us.filter s.calOpen
        if open_.isEmpty then s.respond rq got (tx "ok cal count " ++ dec s.cal.body.count.toNat) none
        else s.conHold ⟨rq, .cal vref open_ got, if unit.isSome then 100 else 500⟩)
      [(0x1008, BitVec.ofNat 32 (0xCA1B0000 + 16 * u + (if vref then 2 else 1)))])

/-- `cal adc ref` (R343). -/
def State.cmdCalAdc (s : State) (rq : Req) (mv : Nat) : State :=
  s.conRun rq true false (firstOf [s.lacks .calAdc (tx "ADC calibration"), outOf (mv < 2000 || 12000 < mv) "reference"])
    (firstOf [(!(s.pow.dom == .run || s.pow.dom == .attended), tx "busy"), s.unreached 10])
    (State.conWrites rq (fun s => s.conHold ⟨rq, .adc, 50⟩) [(0x1038, BitVec.ofNat 32 mv), (0x1008, 0xCA1B00B4)])

/-! ## Keep-alive and Hoard -/

/-- RETAIN is not offered. -/
def State.noRetain (s : State) : Bool × Text := (!s.offers .retain, tx "absent retention not offered by this module")

/-- `keep status`. -/
def State.cmdKeepStatus (s : State) (rq : Req) : State :=
  s.conRun rq false false (firstOf [s.noRetain]) none (fun s =>
    let t := State.conReads [0x1D08, 0x1D10, 0x1D40, 0x1D48] s
    t.respondData rq t.keepLines)

/-- `keep span` and `keep reserve`. -/
def State.cmdKeepSpan (s : State) (rq : Req) (reserve : Bool) (v : Nat) : State :=
  let bad := if reserve then 4000 < v else v < 10 || 65535 < v
  s.conRun rq true false (firstOf [s.noRetain, outOf bad (if reserve then "reserve" else "span")]) none
    (State.conWrites rq (State.conOk rq []) [(if reserve then 0x1C14 else 0x1C0C, BitVec.ofNat 32 v)])

/-- `keep charge`: volts in 0.5 V and amps in 0.05 A, or off. -/
def State.cmdKeepCharge (s : State) (rq : Req) (cfg : Option (Nat × Nat)) : State :=
  let bad := match cfg with
    | some (v, a) => v < 40 || 116 < v || s.zxp.vmax.toNat < v || a < 1 || 30 < a
    | none => false
  s.conRun rq true false (firstOf [s.noRetain, outOf bad "charge"]) (firstOf [s.unreached 10]) (fun s =>
    s.conWrites rq (State.conOk rq []) [(0x1D10, match cfg with
      | some (v, a) => packWord [(0, v), (8, a), (16, 1)]
      | none => setFld (s.conRead 0x1D10) 16 16 0)])

/-- `keep pack`. -/
def State.cmdKeepPack (s : State) (rq : Req) (c : Nat) : State :=
  s.conRun rq true false (firstOf [s.noRetain, outOf (c < 10 || 1000 < c) "capacitance"]) (firstOf [s.unreached 10])
    (State.conWrites rq (State.conOk rq []) [(0x1D18, BitVec.ofNat 32 c)])

/-- HOARD is absent. -/
def State.noHoard (s : State) : Bool × Text := s.lacks .hoard (tx "Hoard")

/-- `hoard status` and `hoard map`. -/
def State.cmdHoardStatus (s : State) (rq : Req) (map : Bool) : State :=
  s.conRun rq false false (firstOf [s.noHoard]) none
    (State.conData rq (fun s => if map then s.hoardMapLines else s.hoardLines))

/-- HRD_EXT_LO of an extent, disabled. -/
def extLo (x : ExtArg) : Word := packWord [(0, x.first), (17, subNo x.sub), (18, x.rank), (20, x.cid)]

/-- The answer of `hoard extent` (R344). -/
def State.extentOkText (s : State) (i rows : Nat) : Text :=
  tx "extent " ++ dec i ++ [' '] ++ dec rows ++ tx " rows " ++ mibOf rows ++ tx " map " ++ mibOf (mapRows s.hrd.extents)
    ++ tx " min " ++ dec s.hrd.minJ ++ tx " J"

/-- Step 4 of R344: the extent is enabled, or refused. -/
def State.extentOn (rq : Req) (i : Nat) (x : ExtArg) (old : State) (s : State) : State :=
  let v : Word := extLo x ||| 0x80000000
  let ok := match s.reg .console 0x3818 with
    | some d => d.allows v
    | none => false
  let s := s.hubWrite .console 0x3818 v
  let t := State.selBack old s
  if ok then t.respondOk rq (s.extentOkText i x.rows) else t.respondErr rq (tx "range extent refused")

/-- `hoard extent` (R344). -/
def State.cmdHoardExtent (s : State) (rq : Req) (i : Nat) (x : Option ExtArg) : State :=
  let bad := 15 < i || (match x with
    | some x => 3 < x.rank || 3 < x.cid || 0x1FFFF < x.first || x.rows < 1 || 131072 < x.rows
    | none => false)
  let sel : Nat × Word := (0x3814, BitVec.ofNat 32 i)
  s.conRun rq true false (firstOf [s.noHoard, outOf bad "extent"])
    (firstOf [(s.hrd.st != .idle || s.hrd.unfinished, tx "busy hoard")]) (fun old =>
    match x with
    | some x => old.conWrites rq (State.extentOn rq i x old) [sel, (0x3818, extLo x), (0x381C, BitVec.ofNat 32 x.rows)]
    | none =>
      old.conWrites rq (fun s => (State.selBack old s).respondOk rq (tx "extent " ++ dec i ++ tx " off"))
        [sel, (0x3818, (nth old.hrd.extents i ⟨0, 0⟩).lo &&& 0x7FFFFFFF)])

/-- `hoard lend`. -/
def State.cmdHoardLend (s : State) (rq : Req) (on : Bool) : State :=
  s.conRun rq true false (firstOf [s.noHoard, outOf s.hrd.unfinished "restore unfinished"]) none
    (State.conWrites rq (State.conOk rq []) [(0x3810, BitVec.ofNat 32 on.toNat)])

/-- `hoard discard`. -/
def State.cmdHoardDiscard (s : State) (rq : Req) : State :=
  s.conRun rq true false (firstOf [s.noHoard, outOf (!s.hrd.unfinished) "nothing to restore"]) none
    (State.conWrites rq (State.conOk rq []) [(0x3838, 0x4B0D0001)])

/-! ## Faults and events -/

/-- FAULT_WINDOWS is absent. -/
def State.noFaults (s : State) : Bool × Text := s.lacks .faultWindows (tx "fault windows")

/-- A resource that is not there. -/
def State.noRes (s : State) (c i : Nat) : Bool × Text :=
  (resIndexOk c i && !s.resPresent c i, tx "absent " ++ classWord c ++ [' '] ++ dec i)

/-- `fault list` and `fault show`. -/
def State.cmdFaultList (s : State) (rq : Req) (sel : Option (Fin 6 × Nat)) : State :=
  match sel with
  | none => s.conRun rq false false (firstOf [s.noFaults]) none (State.conData rq State.faultLines)
  | some (c, i) => s.conRun rq false false (firstOf [s.noFaults, s.noRes c i, outOf (!resIndexOk c i) "index"]) none
      (State.conData rq (fun s => s.faultShow c i))

/-- `fault cfg`. -/
def State.cmdFaultCfg (s : State) (rq : Req) (c : Fin 6) (window thresh : Nat) (act : Option (BitVec 5)) : State :=
  let old := fld (s.fltCfg c) 28 24
  let a := match act with
    | some a => a.toNat
    | none => old
  s.conRun rq true false
    (firstOf [s.noFaults, ((c : Nat) == 5 && !s.offers .retain, tx "absent pack"),
      outOf (window < 1 || 43200 < window) "window", outOf (thresh < 1 || 255 < thresh) "threshold", outOf (!actionOk c a) "action"])
    none (State.conWrites rq (State.conOk rq []) [(0x1410 + 4 * (c : Nat), packWord [(0, window), (16, thresh), (24, a)])])

/-- FLT_RES_SEL for a class and an index; with no index, one that the class has. -/
def selWord (c : Nat) (i : Option Nat) : Word :=
  packWord [(0, c), (16, match i with
    | some i => i
    | none => if c = 4 then 1 else 0)]

/-- FLT_CMD with an operation. -/
def fltKey (op entry : Nat) : Word := BitVec.ofNat 32 (0xF17C0000 + op + 16 * entry)

/-- FLT_RES_SEL, then FLT_CMD; the selector is put back. -/
def State.fltWrites (rq : Req) (sel : Option Word) (key : Word) (t : Text) (old : State) : State :=
  old.conWrites rq (fun s => (State.selBack old s).respondOk rq t)
    ((match sel with
      | some w => [(0x1430, w)]
      | none => []) ++ [(0x143C, key)])

/-- `fault clear`. -/
def State.cmdFaultClear (s : State) (rq : Req) (sel : Option (Fin 6 × Option Nat)) : State :=
  match sel with
  | none => s.conRun rq true false (firstOf [s.noFaults]) none (State.fltWrites rq none (fltKey 3 0) (tx "fault clear all"))
  | some (c, none) => s.conRun rq true false (firstOf [s.noFaults]) none
      (State.fltWrites rq (some (selWord c none)) (fltKey 2 0) (tx "fault clear " ++ classWord c))
  | some (c, some i) => s.conRun rq true false (firstOf [s.noFaults, s.noRes c i, outOf (!resIndexOk c i) "index"]) none
      (State.fltWrites rq (some (selWord c (some i))) (fltKey 1 0) (tx "fault clear " ++ classWord c ++ [' '] ++ dec i))

/-- `fault repair` and `fault forget`. -/
def State.cmdFaultRepair (s : State) (rq : Req) (forget : Bool) (n : Nat) : State :=
  if forget then
    s.conRun rq true false (firstOf [s.noFaults, s.lacks .pprAuto (tx "self-repair"), outOf (31 < n) "entry"]) none
      (State.fltWrites rq none (fltKey 5 n) [])
  else
    s.conRun rq true false (firstOf [s.noFaults, s.lacks .pprAuto (tx "self-repair"), s.noRes 0 n, outOf (319 < n) "index",
        outOf (!s.repairNowOk 0 n) "repair refused"]) none
      (State.fltWrites rq (some (selWord 0 (some n))) (fltKey 4 0) [])

/-- `fault pack test` (R347). -/
def State.cmdPackTest (s : State) (rq : Req) : State :=
  s.conRun rq true false (firstOf [s.noFaults, s.noRetain]) none
    (State.fltWrites rq none (fltKey 6 0) (tx "pack test requested"))

/-- A source's register is absent (R276). -/
def State.noSource (s : State) (n : Nat) : Bool × Text := (n < 64 && !s.evtRegPresent n, tx "absent event " ++ dec n)

/-- `event show`. -/
def State.cmdEventShow (s : State) (rq : Req) (n : Option Nat) : State :=
  let k := n.getD 0
  s.conRun rq false false (firstOf [s.noSource k, outOf (63 < k) "event"]) none (State.conData rq (fun s => s.eventLines n))

/-- EVT_SRCn with another EN and route. -/
def State.srcWrite (rq : Req) (n : Nat) (cfg : BitVec 6 → Nat) (s : State) : State :=
  s.conWrites rq (State.conOk rq []) [(0x1900 + 4 * n, BitVec.ofNat 32 (cfg (nth s.evt.srcs n EvtSrc.fresh).cfg))]

/-- `event enable`. -/
def State.cmdEventEnable (s : State) (rq : Req) (n : Nat) (on : Bool) : State :=
  s.conRun rq true false (firstOf [s.noSource n, outOf (63 < n) "event"]) none
    (State.srcWrite rq n (fun c => c.toNat / 2 * 2 + on.toNat))

/-- `event route` (R348). -/
def State.cmdEventRoute (s : State) (rq : Req) (n : Nat) (routes : BitVec 5) : State :=
  s.conRun rq true false (firstOf [s.noSource n, outOf (63 < n) "event"]) none
    (State.srcWrite rq n (fun c => routes.toNat * 2 + c.toNat % 2))

/-- `event clear` (R348). -/
def State.cmdEventClear (s : State) (rq : Req) (n : Option Nat) : State :=
  let k := n.getD 0
  s.conRun rq true false (firstOf [s.noSource k, outOf (63 < k) "event"]) none
    (State.conWrites rq (State.conOk rq []) (match n with
      | none => [(0x1800, 0xFFFFFFFF), (0x1804, 0xFFFFFFFF)]
      | some n => [(if n < 32 then 0x1800 else 0x1804, BitVec.ofNat 32 (2 ^ (n % 32)))]))

/-- `event raise`. -/
def State.cmdEventRaise (s : State) (rq : Req) (arg : Nat) : State :=
  s.conRun rq true false (firstOf [s.lacks .events64 (tx "events 48 to 63"), outOf (0xFFFF < arg) "argument"]) none
    (State.conWrites rq (State.conOk rq []) [(0x1814, BitVec.ofNat 32 (0xEE630000 + arg))])

/-- `log` (R345). -/
def State.cmdLog (s : State) (rq : Req) (g : Ring) (start : Option Nat) (k : Nat) : State :=
  s.conRun rq false false (firstOf [outOf (k < 1 || 64 < k) "count", outOf (2 ^ 32 ≤ start.getD 0) "sequence"]) none
    (State.conData rq (fun s => s.logLines g start k))

/-! ## Settings memory -/

/-- `nvs show`. -/
def State.cmdNvsShow (s : State) (rq : Req) : State := s.conRun rq false true none none (State.conData rq State.nvsLines)

/-- The regions that `nvs commit` waits for. -/
def State.commitsOpen (s : State) : List Nat := s.nvs.pend.filter s.regionOpen

/-- `nvs commit` (R346). -/
def State.cmdNvsCommit (s : State) (rq : Req) : State :=
  let shut := s.pow.straps.nvsWp || (s.locked && !s.nvs.rescue && !s.feat.active.getLsbD 15)
  s.conRun rq true true none (firstOf [(shut, tx "nvs gated")])
    (State.conWrites rq (fun s =>
        if s.nvs.pend.isEmpty && s.nvs.failedPend.isEmpty then s.respondOk rq (tx "nvs commit none")
        else if !s.locked && !s.nvs.rescue then s.respondOk rq (tx "nvs commit held")
        else
          let rs := if s.settled || s.nvs.rescue then s.commitsOpen else s.nvs.pend
          if rs.isEmpty then s.respondOk rq (tx "nvs commit none") else s.conHold ⟨rq, .commits rs [] none, 10000⟩)
      [(0x2010, 0x9E570001)])

/-- The registers of NVS_CMD and of the image load are absent. -/
def State.noImage (s : State) : Bool × Text := (!s.nvs.rescue && !s.regOn .settingsWrite, tx "absent settings write not active")

/-- `nvs image start` (R349). -/
def State.cmdImageStart (s : State) (rq : Req) (kib crc : Nat) : State :=
  s.conRun rq true true (firstOf [outOf (kib < 1 || 447 < kib) "kib", outOf (2 ^ 32 ≤ crc) "crc"])
    (firstOf [(s.nvs.img.isSome, tx "busy nvs image"), (s.gated, tx "nvs gated")])
    (State.conWrites rq (State.conOk rq []) [(0x2034, BitVec.ofNat 32 crc), (0x2030, BitVec.ofNat 32 (0x1A0D0000 + kib))])

/-- Bytes as words, the first byte in [7:0]. -/
def wordsFrom : List Byte → List Word
  | a :: b :: c :: d :: r => BitVec.ofNat 32 (leNat [a, b, c, d]) :: wordsFrom r
  | _ => []

/-- The words a load has taken, and those it takes in all. -/
def State.imgCounts (s : State) : Text :=
  match s.nvs.img with
  | some i => dec i.count ++ tx " of " ++ dec (256 * i.kib)
  | none => []

/-- `nvs image data` (R349). -/
def State.cmdImageData (s : State) (rq : Req) (bs : List Byte) : State :=
  let ws := wordsFrom bs
  if bs.length < 4 || 64 < bs.length || bs.length % 4 != 0 then s.conSyntax rq ParseErr.form.text else
  s.conRun rq true true (firstOf [outOf s.nvs.img.isNone "no image load"])
    (firstOf [(s.imgSpace < ws.length, tx "busy nvs image space " ++ dec s.imgSpace)])
    (State.conWrites rq (fun s => s.respondOk rq (tx "nvs image " ++ s.imgCounts ++ tx " words"))
      (ws.map (fun w => (0x2038, w))))

/-- `nvs image abort`. -/
def State.cmdImageAbort (s : State) (rq : Req) : State :=
  s.conRun rq true true (firstOf [s.noImage]) none (State.conWrites rq (State.conOk rq []) [(0x2010, 0x9E570002)])

/-- `nvs image status`. -/
def State.cmdImageStatus (s : State) (rq : Req) : State := s.conRun rq false true none none (State.conData rq State.imageLines)

/-! ## A command by its form -/

/-- A parsed command runs. -/
def State.runCmd (s : State) (rq : Req) : ConCmd → State
  | .help ws => s.cmdHelp rq ws
  | .id => s.cmdId rq
  | .featureShow => s.cmdFeatureShow rq
  | .featureAccept m => s.cmdFeatureAccept rq m
  | .featureLock => s.cmdFeatureLock rq
  | .featureDeadline n => s.cmdFeatureDeadline rq n
  | .peek a n => s.cmdPeek rq a n
  | .poke a v => s.cmdPoke rq a v
  | .show w => s.cmdShow rq w
  | .modeMachine => s.cmdModeMachine rq
  | .modeTyped => s.cmdModeTyped rq
  | .baud r => s.cmdBaud rq r
  | .serviceUnlock c => s.cmdUnlock rq c
  | .serviceLock => s.cmdServiceLock rq
  | .serviceStatus => s.cmdServiceStatus rq
  | .timeShow => s.cmdTimeShow rq
  | .timeSet t => s.cmdTimeSet rq t
  | .timeClear => s.cmdTimeClear rq
  | .trimShow => s.cmdTrimShow rq
  | .trimPause p => s.cmdTrimPause rq p
  | .trainShow => s.cmdTrainShow rq
  | .trainMaint x r => s.cmdTrainMaint rq x r
  | .trainSave b => s.cmdTrainSave rq b
  | .calShow => s.cmdCalShow rq
  | .calRun v u => s.cmdCalRun rq v u
  | .calAdcRef mv => s.cmdCalAdc rq mv
  | .keepStatus => s.cmdKeepStatus rq
  | .keepSpan r v => s.cmdKeepSpan rq r v
  | .keepCharge c => s.cmdKeepCharge rq c
  | .keepPack c => s.cmdKeepPack rq c
  | .hoardStatus m => s.cmdHoardStatus rq m
  | .hoardExtent i x => s.cmdHoardExtent rq i x
  | .hoardLend on => s.cmdHoardLend rq on
  | .hoardDiscard => s.cmdHoardDiscard rq
  | .faultList sel => s.cmdFaultList rq sel
  | .faultCfg c w t a => s.cmdFaultCfg rq c w t a
  | .faultClear sel => s.cmdFaultClear rq sel
  | .faultRepair f n => s.cmdFaultRepair rq f n
  | .faultPackTest => s.cmdPackTest rq
  | .eventShow n => s.cmdEventShow rq n
  | .eventEnable n on => s.cmdEventEnable rq n on
  | .eventRoute n r => s.cmdEventRoute rq n r
  | .eventClear n => s.cmdEventClear rq n
  | .eventRaise a => s.cmdEventRaise rq a
  | .log g st k => s.cmdLog rq g st k
  | .nvsShow => s.cmdNvsShow rq
  | .nvsCommit => s.cmdNvsCommit rq
  | .nvsImageStart k c => s.cmdImageStart rq k c
  | .nvsImageData bs => s.cmdImageData rq bs
  | .nvsImageAbort => s.cmdImageAbort rq
  | .nvsImageStatus => s.cmdImageStatus rq
  | .clockShow => s.cmdClockShow rq
  | .powerDomains f => s.cmdPower rq f
  | .powerClear m => s.cmdPowerClear rq m
  | .maintShow => s.cmdMaintShow rq
  | .resetMgmt => s.cmdResetMgmt rq
  | .resetUnit u => s.cmdResetUnit rq u

end Sys2Proof.Machine
end

