-- ==== Sys2Proof/Machine/ConRows.lean ====
section
/-! DEFINITION. The console as its sessions see it (14): characters and lines, the queue, output that has been sent, and
the tunnels (13 R299); the rows of 14 and 15. -/

namespace Sys2Proof.Machine

/-! ## Characters (R315, R319) -/

/-- The session of a port's tunnel. -/
def portSess : Port → Sess
  | .host => .host | .loc => .loc

/-- Output outside a response: an echo, as far as the output buffer has room. -/
def State.conEcho (s : State) (x : Sess) (t : Text) : State :=
  if outCap x < (s.ses x).out.length + t.length then s else s.setSes x (fun y => { y with out := y.out ++ t })

/-- A character in typed mode (15 'Typed-mode characters'). -/
def State.typedChar (s : State) (x : Sess) (c : Byte) : State :=
  let n := c.toNat
  let t := s.ses x
  if 0x20 ≤ n && n ≤ 0x7E then
    if t.tooLong || 160 ≤ t.line.length then s.setSes x (fun y => { y with tooLong := true })
    else (s.setSes x (fun y => { y with line := y.line ++ [charOf c] })).conEcho x [charOf c]
  else if n = 8 || n = 0x7F then
    if t.line.isEmpty then s
    else (s.setSes x (fun y => { y with line := y.line.dropLast })).conEcho x [charOf 8, ' ', charOf 8]
  else if n = 0x15 then
    (s.setSes x (fun y => { y with line := [], tooLong := false })).conEcho x (crlf ++ prompt)
  else s

/-- A character in machine mode: every one counts as it is. -/
def State.machineChar (s : State) (x : Sess) (c : Byte) : State :=
  s.setSes x (fun y => if y.tooLong || 160 ≤ y.line.length then { y with tooLong := true }
    else { y with line := y.line ++ [charOf c] })

/-- A machine line as its form has it (R319): nn, the command, and whether its CRC matches. -/
def machineForm (l : Text) : Option (BitVec 8 × Text × Bool) :=
  let n := l.length
  let tail := l.drop (n - 6)
  match hexNat ((l.drop 1).take 2), hexNat (tail.drop 2) with
  | some nn, some crc =>
    if 10 ≤ n && l.head? == some '#' && nth l 3 '.' == ' ' && tail.take 2 == [' ', '*'] then
      some (BitVec.ofNat 8 nn, (l.drop 4).take (n - 10), crc == (crc16 ((l.take (n - 5)).map byteOf)).toNat)
    else none
  | _, _ => none

/-- A complete line joins the queue, or finds it full (R323). -/
def State.conQueue (s : State) (x : Sess) (nn : Option (BitVec 8)) (t : Text) : State :=
  if 4 ≤ s.con.queue.length then s.conBusy x nn []
  else { s with con := { s.con with queue := s.con.queue ++ [(⟨x, nn⟩, t)] } }

/-- A machine line that is refused for its CRC or its form (R321). -/
def State.conRefuse (s : State) (x : Sess) (t : Text) : State :=
  { s with con := { s.con with errCrc := satAdd s.con.errCrc 1 } }.answer x t

/-- A machine-mode line. -/
def State.machineEnd (s : State) (x : Sess) (l : Text) (long : Bool) : State :=
  if long then s.conRefuse x (tx "#-- err syntax") else
  match machineForm l with
  | none => s.conRefuse x (tx "#-- err syntax")
  | some (nn, _, false) => s.conRefuse x ('#' :: hexPad 2 nn.toNat ++ tx " err crc")
  | some (nn, c, true) => s.conQueue x (some nn) c

/-- A typed line; an empty one gets the prompt (R316). -/
def State.typedEnd (s : State) (x : Sess) (l : Text) (long : Bool) : State :=
  let s := s.conEcho x crlf
  if long then s.answer x (tx "err syntax line too long")
  else if (wordsOf l).isEmpty then s.conEcho x prompt
  else s.conQueue x none l

/-- A terminator completes a line; on the UART it ends the revert (R313). -/
def State.lineEnd (s : State) (x : Sess) : State :=
  let t := s.ses x
  let s := s.setSes x (fun y => { y with line := [], tooLong := false })
  let s := if x == .uart then { s with con := { s.con with revertTo := none } } else s
  if t.machine then s.machineEnd x t.line t.tooLong else s.typedEnd x t.line t.tooLong

/-- A received character (R315): CR, LF and CR LF end a line once. -/
def State.conRx (s : State) (x : Sess) (c : Byte) : State :=
  if !s.conOn then s else
  let after := (s.ses x).afterCr
  let s := s.setSes x (fun y => { y with afterCr := c == 0x0D })
  if c = 0x0D then s.lineEnd x
  else if c = 0x0A then if after then s else s.lineEnd x
  else if (s.ses x).machine then s.machineChar x c else s.typedChar x c

/-! ## The queue -/

/-- The interpreter takes the oldest waiting line (R323). -/
def State.conExecute (s : State) : State :=
  match s.con.queue with
  | [] => s
  | (rq, l) :: q =>
    if !s.conOn || !s.conIdle then s else
    let s := { s with con := { s.con with queue := q } }
    match parseLine rq.nn.isSome l with
    | .error e => s.conSyntax rq e.text
    | .ok (_, c) => s.runCmd rq c

/-! ## Output (R313, R318, R340) -/

/-- The `baud` command takes effect: CON_CFG.BAUD, and the revert against the value before (R313). -/
def State.baudSet (s : State) (code : BitVec 4) : State :=
  let old : BitVec 4 := s.con.cfg.setWidth 4
  let s := s.hubWrite .console 0x2800 (setFld s.con.cfg 3 0 code.toNat)
  { s with con := { s.con with revertTo := some old } }

/-- What a final line brings about once it has been sent. -/
def State.conEnding (s : State) (x : Sess) : State :=
  let e := (s.ses x).ending
  let s := s.setSes x (fun t => { t with ending := none })
  match e with
  | none => s
  | some .toMachine => s.setSes x (fun t => { t with machine := true })
  | some .toTyped => (s.setSes x (fun t => { t with machine := false })).conEcho x prompt
  | some .lock => s.endUnlock x
  | some (.baud c) => s.baudSet c
  | some .mrst => s.mrstRequest .console
  | some (.crst b) => s.hubWrite .console 0x2C10 b

/-- A session has sent what stood in its output buffer: a final line sent in full takes effect, the UART may change its
rate, and what waits follows. -/
def State.conSent (s : State) (x : Sess) : State :=
  if !s.conOn then s else
  let t := s.ses x
  let s := if t.out.isEmpty && t.resp.isEmpty then s.conEnding x else s
  let s := if x == .uart then s.baudApply else s
  (s.pump x).conRelease

/-- CON_OUTPUT_SENT: the UART has sent its output buffer; a tunnel's output goes by A2 reads. -/
def State.outputSent (s : State) (x : Sess) : State :=
  (if x == .uart then s.setSes x (fun t => { t with out := [] }) else s).conSent x

/-- A break on the UART (R314, R331). -/
def State.conBreak (s : State) : State :=
  if !s.conOn then s else
  let s := (s.resetSes .uart).setSes .uart (fun t => { t with out := prompt })
  State.conRelease { s with con := { s.con with breakRate := true, rate := 4, revertTo := none } }

/-- The revert of R313. -/
def State.baudRevert (s : State) : State :=
  match s.con.revertTo with
  | none => s
  | some r =>
    if !s.conOn then s else
    let moved := r != s.con.cfg.setWidth 4
    let s := { s with con := { s.con with cfg := setFld s.con.cfg 3 0 r.toNat, revertTo := none } }
    (if moved then s.pendRegion 3 else s).baudApply

/-- A response is cut (R325): its remaining lines are lost, and what its final line was to bring about is not done. -/
def State.responseCut (s : State) (x : Sess) : State :=
  let t := s.ses x
  if !s.conOn || t.resp.isEmpty then s else
  let n := (t.resp.filter (fun l => l.getLast? == some '\n')).length
  ((s.setSes x (fun t => { t with resp := [], ending := none, lost := t.lost + n })).pump x).conRelease

/-! ## Tunnels (R299, R300) -/

/-- An A2 write: one buffer while it lasts; its characters pass to the console together, or not at all. -/
def State.a2Write (s : State) (p : Port) (addr : BitVec 7) (bs : List Byte) (stop : Bool) : State :=
  if !s.answers p 2 addr false then s else
  match bs with
  | [] => s.setPort p TwbPort.discard
  | n :: cs =>
    let claim := s.pool.claim (portHolder p)
    let s := { s with pool := claim.1 }
    if !claim.2 then s.twbBusy p else
    let s := { s with pool := s.pool.free (portHolder p) }
    let pec := (s.port p).pec
    if !(1 ≤ n.toNat && n.toNat ≤ 32 && cs.length == n.toNat + pec.toNat && stop) then s.setPort p TwbPort.discard
    else if !pecGood pec addr bs then s.setPort p TwbPort.pecBad
    else (cs.take n.toNat).foldl (fun s c => s.conRx (portSess p) c) s

/-- An A2 read: up to 32 output characters, delivered when a STOP follows. -/
def State.a2Read (s : State) (p : Port) (addr : BitVec 7) (stop : Bool) : State :=
  if !s.answers p 2 addr true then s else
  let x := portSess p
  let cs := (s.ses x).out.take 32
  let body := BitVec.ofNat 8 cs.length :: cs.map byteOf
  let s := s.setPort p (fun t => { t with sent := if t.pec then body ++ [pecOf (addrByte addr true :: body)] else body })
  if stop then (s.setSes x (fun t => { t with out := t.out.drop cs.length })).conSent x else s

/-! ## Rows of 13 and 14 -/

/-- TWB_A2_WRITE (R299). -/
def execTwbA2Write (p : Port) (addr : BitVec 7) (bs : List Byte) (stop : Bool) (s : State) : Out :=
  .next (s.a2Write p addr bs stop)
/-- TWB_A2_READ (R299). -/
def execTwbA2Read (p : Port) (addr : BitVec 7) (stop : Bool) (s : State) : Out := .next (s.a2Read p addr stop)
/-- CON_CHARACTER (R315). -/
def execConCharacter (x : Sess) (c : Byte) (s : State) : Out := .next (s.conRx x c)
/-- CON_LINE (R323): the terminator, CR or LF. -/
def execConLine (x : Sess) (c : Byte) (s : State) : Out := .next (if c = 0x0D || c = 0x0A then s.conRx x c else s)
/-- CON_EXECUTE (R323). -/
def execConExecute (s : State) : Out := .next s.conExecute
/-- CON_BREAK (R314). -/
def execConBreak (s : State) : Out := .next s.conBreak
/-- BAUD_REVERT (R313). -/
def execBaudRevert (s : State) : Out := .next s.baudRevert
/-- UNLOCK_IDLE_END (R331). -/
def execUnlockIdleEnd (x : Sess) (s : State) : Out :=
  .next (if s.conOn && fld s.con.cfg 15 8 != 0 then s.endUnlock x else s)
/-- UNLOCK_LOCKOUT_END (R330). -/
def execUnlockLockoutEnd (s : State) : Out := .next { s with con := { s.con with lockout := false } }
/-- CON_RESPONSE_CUT (R325). -/
def execConResponseCut (x : Sess) (s : State) : Out := .next (s.responseCut x)
/-- CON_ASYNC_LINE (R326). -/
def execConAsyncLine (t : Text) (s : State) : Out := .next (s.asyncLine t)
/-- CON_OUTPUT_SENT (R313, R340). -/
def execConOutputSent (x : Sess) (s : State) : Out := .next (s.outputSent x)

/-! ## Rows of 15 -/

/-- HELP. -/
def execHelp (rq : Req) (ws : List Text) (s : State) : Out := .next (s.cmdHelp rq ws)
/-- ID. -/
def execId (rq : Req) (s : State) : Out := .next (s.cmdId rq)
/-- FEATURE_SHOW. -/
def execFeatureShow (rq : Req) (s : State) : Out := .next (s.cmdFeatureShow rq)
/-- FEATURE_ACCEPT. -/
def execFeatureAccept (rq : Req) (mask : Nat) (s : State) : Out := .next (s.cmdFeatureAccept rq mask)
/-- FEATURE_LOCK (R339). -/
def execFeatureLock (rq : Req) (s : State) : Out := .next (s.cmdFeatureLock rq)
/-- FEATURE_DEADLINE. -/
def execFeatureDeadline (rq : Req) (tenths : Nat) (s : State) : Out := .next (s.cmdFeatureDeadline rq tenths)
/-- PEEK (R9). -/
def execPeek (rq : Req) (a : Addr) (n : Nat) (s : State) : Out := .next (s.cmdPeek rq a n)
/-- POKE (R9). -/
def execPoke (rq : Req) (a : Addr) (v : Word) (s : State) : Out := .next (s.cmdPoke rq a v)
/-- SHOW. -/
def execShow (rq : Req) (what : ShowWhat) (s : State) : Out := .next (s.cmdShow rq what)
/-- MODE_MACHINE (R318). -/
def execModeMachine (rq : Req) (s : State) : Out := .next (s.cmdModeMachine rq)
/-- MODE_TYPED (R318). -/
def execModeTyped (rq : Req) (s : State) : Out := .next (s.cmdModeTyped rq)
/-- BAUD (R340). -/
def execBaud (rq : Req) (rate : Nat) (s : State) : Out := .next (s.cmdBaud rq rate)
/-- SERVICE_UNLOCK (R329, R330). -/
def execServiceUnlock (rq : Req) (code : Text) (s : State) : Out := .next (s.cmdUnlock rq code)
/-- SERVICE_LOCK (R331). -/
def execServiceLock (rq : Req) (s : State) : Out := .next (s.cmdServiceLock rq)
/-- SERVICE_STATUS. -/
def execServiceStatus (rq : Req) (s : State) : Out := .next (s.cmdServiceStatus rq)
/-- TIME_SHOW. -/
def execTimeShow (rq : Req) (s : State) : Out := .next (s.cmdTimeShow rq)
/-- TIME_SET (R341). -/
def execTimeSet (rq : Req) (t : Civil) (s : State) : Out := .next (s.cmdTimeSet rq t)
/-- TIME_CLEAR. -/
def execTimeClear (rq : Req) (s : State) : Out := .next (s.cmdTimeClear rq)
/-- TRIM_SHOW. -/
def execTrimShow (rq : Req) (s : State) : Out := .next (s.cmdTrimShow rq)
/-- TRIM_PAUSE. -/
def execTrimPause (rq : Req) (pause : Bool) (s : State) : Out := .next (s.cmdTrimPause rq pause)
/-- TRAIN_SHOW. -/
def execTrainShow (rq : Req) (s : State) : Out := .next (s.cmdTrainShow rq)
/-- TRAIN_MAINT (R159). -/
def execTrainMaint (rq : Req) (x : Sub) (rank : Nat) (s : State) : Out := .next (s.cmdTrainMaint rq x rank)
/-- TRAIN_SAVE (R147, R148). -/
def execTrainSave (rq : Req) (save : Bool) (s : State) : Out := .next (s.cmdTrainSave rq save)
/-- CAL_SHOW. -/
def execCalShow (rq : Req) (s : State) : Out := .next (s.cmdCalShow rq)
/-- CAL_TAP and CAL_VREF of the console (R342). -/
def execCalTapVrefCmd (rq : Req) (vref : Bool) (unit : Option Nat) (s : State) : Out := .next (s.cmdCalRun rq vref unit)
/-- CAL_ADC_REF (R343). -/
def execCalAdcRef (rq : Req) (mv : Nat) (s : State) : Out := .next (s.cmdCalAdc rq mv)
/-- KEEP_STATUS. -/
def execKeepStatus (rq : Req) (s : State) : Out := .next (s.cmdKeepStatus rq)
/-- KEEP_SPAN and KEEP_RESERVE. -/
def execKeepSpan (rq : Req) (reserve : Bool) (v : Nat) (s : State) : Out := .next (s.cmdKeepSpan rq reserve v)
/-- KEEP_CHARGE. -/
def execKeepCharge (rq : Req) (cfg : Option (Nat × Nat)) (s : State) : Out := .next (s.cmdKeepCharge rq cfg)
/-- KEEP_PACK. -/
def execKeepPack (rq : Req) (c : Nat) (s : State) : Out := .next (s.cmdKeepPack rq c)
/-- HOARD_STATUS and HOARD_MAP. -/
def execHoardStatus (rq : Req) (map : Bool) (s : State) : Out := .next (s.cmdHoardStatus rq map)
/-- HOARD_EXTENT (R344). -/
def execHoardExtent (rq : Req) (i : Nat) (x : Option ExtArg) (s : State) : Out := .next (s.cmdHoardExtent rq i x)
/-- HOARD_LEND. -/
def execHoardLend (rq : Req) (on : Bool) (s : State) : Out := .next (s.cmdHoardLend rq on)
/-- HOARD_DISCARD. -/
def execHoardDiscard (rq : Req) (s : State) : Out := .next (s.cmdHoardDiscard rq)
/-- FAULT_LIST and FAULT_SHOW. -/
def execFaultList (rq : Req) (sel : Option (Fin 6 × Nat)) (s : State) : Out := .next (s.cmdFaultList rq sel)
/-- FAULT_CFG. -/
def execFaultCfg (rq : Req) (c : Fin 6) (window thresh : Nat) (act : Option (BitVec 5)) (s : State) : Out :=
  .next (s.cmdFaultCfg rq c window thresh act)
/-- FAULT_CLEAR. -/
def execFaultClear (rq : Req) (sel : Option (Fin 6 × Option Nat)) (s : State) : Out := .next (s.cmdFaultClear rq sel)
/-- FAULT_REPAIR and FAULT_FORGET. -/
def execFaultRepair (rq : Req) (forget : Bool) (n : Nat) (s : State) : Out := .next (s.cmdFaultRepair rq forget n)
/-- FAULT_PACK_TEST (R347). -/
def execFaultPackTest (rq : Req) (s : State) : Out := .next (s.cmdPackTest rq)
/-- EVENT_SHOW. -/
def execEventShow (rq : Req) (n : Option Nat) (s : State) : Out := .next (s.cmdEventShow rq n)
/-- EVENT_ENABLE. -/
def execEventEnable (rq : Req) (n : Nat) (on : Bool) (s : State) : Out := .next (s.cmdEventEnable rq n on)
/-- EVENT_ROUTE (R348). -/
def execEventRoute (rq : Req) (n : Nat) (routes : BitVec 5) (s : State) : Out := .next (s.cmdEventRoute rq n routes)
/-- EVENT_CLEAR (R348). -/
def execEventClear (rq : Req) (n : Option Nat) (s : State) : Out := .next (s.cmdEventClear rq n)
/-- EVENT_RAISE of the console. -/
def execEventRaiseCmd (rq : Req) (arg : Nat) (s : State) : Out := .next (s.cmdEventRaise rq arg)
/-- LOG (R345). -/
def execLog (rq : Req) (g : Ring) (start : Option Nat) (k : Nat) (s : State) : Out := .next (s.cmdLog rq g start k)
/-- NVS_SHOW. -/
def execNvsShow (rq : Req) (s : State) : Out := .next (s.cmdNvsShow rq)
/-- NVS_COMMIT (R346). -/
def execNvsCommit (rq : Req) (s : State) : Out := .next (s.cmdNvsCommit rq)
/-- NVS_IMAGE_START of the console (R349). -/
def execNvsImageStartCmd (rq : Req) (kib crc : Nat) (s : State) : Out := .next (s.cmdImageStart rq kib crc)
/-- NVS_IMAGE_DATA of the console (R349). -/
def execNvsImageDataCmd (rq : Req) (bs : List Byte) (s : State) : Out := .next (s.cmdImageData rq bs)
/-- NVS_IMAGE_ABORT of the console (R349). -/
def execNvsImageAbortCmd (rq : Req) (s : State) : Out := .next (s.cmdImageAbort rq)
/-- NVS_IMAGE_STATUS of the console (R349). -/
def execNvsImageStatusCmd (rq : Req) (s : State) : Out := .next (s.cmdImageStatus rq)
/-- CLOCK_SHOW. -/
def execClockShow (rq : Req) (s : State) : Out := .next (s.cmdClockShow rq)
/-- POWER_DOMAINS and POWER_FAULTS. -/
def execPowerDomains (rq : Req) (faults : Bool) (s : State) : Out := .next (s.cmdPower rq faults)
/-- POWER_CLEAR. -/
def execPowerClear (rq : Req) (mask : BitVec 5) (s : State) : Out := .next (s.cmdPowerClear rq mask)
/-- MAINT_SHOW. -/
def execMaintShow (rq : Req) (s : State) : Out := .next (s.cmdMaintShow rq)
/-- RESET_MGMT (R340). -/
def execResetMgmt (rq : Req) (s : State) : Out := .next (s.cmdResetMgmt rq)
/-- RESET_UNIT (R340). -/
def execResetUnit (rq : Req) (u : UnitName) (s : State) : Out := .next (s.cmdResetUnit rq u)

end Sys2Proof.Machine
end

