-- ==== Sys2Proof/Machine/RowWrites.lean ====
section
/-! DEFINITION. The rows that are one access to a register, by the path they come by: each is that access, judged as
every access is (R5 to R10). -/

namespace Sys2Proof.Machine

/-- A write whose value the row's key and fields spell. -/
def State.put (s : State) (p : Path) (a : Addr) (v : Nat) : State := s.hubWrite p a (BitVec.ofNat 32 v)

/-- A target of the local bus answers, or is silent, from here on. -/
def State.tgtAnswers (s : State) (t : Nat) (answers : Bool) : State := s.setTgt t (fun z => { z with alive := answers })

/-- A write of PWR_SPAN; in ATTENDED a span at or below the time used expires (R221). -/
def State.spanWrite (s : State) (p : Path) (v : Word) : State :=
  let s := s.hubWrite p 0x1C0C v
  if s.pow.dom == .attended && s.pow.keep == .hold && !s.zxp.plant && s.pow.span.toNat * 1000 ≤ s.pow.usedMs
  then s.spanExpire else s

/-- FEAT_LOCK (R29). -/
def execFeatLock (p : Path) (v : Word) (s : State) : Out := .next (s.hubWrite p 0x0050 v)
/-- FEAT_DEADLINE_WRITE (R37). -/
def execFeatDeadlineWrite (p : Path) (v : Word) (s : State) : Out := .next (s.hubWrite p 0x0060 v)
/-- REGISTER_WRITE (R7). -/
def execRegisterWrite (p : Path) (a : Addr) (v : Word) (s : State) : Out := .next (s.hubWrite p a v)
/-- STOP_RELEASE (R86): HST_ALERT_CAUSE. -/
def execStopRelease (p : Path) (v : Word) (s : State) : Out := .next (s.hubWrite p 0x010C v)
/-- DBD_TRIM_STAGE_WRITE (R123): the buffer that DBM_SEL of the path names. -/
def execDbdTrimStageWrite (p : Path) (v : Word) (s : State) : Out := .next (s.hubWrite p 0x0CA4 v)
/-- HSETTLE_START (R153): TRM_HSETTLE. -/
def execHsettleStart (p : Path) (v : Word) (s : State) : Out := .next (s.hubWrite p 0x112C v)
/-- REC_SAVE (R147): TRM_REC_CMD. -/
def execRecSave (p : Path) (s : State) : Out := .next (s.put p 0x1110 0x5A01)
/-- REC_INVALIDATE (R148): TRM_REC_CMD. -/
def execRecInvalidate (p : Path) (s : State) : Out := .next (s.put p 0x1110 0x5A02)
/-- HBLOB_DATA_ACCESS (R162): a write, or a read. -/
def execHblobDataAccess (p : Path) (w : Option Word) (s : State) : Out :=
  .next (match w with
    | some v => s.hubWrite p 0x1124 v
    | none => s.afterRead p 0x1124)
/-- CAL_TAP (R164): CAL_CMD. -/
def execCalTap (p : Path) (unit : BitVec 4) (s : State) : Out := .next (s.put p 0x1008 (0xCA1B0001 + 16 * unit.toNat))
/-- CAL_VREF (R166): CAL_CMD. -/
def execCalVref (p : Path) (unit : BitVec 4) (s : State) : Out := .next (s.put p 0x1008 (0xCA1B0002 + 16 * unit.toNat))
/-- CAL_TAP_THEN_VREF (R170): CAL_CMD. -/
def execCalTapThenVref (p : Path) (unit : BitVec 4) (s : State) : Out :=
  .next (s.put p 0x1008 (0xCA1B0003 + 16 * unit.toNat))
/-- CAL_ADC (R168): CAL_CMD. -/
def execCalAdc (p : Path) (s : State) : Out := .next (s.put p 0x1008 0xCA1B00B4)
/-- NVS_CMD_COMMIT (R196). -/
def execNvsCmdCommit (p : Path) (s : State) : Out := .next (s.put p 0x2010 0x9E570001)
/-- NVS_CMD_ABORT_IMAGE (R200). -/
def execNvsCmdAbortImage (p : Path) (s : State) : Out := .next (s.put p 0x2010 0x9E570002)
/-- NVS_IMAGE_START (R200): NVS_IMG_CTRL. -/
def execNvsImageStart (p : Path) (v : Word) (s : State) : Out := .next (s.hubWrite p 0x2030 v)
/-- NVS_IMAGE_DATA (R200): NVS_IMG_DATA. -/
def execNvsImageData (p : Path) (v : Word) (s : State) : Out := .next (s.hubWrite p 0x2038 v)
/-- CLK_LIFE_LO_READ (R62). -/
def execClkLifeLoRead (p : Path) (s : State) : Out := .next (s.afterRead p 0x2C14)
/-- CLK_WALL_HI_WRITE (R62). -/
def execClkWallHiWrite (p : Path) (v : Word) (s : State) : Out := .next (s.hubWrite p 0x2C20 v)
/-- PWR_SPAN_WRITE (R221). -/
def execPwrSpanWrite (p : Path) (v : Word) (s : State) : Out := .next (s.spanWrite p v)
/-- FLT_CFG_WRITE (R259). -/
def execFltCfgWrite (p : Path) (c : Fin 6) (v : Word) (s : State) : Out :=
  .next (s.hubWrite p (BitVec.ofNat 16 (0x1410 + 4 * (c : Nat))) v)
/-- FLT_CLEAR_RESOURCE (R258): FLT_CMD OP 1. -/
def execFltClearResource (p : Path) (s : State) : Out := .next (s.put p 0x143C 0xF17C0001)
/-- FLT_CLEAR_CLASS (R258): FLT_CMD OP 2. -/
def execFltClearClass (p : Path) (s : State) : Out := .next (s.put p 0x143C 0xF17C0002)
/-- FLT_CLEAR_ALL (R258): FLT_CMD OP 3. -/
def execFltClearAll (p : Path) (s : State) : Out := .next (s.put p 0x143C 0xF17C0003)
/-- FLT_REPAIR_NOW (R267): FLT_CMD OP 4. -/
def execFltRepairNow (p : Path) (s : State) : Out := .next (s.put p 0x143C 0xF17C0004)
/-- FLT_FORGET (R267): FLT_CMD OP 5. -/
def execFltForget (p : Path) (entry : Fin 32) (s : State) : Out := .next (s.put p 0x143C (0xF17C0005 + 16 * entry.val))
/-- FLT_PACK_TEST (R270): FLT_CMD OP 6. -/
def execFltPackTest (p : Path) (s : State) : Out := .next (s.put p 0x143C 0xF17C0006)
/-- EVT_STATUS_CLEAR (R280). -/
def execEvtStatusClear (p : Path) (high : Bool) (v : Word) (s : State) : Out :=
  .next (s.hubWrite p (if high then 0x1804 else 0x1800) v)
/-- EVT_RAISE (R276). -/
def execEvtRaise (p : Path) (v : Word) (s : State) : Out := .next (s.hubWrite p 0x1814 v)
/-- HRD_DISCARD (R243): HRD_CMD. -/
def execHrdDiscard (p : Path) (v : Word) (s : State) : Out := .next (s.hubWrite p 0x3838 v)
/-- HRD_EXT_LO_WRITE (R237). -/
def execHrdExtLoWrite (p : Path) (v : Word) (s : State) : Out := .next (s.hubWrite p 0x3818 v)
/-- MRST_REQUEST (R73): CLK_MRST. -/
def execMrstRequest (p : Path) (v : Word) (s : State) : Out := .next (s.hubWrite p 0x2C0C v)
/-- CRST_CON (R311). -/
def execCrstCon (p : Path) (s : State) : Out := .next (s.put p 0x2C10 (2 ^ 0))
/-- CRST_TWB_HOST (R308). -/
def execCrstTwbHost (p : Path) (s : State) : Out := .next (s.put p 0x2C10 (2 ^ 1))
/-- CRST_TWB_LOCAL (R308). -/
def execCrstTwbLocal (p : Path) (s : State) : Out := .next (s.put p 0x2C10 (2 ^ 2))
/-- CRST_EVT_QUEUE (R280). -/
def execCrstEvtQueue (p : Path) (s : State) : Out := .next (s.put p 0x2C10 (2 ^ 3))
/-- CRST_SME. -/
def execCrstSme (p : Path) (s : State) : Out := .next (s.put p 0x2C10 (2 ^ 4))
/-- CRST_ZLB (R130). -/
def execCrstZlb (p : Path) (s : State) : Out := .next (s.put p 0x2C10 (2 ^ 5))
/-- CRST_HRD (R77). -/
def execCrstHrd (p : Path) (s : State) : Out := .next (s.put p 0x2C10 (2 ^ 6))
/-- CRST_USER (R368). -/
def execCrstUser (p : Path) (s : State) : Out := .next (s.put p 0x2C10 (2 ^ 7))
/-- A unit that is fitted answers its rediscovery, or does not. -/
def State.crstTarget (s : State) (t : Nat) (fitted answers : Bool) : State := if fitted then s.tgtAnswers t answers else s

/-- CRST_DB (R131): `answers` says whether the buffer answers its rediscovery. -/
def execCrstDb (p : Path) (n : Fin 10) (answers : Bool) (s : State) : Out :=
  .next ((s.crstTarget n s.buffers answers).put p 0x2C10 (2 ^ (8 + n.val)))
/-- CRST_ZXP (R131). -/
def execCrstZxp (p : Path) (answers : Bool) (s : State) : Out := .next ((s.crstTarget 10 s.modl.zxpFitted answers).put p 0x2C10 (2 ^ 18))

end Sys2Proof.Machine
end

