-- ==== Sys2Proof/Machine/Dispatch.lean ====
section
/-! DEFINITION. The dispatch: one arm per row of spec/opcode_table.json, each one direct call of its meaning. -/

namespace Sys2Proof.Machine

/-- The effect of a command on everything but the queue of waiting commands. -/
def exec (i : Instr) (s : State) : Host.Outcome State Fault Refusal :=
  match i with
  | .porRelease st => Sys2Proof.Machine.execPorRelease st s
  | .vkaLost => Sys2Proof.Machine.execVkaLost s
  | .hostPowerGood => Sys2Proof.Machine.execHostPowerGood s
  | .bootStart => Sys2Proof.Machine.execBootStart s
  | .managementReady b => Sys2Proof.Machine.execManagementReady b s
  | .pfail bankOk => Sys2Proof.Machine.execPfail bankOk s
  | .curlComplete t => Sys2Proof.Machine.execCurlComplete t s
  | .commitHoldEnd => Sys2Proof.Machine.execCommitHoldEnd s
  | .pd2Brownout => Sys2Proof.Machine.execPd2Brownout s
  | .pd2BrownoutRestart => Sys2Proof.Machine.execPd2BrownoutRestart s
  | .pd3Brownout => Sys2Proof.Machine.execPd3Brownout s
  | .pd3BrownoutEnd => Sys2Proof.Machine.execPd3BrownoutEnd s
  | .pd4Lost => Sys2Proof.Machine.execPd4Lost s
  | .pd6RailTimeout => Sys2Proof.Machine.execPd6RailTimeout s
  | .svcAttend => Sys2Proof.Machine.execSvcAttend s
  | .svcRelease => Sys2Proof.Machine.execSvcRelease s
  | .plantPresent => Sys2Proof.Machine.execPlantPresent s
  | .plantAbsent => Sys2Proof.Machine.execPlantAbsent s
  | .plantOverVoltage => Sys2Proof.Machine.execPlantOverVoltage s
  | .plantReverse => Sys2Proof.Machine.execPlantReverse s
  | .bankFloor => Sys2Proof.Machine.execBankFloor s
  | .commitFloor => Sys2Proof.Machine.execCommitFloor s
  | .bankArmChange armed => Sys2Proof.Machine.execBankArmChange armed s
  | .chargerFull => Sys2Proof.Machine.execChargerFull s
  | .chargerResume => Sys2Proof.Machine.execChargerResume s
  | .chargerFault => Sys2Proof.Machine.execChargerFault s
  | .converterFault => Sys2Proof.Machine.execConverterFault s
  | .orReverseFault => Sys2Proof.Machine.execOrReverseFault s
  | .thermalChargerPause => Sys2Proof.Machine.execThermalChargerPause s
  | .adcSlot fine coarse => Sys2Proof.Machine.execAdcSlot fine coarse s
  | .energyUpdate => Sys2Proof.Machine.execEnergyUpdate s
  | .spanExpiry => Sys2Proof.Machine.execSpanExpiry s
  | .nandProgramDone channel lun block ok => Sys2Proof.Machine.execNandProgramDone channel lun block ok s
  | .hoardSaveComplete => Sys2Proof.Machine.execHoardSaveComplete s
  | .hoardAreaFull noSpace => Sys2Proof.Machine.execHoardAreaFull noSpace s
  | .hoardRestoreStart => Sys2Proof.Machine.execHoardRestoreStart s
  | .hoardRestoreUnit sub corrected uncorrectable => Sys2Proof.Machine.execHoardRestoreUnit sub corrected uncorrectable s
  | .hoardRestoreComplete => Sys2Proof.Machine.execHoardRestoreComplete s
  | .hoardSpareEraseStart => Sys2Proof.Machine.execHoardSpareEraseStart s
  | .hoardSpareClean => Sys2Proof.Machine.execHoardSpareClean s
  | .hrdDiscard path value => Sys2Proof.Machine.execHrdDiscard path value s
  | .hrdExtLoWrite path value => Sys2Proof.Machine.execHrdExtLoWrite path value s
  | .retainDeadlineDiscard => Sys2Proof.Machine.execRetainDeadlineDiscard s
  | .crystalNoStart st => Sys2Proof.Machine.execCrystalNoStart st s
  | .crystalStop => Sys2Proof.Machine.execCrystalStop s
  | .mpllLockLoss => Sys2Proof.Machine.execMpllLockLoss s
  | .mpllRelock => Sys2Proof.Machine.execMpllRelock s
  | .mpllRelockTimeout => Sys2Proof.Machine.execMpllRelockTimeout s
  | .hckLoss => Sys2Proof.Machine.execHckLoss s
  | .hckReturn mhz => Sys2Proof.Machine.execHckReturn mhz s
  | .watchdogExpiry => Sys2Proof.Machine.execWatchdogExpiry s
  | .mrstRequest path value => Sys2Proof.Machine.execMrstRequest path value s
  | .mrst => Sys2Proof.Machine.execMrst s
  | .hrst => Sys2Proof.Machine.execHrst s
  | .hrstEnd => Sys2Proof.Machine.execHrstEnd s
  | .crstCon path => Sys2Proof.Machine.execCrstCon path s
  | .crstTwbHost path => Sys2Proof.Machine.execCrstTwbHost path s
  | .crstTwbLocal path => Sys2Proof.Machine.execCrstTwbLocal path s
  | .crstEvtQueue path => Sys2Proof.Machine.execCrstEvtQueue path s
  | .crstSme path => Sys2Proof.Machine.execCrstSme path s
  | .crstZlb path => Sys2Proof.Machine.execCrstZlb path s
  | .crstHrd path => Sys2Proof.Machine.execCrstHrd path s
  | .crstUser path => Sys2Proof.Machine.execCrstUser path s
  | .crstDb path n answers => Sys2Proof.Machine.execCrstDb path n answers s
  | .crstZxp path answers => Sys2Proof.Machine.execCrstZxp path answers s
  | .featLock path value => Sys2Proof.Machine.execFeatLock path value s
  | .featDeadlineLock => Sys2Proof.Machine.execFeatDeadlineLock s
  | .featDeadlineWrite path value => Sys2Proof.Machine.execFeatDeadlineWrite path value s
  | .featSettled => Sys2Proof.Machine.execFeatSettled s
  | .registerWrite path addr value => Sys2Proof.Machine.execRegisterWrite path addr value s
  | .hostCommand sub c => Sys2Proof.Machine.execHostCommand sub c s
  | .alertPulseStart => Sys2Proof.Machine.execAlertPulseStart s
  | .alertPulseEnd => Sys2Proof.Machine.execAlertPulseEnd s
  | .stopRelease path value => Sys2Proof.Machine.execStopRelease path value s
  | .yalert sub => Sys2Proof.Machine.execYalert sub s
  | .windowAddressWrite sub high op => Sys2Proof.Machine.execWindowAddressWrite sub high op s
  | .windowStageWrite sub k op => Sys2Proof.Machine.execWindowStageWrite sub k op s
  | .windowCommit sub op => Sys2Proof.Machine.execWindowCommit sub op s
  | .windowCommitApplied sub => Sys2Proof.Machine.execWindowCommitApplied sub s
  | .windowFetchDone sub => Sys2Proof.Machine.execWindowFetchDone sub s
  | .windowAbort sub op => Sys2Proof.Machine.execWindowAbort sub op s
  | .windowRead sub k => Sys2Proof.Machine.execWindowRead sub k s
  | .windowStatusRead sub => Sys2Proof.Machine.execWindowStatusRead sub s
  | .passThroughRead sub rank data => Sys2Proof.Machine.execPassThroughRead sub rank data s
  | .resume sub => Sys2Proof.Machine.execResume sub s
  | .maintGrant sub ecs => Sys2Proof.Machine.execMaintGrant sub ecs s
  | .lendGrant sub => Sys2Proof.Machine.execLendGrant sub s
  | .hostCeReport sub => Sys2Proof.Machine.execHostCeReport sub s
  | .passWrite sub rank => Sys2Proof.Machine.execPassWrite sub rank s
  | .grantHandback sub => Sys2Proof.Machine.execGrantHandback sub s
  | .dbcNop sub => Sys2Proof.Machine.execDbcNop sub s
  | .dbcWr sub rank chk bad => Sys2Proof.Machine.execDbcWr sub rank chk bad s
  | .dbcRd sub rank => Sys2Proof.Machine.execDbcRd sub rank s
  | .dbcWinLo sub nib => Sys2Proof.Machine.execDbcWinLo sub nib s
  | .dbcWinHi sub nib => Sys2Proof.Machine.execDbcWinHi sub nib s
  | .dbcTrain sub mode => Sys2Proof.Machine.execDbcTrain sub mode s
  | .dbcSample sub pos drx => Sys2Proof.Machine.execDbcSample sub pos drx s
  | .dbcTrimApply sub => Sys2Proof.Machine.execDbcTrimApply sub s
  | .dbcHold sub => Sys2Proof.Machine.execDbcHold sub s
  | .dbcRelease sub => Sys2Proof.Machine.execDbcRelease sub s
  | .dbcHostReset sub => Sys2Proof.Machine.execDbcHostReset sub s
  | .dbcFrameError sub seen first second => Sys2Proof.Machine.execDbcFrameError sub seen first second s
  | .shadowWindowEnd db n counts flips => Sys2Proof.Machine.execShadowWindowEnd db n counts flips s
  | .trimStepApply db => Sys2Proof.Machine.execTrimStepApply db s
  | .dbeReport sub lowHck => Sys2Proof.Machine.execDbeReport sub lowHck s
  | .dbdTrimStageWrite path value => Sys2Proof.Machine.execDbdTrimStageWrite path value s
  | .dbTempConversion db temp => Sys2Proof.Machine.execDbTempConversion db temp s
  | .dbStatusPoll => Sys2Proof.Machine.execDbStatusPoll s
  | .zlbWrite tgt tag word data => Sys2Proof.Machine.execZlbWrite tgt tag word data s
  | .zlbRead tgt tag word => Sys2Proof.Machine.execZlbRead tgt tag word s
  | .zlbFetch tgt => Sys2Proof.Machine.execZlbFetch tgt s
  | .zlbRefetch tgt => Sys2Proof.Machine.execZlbRefetch tgt s
  | .zlbRetry tgt write tag word data => Sys2Proof.Machine.execZlbRetry tgt write tag word data s
  | .zlbFrameDiscard tgt edges header data => Sys2Proof.Machine.execZlbFrameDiscard tgt edges header data s
  | .zlbFetchTick tgt crcOk => Sys2Proof.Machine.execZlbFetchTick tgt crcOk s
  | .zlbResponse tgt tag data => Sys2Proof.Machine.execZlbResponse tgt tag data s
  | .zlbAttemptTimeout tgt tag => Sys2Proof.Machine.execZlbAttemptTimeout tgt tag s
  | .trainingInit sub => Sys2Proof.Machine.execTrainingInit sub s
  | .trainingInitDone sub => Sys2Proof.Machine.execTrainingInitDone sub s
  | .polkaDone sub dies => Sys2Proof.Machine.execPolkaDone sub dies s
  | .quadrilleStepDone sub failed => Sys2Proof.Machine.execQuadrilleStepDone sub failed s
  | .reelHEnd sub enough entries => Sys2Proof.Machine.execReelHEnd sub enough entries s
  | .maintUnitDone sub rank pass changed lane => Sys2Proof.Machine.execMaintUnitDone sub rank pass changed lane s
  | .repairUnitDone sub pass => Sys2Proof.Machine.execRepairUnitDone sub pass s
  | .hsettleStart path value => Sys2Proof.Machine.execHsettleStart path value s
  | .hsettleEnd sub edges entries => Sys2Proof.Machine.execHsettleEnd sub edges entries s
  | .recSave path => Sys2Proof.Machine.execRecSave path s
  | .recInvalidate path => Sys2Proof.Machine.execRecInvalidate path s
  | .hblobDataAccess path write => Sys2Proof.Machine.execHblobDataAccess path write s
  | .calTap path unit => Sys2Proof.Machine.execCalTap path unit s
  | .calVref path unit => Sys2Proof.Machine.execCalVref path unit s
  | .calTapThenVref path unit => Sys2Proof.Machine.execCalTapThenVref path unit s
  | .calAdc path => Sys2Proof.Machine.execCalAdc path s
  | .calPeriodExpiry unit => Sys2Proof.Machine.execCalPeriodExpiry unit s
  | .calTapDone unit c64 c32 c64' c32' => Sys2Proof.Machine.execCalTapDone unit c64 c32 c64' c32' s
  | .vrefSwap unit rx => Sys2Proof.Machine.execVrefSwap unit rx s
  | .vrefSwapTimeout unit rx => Sys2Proof.Machine.execVrefSwapTimeout unit rx s
  | .calVrefDone unit rx shadow lo hi lo' hi' => Sys2Proof.Machine.execCalVrefDone unit rx shadow lo hi lo' hi' s
  | .calAdcDone => Sys2Proof.Machine.execCalAdcDone s
  | .calAbandon unit => Sys2Proof.Machine.execCalAbandon unit s
  | .smeSlot n counts flips room => Sys2Proof.Machine.execSmeSlot n counts flips room s
  | .trimTick unit => Sys2Proof.Machine.execTrimTick unit s
  | .caTrimStepApply sub => Sys2Proof.Machine.execCaTrimStepApply sub s
  | .nvsCommitStart => Sys2Proof.Machine.execNvsCommitStart s
  | .nvsCommitDone verified => Sys2Proof.Machine.execNvsCommitDone verified s
  | .nvsPreEraseDone => Sys2Proof.Machine.execNvsPreEraseDone s
  | .nvsCmdCommit path => Sys2Proof.Machine.execNvsCmdCommit path s
  | .nvsCmdAbortImage path => Sys2Proof.Machine.execNvsCmdAbortImage path s
  | .nvsImageStart path value => Sys2Proof.Machine.execNvsImageStart path value s
  | .nvsImageData path value => Sys2Proof.Machine.execNvsImageData path value s
  | .nvsImageEnd verified => Sys2Proof.Machine.execNvsImageEnd verified s
  | .nvsRingScan => Sys2Proof.Machine.execNvsRingScan s
  | .nvsRingBatch ring => Sys2Proof.Machine.execNvsRingBatch ring s
  | .lifetimePersist => Sys2Proof.Machine.execLifetimePersist s
  | .clkLifeLoRead path => Sys2Proof.Machine.execClkLifeLoRead path s
  | .clkWallHiWrite path value => Sys2Proof.Machine.execClkWallHiWrite path value s
  | .pwrSpanWrite path value => Sys2Proof.Machine.execPwrSpanWrite path value s
  | .faultFold => Sys2Proof.Machine.execFaultFold s
  | .faultBucketBoundary cls => Sys2Proof.Machine.execFaultBucketBoundary cls s
  | .fltCfgWrite path cls value => Sys2Proof.Machine.execFltCfgWrite path cls value s
  | .fltClearResource path => Sys2Proof.Machine.execFltClearResource path s
  | .fltClearClass path => Sys2Proof.Machine.execFltClearClass path s
  | .fltClearAll path => Sys2Proof.Machine.execFltClearAll path s
  | .fltRepairNow path => Sys2Proof.Machine.execFltRepairNow path s
  | .fltForget path entry => Sys2Proof.Machine.execFltForget path entry s
  | .fltPackTest path => Sys2Proof.Machine.execFltPackTest path s
  | .packTestDue => Sys2Proof.Machine.execPackTestDue s
  | .packTestStart => Sys2Proof.Machine.execPackTestStart s
  | .packTestEnd r => Sys2Proof.Machine.execPackTestEnd r s
  | .eventArise src arg => Sys2Proof.Machine.execEventArise src arg s
  | .eventPendingRelease => Sys2Proof.Machine.execEventPendingRelease s
  | .eventDeliver => Sys2Proof.Machine.execEventDeliver s
  | .evtStatusClear path high value => Sys2Proof.Machine.execEvtStatusClear path high value s
  | .evtRaise path value => Sys2Proof.Machine.execEvtRaise path value s
  | .twbA0SetPointer port addr bytes stop => Sys2Proof.Machine.execTwbA0SetPointer port addr bytes stop s
  | .twbA0Write port addr bytes stop => Sys2Proof.Machine.execTwbA0Write port addr bytes stop s
  | .twbA0Read port addr head count stop => Sys2Proof.Machine.execTwbA0Read port addr head count stop s
  | .twbStagedApply port => Sys2Proof.Machine.execTwbStagedApply port s
  | .twbA1Read port addr ring => Sys2Proof.Machine.execTwbA1Read port addr ring s
  | .twbA1SeekSeq port addr ring seq pecOk => Sys2Proof.Machine.execTwbA1SeekSeq port addr ring seq pecOk s
  | .twbA1SeekOldest port addr ring pecOk => Sys2Proof.Machine.execTwbA1SeekOldest port addr ring pecOk s
  | .twbA1SeekNext port addr ring pecOk => Sys2Proof.Machine.execTwbA1SeekNext port addr ring pecOk s
  | .twbA1FillDone port => Sys2Proof.Machine.execTwbA1FillDone port s
  | .twbA1ReadPhase port addr again stop => Sys2Proof.Machine.execTwbA1ReadPhase port addr again stop s
  | .twbA1ReadExpiry port => Sys2Proof.Machine.execTwbA1ReadExpiry port s
  | .twbA2Write port addr bytes stop => Sys2Proof.Machine.execTwbA2Write port addr bytes stop s
  | .twbA2Read port addr stop => Sys2Proof.Machine.execTwbA2Read port addr stop s
  | .alertResponse other => Sys2Proof.Machine.execAlertResponse other s
  | .hostNotifySend outcome => Sys2Proof.Machine.execHostNotifySend outcome s
  | .twbControllerRetry port outcome data => Sys2Proof.Machine.execTwbControllerRetry port outcome data s
  | .twbPollDue k outcome data => Sys2Proof.Machine.execTwbPollDue k outcome data s
  | .twbSclTimeout port => Sys2Proof.Machine.execTwbSclTimeout port s
  | .conCharacter sess c => Sys2Proof.Machine.execConCharacter sess c s
  | .conLine sess terminator => Sys2Proof.Machine.execConLine sess terminator s
  | .conExecute => Sys2Proof.Machine.execConExecute s
  | .conBreak => Sys2Proof.Machine.execConBreak s
  | .baudRevert => Sys2Proof.Machine.execBaudRevert s
  | .unlockIdleEnd sess => Sys2Proof.Machine.execUnlockIdleEnd sess s
  | .unlockLockoutEnd => Sys2Proof.Machine.execUnlockLockoutEnd s
  | .conResponseCut sess => Sys2Proof.Machine.execConResponseCut sess s
  | .conAsyncLine text => Sys2Proof.Machine.execConAsyncLine text s
  | .help rq words => Sys2Proof.Machine.execHelp rq words s
  | .id rq => Sys2Proof.Machine.execId rq s
  | .featureShow rq => Sys2Proof.Machine.execFeatureShow rq s
  | .featureAccept rq mask => Sys2Proof.Machine.execFeatureAccept rq mask s
  | .featureLock rq => Sys2Proof.Machine.execFeatureLock rq s
  | .featureDeadline rq tenths => Sys2Proof.Machine.execFeatureDeadline rq tenths s
  | .peek rq addr count => Sys2Proof.Machine.execPeek rq addr count s
  | .poke rq addr value => Sys2Proof.Machine.execPoke rq addr value s
  | .show rq what => Sys2Proof.Machine.execShow rq what s
  | .modeMachine rq => Sys2Proof.Machine.execModeMachine rq s
  | .modeTyped rq => Sys2Proof.Machine.execModeTyped rq s
  | .baud rq rate => Sys2Proof.Machine.execBaud rq rate s
  | .serviceUnlock rq code => Sys2Proof.Machine.execServiceUnlock rq code s
  | .serviceLock rq => Sys2Proof.Machine.execServiceLock rq s
  | .serviceStatus rq => Sys2Proof.Machine.execServiceStatus rq s
  | .timeShow rq => Sys2Proof.Machine.execTimeShow rq s
  | .timeSet rq t => Sys2Proof.Machine.execTimeSet rq t s
  | .timeClear rq => Sys2Proof.Machine.execTimeClear rq s
  | .trimShow rq => Sys2Proof.Machine.execTrimShow rq s
  | .trimPause rq pause => Sys2Proof.Machine.execTrimPause rq pause s
  | .trainShow rq => Sys2Proof.Machine.execTrainShow rq s
  | .trainMaint rq sub rank => Sys2Proof.Machine.execTrainMaint rq sub rank s
  | .trainSave rq save => Sys2Proof.Machine.execTrainSave rq save s
  | .calShow rq => Sys2Proof.Machine.execCalShow rq s
  | .calTapVrefCmd rq vref unit => Sys2Proof.Machine.execCalTapVrefCmd rq vref unit s
  | .calAdcRef rq mv => Sys2Proof.Machine.execCalAdcRef rq mv s
  | .keepStatus rq => Sys2Proof.Machine.execKeepStatus rq s
  | .keepSpan rq reserve value => Sys2Proof.Machine.execKeepSpan rq reserve value s
  | .keepCharge rq cfg => Sys2Proof.Machine.execKeepCharge rq cfg s
  | .keepPack rq c => Sys2Proof.Machine.execKeepPack rq c s
  | .hoardStatus rq map => Sys2Proof.Machine.execHoardStatus rq map s
  | .hoardExtent rq k x => Sys2Proof.Machine.execHoardExtent rq k x s
  | .hoardLend rq on => Sys2Proof.Machine.execHoardLend rq on s
  | .hoardDiscard rq => Sys2Proof.Machine.execHoardDiscard rq s
  | .faultList rq sel => Sys2Proof.Machine.execFaultList rq sel s
  | .faultCfg rq cls window thresh action => Sys2Proof.Machine.execFaultCfg rq cls window thresh action s
  | .faultClear rq sel => Sys2Proof.Machine.execFaultClear rq sel s
  | .faultRepair rq forget n => Sys2Proof.Machine.execFaultRepair rq forget n s
  | .faultPackTest rq => Sys2Proof.Machine.execFaultPackTest rq s
  | .eventShow rq n => Sys2Proof.Machine.execEventShow rq n s
  | .eventEnable rq n on => Sys2Proof.Machine.execEventEnable rq n on s
  | .eventRoute rq n routes => Sys2Proof.Machine.execEventRoute rq n routes s
  | .eventClear rq n => Sys2Proof.Machine.execEventClear rq n s
  | .eventRaiseCmd rq arg => Sys2Proof.Machine.execEventRaiseCmd rq arg s
  | .log rq ring start count => Sys2Proof.Machine.execLog rq ring start count s
  | .nvsShow rq => Sys2Proof.Machine.execNvsShow rq s
  | .nvsCommit rq => Sys2Proof.Machine.execNvsCommit rq s
  | .nvsImageStartCmd rq kib crc => Sys2Proof.Machine.execNvsImageStartCmd rq kib crc s
  | .nvsImageDataCmd rq bytes => Sys2Proof.Machine.execNvsImageDataCmd rq bytes s
  | .nvsImageAbortCmd rq => Sys2Proof.Machine.execNvsImageAbortCmd rq s
  | .nvsImageStatusCmd rq => Sys2Proof.Machine.execNvsImageStatusCmd rq s
  | .clockShow rq => Sys2Proof.Machine.execClockShow rq s
  | .powerDomains rq faults => Sys2Proof.Machine.execPowerDomains rq faults s
  | .powerClear rq mask => Sys2Proof.Machine.execPowerClear rq mask s
  | .maintShow rq => Sys2Proof.Machine.execMaintShow rq s
  | .resetMgmt rq => Sys2Proof.Machine.execResetMgmt rq s
  | .resetUnit rq u => Sys2Proof.Machine.execResetUnit rq u s
  | .warrenSend core channel words try_ => Sys2Proof.Machine.execWarrenSend core channel words try_ s
  | .sendStallEnd core cycles => Sys2Proof.Machine.execSendStallEnd core cycles s
  | .warrenPop core port => Sys2Proof.Machine.execWarrenPop core port s
  | .select core mask round timeout => Sys2Proof.Machine.execSelect core mask round timeout s
  | .selectReturn core timedOut cycles => Sys2Proof.Machine.execSelectReturn core timedOut cycles s
  | .heartbeat core => Sys2Proof.Machine.execHeartbeat core s
  | .watchdogService => Sys2Proof.Machine.execWatchdogService s
  | .coreFault core kind pc => Sys2Proof.Machine.execCoreFault core kind pc s
  | .userHeartbeatMiss => Sys2Proof.Machine.execUserHeartbeatMiss s
  | .userCoreStart => Sys2Proof.Machine.execUserCoreStart s
  | .pd5Lost => Sys2Proof.Machine.execPd5Lost s
  | .thermalChargerResume => Sys2Proof.Machine.execThermalChargerResume s
  | .overVoltageResume => Sys2Proof.Machine.execOverVoltageResume s
  | .plantReverseClear => Sys2Proof.Machine.execPlantReverseClear s
  | .conOutputSent sess => Sys2Proof.Machine.execConOutputSent sess s

end Sys2Proof.Machine
end

