-- ==== Sys2Proof/Machine/Tick.lean ====
section
/-! DEFINITION. What one KTICK of idle time does (R57, log entry 6): the lifetime counter, the counters of elapsed time,
and what becomes due with them. Every step of the set that has a row of its own stays a command. -/

namespace Sys2Proof.Machine

/-- The lifetime counter advances every 1000 KTICK (R62); at a full hour the calibration region is stored when only its
counts have changed (R173). -/
def State.tickLife (s : State) : State :=
  if s.clk.ktick < 999 then { s with clk := { s.clk with ktick := s.clk.ktick + 1 } } else
  let life := s.clk.life + 1
  let s := { s with clk := { s.clk with ktick := 0, life := life } }
  if life.toNat % 3600 = 0 && s.up && s.cal.pending then s.pendRegion 4 else s

/-- The time since the deadline timer started (R36, R39), as far as it is looked at. -/
def State.tickFeat (s : State) : State :=
  if s.pd2 && s.pow.hostPg && (s.feat.phase == .counting || s.feat.phase == .locked || s.feat.phase == .settled) then
    { s with feat := { s.feat with elapsed := min 65535 (s.feat.elapsed + 1) } }
  else s

/-- The span timer (R221): HOLD without the plant bus, up to the span. -/
def State.tickSpan (s : State) : State :=
  if s.pow.keep == .hold && !s.zxp.plant && s.pow.usedMs < s.pow.span.toNat * 1000 then
    { s with pow := { s.pow with usedMs := s.pow.usedMs + 1 } }
  else s

/-- The age of each poll result (R309), as far as its field goes. -/
def State.tickPolls (s : State) : State :=
  if !s.pd2 then s else
  { s with twb := { s.twb with polls := s.twb.polls.map (fun q => { q with ageMs := min 2559 (q.ageMs + 1) }) } }

/-- A command that waits comes nearer its bound, where it answers `err timeout` (R324, R350). -/
def State.tickCon (s : State) : State :=
  match s.con.exec with
  | some e =>
    if !s.up then s
    else if e.left ≤ 1 then s.respondErr e.req (tx "timeout")
    else { s with con := { s.con with exec := some { e with left := e.left - 1 } } }
  | none => s

/-- Device time (R156): HCK runs, RESET_n is high, and no image waits for its Resume. -/
def State.tickDevice (s : State) : State :=
  if s.pd2 && s.clk.hckOk && s.host.resetHigh && !(s.retainPending && s.host.resume.isNone) then
    { s with train := { s.train with devMs := min 65535 (s.train.devMs + 1) } }
  else s

/-- The time of a save (HRD_LAST). -/
def State.tickSave (s : State) : State :=
  if s.hrd.st == .saving then { s with hrd := { s.hrd with saveMs := s.hrd.saveMs + 1 } } else s

/-- The time of a DRAM reset by the ZX8-R runs out: YRST_n follows RESET_n again (R71, R151, R227). -/
def State.tickYrst (s : State) : State :=
  if s.host.yrstMs = 0 then s
  else { s with host := { s.host with yrstMs := s.host.yrstMs - 1,
                                      yrst := if s.host.yrstMs = 1 then s.host.resetHigh else s.host.yrst } }

/-- CYCLE counts WCLK cycles: 400,000 in a millisecond (R57). -/
def State.tickCycle (s : State) : State :=
  if s.pd2 && s.clk.mpllLock then { s with wrn := { s.wrn with cycle := s.wrn.cycle + 400000 } } else s

/-- The firmware slot that failed is retired once writes are not gated (R201). -/
def State.tickRetire (s : State) : State :=
  match s.nvs.retireFw with
  | some k => if s.up && !s.gated then
      let s := (s.wipeSlot 2 k true).nvsIssue (nvsPages ((regionAt 2 k).1 + 0x1C) 4)
    { s with nvs := { s.nvs with retireFw := none },
             pow := { s.pow with failedBoots := upd s.pow.failedBoots k.toNat (fun _ => 0) } } else s
  | none => s

/-- The spacings of the settings memory run out (R196, R204). -/
def State.tickSpacing (s : State) : State := { s with nvs := { s.nvs with spacing := s.nvs.spacing.map (· - 1) } }

/-- One KTICK: PD0 is up. -/
def State.tick (s : State) : State :=
  if s.pow.dom == .off then s else
  (((((((((((s.tickLife).tickFeat).tickSpan).tickPolls).tickCon).tickDevice).tickSave).tickYrst).tickCycle).tickRetire).tickSpacing)

end Sys2Proof.Machine
end

