-- ==== Sys2Proof/Machine/Flags.lean ====
section
/-! DEFINITION. The levels of the set's status and power-control pins, as its state drives them (03, 04, 09, 12, 18). A
name that ends in `Low` is a pin of which low is the active level. -/

namespace Sys2Proof.Machine

/-- HALRT_n (R282, R301). -/
def State.pinHalrtLow (s : State) : Bool := s.halrtLow

/-- EVT_n (R283). -/
def State.pinEvtLow (s : State) : Bool := s.evtOut

/-- ALERT_n of the host path (R90 to R93). -/
def State.pinAlertLow (s : State) : Bool := s.alertLow

/-- YRST_n (R52, R76). -/
def State.pinYrst (s : State) : Bool := s.host.yrst

/-- KDEEP_n (R207, R218). -/
def State.pinKdeepLow (s : State) : Bool := s.pow.kdeep

/-- MREG_EN (R386, R406): the module regulators. -/
def State.pinMregEn (s : State) : Bool :=
  match s.pow.dom with
  | .off => false
  | .dormouse | .attended => false
  | .keepOnly => s.pow.hostPg
  | .boot | .run | .curl | .commitHold | .save | .wake | .restore => true

/-- The NVS pins are at high impedance (R186). -/
def State.pinNvsHighZ (s : State) : Bool := !s.pd2

/-- PD5_EN: the switch of the buffers' supply (R69, R406). -/
def State.pinPd5En (s : State) : Bool := s.pow.on.getLsbD 5

/-- PD6_EN: the NAND rails (R69, R406). -/
def State.pinPd6En (s : State) : Bool := s.pow.on.getLsbD 6

end Sys2Proof.Machine
end

