-- ==== Sys2Proof/Safety.lean ====
section
/-! DEFINITION. What claims are stated in: the legal power states of the set (R67, R207), a sequence of register writes
on the console path (R335), and when a session answers at once (R323 to R325). -/

namespace Sys2Proof.Machine

/-! ## Power -/

/-- The domain states in which a keep state stands (R67, R207). -/
def keepDom : Keep → Dom → Bool
  | .normal, d => d == .off || d == .keepOnly || d == .boot || d == .run || d == .restore
  | .curl, d => d == .curl
  | .commitHold, d => d == .commitHold
  | .hold, d => d == .dormouse || d == .attended
  | .save, d => d == .save
  | .wake, d => d == .wake
  | .empty, d => d == .keepOnly

/-- The domains that are on, PD1 left out, are those of the table of R67: in CURL they go off one by one, in BOOT PD6
is on only for a check, and after a PD2 brownout only PD0 and PD4 are on until the restart. -/
def domOnOk (d : Dom) (down buf nand : Bool) (on : BitVec 7) : Bool :=
  let x := on &&& 0x7D
  if down then x == 0x11 && (d == .boot || d == .wake || d == .run)
  else if d == .curl then x ||| domMask d buf nand == domMask d buf nand && x.getLsbD 0
  else if d == .boot then x == domMask d buf nand || x == domMask d buf false
  else x == domMask d buf nand

/-- Keep state, domain state, domains and KDEEP_n belong together (R67, R71, R207). -/
def Pow.legal (p : Pow) (m : Module) : Bool :=
  keepDom p.keep p.dom && domOnOk p.dom p.pd2Down (m.dbFitted && !p.straps.nodb) m.hoardFitted p.on
    && p.kdeep == (p.dom == .commitHold || p.dom == .save)

/-! ## The console -/

/-- The command has the interpreter, a buffer, and is no repetition; what it claims is `State.conTaken` (R322 to R324). -/
def State.conReady (s : State) (rq : Req) : Prop :=
  s.up = true ∧ s.nvs.rescue = false ∧ s.conIdle = true ∧ (s.pool.claim .con).2 = true
    ∧ (rq.nn = none ∨ (s.ses rq.sess).lastNn ≠ rq.nn)

/-- The state with the console's pool buffer claimed. -/
def State.conTaken (s : State) : State := { s with pool := (s.pool.claim .con).1 }

/-- Writes on the console path that are each taken when their turn comes (R335). -/
def State.admits (s : State) : List (Nat × Word) → Prop
  | [] => True
  | (a, v) :: r => (∃ d, s.reg .console (BitVec.ofNat 16 a) = some d ∧ d.allows v = true)
      ∧ ((s.hubWrite .console (BitVec.ofNat 16 a) v).afterRead .console (BitVec.ofNat 16 a)).admits r

/-- The state after writes on the console path, each read back (R335). -/
def State.wrote (s : State) : List (Nat × Word) → State
  | [] => s
  | (a, v) :: r => ((s.hubWrite .console (BitVec.ofNat 16 a) v).afterRead .console (BitVec.ofNat 16 a)).wrote r

/-- A typed session with nothing typed and nothing to send: an answer that fits goes out at once (R315, R317). -/
def SessSt.quiet (t : SessSt) : Prop :=
  t.machine = false ∧ t.line = [] ∧ t.out = [] ∧ t.resp = [] ∧ t.backlog = [] ∧ t.lost = 0 ∧ t.ending = none

/-- Output lines and the prompt, as a typed session sends them (R317). -/
def answerText (ls : List Text) : Text := ls.flatMap (· ++ crlf) ++ prompt

end Sys2Proof.Machine
end

