-- ==== Sys2Proof/Certificates/Slice0/Obligations.lean ====
section
/-! DEFINITION. The statements about the ZX8 set, in the order of the chapters they rest on. Their texts and the rules
they cite stand in OBLIGATIONS.json. -/

open Sys2Proof Sys2Proof.Machine

/-- A step runs the command at the front of the queue on the queue's rest; an empty queue passes one KTICK of idle time
(log entry 6: the model's choice) (R78). -/
def Obligations.StepLaw : Prop :=
  (∀ (c : Instr) (rest : List Instr) (s : State), step { s with pending := c :: rest } = exec c { s with pending := rest })
  ∧ (∀ s : State, s.pending = [] → step s = .next s.tick)

/-- After POR the registers hold the Reset column's values and the set stands in KEEP_ONLY (R12, R57, R67, R72, R86,
R162, R182, R207, R274, R288, R309, R400). -/
def Obligations.ResetState : Prop :=
  let s := State.reset
  let on := { s with feat := { Feat.fresh with phase := .settled, offer := 0xFFFF, accept := 0xFFFF, active := 0xFFFF } }
  let reads := fun (a v : Nat) => (hubReg .warren a on).map (fun d => d.read.toNat) = some v
  s.pending = [] ∧ s.feat = Feat.fresh ∧ s.up = false
  ∧ s.pow.dom = .keepOnly ∧ s.pow.keep = .normal ∧ s.pow.on = 1 ∧ s.pow.pfailLow = true ∧ s.pow.hostPg = false
  ∧ s.pow.kdeep = false ∧ s.pow.image = false ∧ s.pow.cuts = 0 ∧ s.pow.faults = 0
  ∧ s.clk.rootOk = true ∧ s.clk.life = 0 ∧ s.clk.wall = 0 ∧ s.clk.cause = 1
  ∧ s.host.resetHigh = false ∧ s.host.yrst = false
  ∧ (∀ x ∈ [Sub.a, Sub.b], (s.sub x).owner = .notReady ∧ (s.sub x).grant = none ∧ (s.sub x).win = Win.fresh)
  ∧ (∀ e ∈ [(0x0060, 0x0000001E), (0x0108, 0x00000010), (0x1004, 0x000A003C), (0x102C, 0x00000040), (0x1200, 0x08105004),
      (0x1204, 0x06100608), (0x121C, 0x00003C40), (0x110C, 0x00030428), (0x1130, 0x00000014), (0x1410, 0x071005A0),
      (0x1414, 0x0B1005A0), (0x1418, 0x0B1005A0), (0x141C, 0x031005A0), (0x1420, 0x031005A0), (0x1424, 0x031005A0),
      (0x1450, 0x03214018), (0x1C0C, 0x0000012C), (0x1C14, 0x00000258), (0x2014, 0x00000003), (0x2400, 0x0000000A),
      (0x2414, 0x0000FE00), (0x2418, 0x0000000A), (0x2428, 0x06400000), (0x242C, 0x06400000), (0x2430, 0x06400000),
      (0x2434, 0x06400000), (0x2800, 0x00071E04), (0x2804, 0x00040000), (0x2C08, 0x00000001)], reads e.1 e.2)
  ∧ (∀ n < 64, reads (0x1900 + 4 * n) 0x00000029)
  ∧ (∀ e ∈ [(0x0018, 1), (0x0044, 1), (0x004C, 2), (0x005C, 1), (0x0064, 1), (0x0100, 2), (0x010C, 5), (0x0400, 4),
      (0x0410, 1), (0x0C00, 10), (0x1000, 1), (0x1008, 9), (0x1030, 6), (0x1100, 3), (0x1110, 8), (0x1134, 1), (0x1208, 5),
      (0x1220, 1), (0x1408, 2), (0x1430, 8), (0x1454, 1), (0x1800, 6), (0x1C04, 2), (0x1C10, 1), (0x1C18, 2), (0x2000, 1),
      (0x200C, 2), (0x2018, 4), (0x202C, 6), (0x2404, 4), (0x241C, 3), (0x2438, 5), (0x2808, 3), (0x2C04, 1), (0x2C0C, 6),
      (0x3000, 10), (0x3080, 4), (0x3C00, 1)], ∀ i < e.2, reads (e.1 + 4 * i) 0)
  ∧ s.pow.legal s.modl = true

/-- POR, POR on the backup oscillator, and the loss of VKA (R57, R65, R67, R78, R209). -/
def Obligations.PowerOnAndOff : Prop :=
  (∀ st s, s.pow.dom = .off → ∃ t, exec (.porRelease st) s = .next t
    ∧ t.pow = { Pow.fresh st with latched := t.pow.latched } ∧ t.clk = Clk.fresh
    ∧ t = { State.reset with
              pending := s.pending, free := s.free, modl := s.modl, nv := s.nv, pow := t.pow
              zxp := Zxp.fresh st, zlb := Zlb.por s.modl.zxpFitted
              hrd := { Hrd.fresh with areaA := s.hrd.areaA, areaB := s.hrd.areaB } })
  ∧ (∀ st s, s.pow.dom = .off → ∃ t, exec (.crystalNoStart st) s = .next t
    ∧ t.pow = { Pow.fresh st with latched := t.pow.latched }
    ∧ t.clk = { Clk.fresh with rootOk := false, onBackup := true, noStart := true }
    ∧ t = { State.reset with
              pending := s.pending, free := s.free, modl := s.modl, nv := s.nv, pow := t.pow, clk := t.clk
              zxp := Zxp.fresh st, zlb := Zlb.por s.modl.zxpFitted
              hrd := { Hrd.fresh with areaA := s.hrd.areaA, areaB := s.hrd.areaB } })
  ∧ ∀ s, s.pow.dom ≠ .off → ∃ t, exec .vkaLost s = .next t
    ∧ t.pow.dom = .off ∧ t.pow.on = 0 ∧ t.pow.image = false ∧ t.clk.rootOk = false ∧ t.clk.life = 0
    ∧ (s.nvs.commit = none → t.nv = s.nv)
    ∧ t = { State.reset with
              pending := s.pending, free := s.free, modl := s.modl, nv := t.nv, pow := t.pow, clk := t.clk
              zxp := Zxp.fresh s.pow.straps, zlb := Zlb.por false
              hrd := { Hrd.fresh with areaA := t.hrd.areaA, areaB := t.hrd.areaB } }

/-- Host power good releases PFAIL_n, gives the module bulk back to the host, and ends a Dormouse in Wake (R48, R67,
R68, R207, R211, R216). -/
def Obligations.HostPowerGood : Prop :=
  ∀ s, s.pow.dom ≠ .off → s.pow.hostPg = false →
    ((s.pow.keep = .normal ∨ s.pow.keep = .empty) → ∃ t, exec .hostPowerGood s = .next t
      ∧ t.pow = { s.pow with hostPg := true, pfailLow := false, keep := .normal }
      ∧ t.zxp = { s.zxp with orHost := s.modl.zxpFitted, convOn := false, chg := t.zxp.chg, chgPlant := s.zxp.plant }
      ∧ t.feat = (if s.pow.keep = .normal ∧ s.feat.phase = .waitHost
                  then { s.feat with phase := .counting, elapsed := 0 } else s.feat)
      ∧ t = { s with pow := t.pow, zxp := t.zxp, feat := t.feat })
    ∧ ((s.pow.keep = .hold ∨ s.pow.keep = .save) → ∃ t, exec .hostPowerGood s = .next t
      ∧ t.pow.keep = .wake ∧ t.pow.dom = .wake ∧ t.pow.hostPg = true ∧ t.pow.pfailLow = false ∧ t.pow.kdeep = false
      ∧ t.pow.image = s.pow.image ∧ t.pow.on &&& 0x7D = domMask .wake s.buffers s.modl.hoardFitted
      ∧ t.zxp.convOn = false ∧ t.zxp.orHost = true ∧ t.feat = { Feat.fresh with phase := .booting }
      ∧ t.twb = Twb.fresh ∧ t.con = Con.fresh ∧ t.evt = Evt.fresh ∧ t.pool = Pool.fresh
      ∧ t.pending = s.pending ∧ t.modl = s.modl)

/-- With host power good and KEEP_ONLY, the set boots (R67, R405). -/
def Obligations.BootBegins : Prop :=
  ∀ s, s.pow.dom = .keepOnly → s.pow.keep = .normal → s.pow.hostPg = true → ∃ t, exec .bootStart s = .next t
    ∧ t.pow.dom = .boot ∧ t.pow.keep = .normal ∧ t.pow.pd2Down = false ∧ t.pow.image = s.pow.image
    ∧ t.pow.on &&& 0x7D = domMask .boot s.buffers s.modl.hoardFitted
    ∧ t.feat = { Feat.fresh with phase := .booting } ∧ t.clk.mpllLock = true ∧ t.clk.cause = s.clk.cause
    ∧ t.subA.owner = .notReady ∧ t.subB.owner = .notReady ∧ t.dbs = (List.range 10).map (fun n => { Db.fresh with pos := nth s.modl.dbPos n 0 })
    ∧ t.evt = Evt.fresh ∧ t.twb = Twb.fresh ∧ t.con = Con.fresh ∧ t.pool = Pool.fresh ∧ t.nvs = Nvs.fresh
    ∧ t.cal = Cal.fresh ∧ t.trim = Trim.fresh ∧ t.sels = List.replicate 6 PathSel.fresh
    ∧ t.modl = s.modl ∧ t.pow.straps = s.pow.straps ∧ t.pending = s.pending

/-- Boot ends with management ready, in rescue mode, or with its image refused (R78, R185, R190, R200, R202, R356). -/
def Obligations.ManagementReady : Prop :=
  (∀ b s k f, s.bootRuns = true → s.nv.kind ≠ 0 → s.nv.boot.ok = true → s.nv.factoryOk = true → s.fwSlot = some k →
      s.fwBody k = some f →
      ((f.boots && b.imageOk) = true → ∃ t, exec (.managementReady b) s = .next t
        ∧ t = (({ s.bootRead with nvs := { s.bootRead.nvs with partOk := true } }.bootDone b f).promptAll)
        ∧ t.nvs.ready = true ∧ t.nvs.rescue = false
        ∧ t.feat.phase = (if s.pow.hostPg then .counting else .waitHost)
        ∧ t.pow.dom = (if s.pow.dom = .boot then .run else s.pow.dom)
        ∧ t.host.cfgA = s.nv.factory.cfgA ∧ t.host.cfgB = s.nv.factory.cfgB
        ∧ t.wrn.routes = f.routes ∧ t.wrn.locked = true ∧ t.wrn.version = f.version ∧ t.wrn.coreMask = f.cores
        ∧ t.modl = s.modl ∧ t.pending = s.pending)
      ∧ ((f.boots && b.imageOk) = false → exec (.managementReady b) s
        = .next { s.bootRead with
                    nvs := { s.bootRead.nvs with partOk := true }, wrn := { s.bootRead.wrn with wdogForced := true } }))
  ∧ (∀ b s, s.bootRuns = true → s.nv.kind ≠ 0 → s.nv.boot.ok = true → s.nv.factoryOk = true → s.fwSlot = none →
      exec (.managementReady b) s
        = .next ((({ s.bootRead with nvs := { s.bootRead.nvs with partOk := true } }.bootReports.rescue true).promptAll)))
  ∧ (∀ b s, s.bootRuns = true → (s.nv.kind = 0 ∨ s.nv.boot.ok = false ∨ s.nv.factoryOk = false) →
      ∃ t, exec (.managementReady b) s = .next t
      ∧ t.nvs.ready = true ∧ t.nvs.rescue = true ∧ t.nvs.partOk = (s.nv.kind != 0)
      ∧ t.nvs.bootBad = (s.nv.kind != 0 && !s.nv.boot.ok)
      ∧ t.nvs.factoryBad = (s.nv.kind != 0 && s.nv.boot.ok && !s.nv.factoryOk)
      ∧ t.pow.dom = (if s.pow.dom = .boot then .run else s.pow.dom)
      ∧ t.feat = s.feat ∧ t.subA = s.subA ∧ t.subB = s.subB ∧ t.nv = s.nv)
  ∧ ∀ b s, s.bootRuns = false → exec (.managementReady b) s = .next s

/-- A falling edge of PFAIL_n begins Curl in BOOT, RUN, RESTORE and WAKE, and in no other state (R207, R211, R215,
R218). -/
def Obligations.PowerFail : Prop :=
  ∀ bankOk s, s.pow.dom ≠ .off →
    (s.pow.pfailLow = false ∧ (s.pow.dom = .boot ∨ s.pow.dom = .run ∨ s.pow.dom = .restore ∨ s.pow.dom = .wake) →
      ∃ t, exec (.pfail bankOk) s = .next t
        ∧ t.pow.dom = .curl ∧ t.pow.keep = .curl ∧ t.pow.kdeep = false ∧ t.pow.pd2Down = false
        ∧ t.pow.curl = ⟨255, 255, 0, false, false, s.modl.zxpFitted && !bankOk⟩
        ∧ t.zxp.convOn = (s.modl.zxpFitted && bankOk) ∧ t.zxp.orHost = false
        ∧ t.host.caBlock = true ∧ t.host.pulse = none ∧ t.host.waitPar = false ∧ t.host.waitCrc = false
        ∧ t.host.resume = none ∧ t.pending = s.pending ∧ t.modl = s.modl)
    ∧ (s.pow.pfailLow = true ∨ ¬ (s.pow.dom = .boot ∨ s.pow.dom = .run ∨ s.pow.dom = .restore ∨ s.pow.dom = .wake) →
      ∃ t, exec (.pfail bankOk) s = .next t
        ∧ t.pow = { s.pow with hostPg := false, pfailLow := true, cutOpen := true }
        ∧ t.zxp = { s.zxp with
                      above20 := bankOk, above16 := s.zxp.above16 || bankOk, orHost := false
                      convOn := s.zxp.convOn || (!s.pow.pfailLow && (s.pow.dom == .curl || s.pow.dom == .commitHold)
                        && s.modl.zxpFitted && bankOk)
                      chg := t.zxp.chg, chgPlant := s.zxp.plant }
        ∧ t = { s with pow := t.pow, zxp := t.zxp })

/-- Curl and COMMIT_HOLD end as the table of keep states says (R207, R220, R46). -/
def Obligations.CurlOutcome : Prop :=
  (∀ (times : CurlTimes) s, s.pow.keep = .curl →
    let image := s.modl.zxpFitted && (times.sr.isSome || (s.subA.asleep && s.subB.asleep)) && s.host.yrst && !s.pow.curl.noBank
    ((s.nvs.commit.isSome && s.zxp.convOn) = true → ∃ t, exec (.curlComplete times) s = .next t
      ∧ t.pow.keep = .commitHold ∧ t.pow.dom = .commitHold ∧ t.pow.kdeep = true ∧ t.pow.image = image
      ∧ t.pow.on &&& 0x7D = 0x15 ∧ t.nvs.commit = s.nvs.commit ∧ t.nv = s.nv
      ∧ t.subA.owner = .blocked ∧ t.subB.owner = .blocked)
    ∧ ((s.nvs.commit.isSome && s.zxp.convOn) = false → image = true → s.pow.hostPg = false → s.zxp.above20 = true →
        s.atReserve = false → s.pow.svc = false → ∃ t, exec (.curlComplete times) s = .next t
      ∧ t.pow.keep = .hold ∧ t.pow.dom = .dormouse ∧ t.pow.kdeep = false ∧ t.pow.image = true ∧ t.pow.usedMs = 0
      ∧ t.pow.on &&& 0x7D = 0x11 ∧ t.feat = Feat.fresh)
    ∧ ((s.nvs.commit.isSome && s.zxp.convOn) = false → image = false → ∃ t, exec (.curlComplete times) s = .next t
      ∧ t.pow.keep = (if s.pow.hostPg then .normal else .empty) ∧ t.pow.dom = .keepOnly ∧ t.pow.kdeep = false
      ∧ t.pow.image = false ∧ t.pow.lastEnd = (if s.modl.zxpFitted then 6 else s.pow.lastEnd)
      ∧ t.pow.on &&& 0x7D = 1 ∧ t.zxp.convOn = false ∧ t.host.yrst = false ∧ t.feat = Feat.fresh))
  ∧ ∀ s, s.pow.keep = .commitHold → s.nvs.commit = none →
    (s.pow.image = true → s.pow.hostPg = false → s.zxp.above20 = true → s.atReserve = false → s.pow.svc = false →
      ∃ t, exec .commitHoldEnd s = .next t
      ∧ t.pow.keep = .hold ∧ t.pow.dom = .dormouse ∧ t.pow.kdeep = false ∧ t.pow.usedMs = 0 ∧ t.pow.image = true
      ∧ t.pow.on &&& 0x7D = 0x11)
    ∧ (s.pow.image = false → ∃ t, exec .commitHoldEnd s = .next t
      ∧ t.pow.keep = (if s.pow.hostPg then .normal else .empty) ∧ t.pow.dom = .keepOnly ∧ t.pow.lastEnd = 6
      ∧ t.pow.on &&& 0x7D = 1 ∧ t.zxp.convOn = false)

/-- What ends a Dormouse without host power good, and what only counts (R48, R207, R215, R221, R222, R223, R227). -/
def Obligations.DormouseEnds : Prop :=
  (∀ s, s.pow.keep = .hold → ∃ t, exec .pd4Lost s = .next t
    ∧ t.pow.dom = .keepOnly ∧ t.pow.keep = (if s.pow.hostPg then .normal else .empty) ∧ t.pow.image = false
    ∧ t.pow.lastEnd = 4 ∧ t.pow.faults = s.pow.faults ||| 4 ∧ t.pow.on &&& 0x7D = 1)
  ∧ (∀ s, s.zxpOn = true → s.pow.keep = .hold ∨ s.pow.keep = .save → ∃ t, exec .bankFloor s = .next t
    ∧ t.pow.dom = .keepOnly ∧ t.pow.keep = (if s.pow.hostPg then .normal else .empty) ∧ t.pow.image = false
    ∧ t.pow.lastEnd = 3 ∧ t.zxp.above20 = false ∧ t.zxp.convOn = false ∧ t.pow.kdeep = false ∧ t.pow.on &&& 0x7D = 1)
  ∧ (∀ s, s.zxpOn = true → s.pow.keep ≠ .hold → s.pow.keep ≠ .save → exec .bankFloor s
    = .next { s with zxp := { s.zxp with above20 := false, convOn := s.pow.kdeep && s.zxp.convOn } })
  ∧ (∀ s, s.zxpOn = true → s.pow.keep = .commitHold → ∃ t, exec .commitFloor s = .next t
    ∧ t.pow.dom = .keepOnly ∧ t.pow.lastEnd = (if s.pow.image then 3 else 6) ∧ t.pow.image = false
    ∧ t.pow.kdeep = false ∧ t.zxp.convOn = false ∧ t.nvs.commit = none)
  ∧ (∀ s, s.zxpOn = true → s.pow.keep ≠ .commitHold → exec .commitFloor s
    = .next { s with zxp := { s.zxp with above20 := false, above16 := false, convOn := false } })
  ∧ (∀ s, s.pow.keep = .hold → s.zxp.plant = false → s.pow.copy = false → exec .spanExpiry s
    = .next { s with pow := { s.pow with usedMs := max s.pow.usedMs (s.pow.span.toNat * 1000) } })
  ∧ (∀ s, s.pow.keep = .hold → s.zxp.plant = false → s.pow.copy = true → ∃ t, exec .spanExpiry s = .next t
    ∧ t.pow.keep = .save ∧ t.pow.dom = .save ∧ t.pow.kdeep = true ∧ t.pow.image = s.pow.image
    ∧ t.pow.on &&& 0x7D = domMask .save s.buffers s.modl.hoardFitted ∧ t.feat = { Feat.fresh with phase := .booting }
    ∧ t.subA.owner = .blocked ∧ t.subB.owner = .blocked)
  ∧ (∀ s, (s.zxpOn && s.reaches 10) = true → s.zxp.held = none → s.pow.keep ≠ .hold → ∃ t, exec .energyUpdate s = .next t
    ∧ t.pow = { s.pow with
                  energyJ := nearest (energyNum s.zxp.cBank s.vbank) 200000000
                  energyX := some (energyNum s.zxp.cBank s.vbank), cSrc := s.zxp.measValid
                  reserveHit := decide (energyNum s.zxp.cBank s.vbank ≤ s.pow.reserve.toNat * 200000000) }
    ∧ t = { s with pow := t.pow })
  ∧ ∀ s, s.pow.keep = .wake → s.pow.image = true → s.host.resume = none → s.mgmtReady = true →
    ∃ t, exec .retainDeadlineDiscard s = .next t
    ∧ t.pow.image = false ∧ t.pow.keep = .normal ∧ t.pow.dom = .run ∧ t.pow.lastEnd = 5
    ∧ t.host.yrst = false ∧ t.host.yrstMs = 1 ∧ (s.train.a.phase = .held → t.train.a.phase = .init)
    ∧ (s.train.b.phase = .held → t.train.b.phase = .init)

/-- Domain brownouts and rail failures, and the restarts that follow them (R70, R71, R406). -/
def Obligations.Brownouts : Prop :=
  (∀ s, s.pd2 = true → s.pow.dom = .boot ∨ s.pow.dom = .run ∨ s.pow.dom = .restore ∨ s.pow.dom = .wake →
    ∃ t, exec .pd2Brownout s = .next t
    ∧ t.pow.dom = (if s.pow.dom = .wake then .wake else .boot) ∧ t.pow.keep = s.pow.keep ∧ t.pow.pd2Down = true
    ∧ t.pow.on &&& 0x6C = 0 ∧ (s.pow.on &&& 0x11 = 0x11 → t.pow.on &&& 0x11 = 0x11)
    ∧ t.pow.faults = s.pow.faults ||| 1 ∧ t.pow.image = s.pow.image
    ∧ (s.pow.dom = .wake → t.subA.ranks = s.subA.ranks.map (fun r => if r == .absent then r else .held)
        ∧ t.subB.ranks = s.subB.ranks.map (fun r => if r == .absent then r else .held))
    ∧ t.feat = Feat.fresh ∧ t.clk.mpllLock = false)
  ∧ (∀ s, s.pd2 = true → s.pow.dom = .attended → ∃ t, exec .pd2Brownout s = .next t
    ∧ t.pow.dom = .dormouse ∧ t.pow.svc = false ∧ t.pow.keep = s.pow.keep ∧ t.pow.faults = s.pow.faults ||| 1
    ∧ t.pow.on &&& 0x7D = 0x11 ∧ t.feat = Feat.fresh)
  ∧ (∀ s, s.pd2 = true → s.pow.dom = .commitHold → s.pow.image = true → s.pow.hostPg = false → s.zxp.above20 = true →
      s.atReserve = false → ∃ t, exec .pd2Brownout s = .next t
    ∧ t.pow.dom = .dormouse ∧ t.pow.keep = .hold ∧ t.pow.kdeep = false ∧ t.pow.image = true ∧ t.nvs.commit = none
    ∧ t.pow.on &&& 0x7D = 0x11 ∧ t.pow.faults = s.pow.faults ||| 1)
  ∧ (∀ s, s.pd2 = true → s.pow.dom = .save ∨ (s.pow.dom = .commitHold ∧ s.pow.image = false) →
    ∃ t, exec .pd2Brownout s = .next t
    ∧ t.pow.dom = .keepOnly ∧ t.pow.keep = (if s.pow.hostPg then .normal else .empty) ∧ t.pow.image = false
    ∧ t.pow.lastEnd = (if s.pow.dom = .save then 7 else 6) ∧ t.pow.on &&& 0x7D = 1
    ∧ t.pow.faults = s.pow.faults ||| 1)
  ∧ (∀ s, s.pd2 = false ∨ s.pow.dom = .curl → exec .pd2Brownout s = .next s)
  ∧ (∀ s, s.pow.pd2Down = true → s.pow.dom = .boot ∨ s.pow.dom = .wake ∨ s.pow.dom = .run →
    ∃ t, exec .pd2BrownoutRestart s = .next t
    ∧ t.pow.dom = s.pow.dom ∧ t.pow.keep = s.pow.keep ∧ t.pow.pd2Down = false
    ∧ t.pow.on &&& 0x7D = domMask s.pow.dom s.buffers s.modl.hoardFitted ∧ t.clk.cause = s.clk.cause ||| 16
    ∧ t.feat = { Feat.fresh with phase := .booting } ∧ t.clk.mpllLock = true ∧ t.con = Con.fresh)
  ∧ (∀ s, s.pow.pd2Down = false → exec .pd2BrownoutRestart s = .next s)
  ∧ (∀ s, s.pd3 = true → s.pow.pfailLow = false → s.host.pd3Fault = false → ∃ t, exec .pd3Brownout s = .next t
    ∧ t.subA.owner = .blocked ∧ t.subB.owner = .blocked ∧ t.host.pd3Fault = true ∧ t.host.resume = none
    ∧ t.hrd.st ≠ .restoring ∧ t.hrd.st ≠ .lending
    ∧ t.pow.dom = s.pow.dom ∧ t.pow.on = s.pow.on ∧ t.pow.image = s.pow.image ∧ t.pow.faults = s.pow.faults ||| 2)
  ∧ (∀ s, s.pd3 = false ∨ s.pow.pfailLow = true ∨ s.host.pd3Fault = true → exec .pd3Brownout s = .next s)
  ∧ (∀ s, s.host.pd3Fault = true → s.pow.image = true → exec .pd3BrownoutEnd s
    = .next { s with
                host := { s.host with pd3Fault := false }, subA := { s.subA with owner := .notReady }
                subB := { s.subB with owner := .notReady } })
  ∧ (∀ s, s.host.pd3Fault = true → s.pow.image = false → ∃ t, exec .pd3BrownoutEnd s = .next t
    ∧ t.host.pd3Fault = false ∧ t.host.yrst = false ∧ t.host.yrstMs = 1
    ∧ t.subA.owner = .notReady ∧ t.subB.owner = .notReady ∧ t.hrd.wmarkA = 0 ∧ t.hrd.wmarkB = 0
    ∧ t.pow.dom = s.pow.dom ∧ t.feat = s.feat ∧ t.nvs.pend = s.nvs.pend
    ∧ (s.mgmtReady = true → s.nvs.rescue = false → t.train.a.phase = .wait ∧ t.train.b.phase = .wait))
  ∧ (∀ s, s.host.pd3Fault = false → exec .pd3BrownoutEnd s = .next s)
  ∧ (∀ s, (s.pow.on.getLsbD 5 && s.pd3) = true → s.pow.pfailLow = false → ∃ t, exec .pd5Lost s = .next t
    ∧ t.dbs = (List.range 10).map (fun n => { Db.fresh with pos := nth s.modl.dbPos n 0 })
    ∧ t.zlb.targets = List.replicate 10 ZTarget.fresh ++ s.zlb.targets.drop 10
    ∧ t.pow.on = s.pow.on ∧ t.pow.dom = s.pow.dom ∧ t.pow.faults = s.pow.faults ||| 8)
  ∧ (∀ s, (s.pow.on.getLsbD 5 && s.pd3) = false ∨ s.pow.pfailLow = true → exec .pd5Lost s = .next s)
  ∧ (∀ s, s.pow.on.getLsbD 6 = true → ∃ t, exec .pd6RailTimeout s = .next t
    ∧ t.pow.faults = s.pow.faults ||| 16
    ∧ (s.pow.dom = .boot → t.pow.dom = .boot ∧ t.pow.on = s.pow.on &&& 0x3F)
    ∧ (s.pow.dom = .save → t.pow.dom = .save ∧ t.hrd.st = .held ∧ t.hrd.lastOutcome = 4)
    ∧ (s.pow.dom = .restore → t.pow.dom = .run ∧ t.pow.on &&& 0x7D = domMask .run s.buffers s.modl.hoardFitted))
  ∧ ∀ s, s.pow.on.getLsbD 6 = false → exec .pd6RailTimeout s = .next s

/-- A fixture attends a Dormouse and leaves it (R67, R86). -/
def Obligations.Fixture : Prop :=
  (∀ s, s.pow.dom = .dormouse → ∃ t, exec .svcAttend s = .next t
    ∧ t.pow.dom = .attended ∧ t.pow.svc = true ∧ t.pow.keep = s.pow.keep ∧ t.pow.image = s.pow.image
    ∧ t.pow.usedMs = s.pow.usedMs ∧ t.pow.on &&& 0x7D = 0x15 ∧ t.feat = { Feat.fresh with phase := .booting }
    ∧ t.clk.mpllLock = true ∧ t.subA.owner = s.subA.keep.owner ∧ t.subB.owner = s.subB.keep.owner)
  ∧ (∀ s, s.pow.dom ≠ .dormouse → exec .svcAttend s = .next { s with pow := { s.pow with svc := true } })
  ∧ (∀ s, s.pow.dom = .attended → ∃ t, exec .svcRelease s = .next t
    ∧ t.pow.dom = .dormouse ∧ t.pow.svc = false ∧ t.pow.keep = s.pow.keep ∧ t.pow.image = s.pow.image
    ∧ t.pow.usedMs = s.pow.usedMs ∧ t.pow.on &&& 0x7D = 0x11 ∧ t.feat = Feat.fresh ∧ t.clk.mpllLock = false)
  ∧ ∀ s, s.pow.dom ≠ .attended → exec .svcRelease s = .next { s with pow := { s.pow with svc := false } }

/-- The plant bus comes, goes, and is refused above its window or in reverse (R208, R212, R224). -/
def Obligations.PlantBus : Prop :=
  ∀ s, s.zxpOn = true →
    (s.zxp.plant = false → s.zxp.plantOv = false → s.zxp.plantRev = false → exec .plantPresent s
      = .next ((State.charger { s with
          zxp := { s.zxp with plant := true }, pow := { s.pow with on := s.pow.on ||| 2 } }).raise 26 0))
    ∧ (s.zxp.plant = true → exec .plantAbsent s
      = .next ((State.charger { s with
          zxp := { s.zxp with plant := false }, pow := { s.pow with on := s.pow.on &&& 0x7D } }).raise 25 0))
    ∧ (s.zxp.plant = true → ∃ t, exec .plantOverVoltage s = .next t
      ∧ t.zxp = { s.zxp with
                    plant := false, plantOv := true, fault := s.zxp.fault ||| 1, chg := t.zxp.chg, chgPlant := false }
      ∧ t.pow = { s.pow with on := s.pow.on &&& 0x7D, latched := t.pow.latched }
      ∧ t = { s with zxp := t.zxp, pow := t.pow, evt := t.evt })
    ∧ (s.zxp.plant = true → ∃ t, exec .plantReverse s = .next t
      ∧ t.zxp = { s.zxp with
                    plant := false, plantRev := true, fault := s.zxp.fault ||| 2, chg := t.zxp.chg, chgPlant := false }
      ∧ t.pow = { s.pow with on := s.pow.on &&& 0x7D, latched := t.pow.latched }
      ∧ t = { s with zxp := t.zxp, pow := t.pow, evt := t.evt })
    ∧ (∃ t, exec .overVoltageResume s = .next t
      ∧ t.zxp = { s.zxp with plantOv := false, chg := t.zxp.chg, chgPlant := s.zxp.plant } ∧ t = { s with zxp := t.zxp })
    ∧ exec .plantReverseClear s = .next { s with zxp := { s.zxp with plantRev := false } }

/-- The charger, the converter and the bank comparators (R208, R210, R212, R213, R215, R216, R395). -/
def Obligations.Charger : Prop :=
  ∀ s, s.zxpOn = true →
    (∀ armed, exec (.bankArmChange armed) s = .next { s with
        zxp := { s.zxp with bankArm := armed, above20 := s.zxp.above20 || armed, above16 := s.zxp.above16 || armed } })
    ∧ exec .chargerFull s = .next { s with zxp := { s.zxp with chg := if s.zxp.chg = 0 then 0 else 3 } }
    ∧ exec .chargerResume s = .next { s with zxp := { s.zxp with chg := if s.zxp.chg = 0 then 0 else 1 } }
    ∧ (∃ t, exec .chargerFault s = .next t
      ∧ t.zxp = { s.zxp with chgFaulted := true, fault := s.zxp.fault ||| 4, chg := 0, chgPlant := s.zxp.plant }
      ∧ t = { s with zxp := t.zxp, evt := t.evt, pow := { s.pow with latched := t.pow.latched } })
    ∧ (∃ t, exec .converterFault s = .next t ∧ t.zxp = { s.zxp with fault := s.zxp.fault ||| 8 }
      ∧ t = { s with zxp := t.zxp, evt := t.evt, pow := { s.pow with latched := t.pow.latched } })
    ∧ (∃ t, exec .orReverseFault s = .next t ∧ t.zxp = { s.zxp with fault := s.zxp.fault ||| 16 }
      ∧ t = { s with zxp := t.zxp, evt := t.evt, pow := { s.pow with latched := t.pow.latched } })
    ∧ exec .thermalChargerPause s
      = .next { s with zxp := { s.zxp with thermal := true, chg := 0, chgPlant := s.zxp.plant } }
    ∧ ∃ t, exec .thermalChargerResume s = .next t
      ∧ t.zxp = { s.zxp with
                    thermal := false, chgPlant := s.zxp.plant
                    chg := if State.chargerOk { s with zxp := { s.zxp with thermal := false } } = false then 0
                           else if s.zxp.chg = 0 then 1 else s.zxp.chg }
      ∧ t = { s with zxp := t.zxp }

/-- One ADC slot converts one channel of the rotation (R229, R230, R231, R232). -/
def Obligations.AdcSlot : Prop :=
  ∀ fine coarse s, s.zxpOn = true → s.zxp.chans.length = 16 → ∃ t, exec (.adcSlot fine coarse) s = .next t
    ∧ t.zxp.slot = s.zxp.slot + 1
    ∧ t.zxp.frame = (if s.zxp.slot = 15 then s.zxp.frame + 1 else s.zxp.frame)
    ∧ (∀ n, n ≠ s.zxp.slot.toNat → nth t.zxp.chans n AdcCh.fresh = nth s.zxp.chans n AdcCh.fresh)
    ∧ (s.zxp.settleLeft ≠ 0 → nth t.zxp.chans s.zxp.slot.toNat AdcCh.fresh
        = { nth s.zxp.chans s.zxp.slot.toNat AdcCh.fresh with settle := true })
    ∧ (s.zxp.settleLeft = 0 →
        let n := s.zxp.slot.toNat
        let c := nth t.zxp.chans n AdcCh.fresh
        let mode := if adcVoltage n then fld s.zxp.range (2 * n + 1) (2 * n) else 1
        let r := adcConvert mode (nth s.zxp.chans n AdcCh.fresh).nextCoarse fine coarse
        c.valid = true ∧ c.settle = false ∧ c.frame = s.zxp.frame ∧ c.coarse = r.1 ∧ c.ovr = r.2.2.1 ∧ c.range = r.2.2.2.1
        ∧ c.value = BitVec.ofInt 18 (s.adcValue n r.1 r.2.1) ∧ r.2.1 ≤ 16383
        ∧ t.zxp.settleLeft = (if r.2.2.1 then 2 else 0))
    ∧ t = { s with
              free := s.free + 1
              zxp := { s.zxp with
                         chans := t.zxp.chans, settleLeft := t.zxp.settleLeft, slot := t.zxp.slot, frame := t.zxp.frame
                         chg := t.zxp.chg } }

/-- A save proves its rate, programs the spare area, and ends complete or held (R241, R242, R243, R244, R245, R247). -/
def Obligations.HoardSave : Prop :=
  (∀ x dies s, s.up = true → s.pow.dom = .save → s.hrd.st = .idle → (s.tr x).phase = .held → s.trains = true →
    (s.polkaJudge x dies).1 ≠ 0 → ∃ t, exec (.polkaDone x dies) s = .next t
    ∧ t.hrd.st = .held ∧ t.hrd.lastOutcome = 4 ∧ t.train.pairs = satAdd s.train.pairs (s.polkaJudge x dies).2
    ∧ t.hrd.areaA = s.hrd.areaA ∧ t.hrd.areaB = s.hrd.areaB ∧ t.pow.dom = .save ∧ t.nv = s.nv)
  ∧ (∀ x dies s, s.up = true → s.pow.dom = .save → s.hrd.st = .idle → (s.tr x).phase = .held → s.trains = true →
    (s.polkaJudge x dies).1 = 0 → (match x with | .a => s.hrd.provedB | .b => s.hrd.provedA) = true →
    ∃ t, exec (.polkaDone x dies) s = .next t
    ∧ t.hrd.st = .saving ∧ t.hrd.pages = 0 ∧ t.hrd.retiredNow = [] ∧ t.hrd.curs = s.firstCurs
    ∧ (if s.hrd.spareB then t.hrd.areaB else t.hrd.areaA)
        = ⟨false, some ⟨BitVec.ofNat 32 (max s.hrd.areaA.gen s.hrd.areaB.gen + 1), mapRows s.hrd.extents, s.clk.life,
                        s.hrd.extents⟩, none, none⟩
    ∧ (if s.hrd.spareB then t.hrd.areaA else t.hrd.areaB) = (if s.hrd.spareB then s.hrd.areaA else s.hrd.areaB))
  ∧ (∀ (c : Fin 4) (l : Fin 8) b ok s, s.up = true → s.hrd.st = .saving → s.nandCur ⟨c.val, l.val, b.toNat⟩ = none →
    exec (.nandProgramDone c l b ok) s = .next s)
  ∧ (∀ (c : Fin 4) (l : Fin 8) b s u, s.up = true → s.hrd.st = .saving → s.nandCur ⟨c.val, l.val, b.toNat⟩ = some u →
    ∃ t, exec (.nandProgramDone c l b true) s = .next t ∧ t = { s with hrd := t.hrd }
    ∧ t.hrd.pages = s.hrd.pages + u.erased.toNat
    ∧ (u.erased = false → nth t.hrd.curs (c.val * 8 + l.val) none = some { u with erased := true } ∧ t.hrd.prog = s.hrd.prog)
    ∧ (u.erased = true → t.hrd.prog = some ⟨c.val, l.val, u.block, u.page, []⟩)
    ∧ t.hrd.curs = upd s.hrd.curs (c.val * 8 + l.val) (fun _ => nth t.hrd.curs (c.val * 8 + l.val) none))
  ∧ (∀ (c : Fin 4) (l : Fin 8) b s u, s.up = true → s.hrd.st = .saving → s.nandCur ⟨c.val, l.val, b.toNat⟩ = some u →
    ∃ t, exec (.nandProgramDone c l b false) s = .next t
    ∧ t = { s with
              hrd := { s.hrd with retiredNow := s.hrd.retiredNow ++ [⟨c.val, l.val, b.toNat⟩], curs := t.hrd.curs }
              evt := t.evt, pow := { s.pow with latched := t.pow.latched } }
    ∧ t.hrd.curs = upd s.hrd.curs (c.val * 8 + l.val) (fun _ => nth t.hrd.curs (c.val * 8 + l.val) none))
  ∧ (∀ (c : Fin 4) (l : Fin 8) b s, s.up = true → s.hrd.st = .erasing → ∃ t, exec (.nandProgramDone c l b false) s = .next t
    ∧ t.nvs.pend.contains 6 = true
    ∧ t = { s with
              hrd := { s.hrd with retired := s.hrd.retired ++ [⟨c.val, l.val, b.toNat⟩] }, evt := t.evt
              nvs := { s.nvs with pend := t.nvs.pend }, pow := { s.pow with latched := t.pow.latched } })
  ∧ (∀ noSpace s, s.up = true → s.hrd.st = .saving → (noSpace = true → s.hrd.noRoom = true) →
    ∃ t, exec (.hoardAreaFull noSpace) s = .next t
    ∧ t.hrd.st = .held ∧ t.hrd.lastOutcome = 4 ∧ t.hrd.areaA = s.hrd.areaA ∧ t.hrd.areaB = s.hrd.areaB
    ∧ t.pow.dom = s.pow.dom ∧ t.nv = s.nv)
  ∧ ∀ s, s.up = true → s.hrd.st = .saving → s.hrd.pages = s.hrd.saveTrailer.pages → ∃ t, exec .hoardSaveComplete s = .next t
    ∧ (if s.hrd.spareB then t.hrd.areaB else t.hrd.areaA) = { s.hrd.spare with trl := some s.hrd.saveTrailer }
    ∧ (if s.hrd.spareB then t.hrd.areaA else t.hrd.areaB) = (if s.hrd.spareB then s.hrd.areaA else s.hrd.areaB)
    ∧ t.hrd.st = .idle ∧ t.hrd.markerOwed = false ∧ t.hrd.lastOutcome = 1 ∧ t.pow.dom = .keepOnly ∧ t.pow.lastEnd = 2 ∧ t.pow.image = false
    ∧ t.pow.on &&& 0x7D = 1 ∧ t.pow.keep = (if s.pow.hostPg then .normal else .empty)

/-- A restore runs unit by unit, consumes its image, and erases the spare area (R243, R248, R249, R250, R251, R252,
R253). -/
def Obligations.HoardRestore : Prop :=
  (∀ s, s.up = true → s.hrd.st = .idle → s.pow.dom = .run → s.restoreDue = true → s.restoreReady = true →
    ∃ t, exec .hoardRestoreStart s = .next t
    ∧ t.hrd = { s.hrd with
                  st := if s.hrd.lend then .lending else .restoring
                  uncorr := if s.hrd.wmarkA = 0 ∧ s.hrd.wmarkB = 0 then none else s.hrd.uncorr }
    ∧ t.pow = { s.pow with dom := .restore, pd2Down := false, on := t.pow.on }
    ∧ t.pow.on &&& 0x7D = domMask .restore s.buffers s.modl.hoardFitted ∧ t = { s with hrd := t.hrd, pow := t.pow })
  ∧ (∀ x corrected uncorr s, s.up = true → (s.hrd.st = .restoring ∨ (s.hrd.st = .lending ∧ s.unitsDue x = true)) →
    s.hrd.done x = false → (s.tr x).phase = .done → ∃ t, exec (.hoardRestoreUnit x corrected uncorr) s = .next t
    ∧ t.hrd.wmark x = (s.hrd.wmark x + 1) % 2 ^ 20
    ∧ t.hrd.corrected = satAdd s.hrd.corrected corrected ∧ t.hrd.uncorrectable = satAdd s.hrd.uncorrectable uncorr
    ∧ t.hrd.st = s.hrd.st ∧ t.hrd.areaA = s.hrd.areaA ∧ t.hrd.areaB = s.hrd.areaB
    ∧ (t.sub x).grant = (s.sub x).grant.map (fun g => { g with unitsLeft := g.unitsLeft - 1 })
    ∧ t = { s with
              hrd := t.hrd, subA := t.subA, subB := t.subB, evt := t.evt
              pow := { s.pow with latched := t.pow.latched } })
  ∧ (∀ s, s.up = true → s.hrd.st = .restoring ∨ s.hrd.st = .lending → s.hrd.unfinished = false →
    ∃ t, exec .hoardRestoreComplete s = .next t
    ∧ t.hrd.st = .erasing ∧ t.hrd.readyHeldA = false ∧ t.hrd.readyHeldB = false ∧ t.hrd.markerOwed = false
    ∧ (if s.hrd.newestB then t.hrd.areaB else t.hrd.areaA)
        = { s.hrd.newest with marker := s.hrd.newest.hdr.map (fun d => ⟨d.gen, s.clk.life⟩) })
  ∧ (∀ s, s.up = true → s.hrd.st = .idle → s.pow.dom = .run → s.fnOn .hoard = true → s.hrd.unfinished = false →
    s.hrd.markerOwed = false → s.hrd.spare.state ≠ 0 → ∃ t, exec .hoardSpareEraseStart s = .next t
    ∧ t.hrd = { s.hrd with st := .erasing } ∧ t.pow.dom = .restore
    ∧ t.pow.on &&& 0x7D = domMask .restore s.buffers s.modl.hoardFitted ∧ t = { s with hrd := t.hrd, pow := t.pow })
  ∧ (∀ s, s.up = true → s.hrd.st = .idle → s.pow.dom = .run → s.fnOn .hoard = true → s.hrd.markerOwed = true →
    ∃ t, exec .hoardSpareEraseStart s = .next t
    ∧ t.hrd.st = .erasing ∧ t.hrd.markerOwed = false ∧ t.pow.dom = .restore
    ∧ (if s.hrd.newestB then t.hrd.areaB else t.hrd.areaA)
        = { s.hrd.newest with marker := s.hrd.newest.hdr.elim s.hrd.newest.marker (fun d => some ⟨d.gen, s.clk.life⟩) })
  ∧ ∀ s, s.up = true → s.hrd.st = .erasing → s.pow.dom = .restore → ∃ t, exec .hoardSpareClean s = .next t
    ∧ t.hrd = { s.hrd.setArea s.hrd.spareB Area.clean with st := .idle } ∧ t.pow.dom = .run
    ∧ t.pow.on &&& 0x7D = domMask .run s.buffers s.modl.hoardFitted ∧ t = { s with hrd := t.hrd, pow := t.pow }

/-- HRD_CMD discards an unfinished restore, HRD_EXT_LO sets an extent (R7, R236, R237, R243). -/
def Obligations.HoardRegisters : Prop :=
  (∀ p s, s.up = true → s.nvs.rescue = false → s.regOn .hoard = true → s.hrd.unfinished = true →
    ∃ t, exec (.hrdDiscard p 0x4B0D0001) s = .next t
    ∧ t.hrd.unfinished = false ∧ t.hrd.readyHeldA = false ∧ t.hrd.readyHeldB = false
    ∧ (s.hrd.st = .idle → t.hrd.markerOwed = true ∧ t.hrd.areaA = s.hrd.areaA ∧ t.hrd.areaB = s.hrd.areaB)
    ∧ (s.hrd.st = .restoring → t.hrd.st = .erasing))
  ∧ (∀ p v s, v ≠ 0x4B0D0001 → exec (.hrdDiscard p v) s = .next s)
  ∧ (∀ p (v : Word) s, s.up = true → s.nvs.rescue = false → s.regOn .hoard = true → v &&& 0x7FC00000 = 0 →
    (v.getLsbD 31 = true → s.extentOk (s.sel p).hrdMap.toNat
        ⟨v, (nth s.hrd.extents (s.sel p).hrdMap.toNat ⟨0, 0⟩).hi⟩ = true) →
    ∃ t, exec (.hrdExtLoWrite p v) s = .next t
    ∧ t.hrd = { s.hrd with
                  extents := upd s.hrd.extents (s.sel p).hrdMap.toNat
                    (fun _ => ⟨v, (nth s.hrd.extents (s.sel p).hrdMap.toNat ⟨0, 0⟩).hi⟩) }
    ∧ t.nvs.pend.contains 6 = true ∧ t = { s with hrd := t.hrd, nvs := { s.nvs with pend := t.nvs.pend } })
  ∧ ∀ p (v : Word) s, v.getLsbD 31 = true → s.extentOk (s.sel p).hrdMap.toNat
        ⟨v, (nth s.hrd.extents (s.sel p).hrdMap.toNat ⟨0, 0⟩).hi⟩ = false →
    exec (.hrdExtLoWrite p v) s = .next s

/-- The root, the MPLL, HCK and the watchdog (R58, R64, R65, R72, R75, R201). -/
def Obligations.ClockFaults : Prop :=
  (∀ s, s.pow.dom ≠ .off → s.clk.rootOk = true → ∃ t, exec .crystalStop s = .next t
    ∧ t = { s with
              clk := { s.clk with rootOk := false, onBackup := true, mpllLock := false }, evt := t.evt
              pow := { s.pow with latched := t.pow.latched } })
  ∧ (∀ s, s.pd2 = true → s.clk.mpllLock = true → ∃ t, exec .mpllLockLoss s = .next t
    ∧ t = { s with
              clk := { s.clk with mpllLock := false }, evt := t.evt, pow := { s.pow with latched := t.pow.latched } })
  ∧ (∀ s, s.pd2 = true → exec .mpllRelock s = .next { s with clk := { s.clk with mpllLock := true } })
  ∧ (∀ s, s.pd2 = true → s.clk.mpllLock = false → s.pow.dom ≠ .curl → s.pow.dom ≠ .commitHold →
    ∃ t, exec .mpllRelockTimeout s = .next t
    ∧ t.pool = (if s.nvs.commit.isSome then s.pool.reserve else s.pool)
    ∧ t = { s with clk := { s.clk with mrstWait := true, cause := s.clk.cause ||| 128 }, pool := t.pool })
  ∧ (∀ s, s.pd2 = true → s.pow.dom ≠ .curl → s.pow.dom ≠ .commitHold → s.feat.phase ≠ .booting →
    ∃ t, exec .watchdogExpiry s = .next t
    ∧ t.pool = (if s.nvs.commit.isSome then s.pool.reserve else s.pool)
    ∧ t = { s with clk := { s.clk with mrstWait := true, cause := s.clk.cause ||| 8 }, pool := t.pool })
  ∧ (∀ k s, s.pd2 = true → s.pow.dom ≠ .curl → s.pow.dom ≠ .commitHold → s.feat.phase = .booting →
    s.nvs.rescue = false → s.fwSlot = some k → ∃ t, exec .watchdogExpiry s = .next t
    ∧ t.pow = { s.pow with failedBoots := upd s.pow.failedBoots k.toNat (· + 1) }
    ∧ t = { s with
              clk := { s.clk with mrstWait := true, cause := s.clk.cause ||| 8 }, pow := t.pow, pool := t.pool })
  ∧ (∀ s, s.clk.hckOk = true → ∃ t, exec .hckLoss s = .next t
    ∧ t.clk = { s.clk with hckOk := false, hckValid := false } ∧ t.pow.dom = s.pow.dom ∧ t.nv = s.nv)
  ∧ ∀ mhz s, s.pd3 = true → s.pow.dom ≠ .save → s.pow.dom ≠ .curl → s.clk.hckOk = false → 1600 ≤ mhz → mhz ≤ 4000 →
    ∃ t, exec (.hckReturn mhz) s = .next t
    ∧ t.clk = { s.clk with hckOk := true, hckValid := true, hckMhz := BitVec.ofNat 12 mhz }

/-- MRST is requested by its key and clears the management side alone (R12, R72, R73, R74, R273). -/
def Obligations.ManagementReset : Prop :=
  (∀ p s, s.up = true → s.nvs.rescue = false → s.pow.dom ≠ .curl → s.pow.dom ≠ .commitHold →
    ∃ t, exec (.mrstRequest p 0x3C5A) s = .next t
    ∧ t.pool = (if s.nvs.commit.isSome then s.pool.reserve else s.pool)
    ∧ t = { s with
              clk := { s.clk with mrstWait := true, cause := s.clk.cause ||| 4, mrstPath := pathCode p }, pool := t.pool })
  ∧ (∀ p v s, v ≠ 0x3C5A → exec (.mrstRequest p v) s = .next s)
  ∧ ∀ s, s.pd2 = true → s.clk.mrstWait = true → s.nvs.commit = none → s.pow.dom ≠ .curl → s.pow.dom ≠ .commitHold →
    ∃ t, exec .mrst s = .next t
    ∧ t.feat = { Feat.fresh with phase := .booting } ∧ t.evt = Evt.fresh ∧ t.twb = Twb.fresh ∧ t.con = Con.fresh
    ∧ t.pool = Pool.fresh ∧ t.cal = Cal.fresh ∧ t.trim = Trim.fresh ∧ t.nvs = Nvs.fresh
    ∧ t.sels = List.replicate 6 PathSel.fresh
    ∧ t.clk = { s.clk with wallStage := 0, mrstWait := false } ∧ t.dbs = s.dbs ∧ t.nv = s.nv ∧ t.modl = s.modl
    ∧ t.flt.res = s.flt.res ∧ t.flt.repairs = s.flt.repairs ∧ t.pow.image = s.pow.image ∧ t.pow.keep = s.pow.keep
    ∧ t.pow.lost = s.pow.lost ||| regionMask (s.nvs.pend ++ s.nvs.failedPend)
    ∧ (s.pow.dom ≠ .restore → t.pow.dom = s.pow.dom ∧ t.pow.on = s.pow.on)
    ∧ t.host.lat = s.host.lat ∧ t.host.parEn = s.host.parEn ∧ t.host.alertW = s.host.alertW
    ∧ t.subA.owner = s.subA.owner ∧ t.subB.owner = s.subB.owner
    ∧ t.subA.grant.map (·.span) = s.subA.grant.map (·.span) ∧ t.subB.grant.map (·.span) = s.subB.grant.map (·.span)
    ∧ t.subA.ranks = s.subA.ranks ∧ t.subB.ranks = s.subB.ranks
    ∧ t.hrd.areaA.hdr = s.hrd.areaA.hdr ∧ t.hrd.areaB.hdr = s.hrd.areaB.hdr

/-- HRST takes the host path and its end gives it back (R52, R76, R81, R86). -/
def Obligations.HostReset : Prop :=
  (∀ s, s.pd3 = true → s.pow.dom ≠ .curl → ∃ t, exec .hrst s = .next t
    ∧ t.host.cause = 0 ∧ t.host.merged = false ∧ t.host.pulse = none ∧ t.host.waitPar = false ∧ t.host.waitCrc = false
    ∧ t.pending = s.pending ∧ t.modl = s.modl)
  ∧ (∀ s, s.pd3 = true → s.pow.dom ≠ .curl → s.subA.win.commits = [] → s.subB.win.commits = [] →
    ∃ t, exec .hrst s = .next t
    ∧ t.clk = { s.clk with cause := s.clk.cause ||| 32 } ∧ t.host.resetHigh = false
    ∧ t.subA.win = { Win.fresh with result := s.subA.win.result }
    ∧ t.subB.win = { Win.fresh with result := s.subB.win.result }
    ∧ (s.pow.image = true → t.subA.owner = s.subA.owner ∧ t.subB.owner = s.subB.owner ∧ t.host.yrst = s.host.yrst)
    ∧ (s.pow.image = false → t.host.yrst = false
        ∧ t.subA.owner = (if s.subA.owner = .blocked then .blocked else .notReady)
        ∧ t.subB.owner = (if s.subB.owner = .blocked then .blocked else .notReady)))
  ∧ (∀ s, s.pd3 = false ∨ s.pow.dom = .curl → exec .hrst s = .next { s with host := { s.host with resetHigh := false } })
  ∧ (∀ s, s.host.resetHigh = false → s.pd3 = true → s.pow.dom ≠ .curl → ∃ t, exec .hrstEnd s = .next t
    ∧ t.host = { s.host with
                   resetHigh := true, latActive := if s.host.latLoad then s.host.latActive else s.host.lat
                   yrst := s.host.yrst || (!s.pow.image && s.host.yrstMs == 0) }
    ∧ t.pow = s.pow ∧ t.subA = s.subA ∧ t.subB = s.subB ∧ t.hrd = s.hrd ∧ t.nv = s.nv
    ∧ (s.host.latLoad = true ∨ s.host.lat = s.host.latActive → t = { s with host := t.host }))
  ∧ ∀ s, s.host.resetHigh = false → s.pd3 = false ∨ s.pow.dom = .curl →
    exec .hrstEnd s = .next { s with host := { s.host with resetHigh := true } }

/-- CLK_CRST resets one unit and nothing else (R77, R130, R131, R280, R308, R311, R368). -/
def Obligations.UnitResets : Prop :=
  ∀ p s, s.up = true → s.nvs.rescue = false →
    (∃ t, exec (.crstCon p) s = .next t
      ∧ t.clk = { s.clk with cause := s.clk.cause ||| 64 } ∧ t.con.queue = [] ∧ t.con.exec = none ∧ t.pool.con = 0
      ∧ t.con.uart = { SessSt.fresh with out := prompt } ∧ t.con.host = { SessSt.fresh with out := prompt }
      ∧ t.con.loc = { SessSt.fresh with out := prompt } ∧ t.con.cfg = s.con.cfg ∧ t.con.lockout = s.con.lockout
      ∧ t.nv = s.nv ∧ t.feat = s.feat)
    ∧ (∃ t, exec (.crstTwbHost p) s = .next t
      ∧ t.clk = { s.clk with cause := s.clk.cause ||| 64 } ∧ t.twb.host.pointer = 0 ∧ t.twb.host.readLen = 4
      ∧ t.twb.host.exec = s.twb.host.exec ∧ t.twb.host.staged = none ∧ t.twb.host.read = none ∧ t.twb.host.job = none
      ∧ t.twb.loc = s.twb.loc)
    ∧ (∃ t, exec (.crstTwbLocal p) s = .next t
      ∧ t.clk = { s.clk with cause := s.clk.cause ||| 64 } ∧ t.twb.loc.pointer = 0 ∧ t.twb.loc.readLen = 4
      ∧ t.twb.loc.exec = s.twb.loc.exec ∧ t.twb.loc.staged = none ∧ t.twb.loc.read = none ∧ t.twb.loc.job = none
      ∧ t.twb.due = [] ∧ t.twb.host = s.twb.host)
    ∧ exec (.crstEvtQueue p) s = .next { s with
        clk := { s.clk with cause := s.clk.cause ||| 64 }
        evt := { s.evt with queue := [], srcs := s.evt.srcs.map (fun x => { x with pend := 0 }) } }
    ∧ exec (.crstSme p) s = .next { s with
        clk := { s.clk with cause := s.clk.cause ||| 64 }
        trim := { s.trim with
          acc := [], queues := List.replicate 12 []
          placed := s.trim.placed.zipIdx.map (fun q => if q.2 < 2 then none else q.1), applied := 0, refused := 0, lossCrc := 0
          lossOver := 0 } }
    ∧ (∃ t, exec (.crstZlb p) s = .next t
      ∧ t.clk = { s.clk with cause := s.clk.cause ||| 64 } ∧ (∀ q ∈ t.zlb.out, q ∈ s.zlb.waiting) ∧ t.nv = s.nv
      ∧ (s.zlb.waiting = [] → t = { s with clk := t.clk, zlb := { s.zlb with out := [] } }))
    ∧ (s.regOn .hoard = true → s.hrdFree = true → ∃ t, exec (.crstHrd p) s = .next t
      ∧ t.clk = { s.clk with cause := s.clk.cause ||| 64 } ∧ t.hrd.st = .idle
      ∧ t.pow.dom = (if s.pow.dom = .restore then .run else s.pow.dom)
      ∧ t = { s with clk := t.clk, hrd := t.hrd, pow := { s.pow with dom := t.pow.dom, on := t.pow.on, pd2Down := t.pow.pd2Down } })
    ∧ ((s.locked && s.feat.active.getLsbD 13) = true → ∃ t, exec (.crstUser p) s = .next t
      ∧ t.clk = { s.clk with cause := s.clk.cause ||| 64 }
      ∧ (∀ k, 60 ≤ k → k < 64 → (nth t.wrn.chans k Chan.fresh).q = [])
      ∧ t = { s with clk := t.clk, wrn := t.wrn, free := t.free })
    ∧ (∀ (n : Fin 10), s.buffers = true → ∃ t, exec (.crstDb p n true) s = .next t
      ∧ t.clk = { s.clk with cause := s.clk.cause ||| 64 } ∧ (((s.db n).pos.toNat == n.val) = true → t.unreach n = false) ∧ (t.db n).streaming = false
      ∧ (t.db n).stagePend = false ∧ (t.db n).taps = (s.db n).taps ∧ ∀ q ∈ t.zlb.out, q.tgt ≠ n)
    ∧ (s.modl.zxpFitted = true → ∃ t, exec (.crstZxp p true) s = .next t
      ∧ t.clk = { s.clk with cause := s.clk.cause ||| 64 } ∧ t.unreach 10 = false ∧ t.zxp.plant = s.zxp.plant
      ∧ t.zxp.convOn = s.zxp.convOn ∧ ∀ q ∈ t.zlb.out, q.tgt ≠ 10)

/-- A lock needs its key, an unlocked set and BASE; it fixes ACTIVE, BY and the accepted set (R29, R30). -/
def Obligations.FeatureLock : Prop :=
  ∀ p v s, s.up = true → s.nvs.rescue = false →
    (v = 0xA5C3 → s.locked = false → s.feat.accept.getLsbD 0 = true → ∃ t, exec (.featLock p v) s = .next t
      ∧ t.locked = true ∧ t.feat.active = s.feat.offer &&& s.feat.accept ∧ t.feat.lockedBy = pathCode p
      ∧ t = { s with
                feat := { s.feat with
                  phase := .locked, active := s.feat.offer &&& s.feat.accept, lockedBy := pathCode p }
                pow := { s.pow with lockCopy := (s.feat.offer &&& s.feat.accept).getLsbD 4 } })
    ∧ (v ≠ 0xA5C3 ∨ s.locked = true ∨ s.feat.accept.getLsbD 0 = false → exec (.featLock p v) s = .next s)
    ∧ (s.locked = true → exec (.featDeadlineWrite p v) s = .next s
        ∧ ∀ a, a = 0x0048 ∨ a = 0x004C ∨ a = 0x0060 → exec (.registerWrite p a v) s = .next s)

/-- The deadline locks the baseline, and SETTLED switches the features (R34, R36, R37, R38, R180, R198, R279). -/
def Obligations.DeadlineAndSettled : Prop :=
  (∀ s, s.up = true → s.feat.phase = .counting → exec .featDeadlineLock s = .next { s with
      feat := { s.feat with phase := .locked, accept := 0x4007, active := s.feat.offer &&& 0x4007, lockedBy := 6 }
      pow := { s.pow with lockCopy := false } })
  ∧ (∀ p v s, s.up = true → s.nvs.rescue = false → s.locked = false → 5 ≤ v.toNat → v.toNat ≤ 300 →
    ∃ t, exec (.featDeadlineWrite p v) s = .next t
    ∧ t.feat.deadline = v.setWidth 9
    ∧ (if s.feat.phase = .counting ∧ v.toNat * 100 ≤ s.feat.elapsed then
        t.feat = { s.feat with
          phase := .locked, accept := 0x4007, active := s.feat.offer &&& 0x4007, lockedBy := 6, deadline := v.setWidth 9 }
      else t.feat = { s.feat with deadline := v.setWidth 9 })
    ∧ (if s.feat.deadline = v.setWidth 9 then t.nvs.pend = s.nvs.pend else t.nvs.pend.contains 3 = true)
    ∧ t = { s with
              feat := t.feat, pow := { s.pow with lockCopy := t.pow.lockCopy }
              nvs := { s.nvs with pend := t.nvs.pend } })
  ∧ (∀ p v s, v.toNat < 5 ∨ 300 < v.toNat → exec (.featDeadlineWrite p v) s = .next s)
  ∧ ∀ s, s.up = true → s.feat.phase = .locked → ∃ t, exec .featSettled s = .next t
    ∧ t.feat = { s.feat with phase := .settled }
    ∧ t.trim = (if s.feat.active.getLsbD 5 then s.trim else
        { s.trim with acc := [], queues := List.replicate 12 [], placed := s.trim.placed.zipIdx.map (fun q => if q.2 < 2 then none else q.1), recentre := [] })
    ∧ t.nvs.held = false
    ∧ t.nvs.lifted = (if s.nvs.held = true ∧ s.feat.active.getLsbD 15 = true then s.nvs.pend else s.nvs.lifted)
    ∧ (∀ n, n < 64 → (nth t.evt.srcs n EvtSrc.fresh).pend = 0 ∨ 32 ≤ t.evt.queue.length)
    ∧ (s.feat.active.getLsbD 4 = true → t.hrd = s.hrd)
    ∧ (s.feat.active.getLsbD 4 = true → s.feat.active.getLsbD 9 = true → s.feat.active.getLsbD 11 = true → t.cal = s.cal ∧ t.train = s.train)
    ∧ (s.feat.active.getLsbD 9 = false → t.train.a.settleGo = false ∧ t.train.b.settleGo = false
        ∧ ∀ (m : Fin 10), nth t.cal.runs (m.val + 1) none = none)
    ∧ (s.feat.active.getLsbD 4 = true → s.feat.active.getLsbD 14 = true → t.flt = s.flt ∧ t.zxp = s.zxp)
    ∧ (s.feat.active.getLsbD 14 = false → t.flt.test.busy = false ∧ t.zxp.convCurrent = false)
    ∧ t.clk = s.clk ∧ t.nv = s.nv ∧ t.flt.cfg = s.flt.cfg

/-- A register write is taken whole or ignored, on every path alike (R5, R6, R7, R8, R10, R11, R108, R195, R403). -/
def Obligations.RegisterWrites : Prop :=
  (∀ p a v s, s.reg p a = none → exec (.registerWrite p a v) s = .next s ∧ s.hubRead p a = 0 ∧ s.afterRead p a = s)
  ∧ (∀ p a v s, 0x4000 ≤ a.toNat ∨ a.toNat % 4 ≠ 0 → exec (.registerWrite p a v) s = .next s)
  ∧ (∀ p a v s d, s.reg p a = some d → (d.flds.any Fld.writable = false ∨ ∃ i, v.getLsbD i = true ∧ d.fieldMask.testBit i = false) →
    exec (.registerWrite p a v) s = .next (d.sent v s)
    ∧ (a.toNat < 0x0C80 ∨ 0x2000 ≤ a.toNat → exec (.registerWrite p a v) s = .next s))
  ∧ (∀ p v s, s.up = true → s.nvs.rescue = false → ∃ t, exec (.registerWrite p 0x0108 v) s = .next t
    ∧ t.host.alertW = (if 8 ≤ v.toNat ∧ v.toNat ≤ 64 then v.setWidth 7 else s.host.alertW)
    ∧ (if t.host.alertW = s.host.alertW then t.nvs.pend = s.nvs.pend else t.nvs.pend.contains 3 = true)
    ∧ t = { s with
              host := { s.host with alertW := t.host.alertW }, nvs := { s.nvs with pend := t.nvs.pend } })
  ∧ (∀ p v s, s.up = true → s.nvs.rescue = false → v.toNat < 4 → ∃ t, exec (.registerWrite p 0x0104 v) s = .next t
    ∧ t = { s with
              host := { s.host with parEn := v.getLsbD 0, parStop := v.getLsbD 1 }
              nvs := { s.nvs with pend := t.nvs.pend } }
    ∧ (s.host.parEn ≠ v.getLsbD 0 ∨ s.host.parStop ≠ v.getLsbD 1 → t.nvs.pend.contains 3 = true))
  ∧ ∀ p v s (n : Fin 64), s.up = true → s.nvs.rescue = false → s.evtRegPresent n = true → v.toNat < 64 →
    ∃ t, exec (.registerWrite p (BitVec.ofNat 16 (0x1900 + 4 * n.val)) v) s = .next t
    ∧ (∀ (m : Nat), m ≠ n.val → nth t.evt.srcs m EvtSrc.fresh = nth s.evt.srcs m EvtSrc.fresh)
    ∧ t.evt.queue = s.evt.queue ∧ t = { s with evt := t.evt, nvs := { s.nvs with pend := t.nvs.pend } }
    ∧ (n.val < s.evt.srcs.length → (nth t.evt.srcs n EvtSrc.fresh).cfg = v.setWidth 6
        ∧ (nth t.evt.srcs n EvtSrc.fresh).status = (nth s.evt.srcs n EvtSrc.fresh).status)

/-- ALERT_n pulses, the DRAMs' own alerts, the buffers' reports and the release of a stopped subchannel (R86, R90, R91,
R92, R93, R94, R115, R121). -/
def Obligations.AlertPin : Prop :=
  (∀ s, s.alertLow = false → s.host.waitPar = true →
    exec .alertPulseStart s = .next { s with host := { s.host with waitPar := false, pulse := some .parity } })
  ∧ (∀ s, s.alertLow = false → s.host.waitPar = false → s.host.waitCrc = true →
    exec .alertPulseStart s = .next { s with host := { s.host with waitCrc := false, pulse := some .crc } })
  ∧ (∀ s, exec .alertPulseEnd s = .next { s with host := { s.host with pulse := none } })
  ∧ (∀ x s, s.pd3 = true → (s.sub x).owner = .host → ∃ t, exec (.yalert x) s = .next t
    ∧ t.sub x = { s.sub x with yalertCount := satAdd (s.sub x).yalertCount 1 }
    ∧ t = { s with subA := t.subA, subB := t.subB, evt := t.evt, pow := { s.pow with latched := t.pow.latched } }
    ∧ ∀ y, y ≠ x → t.sub y = s.sub y)
  ∧ (∀ x s, (s.sub x).owner ≠ .host → exec (.yalert x) s = .next s)
  ∧ (∀ x low s, s.pd3 = true → s.pow.on.getLsbD 5 = true → ∃ t, exec (.dbeReport x low) s = .next t
    ∧ t.host.cause = s.host.cause ||| BitVec.ofNat 4 (2 ^ (2 + subNo x))
    ∧ t.zlb.crcA = (if low < 5 ∧ x = .a then satAdd s.zlb.crcA 1 else s.zlb.crcA)
    ∧ t.zlb.crcB = (if low < 5 ∧ x = .b then satAdd s.zlb.crcB 1 else s.zlb.crcB)
    ∧ t.zlb.dbcA = (if 5 ≤ low ∧ x = .a then satAdd s.zlb.dbcA 1 else s.zlb.dbcA)
    ∧ t.zlb.dbcB = (if 5 ≤ low ∧ x = .b then satAdd s.zlb.dbcB 1 else s.zlb.dbcB)
    ∧ t.subA = s.subA ∧ t.subB = s.subB ∧ t.nv = s.nv ∧ t.nvs = s.nvs ∧ t.feat = s.feat ∧ t.clk = s.clk)
  ∧ ∀ p s, s.up = true → s.nvs.rescue = false → s.subA.owner = .stopped → ∃ t, exec (.stopRelease p 0x10) s = .next t
    ∧ t.subA = { s.subA with
                   owner := .host, gen := [(genDrive .srx (s.rankMask .a), 1)], drive := some (genDrive .srx (s.rankMask .a))
                   ranks := s.subA.ranks.map (fun r => if r = .absent then r else .active) }
    ∧ t = { s with subA := t.subA }

/-- Host commands are passed, dropped, discarded, intercepted or stop their subchannel (R80, R82, R83, R86, R87, R88,
R89, R90, R93). -/
def Obligations.HostCommands : Prop :=
  (∀ x c s, s.samples = true → c.kind ≠ .des → c.cs ≠ 0 → s.discards x = false → s.host.parEn = false →
    isWindow c = false → (s.sub x).owner = .host → c.kind ≠ .mrw → ∃ t, exec (.hostCommand x c) s = .next t
    ∧ t.sub x = { s.sub x with
        drive := some { kind := c.kind, ranks := c.cs, ca1 := c.ca1, ca2 := c.second.map (·.1)
                        cid := if s.fnOn .ranks3ds then c.cid else 0, mr := c.mr, op := c.op
                        delay := if s.host.latActive then 2 else 1 }
        ranks := passRanks c.kind c.cs (s.sub x).ranks
        hostDq := if c.kind = .mrr then some c.data else (s.sub x).hostDq }
    ∧ t = { s.setSub x (fun _ => t.sub x) with dbs := t.dbs }
    ∧ (c.kind ≠ .wr → c.kind ≠ .wrp → c.kind ≠ .rd → c.kind ≠ .mrr → t.dbs = s.dbs))
  ∧ (∀ x c s, s.samples = true → c.kind ≠ .des → c.cs ≠ 0 → s.discards x = false → s.host.parEn = false →
    isWindow c = false → (s.sub x).owner ≠ .host → ∃ t, exec (.hostCommand x c) s = .next t
    ∧ t.sub x = { s.sub x with drive := none, dropCount := satAdd (s.sub x).dropCount 1 }
    ∧ t = { s.setSub x (fun _ => t.sub x) with
              evt := t.evt, pow := { s.pow with latched := t.pow.latched } })
  ∧ (∀ x c s, s.samples = true → s.discards x = true ∨ c.kind = .des ∨ c.cs = 0 →
    exec (.hostCommand x c) s = .next (s.setSub x (fun t => { t with drive := none })))
  ∧ (∀ x c s, isWindow c = true → s.samples = true → s.host.parEn = false → s.discards x = false → c.cs ≠ 0 →
    c.mr ≠ 0xF6 → ∃ t, exec (.hostCommand x c) s = .next t ∧ (t.sub x).drive = none
    ∧ (t.sub x).dropCount = (s.sub x).dropCount)
  ∧ (∀ x c s, s.samples = true → c.kind ≠ .des → c.cs ≠ 0 → s.discards x = false → s.host.parEn = true →
    parityBad c.ca1 c.par1 = true → c.second = none → ∃ t, exec (.hostCommand x c) s = .next t
    ∧ (t.sub x).parCount = satAdd (s.sub x).parCount 1
    ∧ t.host.cause = s.host.cause ||| BitVec.ofNat 4 (2 ^ subNo x)
    ∧ (t.sub x).win = (s.sub x).win ∧ (t.sub x).shadow = (s.sub x).shadow ∧ (t.sub x).hostDq = (s.sub x).hostDq
    ∧ (if s.host.parStop = true ∧ (s.sub x).owner = .host then
        (t.sub x).owner = .stopped ∧ (t.sub x).gen = [(genDrive .preAb (s.rankMask x), 1), (genDrive .sre (s.rankMask x), 1)]
        ∧ t.alertLow = true ∧ t.host.waitPar = false ∧ t.host.waitCrc = false
        ∧ (t.sub x).ranks = (s.sub x).ranks.map (fun r => if r = .absent then r else .selfRefresh)
      else (t.sub x).owner = (s.sub x).owner ∧ (t.sub x).drive = none ∧ (t.sub x).ranks = (s.sub x).ranks
        ∧ (s.alertHeld = false → t.host.waitPar = true))
    ∧ t.nv = s.nv ∧ t.nvs = s.nvs ∧ t.dbs = s.dbs ∧ t.clk = s.clk)
  ∧ ∀ x c s, s.host.resetHigh = false → exec (.hostCommand x c) s = .next s

/-- The hub window stages, captures, applies and fetches (R95, R96, R97, R98, R101, R106, R107). -/
def Obligations.WindowMoves : Prop :=
  (∀ x high op s, s.samples = true → s.winOn x = true → (s.sub x).win.commits.length < 8 →
    ∃ t, exec (.windowAddressWrite x high op) s = .next t
    ∧ (t.sub x).win.addr = (if high then op ++ (s.sub x).win.addr.extractLsb' 0 8 else (s.sub x).win.addr.extractLsb' 8 8 ++ op)
    ∧ t = s.setSub x (fun u => { u with drive := none, win := { u.win with
        addr := (t.sub x).win.addr, rvalid := false, fetch := true, opened := true } }))
  ∧ (∀ x (i : Fin 3) op s, s.samples = true → s.winOn x = true → (s.sub x).win.commits.length < 8 →
    ∃ t, exec (.windowStageWrite x i op) s = .next t
    ∧ (∀ (k : Fin 4), (t.sub x).win.stage.extractLsb' (8 * k) 8
        = if k.val = i.val then op else (s.sub x).win.stage.extractLsb' (8 * k) 8)
    ∧ t = s.setSub x (fun u => { u with
        drive := none, win := { u.win with stage := (t.sub x).win.stage, opened := true } }))
  ∧ (∀ x op s, s.samples = true → s.winOn x = true → (s.sub x).win.commits.length < 8 →
    ∃ t, exec (.windowCommit x op) s = .next t
    ∧ (t.sub x).win.stage = op ++ (s.sub x).win.stage.extractLsb' 0 24
    ∧ t = s.setSub x (fun u => { u with drive := none, win := { u.win with
        stage := (t.sub x).win.stage, commits := u.win.commits ++ [(u.win.addr, (t.sub x).win.stage)], opened := false
        addr := if s.host.ainc then u.win.addr + 4 else u.win.addr, rvalid := u.win.rvalid && !s.host.ainc } }))
  ∧ (∀ x high (i : Fin 3) op s, s.samples = true → s.winOn x = false ∨ 8 ≤ (s.sub x).win.commits.length →
    exec (.windowAddressWrite x high op) s = .next (s.setSub x (fun u => { u with drive := none }))
    ∧ exec (.windowStageWrite x i op) s = .next (s.setSub x (fun u => { u with drive := none }))
    ∧ exec (.windowCommit x op) s = .next (s.setSub x (fun u => { u with drive := none }))
    ∧ exec (.windowAbort x op) s = .next (s.setSub x (fun u => { u with drive := none })))
  ∧ (∀ x high (i : Fin 3) op s, s.samples = false →
    exec (.windowAddressWrite x high op) s = .next s ∧ exec (.windowStageWrite x i op) s = .next s
    ∧ exec (.windowCommit x op) s = .next s ∧ exec (.windowAbort x op) s = .next s)
  ∧ (∀ x s, s.samples = true → s.winOn x = true → (s.sub x).win.commits.length < 8 → exec (.windowAbort x 1) s
    = .next (s.setSub x (fun u => { u with drive := none, win := { u.win with stage := 0, opened := false } })))
  ∧ (∀ x op s, s.samples = true → op ≠ 1 →
    exec (.windowAbort x op) s = .next (s.setSub x (fun u => { u with drive := none })))
  ∧ (∀ x a v r s, s.up = true → (s.sub x).win.commits = (a, v) :: r → ∃ u t,
    exec (.registerWrite (match x with | .a => .hubA | .b => .hubB) a v)
        (s.setSub x (fun u => { u with win := { u.win with commits := r } })) = .next u
    ∧ exec (.windowCommitApplied x) s = .next t
    ∧ t = u.setSub x (fun w => { w with win := { w.win with rvalid := false, fetch := true } }))
  ∧ ∀ x s, s.up = true → (s.sub x).win.fetch = true → ∃ t, exec (.windowFetchDone x) s = .next t
    ∧ (t.sub x).win = { (s.sub x).win with
        read := if s.clk.hckOk then s.hubRead (match x with | .a => .hubA | .b => .hubB) (s.sub x).win.addr
                else (s.sub x).win.read
        rvalid := s.clk.hckOk || (s.sub x).win.rvalid, fetch := false }
    ∧ t = { s with
              subA := t.subA, subB := t.subB, sels := t.sels, evt := t.evt, train := t.train, flt := t.flt, zlb := t.zlb
              cal := t.cal, con := t.con, pool := t.pool, wrn := t.wrn, free := t.free, pow := { s.pow with latched := t.pow.latched } }

/-- What the host reads through the hub window, and what passes to the DRAM (R33, R98, R99, R100, R102, R107). -/
def Obligations.WindowReads : Prop :=
  (∀ x (i : Fin 6) s, s.samples = true → s.winOn x = true → s.winUndefined x = false → ∃ t, exec (.windowRead x i) s = .next t
    ∧ (t.sub x).hostDq = some (if i.val < 2 then (s.sub x).win.addr.extractLsb' (8 * i) 8
        else (s.sub x).win.read.extractLsb' (8 * (i - 2)) 8)
    ∧ (t.sub x).win = (if i.val = 5 ∧ s.host.ainc = true then { (s.sub x).win with
        addr := (s.sub x).win.addr + 4, rvalid := false, fetch := true } else (s.sub x).win)
    ∧ t = { s.setSub x (fun u => { u with drive := none, win := (t.sub x).win, hostDq := (t.sub x).hostDq }) with
              dbs := t.dbs }
    ∧ ∀ n, (t.db n).taps = (s.db n).taps ∧ (t.db n).cfg = (s.db n).cfg ∧ (t.db n).hold = (s.db n).hold)
  ∧ (∀ x s, s.samples = true → s.winOn x = true → s.winUndefined x = false → ∃ t b, exec (.windowStatusRead x) s = .next t
    ∧ (t.sub x).hostDq = some b
    ∧ b.getLsbD 0 = (s.sub x).win.rvalid ∧ b.getLsbD 1 = !(s.sub x).win.commits.isEmpty
    ∧ b.getLsbD 2 = (s.host.resume.isSome || (s.sub x).grant.isSome)
    ∧ b.getLsbD 3 = decide ((s.sub x).owner = .granted) ∧ b.getLsbD 4 = decide ((s.sub x).owner = .host)
    ∧ b.getLsbD 5 = decide ((s.sub x).owner = .stopped) ∧ b.extractLsb' 6 2 = (s.sub x).win.result
    ∧ t = { s.setSub x (fun u => { u with drive := none, hostDq := some b }) with dbs := t.dbs })
  ∧ (∀ x (i : Fin 6) s, s.samples = true → s.winOn x = false → s.discards x = false → s.winUndefined x = false →
    ∃ t u, exec (.windowRead x i) s = .next t ∧ exec (.windowStatusRead x) s = .next u
    ∧ (t.sub x).hostDq = some 0 ∧ (t.sub x).win = (s.sub x).win ∧ (u.sub x).hostDq = some 0 ∧ (u.sub x).win = (s.sub x).win)
  ∧ (∀ x (i : Fin 6) s, s.samples = true → s.winOn x = true → s.winUndefined x = true → ¬(i.val = 5 ∧ s.host.ainc = true) →
    ∃ b, exec (.windowRead x i) s
      = .next { s.setSub x (fun u => { u with drive := none, hostDq := some b }) with free := s.free + 1 })
  ∧ (∀ x (rank : Fin 4) data s, s.samples = true → s.winOn x = true → (s.sub x).owner = .host →
    0xF0 ≤ (s.sub x).win.stage.toNat % 256 → (s.sub x).win.stage.toNat % 256 ≤ 0xF7 →
    ∃ t, exec (.passThroughRead x rank data) s = .next t ∧ t = { s.setSub x (fun u => { u with
        hostDq := some data
        drive := some { kind := .mrr, ranks := BitVec.ofNat 4 (2 ^ rank.val), ca1 := 0, ca2 := none, cid := 0
                        mr := u.win.stage.extractLsb' 0 8, op := 0, delay := if s.host.latActive then 2 else 1 } }) with dbs := t.dbs })
  ∧ (∀ x (rank : Fin 4) data s, s.samples = true → s.winOn x = true → (s.sub x).owner ≠ .host →
    ∃ b, exec (.passThroughRead x rank data) s
      = .next { s.setSub x (fun u => { u with drive := none, hostDq := some b }) with free := s.free + 1 })
  ∧ (∀ x (rank : Fin 4) s, s.samples = true → s.winOn x = true → (s.sub x).win.commits.length < 8 →
    (s.sub x).owner = .host → 0xF0 ≤ (s.sub x).win.stage.toNat % 256 → (s.sub x).win.stage.toNat % 256 ≤ 0xF7 →
    exec (.passWrite x rank) s = .next (s.setSub x (fun u => { u with
        drive := some { kind := .mrw, ranks := BitVec.ofNat 4 (2 ^ rank.val), ca1 := 0, ca2 := none, cid := 0
                        mr := u.win.stage.extractLsb' 0 8, op := u.win.stage.extractLsb' 8 8
                        delay := if s.host.latActive then 2 else 1 } })))
  ∧ ∀ x (rank : Fin 4) s, s.samples = true → (s.sub x).owner ≠ .host ∨ (s.sub x).win.stage.toNat % 256 < 0xF0
      ∨ 0xF7 < (s.sub x).win.stage.toNat % 256 →
    exec (.passWrite x rank) s = .next (s.setSub x (fun u => { u with drive := none }))

/-- Resume, the two grants, and their handback (R86, R100, R103, R104, R141, R160, R250, R265). -/
def Obligations.ResumeAndGrants : Prop :=
  (∀ x s, s.samples = true → s.winTakes x = true → s.fnActive .retain = true → s.retainPending = true → s.pow.keep = .wake →
    s.host.resume = none → s.feat.elapsed ≤ s.feat.limitMs → s.pow.straps.nodb = false →
    exec (.resume x) s = .next { s.setSub x (fun u => { u with drive := none }) with
      host := { s.host with resume := some x }
      train := { s.train with a := { s.train.a with phase := .polka }, b := { s.train.b with phase := .polka } } })
  ∧ (∀ x s, s.samples = true → s.host.resume.isSome = true ∨ s.settled = false ∨ s.feat.active.getLsbD 3 = false ∨ s.pow.image = false
      ∨ s.feat.limitMs < s.feat.elapsed → exec (.resume x) s = .next (s.setSub x (fun u => { u with drive := none })))
  ∧ (∀ x ecs s, s.samples = true → s.winTakes x = true → (s.sub x).owner = .host → s.host.resume = none → (s.sub x).grant = none →
    1 ≤ (s.sub x).win.stage.toNat % 256 → (s.sub x).win.stage.toNat % 256 ≤ 20 →
    ∃ t, exec (.maintGrant x ecs) s = .next t
    ∧ t.sub x = { s.sub x with
        owner := .granted, gen := [(genDrive .preAb (s.rankMask x), 1)]
        drive := some (genDrive .preAb (s.rankMask x))
        grant := some ⟨false, if s.pow.straps.nodb then [] else ecs, 0, (s.sub x).win.stage.toNat % 256,
          (t.repairBusy x).isSome || (t.tr x).unit.isSome || !(s.pow.straps.nodb || ecs.isEmpty)⟩ }
    ∧ t = { s.setSub x (fun _ => t.sub x) with
              trim := (s.trimLeave x).trim, flt := { s.flt with busyA := t.flt.busyA, busyB := t.flt.busyB }
              train := t.train, dbs := t.dbs }
    ∧ ((s.sub x).win.stage.toNat % 256 < 11 → t.flt = s.flt ∧ t.train = s.train ∧ t.dbs = s.dbs)
    ∧ ∀ y, y ≠ x → t.tr y = s.tr y ∧ t.repairBusy y = s.repairBusy y)
  ∧ (∀ x s, s.samples = true → s.winTakes x = true → (s.sub x).owner = .host → s.host.resume = none →
    (s.sub x).grant = none → 1 ≤ (s.sub x).win.stage.toNat % 256 → (s.sub x).win.stage.toNat % 256 ≤ 10 → s.fnActive .hoard = true →
    s.hrd.unfinished = true → s.hrd.lend = true → ∃ t, exec (.lendGrant x) s = .next t
    ∧ t.sub x = { s.sub x with
        owner := .granted, gen := [(genDrive .preAb (s.rankMask x), 1)]
        drive := some (genDrive .preAb (s.rankMask x))
        grant := some ⟨true, [], min 32 (4 * ((s.sub x).win.stage.toNat % 256) - 8), (s.sub x).win.stage.toNat % 256,
          (s.repairBusy x).isSome || (s.tr x).unit.isSome || decide (2 < (s.sub x).win.stage.toNat % 256)⟩ }
    ∧ t = { s.setSub x (fun _ => t.sub x) with trim := (s.trimLeave x).trim })
  ∧ (∀ x ecs s, s.samples = true → (s.sub x).owner ≠ .host ∨ s.cmdBusy x = true ∨ (s.sub x).win.stage.toNat % 256 = 0
      ∨ 20 < (s.sub x).win.stage.toNat % 256 →
    exec (.maintGrant x ecs) s = .next (s.setSub x (fun u => { u with drive := none }))
    ∧ exec (.lendGrant x) s = .next (s.setSub x (fun u => { u with drive := none })))
  ∧ (∀ x g s, (s.sub x).grant = some g → ∃ t, exec (.grantHandback x) s = .next t
    ∧ (t.sub x).owner = .host ∧ (t.sub x).grant = none ∧ (t.sub x).win = { (s.sub x).win with result := 1 }
    ∧ (t.sub x).gen = [(genDrive .refAb (s.rankMask x), s.grantRefs x g), (genDrive .preAb (s.rankMask x), 1)]
    ∧ (t.sub x).drive = some (genDrive .preAb (s.rankMask x)) ∧ (t.sub x).ranks = (s.sub x).ranks
    ∧ (t.tr x).unit = none ∧ t.repairBusy x = none ∧ (g.ecs = [] → ∀ i, i < 512 → t.res 0 i = s.res 0 i)
    ∧ (s.pow.straps.nodb = false → ∀ n ∈ subDbs x, s.reaches n = true → (t.db n).cfg = s.bufCfg x)
    ∧ t = { s with
              subA := t.subA, subB := t.subB, train := t.train, flt := t.flt, dbs := t.dbs, zlb := t.zlb, evt := t.evt
              cal := t.cal, con := t.con, pool := t.pool, wrn := t.wrn, free := t.free
              pow := { s.pow with latched := t.pow.latched } }
    ∧ ∀ y, y ≠ x → t.sub y = s.sub y ∧ t.tr y = s.tr y)
  ∧ ∀ x s, (s.sub x).grant = none → exec (.grantHandback x) s = .next s

/-- One suspect row per DRAM device (R262). -/
def Obligations.SuspectRow : Prop :=
  let next := fun (old : Option Suspect) (a : RowAddr) => match old with
    | some u => if u.at_ = a then some ⟨a, if u.count.toNat < 255 then u.count + 1 else 255⟩ else some ⟨a, 1⟩
    | none => some ⟨a, (1 : BitVec 8)⟩
  (∀ x s, s.samples = true → s.winTakes x = true → s.ceOk x (s.sub x).win.stage.toNat = true → s.fnOn .faultWindows = true →
    ∃ t, exec (.hostCeReport x) s = .next t
    ∧ let w := (s.sub x).win.stage
      let i := (((match x with | .a => 0 | .b => 1) * 4 + (w.extractLsb' 0 2).toNat) * 4 + (w.extractLsb' 2 2).toNat) * 10
                + (w.extractLsb' 27 4).toNat
      (t.res 0 i).suspect = next (s.res 0 i).suspect ⟨w.extractLsb' 4 3, w.extractLsb' 7 2, w.extractLsb' 9 18⟩
      ∧ (s.resPresent 0 i = true → (t.res 0 i).pend.toNat = min 255 ((s.res 0 i).pend.toNat + 1))
      ∧ (∀ c j, c * 512 + j ≠ i → t.res c j = s.res c j) ∧ t = { s.setSub x (fun u => { u with drive := none }) with flt := t.flt })
  ∧ ∀ x (g : Grant) (r : EcsRead) s, (s.sub x).grant = some g → g.ecs = [r] → (s.sub x).ecsBase = true →
    s.resPresent 0 r.res = true → (if r.res < 160 then Sub.a else .b) = x → sget 0 (s.sub x).ecs r.res < r.count →
    s.fnOn .faultWindows = true → ∃ t, exec (.grantHandback x) s = .next t
    ∧ (t.res 0 r.res).suspect = next (s.res 0 r.res).suspect ⟨r.bg, r.ba, r.row⟩
    ∧ (t.res 0 r.res).pend.toNat
        = min 255 ((s.res 0 r.res).pend.toNat + min 16 (r.count - sget 0 (s.sub x).ecs r.res))

/-- A DBC frame acts on the five buffers of its subchannel and on nothing else (R113, R114, R118, R119, R120). -/
def Obligations.DbcFrames : Prop :=
  let each := fun (x : Sub) (s t : State) (f : Nat → Db → Db) => t = { s with dbs := t.dbs }
    ∧ ∀ n, t.db n = if n < s.dbs.length ∧ n < 10 ∧ (if n < 5 then Sub.a else .b) = x then f n (s.db n) else s.db n
  ∀ x s, s.dbcOn = true →
    exec (.dbcNop x) s = .next s
    ∧ (∀ (rank : Fin 4) chk bad, ∃ t, exec (.dbcWr x rank chk bad) s = .next t ∧ each x s t (fun n d =>
        let miss := fun i : Nat => chk && d.cfg.getLsbD 15 && bad.getLsbD (2 * (n % 5) + i)
        if d.hold then d else { d with
          burst := some ⟨true, BitVec.ofNat 2 rank.val, chk, BitVec.ofBool (miss 1) ++ BitVec.ofBool (miss 0)⟩
          crc0 := if miss 0 then satAdd d.crc0 1 else d.crc0, crc1 := if miss 1 then satAdd d.crc1 1 else d.crc1
          dbe := if (miss 0 ∨ miss 1) ∧ d.dbe = none then some false else d.dbe
          dbeNext := if (miss 0 ∨ miss 1) ∧ d.dbe ≠ none then some (d.dbeNext == some true) else d.dbeNext }))
    ∧ (∀ (rank : Fin 4), ∃ t, exec (.dbcRd x rank) s = .next t ∧ each x s t (fun _ d =>
        if d.hold then d else { d with burst := some ⟨false, BitVec.ofNat 2 rank.val, false, 0⟩ }))
    ∧ (∀ nib, ∃ t, exec (.dbcWinLo x nib) s = .next t ∧ each x s t (fun _ d => { d with nibble := some nib }))
    ∧ (∀ nib, ∃ t, exec (.dbcWinHi x nib) s = .next t ∧ each x s t (fun _ d =>
        { d with dqOut := d.nibble.elim d.dqOut (fun lo => some (nib ++ lo)) }))
    ∧ (∀ (mode : Fin 4), ∃ t, exec (.dbcTrain x mode) s = .next t
        ∧ each x s t (fun _ d => { d with train := BitVec.ofNat 2 mode.val }))
    ∧ (∃ t, exec (.dbcHold x) s = .next t ∧ each x s t (fun _ d => { d with hold := true, burst := none }))
    ∧ (∃ t, exec (.dbcRelease x) s = .next t ∧ each x s t (fun _ d => { d with hold := false }))
    ∧ ∃ t, exec (.dbcHostReset x) s = .next t ∧ each x s t (fun _ d =>
        { d with
          nibble := none, train := 0, streaming := false, window := none, burst := none, dqOut := none })

/-- SAMPLE, trim steps and frame errors in the buffers (R118, R120, R122, R123, R176). -/
def Obligations.BufferSampling : Prop :=
  (∀ x (pos : Fin 5) drx s, s.dbcOn = true →
    ∃ t, exec (.dbcSample x pos drx) s = .next t ∧ t = { s with dbs := t.dbs }
    ∧ ∀ n, t.db n = if n < s.dbs.length ∧ n < 10 ∧ (if n < 5 then Sub.a else .b) = x
          ∧ (s.db n).pos.toNat % 5 = pos.val ∧ (s.db n).streaming = false ∧ (s.db n).train = 0
        then { s.db n with streaming := true, window := some (BitVec.ofNat 4 (pos.val + if drx then 8 else 0)) } else s.db n)
  ∧ (∀ (n : Fin 10) uis counts flips s, s.dbcOn = true → s.dbs.length = 10 → (s.db n).streaming = true →
    ∃ t, exec (.shadowWindowEnd n uis counts flips) s = .next t
    ∧ t.db n = { s.db n with
        streaming := false, window := none, dbr := dbrStream ((s.db n).window.getD 0) uis counts }
    ∧ (∀ m, m ≠ n.val → t.db m = s.db m) ∧ t = { s with dbs := t.dbs, trim := t.trim })
  ∧ (∀ x s, s.dbcOn = true → ∃ t, exec (.dbcTrimApply x) s = .next t ∧ t = { s with dbs := t.dbs }
    ∧ ∀ n, t.db n = if n < s.dbs.length ∧ n < 10 ∧ (if n < 5 then Sub.a else .b) = x
        then { s.db n with stageArmed := (s.db n).stagePend } else s.db n)
  ∧ (∀ (n : Fin 10) s, s.dbcOn = true → s.dbs.length = 10 → (s.db n).stageArmed = true → (s.db n).stagePend = true →
    ∃ t, exec (.trimStepApply n) s = .next t
    ∧ (let path := ((s.db n).stage.extractLsb' 0 4).toNat
       let entry := ((s.db n).stage.extractLsb' 4 4).toNat
       let old := s.dbTap n path entry
       let down := (s.db n).stage.getLsbD 9
       t.dbTap n path entry = (if (s.db n).stage.getLsbD 8
           then { old with vref := if down then BitVec.ofNat 7 (old.vref.toNat - 1) else BitVec.ofNat 7 (min 120 (old.vref.toNat + 1)) }
           else { old with tap := if down then BitVec.ofNat 7 (old.tap.toNat - 1) else BitVec.ofNat 7 (min 127 (old.tap.toNat + 1)) })
       ∧ ∀ p e, e < 16 → path * 16 + entry ≠ p * 16 + e → t.dbTap n p e = s.dbTap n p e)
    ∧ t.db n = { s.db n with taps := (t.db n).taps, stagePend := false, stageArmed := false }
    ∧ (∀ m, m ≠ n.val → t.db m = s.db m)
    ∧ t = { s with
              dbs := t.dbs, trim := t.trim, nvs := { s.nvs with pend := t.nvs.pend }
              train := { s.train with
                dbRefs := t.train.dbRefs, drifted := t.train.drifted, recPending := t.train.recPending
                recSource := t.train.recSource, recInvalid := t.train.recInvalid } })
  ∧ (∀ x seen first second s, s.dbcOn = true → first.getLsbD 4 = true → frameOk first second = false →
    ∃ t, exec (.dbcFrameError x seen first second) s = .next t ∧ t = { s with dbs := t.dbs }
    ∧ ∀ n, t.db n = if n < s.dbs.length ∧ n < 10 ∧ (if n < 5 then Sub.a else .b) = x ∧ seen.getLsbD (n % 5) = true
        then { s.db n with
          dbcErr := satAdd (s.db n).dbcErr 1, dbe := some ((s.db n).dbe.getD true)
          dbeNext := if (s.db n).dbe = none then (s.db n).dbeNext else some true } else s.db n)
  ∧ ∀ p v s, s.up = true → s.nvs.rescue = false → s.regOn .dbPresent = true → s.dbs.length = 10 →
    (s.sel p).dbm.toNat < 10 → s.reaches (s.sel p).dbm.toNat = true →
    let n := (s.sel p).dbm.toNat
    (v.toNat < 1024 → stageOk (s.db n) (s.dbTap n) v.toNat = true → ∃ t, exec (.dbdTrimStageWrite p v) s = .next t
      ∧ t.db n = { s.db n with stage := v.setWidth 10, stagePend := true, stageArmed := false }
      ∧ (∀ m, m ≠ n → t.db m = s.db m) ∧ t = { s with dbs := t.dbs, zlb := t.zlb })
    ∧ (stageOk (s.db n) (s.dbTap n) (v.toNat % 1024) = false → ∃ t, exec (.dbdTrimStageWrite p v) s = .next t
      ∧ t = { s with zlb := t.zlb })

/-- Temperature conversions, HOT and the status poll (R117). -/
def Obligations.BufferTemperature : Prop :=
  (∀ (n : Fin 10) (temp : Int) s, s.pow.on.getLsbD 5 = true → s.pow.straps.nodb = false → s.dbs.length = 10 →
    ∃ t, exec (.dbTempConversion n temp) s = .next t
    ∧ t.db n = { s.db n with
        temp := BitVec.ofInt 12 temp, tempValid := true
        hot := if (s.db n).tempHi.toInt ≤ temp then true
          else if temp ≤ (s.db n).tempHi.toInt - 20 then false else (s.db n).hot }
    ∧ (∀ m, m ≠ n.val → t.db m = s.db m) ∧ t = { s with dbs := t.dbs })
  ∧ ∀ s, s.up = true → s.pow.straps.nodb = false → s.pow.on.getLsbD 5 = true → (∀ n, n < 10 → s.reaches n = true) →
    (∀ n, n < 11 → s.calRun n = none) → ∃ t, exec .dbStatusPoll s = .next t
    ∧ (∀ n, n < 10 → t.zlb.hotSeen.getLsbD n = (s.db n).hot)
    ∧ (∀ n, n < 10 → (s.db n).temp.toInt ≤ t.zlb.tempMax.toInt)
    ∧ (∃ n, n < 10 ∧ t.zlb.tempDb.toNat = n ∧ t.zlb.tempMax = (s.db n).temp)
    ∧ t.zlb.retry = s.zlb.retry ∧ t.zlb.fail = s.zlb.fail ∧ t.dbs = s.dbs ∧ t.flt = s.flt ∧ t.nv = s.nv

/-- A target remembers the last request of each tag, and a matching RETRY is not executed again (R129). -/
def Obligations.RetryMemory : Prop :=
  let kept := fun (s : State) (n : Fin 11) (tag : Fin 32) => (s.tgt n).memo.find? (fun e => e.1 == tag.val)
  (∀ (n : Fin 11) (tag : Fin 32) word data s, s.pd2 = true → s.unreach n = false →
    s.zlbCredit n (BitVec.ofNat 5 tag) = true → s.tgtTakes n = true →
    (∃ t, exec (.zlbWrite n tag word data) s = .next t
      ∧ kept t n tag = some (tag.val, ⟨word, data, ⟨BitVec.ofNat 5 tag, word, 0⟩⟩))
    ∧ ∃ t v, exec (.zlbRead n tag word) s = .next t
      ∧ (t.tgt n).queue = (s.tgt n).queue ++ [⟨BitVec.ofNat 5 tag, word, v⟩]
      ∧ kept t n tag = some (tag.val, ⟨word, 0, ⟨BitVec.ofNat 5 tag, word, v⟩⟩))
  ∧ (∀ (n : Fin 11) write (tag : Fin 32) word (data : Word) resp s, s.tgtTakes n = true →
    kept s n tag = some (tag.val, ⟨word, if write then data else 0, resp⟩) →
    exec (.zlbRetry n write tag word data) s
      = .next (s.setTgt n (fun z => { zDrive z with queue := z.queue ++ [resp] })))
  ∧ ∀ (n : Fin 11) write (tag : Fin 32) word (data : Word) s, s.tgtTakes n = true → s.unreach n = false →
    (∀ resp, kept s n tag ≠ some (tag.val, ⟨word, if write then data else 0, resp⟩)) → ∃ t u,
    exec (.zlbRetry n write tag word data) s = .next t
    ∧ exec (if write then .zlbWrite n tag word data else .zlbRead n tag word) { s with zlb := { s.zlb with out := [] } }
        = .next u
    ∧ t.dbs = u.dbs ∧ t.zxp = u.zxp ∧ t.zlb.targets = u.zlb.targets ∧ t.train = u.train ∧ t.evt = u.evt

/-- A request on the local bus is counted outstanding and executed by its target (R124, R128, R130, R135). -/
def Obligations.BusRequests : Prop :=
  (∀ (n : Fin 11) (tag : Fin 32) word data s, s.pd2 = true → s.unreach n = false →
    s.zlbCredit n (BitVec.ofNat 5 tag) = true → s.tgtTakes n = true →
    (∃ t, exec (.zlbRead n tag word) s = .next t
      ∧ t.zlb.out = s.zlb.out ++ [⟨n, BitVec.ofNat 5 tag, false, word, 0, 0⟩]
      ∧ (t.tgt n).queue = (s.tgt n).queue ++ [⟨BitVec.ofNat 5 tag, word, ((tgtReg n (4 * word.toNat) s).map (·.read)).getD 0⟩]
      ∧ (∀ m, m ≠ n.val → t.tgt m = s.tgt m) ∧ s.zlb.out.length < t.zlb.high.toNat + 1
      ∧ t = { s with zlb := t.zlb })
    ∧ ∃ t, exec (.zlbWrite n tag word data) s = .next t
      ∧ t.zlb.out = s.zlb.out ++ [⟨n, BitVec.ofNat 5 tag, true, word, data, 0⟩]
      ∧ (t.tgt n).queue = (s.tgt n).queue ++ [⟨BitVec.ofNat 5 tag, word, 0⟩]
      ∧ (∀ m, m ≠ n.val → t.tgt m = s.tgt m ∧ t.db m = s.db m) ∧ (n.val < 10 → t.zxp = s.zxp))
  ∧ (∀ (n : Fin 10) (tag : Fin 32) data s, s.pd2 = true → s.unreach n = false → s.dbs.length = 10 →
    s.zlbCredit n (BitVec.ofNat 5 tag) = true → s.tgtTakes n = true →
    ∃ t, exec (.zlbWrite (n.castLE (by decide)) tag 3 data) s = .next t
    ∧ t.db n = { s.db n with cfg := if data &&& 0xFFFE0080 = 0 then data else (s.db n).cfg })
  ∧ (∀ (n : Fin 11) (tag : Fin 32) word data s, s.pd2 = true → s.unreach n = false →
    s.zlbCredit n (BitVec.ofNat 5 tag) = false → ∃ t, exec (.zlbWrite n tag word data) s = .next t
    ∧ t.zlb = { s.zlb with waiting := s.zlb.waiting ++ [⟨n, BitVec.ofNat 5 tag, true, word, data, 0⟩] }
    ∧ t = { s with zlb := t.zlb, wrn := { s.wrn with cores := t.wrn.cores } })
  ∧ ∀ (n : Fin 11) (tag : Fin 32) word data s, s.unreach n = true →
    exec (.zlbWrite n tag word data) s = .next s ∧ exec (.zlbRead n tag word) s = .next s

/-- Fetching, discarding, completing and failing on the local bus (R125, R126, R127, R131). -/
def Obligations.BusResponses : Prop :=
  (∀ (n : Fin 11) r q s, s.tgtOn n = true → (s.tgt n).queue = r :: q →
    exec (.zlbFetch n) s = .next (s.setTgt n (fun z => { zDrive z with queue := q, last := some r }))
    ∧ (s.tgtOut n ≠ 0 → exec (.zlbFetchTick n true) s = exec (.zlbFetch n) s))
  ∧ (∀ (n : Fin 11) r s, s.tgtOn n = true → (s.tgt n).last = some r →
    exec (.zlbRefetch n) s = .next (s.setTgt n (fun z => { zDrive z with queue := r :: z.queue, last := none }))
    ∧ (s.tgtOut n ≠ 0 → exec (.zlbFetchTick n false) s = exec (.zlbRefetch n) s))
  ∧ (∀ (n : Fin 11) ok s, s.tgtOut n = 0 → exec (.zlbFetchTick n ok) s = .next s)
  ∧ (∀ (n : Fin 11) header data s, frameGood 64 header data = true →
    ((header.extractLsb' 28 3).toNat = 3 → exec (.zlbFrameDiscard n 64 header data) s = exec (.zlbFetch n) s)
    ∧ ((header.extractLsb' 28 3).toNat = 4 → exec (.zlbFrameDiscard n 64 header data) s = exec (.zlbRefetch n) s))
  ∧ (∀ (n : Fin 11) edges header data s, s.tgtOn n = true → edges ≠ 64 →
    exec (.zlbFrameDiscard n edges header data) s
      = .next (s.setTgt n (fun z => { zDrive z with errEdge := satAdd z.errEdge 1 })))
  ∧ (∀ (n : Fin 11) header data s, s.tgtOn n = true →
    frameCrc header data ≠ header.extractLsb' 0 8 ∨ (header.extractLsb' 28 3).toNat = 0 ∨ 4 < (header.extractLsb' 28 3).toNat →
    exec (.zlbFrameDiscard n 64 header data) s = .next (s.setTgt n (fun z => { zDrive z with errCrc := satAdd z.errCrc 1 })))
  ∧ (∀ (n : Fin 11) (tag : Fin 32) data r s, (s.tgt n).last = some r → r.tag = BitVec.ofNat 5 tag → r.data = data →
    ∃ t, exec (.zlbResponse n tag data) s = .next t
    ∧ (∀ q ∈ t.zlb.out, q ∈ s.zlb.waiting ∨ (q ∈ s.zlb.out ∧ ¬(q.tgt = n.val ∧ q.tag = BitVec.ofNat 5 tag)))
    ∧ (s.zlb.waiting = [] → t = { s with
      zlb := { s.zlb with out := s.zlb.out.filter (fun q => !(q.tgt == n.val && q.tag == BitVec.ofNat 5 tag)) } }))
  ∧ ∀ (n : Fin 11) (tag : Fin 32) write word data k s,
    s.zlb.out = [⟨n, BitVec.ofNat 5 tag, write, word, data, k⟩] → s.zlb.waiting = [] →
    ∃ t, exec (.zlbAttemptTimeout n tag) s = .next t
    ∧ (k < 3 → t.zlb.out = [⟨n, BitVec.ofNat 5 tag, write, word, data, k + 1⟩] ∧ t.zlb.retry = satAdd s.zlb.retry 1
        ∧ t.zlb.fail = s.zlb.fail ∧ t.zlb.unreach = s.zlb.unreach)
    ∧ (3 ≤ k → t.zlb.out = [] ∧ t.zlb.retry = s.zlb.retry ∧ t.zlb.fail = satAdd s.zlb.fail 1
        ∧ t.zlb.unreach = s.zlb.unreach ||| BitVec.ofNat 11 (2 ^ n.val))
    ∧ (k < 3 → s.tgtTakes n = true → (t.tgt n).queue.length = (s.tgt n).queue.length + 1)
    ∧ ((s.tgt n).alive = false ∨ 3 ≤ k → t.zlb.targets = s.zlb.targets
      ∧ t = { s with
                zlb := t.zlb, flt := t.flt, evt := t.evt, cal := t.cal, con := t.con, pool := t.pool, wrn := t.wrn
                free := t.free, pow := { s.pow with latched := t.pow.latched } })

/-- Initialization starts, and leads to Polka, Reel or the host (R139, R140, R141, R142, R146). -/
def Obligations.TrainingInit : Prop :=
  (∀ x s, s.up = true → s.trains = true → (s.tr x).phase = .wait → s.host.resetHigh = true → s.clk.hckOk = true →
    ∃ t, exec (.trainingInit x) s = .next t
    ∧ t.host = { s.host with yrst := true } ∧ (t.tr x).phase = .init ∧ (t.tr x).rankFail = 0 ∧ (t.tr x).want = 0
    ∧ (t.tr x).skip = false ∧ (t.tr x).reelDone = false
    ∧ (t.tr x).replayed = ((s.tr x).replayed && rateNear s.clk.hckMhz.toNat s.train.trainedRate.toNat)
    ∧ t.sub x = { s.sub x with
        ranks := (List.range 4).map (fun k => if (s.drmCfg x).getLsbD k then .active else .absent) }
    ∧ (∀ y, y ≠ x → t.sub y = s.sub y ∧ t.tr y = s.tr y) ∧ t.nv = s.nv ∧ t.pow = s.pow ∧ t.clk = s.clk)
  ∧ (∀ x s, s.up = true → s.trains = true → (s.tr x).phase = .init → s.host.resetHigh = true → s.clk.hckOk = true →
    s.pow.straps.nodb = false → ∃ t, exec (.trainingInitDone x) s = .next t
    ∧ (t.tr x).phase = (if (s.tr x).replayed then .polka else .reel)
    ∧ t.train.path = (if (s.tr x).replayed = true ∨ s.train.path = 4 ∨ s.train.path = 5 then s.train.path else 2)
    ∧ (t.sub x).owner = (s.sub x).owner ∧ (t.sub x).shadow.length = 4
    ∧ (∀ y, y ≠ x → t.sub y = s.sub y ∧ t.tr y = s.tr y)
    ∧ t = { s with
              host := { s.host with yrst := true, yrstMs := 0 }, subA := t.subA, subB := t.subB, train := t.train
              free := t.free, dbs := t.dbs })
  ∧ (∀ x s, s.up = true → s.trains = true → (s.tr x).phase = .init → s.host.resetHigh = true → s.clk.hckOk = true →
    s.pow.straps.nodb = true → s.restoreHolds = false → (s.sub x).owner = .notReady →
    ∃ t, exec (.trainingInitDone x) s = .next t
    ∧ (t.tr x).phase = .done ∧ t.train.path = 6 ∧ (t.sub x).owner = .host)
  ∧ ∀ x s, ((s.tr x).phase ≠ .wait ∨ s.host.resetHigh = false → exec (.trainingInit x) s = .next s)
    ∧ ((s.tr x).phase ≠ .init ∨ s.host.resetHigh = false → exec (.trainingInitDone x) s = .next s)

/-- What follows a Polka that passes or fails (R103, R142, R150, R151). -/
def Obligations.PolkaEnds : Prop :=
  ∀ x dies s, s.up = true → s.pow.dom ≠ .save → (s.tr x).phase = .polka → s.trains = true →
    ((s.polkaJudge x dies).1 = 0 → s.host.resume = none → s.restoreHolds = false → (s.sub x).owner = .notReady →
      ∃ t, exec (.polkaDone x dies) s = .next t
      ∧ (t.tr x).phase = .done ∧ (t.sub x).owner = .host
      ∧ t.train.pairs = satAdd s.train.pairs (s.polkaJudge x dies).2
      ∧ t.train.path = (if s.train.path = 2 ∨ s.train.path = 4 ∨ s.train.path = 5 then s.train.path else 1)
      ∧ (t.sub x).ranks = (s.sub x).ranks.map (fun r => if r = .absent then r else .active)
      ∧ (∀ y, y ≠ x → t.sub y = s.sub y ∧ t.tr y = s.tr y) ∧ t.pow.dom = s.pow.dom ∧ t.nv = s.nv)
    ∧ ((s.polkaJudge x dies).1 = 0 → s.host.resume = none → s.restoreHolds = true →
      ∃ t, exec (.polkaDone x dies) s = .next t
      ∧ (t.tr x).phase = .done ∧ (t.sub x).owner = (s.sub x).owner
      ∧ (match x with | .a => t.hrd.readyHeldA | .b => t.hrd.readyHeldB) = true)
    ∧ (∀ w, (s.polkaJudge x dies).1 = 0 → s.host.resume = some w → ∃ t, exec (.polkaDone x dies) s = .next t
      ∧ (t.tr x).phase = .done ∧ t.train.path = 3
      ∧ (∀ y, y ≠ x → (s.tr y).phase ≠ .done → t.host.resume = some w ∧ t.pow = s.pow ∧ t.tr y = s.tr y)
      ∧ (∀ y, y ≠ x → (s.tr y).phase = .done → t.host.resume = none ∧ t.pow.image = false ∧ (t.sub w).win.result = 1
          ∧ (s.pow.keep = .wake → t.pow.keep = .normal ∧ t.pow.dom = .run ∧ t.pow.lastEnd = 1)))
    ∧ ((s.polkaJudge x dies).1 ≠ 0 → s.host.resume = none → ∃ t, exec (.polkaDone x dies) s = .next t
      ∧ (t.tr x).phase = .reel ∧ t.train.path = 4 ∧ t.train.coldCause = 7 ∧ (t.tr x).replayed = false
      ∧ (t.tr x).ca = caReset ∧ (∀ n, n < 10 → (if n < 5 then Sub.a else .b) = x → (t.db n).taps = (if n < s.dbs.length then [] else (s.db n).taps))
      ∧ t.subA = s.subA ∧ t.subB = s.subB
      ∧ t.train.pairs = satAdd s.train.pairs (s.polkaJudge x dies).2 ∧ t.nv = s.nv)
    ∧ ∀ w, (s.polkaJudge x dies).1 ≠ 0 → s.host.resume = some w → ∃ t, exec (.polkaDone x dies) s = .next t
      ∧ t.host.resume = none ∧ t.pow.image = false ∧ t.host.yrst = false ∧ t.host.yrstMs = 1 ∧ t.train.path = 5 ∧ t.train.coldCause = 7
      ∧ t.train.a.phase = .init ∧ t.train.b.phase = .init ∧ (t.sub w).win.result = 2
      ∧ (s.pow.keep = .wake → t.pow.keep = .normal ∧ t.pow.dom = .run ∧ t.pow.lastEnd = 5)

/-- Reel, Gavotte and Minuet follow each other over the ranks that have not failed (R136, R142, R143, R147). -/
def Obligations.QuadrilleSteps : Prop :=
  (∀ x failed s, s.up = true → s.trains = true → ((s.tr x).phase = .reel ∨ (s.tr x).phase = .gavotte ∨ (s.tr x).phase = .minuet) →
    ∃ t, exec (.quadrilleStepDone x failed) s = .next t
    ∧ (t.tr x).rankFail = (s.tr x).rankFail ||| (failed &&& BitVec.ofNat 4 (s.goodRanks x))
    ∧ (t.goodRanks x = 0 → (t.tr x).phase = .fail ∧ (t.sub x).owner = (s.sub x).owner)
    ∧ (t.goodRanks x ≠ 0 → (s.tr x).phase = .reel → (t.tr x).phase = .gavotte)
    ∧ (t.goodRanks x ≠ 0 → (s.tr x).phase = .gavotte → (t.tr x).phase = .minuet)
    ∧ (t.goodRanks x ≠ 0 → (s.tr x).phase = .minuet → (t.tr x).phase = .done ∧ t.train.recPending = true
        ∧ t.train.recSource = 1 ∧ t.train.trainedRate = s.clk.hckMhz ∧ t.nvs.pend.contains 5 = true
        ∧ (s.restoreHolds = false → (s.sub x).owner = .notReady → (t.sub x).owner = .host))
    ∧ (∀ y, y ≠ x → t.sub y = s.sub y ∧ t.tr y = s.tr y) ∧ t.nv = s.nv ∧ t.pow.dom = s.pow.dom)
  ∧ ∀ x failed s, (s.tr x).phase ≠ .reel → (s.tr x).phase ≠ .gavotte → (s.tr x).phase ≠ .minuet →
    exec (.quadrilleStepDone x failed) s = .next s

/-- Reel-H, the HRX settle, and the units run inside a grant (R137, R153, R160, R161, R265). -/
def Obligations.ReceiversAndUnits : Prop :=
  (∀ x es s, s.up = true → s.trains = true → s.clk.hckOk = true → (s.tr x).reelDone = false →
    (s.sub x).owner = .notReady →
    (exec (.reelHEnd x false es) s = .next (s.setTr x (fun u => { u with reelDone := true, skip := true })))
    ∧ (es.length = 19 → ∃ t, exec (.reelHEnd x true es) s = .next t
      ∧ (t.tr x).reelDone = true ∧ (t.tr x).skip = false ∧ (t.tr x).ca.length = 19 ∧ (t.tr x).caRef = (t.tr x).ca
      ∧ (∀ i, i < 15 → ((t.tr x).ca[i]?).map (fun c => (c.tap, c.vref))
          = (es[i]?).map (fun e => (BitVec.ofNat 7 e.tap, BitVec.ofNat 7 e.vref)))
      ∧ t = { s with train := t.train, free := t.free, trim := { s.trim with limit := t.trim.limit } } ∧ ∀ y, y ≠ x → t.tr y = s.tr y))
  ∧ (∀ p s, s.up = true → s.nvs.rescue = false → s.regOn .dbPresent = true → s.subA.owner = .host →
    s.train.a.settleGo = false → s.train.b.settleGo = false → exec (.hsettleStart p 1) s = .next { s with
      train := { s.train with a := { s.train.a with settleGo := true, settleDone := false, settleFail := false } } })
  ∧ (∀ x edges es s, s.up = true → (s.tr x).settleGo = true → ∃ t, exec (.hsettleEnd x edges es) s = .next t
    ∧ t.tr x = { s.tr x with settleGo := false, settleDone := edges, settleFail := !edges }
    ∧ (edges = false → t.dbs = s.dbs ∧ t.train.dbRefs = s.train.dbRefs)
    ∧ (∀ n, (if n < 5 then Sub.a else .b) ≠ x → t.db n = s.db n)
    ∧ (∀ y, y ≠ x → t.tr y = s.tr y) ∧ t.nv = s.nv ∧ t.subA = s.subA ∧ t.subB = s.subB)
  ∧ (∀ x (rank : Fin 4) changed lane s, s.up = true → (s.tr x).unit = some rank →
    (∃ t, exec (.maintUnitDone x rank true changed lane) s = .next t
      ∧ (t.tr x).phase = .done ∧ (t.tr x).unit = none ∧ (t.tr x).want = (s.tr x).want &&& ~~~(BitVec.ofNat 4 (2 ^ rank.val))
      ∧ (changed = true → t.train.recPending = true ∧ t.train.recSource = 2 ∧ t.nvs.pend.contains 5 = true)
      ∧ (changed = false → (∀ n p e, t.dbTap n p e = s.dbTap n p e) ∧ t.nvs = s.nvs) ∧ t.subA = s.subA ∧ t.subB = s.subB)
    ∧ ∃ t, exec (.maintUnitDone x rank false changed lane) s = .next t
      ∧ t.tr x = { s.tr x with phase := .done, unit := none, row := (t.tr x).row } ∧ t.nvs = s.nvs
      ∧ ∀ n p e, t.dbTap n p e = s.dbTap n p e)
  ∧ (∀ x (rank : Fin 4) pass changed lane s, (s.tr x).unit ≠ some rank →
    exec (.maintUnitDone x rank pass changed lane) s = .next s)
  ∧ ∀ x e pass s, s.up = true → s.repairBusy x = some e → e < s.flt.repairs.length →
    ∃ t, exec (.repairUnitDone x pass) s = .next t ∧ t.repairBusy x = none
    ∧ (nth t.flt.repairs e Repair.none) = (let r := nth s.flt.repairs e Repair.none
        if r.status = .empty then r else if pass then { r with status := .applied, applied := satAdd r.applied 1 } else { r with status := .failed })
    ∧ t.flt.lastFail = (if pass = true ∨ (nth s.flt.repairs e Repair.none).status = .empty then s.flt.lastFail else 1)
    ∧ (∀ m, m ≠ e → nth t.flt.repairs m Repair.none = nth s.flt.repairs m Repair.none) ∧ t.flt.res = s.flt.res
    ∧ t.nv = s.nv ∧ (∀ n p i, t.dbTap n p i = s.dbTap n p i) ∧ t.subA = s.subA ∧ t.subB = s.subB

/-- Storing and invalidating the warm record, and the host blob (R147, R148, R162). -/
def Obligations.WarmRecordCommands : Prop :=
  ∀ p s, s.up = true → s.nvs.rescue = false → s.regOn .warmBoot = true →
    (∃ t, exec (.recSave p) s = .next t ∧ t.nvs.pend.contains 5 = true
      ∧ t = { s with
                train := { s.train with recPending := true, recSource := 3, recInvalid := false }
                nvs := { s.nvs with pend := t.nvs.pend } })
    ∧ (∃ t, exec (.recInvalidate p) s = .next t ∧ t.nvs.pend.contains 5 = true
      ∧ t = { s with
                train := { s.train with recPending := true, recInvalid := true }
                nvs := { s.nvs with pend := t.nvs.pend } })
    ∧ (∀ v, s.sels.length = 6 → ∃ t, exec (.hblobDataAccess p (some v)) s = .next t
      ∧ sget 0 t.train.blob (s.sel p).hblob.toNat = v ∧ t.sel p = { s.sel p with hblob := (s.sel p).hblob + 1 }
      ∧ (∀ k, k ≠ (s.sel p).hblob.toNat → sget 0 t.train.blob k = sget 0 s.train.blob k)
      ∧ (∀ q, q ≠ p → t.sel q = s.sel q)
      ∧ (if sget 0 s.train.blob (s.sel p).hblob.toNat = v
          then t = { s with train := { s.train with blob := t.train.blob }, sels := t.sels }
          else t.nvs.pend.contains 5 = true ∧ t = { s with
            train := { s.train with
              blob := t.train.blob, recPending := true, recInvalid := false
              recSource := if s.train.recSource = 0 then 3 else s.train.recSource }
            sels := t.sels, nvs := { s.nvs with pend := t.nvs.pend } }))
    ∧ ∃ t, exec (.hblobDataAccess p none) s = .next t
      ∧ t = s.setSel p (fun q => { q with hblob := q.hblob + 1 })

/-- A calibration command holds its unit's outputs and starts its run (R163, R164, R166, R168, R170, R171). -/
def Obligations.CalibrationStarts : Prop :=
  let starts := fun (s t : State) (u kind : Nat) (todo next : List Nat) (com nextCmd : Bool) =>
    (∃ r, t.calRun u = some r ∧ r.kind = kind ∧ r.todo = todo ∧ r.next = next ∧ r.commanded = com ∧ r.nextCmd = nextCmd
      ∧ r.rejected = false ∧ r.shadow = none
      ∧ r.holdUnit = s.calUnit u ∧ r.holdCaA = s.train.a.ca ∧ r.holdCaB = s.train.b.ca)
    ∧ (∀ m, m ≠ u → t.calRun m = s.calRun m) ∧ t = { s with cal := { s.cal with runs := t.cal.runs } }
  (∀ p (unit : BitVec 4) s, s.up = true → s.nvs.rescue = false → (s.pow.dom = .run ∨ s.pow.dom = .restore) →
    s.cal.runs.length = 12 → s.calRun unit.toNat = none →
    (unit = 0 ∨ (unit.toNat ≤ 10 ∧ s.regOn .dbPresent = true ∧ s.fnOn .dbPresent = true ∧ s.reaches (unit.toNat - 1) = true)) →
    (s.clk.hckOk = true → ∃ t, exec (.calTap p unit) s = .next t ∧ starts s t unit.toNat 1 [] [] true false)
    ∧ (∃ t, exec (.calVref p unit) s = .next t ∧ starts s t unit.toNat 2 (rxsOf unit.toNat) [] true false)
    ∧ (s.clk.hckOk = true → ∃ t, exec (.calTapThenVref p unit) s = .next t
      ∧ starts s t unit.toNat 1 [] (rxsOf unit.toNat) true true)
    ∧ (s.clk.hckOk = false → s.cal.defer = [] → exec (.calTap p unit) s = .next { s with
        cal := { s.cal with defer := [⟨unit.toNat, [], true, false⟩] } }))
  ∧ (∀ (u : Fin 11) s, s.up = true → (s.pow.dom = .run ∨ s.pow.dom = .restore) → s.cal.runs.length = 12 →
    s.calRun u = none → s.clk.hckOk = true → s.cal.cfg.extractLsb' 0 11 ≠ 0 →
    (u = 0 ∨ (s.fnOn .dbPresent = true ∧ s.reaches (u - 1) = true)) →
    ∃ t, exec (.calPeriodExpiry u) s = .next t ∧ starts s t u 1 [] (rxsOf u) false false)
  ∧ (∀ p (unit : BitVec 4) s, s.pow.dom ≠ .run → s.pow.dom ≠ .restore → exec (.calTap p unit) s = .next s
    ∧ exec (.calVref p unit) s = .next s ∧ exec (.calTapThenVref p unit) s = .next s)
  ∧ ∀ p s, s.up = true → s.nvs.rescue = false → s.regOn .calAdc = true → s.cal.adcMv ≠ 0 →
    (s.pow.dom = .run ∨ s.pow.dom = .attended) → s.cal.runs.length = 12 → s.calRun 11 = none → s.reaches 10 = true →
    ∃ t, exec (.calAdc p) s = .next t ∧ (∃ r, t.calRun 11 = some r ∧ r.kind = 4 ∧ r.commanded = true)
    ∧ t.zxp = { s.zxp with held := some s.zxp.chans } ∧ t.cal.adcLatched = s.cal.adcMv ∧ t.cal.body = s.cal.body
    ∧ t.cal.adcRun = AdcRun.fresh ∧ t = { s with cal := t.cal, zxp := t.zxp }

/-- Calibration results are accepted, rejected or abandoned (R164, R166, R167, R168, R169, R172). -/
def Obligations.CalibrationEnds : Prop :=
  (∀ (u : Fin 11) a b c d r s, s.up = true → s.calRun u = some r → r.kind = 1 → r.next = [] →
    (u = 0 ∨ s.reaches (u - 1) = true) →
    s.cal.runs.length = 12 → s.cal.body.units.length = 11 → ∃ t, exec (.calTapDone u a b c d) s = .next t
    ∧ t.calRun u = none
    ∧ (tapOk s.clk.hckMhz.toNat (tphFrac a b) (tphFrac c d) = true →
        let num := 16000000 * (64 * (b - a) * (c * d) + 64 * (d - c) * (a * b))
        let den := 2 * s.clk.hckMhz.toNat * (a * b) * (c * d)
        t.cal.body.count = satAdd s.cal.body.count 1 ∧ t.cal.body.reject = s.cal.body.reject
        ∧ (t.calUnit u).tapLife = s.clk.life
        ∧ den * (t.calUnit u).size.toNat < num + den ∧ num < den * (t.calUnit u).size.toNat + den
        ∧ (t.calUnit u).comps = (s.calUnit u).comps)
    ∧ (tapOk s.clk.hckMhz.toNat (tphFrac a b) (tphFrac c d) = false →
        t.cal.body.units = s.cal.body.units ∧ t.cal.body.reject = satAdd s.cal.body.reject 1
        ∧ t.cal.body.count = s.cal.body.count)
    ∧ t.cal.body.last.extractLsb' 0 8 = BitVec.ofNat 8 (1 + 16 * u.val)
    ∧ t.dbs = s.dbs ∧ t.zxp = s.zxp ∧ t.nv = s.nv ∧ t.pow.dom = s.pow.dom)
  ∧ (∀ (u : Fin 11) (rx : Fin 38) r s, s.up = true → s.calRun u = some r → r.kind = 2 → r.todo.head? = some rx.val →
    s.swapOf u rx = 0 → s.cal.body.units.length = 11 →
    (∀ v, r.shadow = some v → ∃ t, exec (.vrefSwap u rx) s = .next t ∧ t.swapOf u rx = 1
      ∧ sget (0, 0) (t.calUnit u).comps (rx * 2 + 1) = v.getD (sget (0, 0) (s.calUnit u).comps (rx * 2 + 1))
      ∧ t = { s with cal := { s.cal with swaps := t.cal.swaps, body := { s.cal.body with units := t.cal.body.units } }
                     nvs := { s.nvs with pend := t.nvs.pend } })
    ∧ (r.shadow = none → exec (.vrefSwap u rx) s = .next s ∧ exec (.vrefSwapTimeout u rx) s = .next s)
    ∧ (r.shadow ≠ none → 1 < r.todo.length → exec (.vrefSwapTimeout u rx) s = .next { s with
        cal := { s.cal with
          body := { s.cal.body with abandon := satAdd s.cal.body.abandon 1 }
          runs := upd s.cal.runs u (fun _ => some { r with todo := r.todo.drop 1, shadow := none, mainDone := false }) } }))
  ∧ (∀ (u : Fin 11) (rx : Fin 38) shadow (lo hi lo' hi' : Nat) r s, s.up = true → s.calRun u = some r → r.kind = 2 →
    r.todo.head? = some rx.val → s.swapOf u rx = (if shadow then 0 else 1) → (shadow = true → r.shadow = none) →
    (u = 0 ∨ s.reaches (u - 1) = true) → s.cal.body.units.length = 11 → s.cal.runs.length = 12 →
    ∃ t, exec (.calVrefDone u rx shadow lo hi lo' hi') s = .next t
    ∧ (tripsAgree (lo, hi) (lo', hi') = true → shadow = true →
      t.calRun u = some { r with shadow := some (some (s.trims (lo, hi) (lo', hi'))) } ∧ t.cal.body = s.cal.body)
    ∧ (tripsAgree (lo, hi) (lo', hi') = true → shadow = false →
      t.calRun u = some { r with mainDone := true } ∧ (t.calUnit u).size = (s.calUnit u).size
      ∧ sget (0, 0) (t.calUnit u).comps (rx * 2) = s.trims (lo, hi) (lo', hi'))
    ∧ (tripsAgree (lo, hi) (lo', hi') = false → t.cal.body = s.cal.body ∧ t.calRun u = some (if shadow
        then { r with rejected := true, shadow := some none } else { r with rejected := true, mainDone := true }))
    ∧ t.swapOf u rx = (if shadow then 0 else 2) ∧ t.free = s.free + 3
    ∧ t = { s with cal := t.cal, free := t.free, nvs := { s.nvs with pend := t.nvs.pend } })
  ∧ (∀ r s, s.up = true → s.calRun 11 = some r → s.cal.runs.length = 12 → s.reaches 10 = true →
    256 ≤ s.cal.adcRun.count →
    let sum := fun (i : Nat) => nth s.cal.adcRun.sums i 0
    let mv := s.cal.adcLatched.toNat
    let gain := gainOk 20 mv (sum 0) (sum 2) && gainOk 80 mv (sum 1) (sum 3)
    let offset := offsetOk 20 (sum 2) && offsetOk 80 (sum 3)
    ∃ t, exec .calAdcDone s = .next t ∧ t.calRun 11 = none ∧ t.cal.body.units = s.cal.body.units
    ∧ (s.cal.adcRun.flagged = true ∨ gain = false ∨ offset = false →
      t.zxp = { s.zxp with held := none } ∧ t.cal.body.adc = s.cal.body.adc ∧ t.cal.adcReject = true
      ∧ t.cal.adcReason = (if s.cal.adcRun.flagged then 3 else if gain then 2 else 1)
      ∧ t.cal.body.reject = satAdd s.cal.body.reject 1)
    ∧ (s.cal.adcRun.flagged = false → gain = true → offset = true →
      t.zxp = { s.zxp with held := none, corr := t.cal.body.adc }
      ∧ t.cal.body.adc = [BitVec.ofNat 16 (adcOffset 20 (sum 2)), BitVec.ofInt 16 (adcGain 20 mv (sum 0) (sum 2)),
          BitVec.ofNat 16 (adcOffset 80 (sum 3)), BitVec.ofInt 16 (adcGain 80 mv (sum 1) (sum 3))]
      ∧ t.cal.body.adcValid = true ∧ t.cal.body.adcRef = s.cal.adcLatched ∧ t.cal.adcReject = false
      ∧ t.cal.body.count = satAdd s.cal.body.count 1))
  ∧ ∀ (u : Fin 12) r s, s.up = true → s.calRun u = some r → s.cal.runs.length = 12 →
    (s.clk.hckOk = false ∨ s.cal.defer = []) → ∃ t, exec (.calAbandon u) s = .next t
    ∧ t.calRun u = none ∧ t.cal.body.abandon = satAdd s.cal.body.abandon 1
    ∧ (u.val < 11 → t.cal.body.units = upd s.cal.body.units u (fun _ => r.holdUnit))
    ∧ (u = 11 → t.cal.adcReason = 4 ∧ t.zxp = { s.zxp with held := none } ∧ t.cal.body.units = s.cal.body.units)
    ∧ t.cal.body.adc = s.cal.body.adc ∧ (u.val < 11 → ∀ e ∈ t.cal.swaps, e.1 / 64 = u.val → e.2 = 2) ∧ t.dbs = s.dbs

/-- The SME rotation and the steps of live trim (R174, R175, R178, R179). -/
def Obligations.LiveTrim : Prop :=
  (∀ n counts flips room s, s.up = true → ∃ t, exec (.smeSlot n counts flips room) s = .next t
    ∧ t.trim.slot = (if s.trim.slot = 23 then 0 else s.trim.slot + 1)
    ∧ t.trim.frame = (if s.trim.slot = 23 then s.trim.frame + 1 else s.trim.frame)
    ∧ ((21 < s.trim.slot.toNat ∧ s.trim.recentre = []) ∨
        (s.slotSource s.trim.slot.toNat).any (fun q => !s.smeReady q.1) = true →
        t = { s with trim := { s.trim with slot := t.trim.slot, frame := t.trim.frame } })
    ∧ t.trim.applied = s.trim.applied ∧ t.trim.refused = s.trim.refused ∧ t.trim.placed = s.trim.placed
    ∧ t = { s with trim := t.trim, dbs := t.dbs, free := t.free, zlb := t.zlb, cal := t.cal, con := t.con, pool := t.pool
                   wrn := t.wrn, evt := t.evt, flt := t.flt, pow := { s.pow with latched := t.pow.latched } })
  ∧ (∀ (u : Fin 12) h q s, s.up = true → s.trimOn u = true → s.calRun (trimCal u) = none →
    nth s.trim.queues u [] = h :: q → s.suspended u h.path = false → s.trim.recentre = [] →
    (stepEdge (s.trimVal u h.path h.entry) h.vref h.down = true
      ∨ (h.centre = false ∧ s.beyond (s.trimVal u h.path h.entry) (s.trimRef u h.path h.entry) h.vref h.down = true) →
      ∃ t, exec (.trimTick u) s = .next t
      ∧ nth t.trim.queues u [] = q ∧ t.trim.refused = satAdd s.trim.refused 1 ∧ t.trim.limit.getLsbD u = true
      ∧ t.trim.applied = s.trim.applied ∧ t.trim.placed = s.trim.placed ∧ t.train = s.train
      ∧ (u.val < 2 → t.dbs = s.dbs) ∧ ∀ n, (t.db n).taps = (s.db n).taps)
    ∧ (stepEdge (s.trimVal u h.path h.entry) h.vref h.down = false →
      s.beyond (s.trimVal u h.path h.entry) (s.trimRef u h.path h.entry) h.vref h.down = false → u.val < 2 →
      nth s.trim.placed u none = none → u.val < s.trim.placed.length → ∃ t, exec (.trimTick u) s = .next t
      ∧ nth t.trim.queues u [] = q ∧ nth t.trim.placed u none = some h
      ∧ t = { s with trim := { s.trim with queues := t.trim.queues, placed := t.trim.placed } })
    ∧ (stepEdge (s.trimVal u h.path h.entry) h.vref h.down = false →
      s.beyond (s.trimVal u h.path h.entry) (s.trimRef u h.path h.entry) h.vref h.down = false → 2 ≤ u.val →
      (s.db (u - 2)).stagePend = false → s.reaches (u - 2) = true → s.dbcOn = true → s.dbs.length = 10 →
      u.val < s.trim.placed.length → ∃ t, exec (.trimTick u) s = .next t
      ∧ nth t.trim.queues u [] = q ∧ nth t.trim.placed u none = some h
      ∧ t.trim.applied = s.trim.applied ∧ t.trim.refused = s.trim.refused
      ∧ (t.db (u - 2)).stage = BitVec.ofNat 10 (h.path + 16 * h.entry + 256 * h.vref.toNat + 512 * h.down.toNat)
      ∧ (t.db (u - 2)).stagePend = true ∧ (t.db (u - 2)).stageArmed = true ∧ (t.db (u - 2)).taps = (s.db (u - 2)).taps))
  ∧ (∀ (u : Fin 12) s, s.up = true → s.calRun (trimCal u) ≠ none → ∃ t, exec (.trimTick u) s = .next t
    ∧ t.trim = s.trim ∧ t.train = s.train ∧ ∀ n, (t.db n).taps = (s.db n).taps)
  ∧ (∀ x h s, s.up = true → s.clk.hckOk = true → s.calRun 0 = none → nth s.trim.placed (subNo x) none = some h →
    h.entry < (s.tr x).ca.length → ∃ t, exec (.caTrimStepApply x) s = .next t
    ∧ nth t.trim.placed (subNo x) none = none ∧ t.trim.applied = satAdd s.trim.applied 1
    ∧ nth (t.tr x).ca h.entry ⟨64, 60⟩ = (let v := nth (s.tr x).ca h.entry ⟨64, 60⟩
        if h.vref then { v with vref := BitVec.ofNat 7 (if h.down then v.vref.toNat - 1 else min 120 (v.vref.toNat + 1)) }
        else { v with tap := BitVec.ofNat 7 (if h.down then v.tap.toNat - 1 else min 127 (v.tap.toNat + 1)) })
    ∧ (∀ e, e ≠ h.entry → nth (t.tr x).ca e ⟨64, 60⟩ = nth (s.tr x).ca e ⟨64, 60⟩) ∧ (t.tr x).caRef = (s.tr x).caRef
    ∧ t.dbs = s.dbs ∧ t.subA = s.subA ∧ t.subB = s.subB)
  ∧ ∀ (n : Fin 10) h s, s.dbcOn = true → (s.db n).stagePend = true → (s.db n).stageArmed = true → s.dbs.length = 10 →
    nth s.trim.placed (n + 2) none = some h → ∃ t, exec (.trimStepApply n) s = .next t
    ∧ nth t.trim.placed (n + 2) none = none ∧ t.trim.applied = satAdd s.trim.applied 1
    ∧ (t.db n).stagePend = false ∧ (t.db n).stageArmed = false

/-- A commit writes the slot not in use, and only a verified one is used (R62, R186, R188, R192, R193, R194, R195, R196,
R197, R198). -/
def Obligations.Commits : Prop :=
  let slot := fun (s : State) (r : Nat) (b : Bool) => if b then (s.slots r).2 else (s.slots r).1
  (∀ r s, 3 ≤ r → r ≤ 6 → s.w9Free = true → s.nvs.pend = [r] → s.regionOpen r = true →
    (s.wearOk r = true → s.spaceOk r = true → (s.pool.claim .w9).2 = true → ∃ t, exec .nvsCommitStart s = .next t
      ∧ t.nvs.commit = some ⟨r, !s.slotUse r, s.snapshot r, false, s.free⟩ ∧ t.nvs.pend = []
      ∧ slot t r (!s.slotUse r) = none ∧ slot t r (s.slotUse r) = slot s r (s.slotUse r)
      ∧ (s.nvs.spacing.length = 7 → nth t.nvs.spacing (r - 2) 0 = 10000) ∧ t.nvs.throttled.getLsbD r = false
      ∧ (∀ m, m ≠ r → t.slots m = s.slots m)
      ∧ t.pool = (if r = 3 then (s.pool.claim .w9).1 else (s.pool.claim .w9).1.brief .core)
      ∧ t = { s with nv := t.nv, nvs := t.nvs, pool := t.pool, free := s.free + 2 })
    ∧ (s.wearOk r = true → s.spaceOk r = false → exec .nvsCommitStart s = .next s)
    ∧ (s.wearOk r = false → ∃ t, exec .nvsCommitStart s = .next t ∧ t.nvs.throttled.getLsbD r = true
      ∧ t.nvs.pend = [r] ∧ t.nvs.commit = none ∧ t.nv = s.nv))
  ∧ (∀ c s, s.nvs.commit = some c → s.nvs.preErase = none → 3 ≤ c.region → c.region ≤ 6 → s.nvs.inUse.length = 5 →
    c.region = (match c.snap with | .settings _ => 3 | .cal _ => 4 | .warm _ => 5 | .keep _ => 6) →
    1 ≤ c.sum.2 → c.sum.2 ≤ (regionAt c.region false).2 - 32 → genOk (s.nextGen c.region).toNat = true →
    ∃ t, exec (.nvsCommitDone true) s = .next t
    ∧ t.nvs.commit = none ∧ t.slotUse c.region = c.target ∧ t.nvs.lost.getLsbD c.region = false
    ∧ (slot t c.region c.target).map (fun i => (i.gen, i.ok)) = some (s.nextGen c.region, true)
    ∧ slot t c.region (!c.target) = (if t.nvs.preErase.isSome then none else slot s c.region (!c.target))
    ∧ (s.nv.fram = false → s.w9Ends = false → t.nvs.preErase = some (c.region, !c.target))
    ∧ (s.nv.fram = true → t.nvs.preErase = none)
    ∧ (∀ m, m ≠ c.region → t.slots m = s.slots m ∧ (m - 2 ≠ c.region - 2 → t.slotUse m = s.slotUse m))
    ∧ (∀ b, c.snap = .settings b → (if c.target then t.nv.settings.b else t.nv.settings.a).map (·.body) = some b))
  ∧ (∀ c s, s.nvs.commit = some c → c.second = false → 3 ≤ c.region → c.region ≤ 6 →
    ∃ t, exec (.nvsCommitDone false) s = .next t
    ∧ t.nvs.commit = some { c with second := true }
    ∧ slot t c.region c.target = none ∧ slot t c.region (!c.target) = slot s c.region (!c.target)
    ∧ (∀ m, m ≠ c.region → t.slots m = s.slots m)
    ∧ t = { s with nv := t.nv, nvs := { s.nvs with commit := t.nvs.commit, wear := t.nvs.wear, bus := t.nvs.bus } })
  ∧ (∀ c s, s.nvs.commit = some c → c.second = true → 3 ≤ c.region → c.region ≤ 6 →
    ∃ t, exec (.nvsCommitDone false) s = .next t
    ∧ t.nvs.commit = none ∧ slot t c.region c.target = none ∧ slot t c.region (!c.target) = slot s c.region (!c.target)
    ∧ t.nvs.errWrite = satAdd s.nvs.errWrite 1 ∧ c.region ∈ t.nvs.failedPend ∧ t.nvs.inUse = s.nvs.inUse
    ∧ (∀ m, m ≠ c.region → t.slots m = s.slots m))
  ∧ (∀ s, (s.nvs.preErase = none → exec .nvsPreEraseDone s = .next s)
    ∧ ∀ r b, 2 ≤ r → r ≤ 6 → s.nvs.preErase = some (r, b) → ∃ t, exec .nvsPreEraseDone s = .next t
      ∧ slot t r b = none ∧ t.slotFull r b = false ∧ slot t r (!b) = slot s r (!b)
      ∧ (∀ m, m ≠ r → t.slots m = s.slots m) ∧ t = { s with nv := t.nv, nvs := { s.nvs with preErase := none } })
  ∧ (∀ p s, s.up = true → s.nvs.rescue = false → s.regOn .settingsWrite = true →
    let all := s.nvs.pend ++ s.nvs.failedPend.filter (fun r => !s.nvs.pend.contains r)
    exec (.nvsCmdCommit p) s
    = .next (if s.locked then { s with nvs := { s.nvs with pend := all, failedPend := [], lifted := all } }
        else { s with nvs := { s.nvs with held := true } }))
  ∧ ∀ s, s.up = true → ∃ t, exec .lifetimePersist s = .next t ∧ t.nvs.pend.contains 3 = true
    ∧ t = { s with nvs := { s.nvs with pend := t.nvs.pend } }

/-- A firmware image is loaded word by word into the slot not booted (R192, R198, R200, R202). -/
def Obligations.ImageLoad : Prop :=
  let booted := fun (s : State) => if s.slotUse 2 then s.nv.fw.b else s.nv.fw.a
  (∀ p (kib : Nat) s, s.up = true → s.nvs.rescue = false → s.regOn .settingsWrite = true → s.gated = false →
    s.nvs.img = none → 1 ≤ kib → kib ≤ 447 → ∃ t, exec (.nvsImageStart p (BitVec.ofNat 32 (0x1A0D0000 + kib))) s = .next t
    ∧ t.nvs.img = some ⟨kib, [], 0⟩ ∧ t.nvs.imgTarget = !s.slotUse 2 ∧ t.nvs.imgDone = false ∧ t.nvs.imgReject = false
    ∧ (if t.nvs.imgTarget then t.nv.fw.b else t.nv.fw.a) = none ∧ booted t = booted s
    ∧ t = { s with nvs := t.nvs, nv := { s.nv with fw := t.nv.fw } })
  ∧ (∀ p v i s, s.up = true → s.nvs.rescue = false → s.regOn .settingsWrite = true → s.nvs.img = some i →
    (i.count < i.kib * 256 → ∃ t, exec (.nvsImageData p v) s = .next t ∧ t = { s with
      nvs := { s.nvs with img := some ⟨i.kib, v :: i.words, i.count + 1⟩, bus := t.nvs.bus }
      pool := if (i.count + 1) % 64 = 0 then s.pool.brief .w9 else s.pool })
    ∧ (i.kib * 256 ≤ i.count → exec (.nvsImageData p v) s = .next s)
    ∧ exec (.nvsCmdAbortImage p) s = .next { s with
      nvs := { s.nvs with img := none, imgReject := true, imgReason := 5 } })
  ∧ ∀ i verified s, s.up = true → s.nvs.img = some i →
    (s.gated = false → i.count < i.kib * 256 → exec (.nvsImageEnd verified) s = .next s)
    ∧ (s.gated = true → exec (.nvsImageEnd verified) s = .next { s with
      nvs := { s.nvs with img := none, imgReject := true, imgReason := 4 } })
    ∧ (s.gated = false → i.kib * 256 ≤ i.count → ∃ reason,
      reason = (if crc32c i.bytes ≠ s.nvs.imgCrc then 1
        else if bodyNat i.bytes 0 2 ≠ 0x0A38 ∨ (nth i.bytes 2 0).getLsbD 2 = false then 2
        else if verified && genOk (s.nextGen 2).toNat then 0 else (3 : BitVec 3))
      ∧ (reason ≠ 0 → exec (.nvsImageEnd verified) s = .next { s with
          nvs := { s.nvs with img := none, imgReject := true, imgReason := reason } })
      ∧ (reason = 0 → s.nvs.rescue = false → ∃ t, exec (.nvsImageEnd verified) s = .next t
          ∧ t.nvs = { s.nvs with img := none, imgDone := true, imgReason := 0, bus := t.nvs.bus }
          ∧ ((if s.nvs.imgTarget then t.nv.fw.b else t.nv.fw.a).map (fun h => (h.hdr.gen, h.hdr.bodyOk, h.body)))
              = some (s.nextGen 2, true, fwOf i.bytes)
          ∧ (if s.nvs.imgTarget then t.nv.fw.a else t.nv.fw.b) = (if s.nvs.imgTarget then s.nv.fw.a else s.nv.fw.b)
          ∧ t = { s with
                    nvs := t.nvs, nv := { s.nv with fw := t.nv.fw }, evt := t.evt
                    pow := { s.pow with latched := t.pow.latched, failedBoots := t.pow.failedBoots } }
          ∧ (s.pow.failedBoots.length = 2 → nth t.pow.failedBoots s.nvs.imgTarget.toNat 0 = 0)))

/-- The log rings take their records in sequence, and the time and span registers (R62, R203, R204, R221, R266, R273,
R373). -/
def Obligations.RingsAndTime : Prop :=
  (∀ s, s.up = true → s.nvs.rescue = false → ∃ t, exec .nvsRingScan s = .next t
    ∧ t.nvs.scanF = true ∧ t.nvs.scanE = true ∧ t.flt.restored = true
    ∧ t.nv = { s.nv with
                faultRing := s.nv.faultRing.filter (fun e => !s.nv.tornF.contains e.1)
                eventRing := s.nv.eventRing.filter (fun e => !s.nv.tornE.contains e.1), tornF := [], tornE := [] }
    ∧ (s.flt.restored = true →
        t = { s with nv := t.nv, nvs := { s.nvs with scanF := true, scanE := true, bus := t.nvs.bus } }))
  ∧ (∀ r s, s.up = true → s.batchDue .event = true → s.nvs.waitE = [r] →
    s.ringTakes .event (highSeq s.nv.eventRing) = true → (s.pool.claim .w9).2 = true →
    ∃ t, exec (.nvsRingBatch .event) s = .next t
    ∧ t.nv.eventRing.getLast? = some (highSeq s.nv.eventRing + 1, r) ∧ t.nvs.waitE = []
    ∧ (highSeq s.nv.eventRing % 256 ≠ 0 → t.nv.eventRing = s.nv.eventRing ++ [(highSeq s.nv.eventRing + 1, r)])
    ∧ (s.nvs.spacing.length = 7 → nth t.nvs.spacing 6 0 = 10000) ∧ t.nvs.lost.getLsbD 8 = false
    ∧ t = { s with
              nv := { s.nv with eventRing := t.nv.eventRing }
              nvs := { s.nvs with waitE := [], dropping := t.nvs.dropping, spacing := t.nvs.spacing, lost := t.nvs.lost
                                  bus := t.nvs.bus }
              pool := s.pool.brief .w9 })
  ∧ (∀ r s, s.up = true → s.batchDue .fault = true → s.nvs.waitF = [r] →
    highSeq s.nv.faultRing % 128 ≠ 0 → highSeq s.nv.faultRing < 0xFFFFFFFE → (s.pool.claim .w9).2 = true →
    ∃ t, exec (.nvsRingBatch .fault) s = .next t
    ∧ t.nv.faultRing = s.nv.faultRing ++ [(highSeq s.nv.faultRing + 1, r)] ∧ t.nvs.waitF = []
    ∧ (s.nvs.spacing.length = 7 → nth t.nvs.spacing 5 0 = 10000) ∧ t.nvs.lost.getLsbD 7 = false
    ∧ t = { s with
              nv := { s.nv with faultRing := t.nv.faultRing }
              nvs := { s.nvs with waitF := [], dropping := t.nvs.dropping, spacing := t.nvs.spacing, lost := t.nvs.lost
                                  bus := t.nvs.bus }
              pool := s.pool.brief .w9 })
  ∧ (∀ g s, s.gated = true ∨ s.w9Ends = true ∨ (match g with | .fault => s.nvs.scanF | .event => s.nvs.scanE) = false
      ∨ s.ringWaits g = 0 ∨ (s.spaced (ringRegion g) = false ∧ s.ringWaits g < 32) →
    exec (.nvsRingBatch g) s = .next s)
  ∧ (∀ g s, s.up = true → s.batchDue g = true → (s.pool.claim .w9).2 = false →
    exec (.nvsRingBatch g) s = .next { s with pool := { s.pool with refused := satAdd s.pool.refused 1 } })
  ∧ (∀ p s, s.up = true → s.sels.length = 6 → ∃ t, exec (.clkLifeLoRead p) s = .next t
    ∧ t.sel p = { s.sel p with lifeHi := s.clk.life.extractLsb' 32 8 } ∧ t = { s with sels := t.sels }
    ∧ ∀ q, q ≠ p → t.sel q = s.sel q)
  ∧ (∀ p (v : Word) s, s.up = true → s.nvs.rescue = false → v.extractLsb' 16 15 = 0 →
    ∃ t, exec (.clkWallHiWrite p v) s = .next t
    ∧ t.clk = { s.clk with wall := v.extractLsb' 0 16 ++ s.clk.wallStage, wallSet := v.getLsbD 31 }
    ∧ (t.clk ≠ s.clk → t.nvs.pend.contains 3 = true)
    ∧ t = { s with clk := t.clk, nvs := { s.nvs with pend := t.nvs.pend } })
  ∧ ∀ p (v : Word) s, s.up = true → s.nvs.rescue = false → s.offers .retain = true → 10 ≤ v.toNat → v.toNat < 65536 →
    s.pow.dom ≠ .attended → ∃ t, exec (.pwrSpanWrite p v) s = .next t
    ∧ t = { s with pow := { s.pow with span := v.setWidth 16 }, nvs := { s.nvs with pend := t.nvs.pend } }
    ∧ (s.pow.span ≠ v.setWidth 16 → t.nvs.pend.contains 3 = true)

/-- Counts fold into windows, and a resource's fault state follows its window sum (R256, R257, R258, R259, R260, R263,
R272). -/
def Obligations.FaultWindows : Prop :=
  (∀ c i r s, c < 6 → i < 512 → s.up = true → s.fnOn .faultWindows = true → s.flt.res = [(resKey c i, r)] →
    r.pend ≠ 0 → r.buckets.length = 8 → ∃ t, ∃ b : List Byte, exec .faultFold s = .next t
    ∧ b = r.buckets.take 7 ++ [satAdd (nth r.buckets 7 0) r.pend.toNat]
    ∧ (t.res c i).buckets = b ∧ (t.res c i).quiet = 0 ∧ (t.res c i).pend = 0 ∧ (t.res c i).suspect = r.suspect
    ∧ (t.res c i).state = (if s.thresh c ≤ min 255 (b.map (·.toNat)).sum ∨ r.state = .lasting then .lasting
        else if r.state = .none then .transient else r.state)
    ∧ (∀ m, m ≠ resKey c i → sget Res.fresh t.flt.res m = Res.fresh)
    ∧ (r.state ≠ .lasting → (t.res c i).state = .lasting → s.acts c 25 = true → s.evt.srcs.length = 64 →
        (nth s.evt.srcs 40 EvtSrc.fresh).en = true → c ≠ 3 →
        (nth t.evt.srcs 40 EvtSrc.fresh).total = satAdd (nth s.evt.srcs 40 EvtSrc.fresh).total 1)
    ∧ t.nv = s.nv ∧ t.clk = s.clk ∧ t.flt.cfg = s.flt.cfg
    ∧ (r.state = .lasting ∨ (t.res c i).state ≠ .lasting ∨ c = 0 ∨ c = 4 ∨ c = 5 → t = { s with
        flt := t.flt, evt := t.evt
        nvs := { s.nvs with waitF := t.nvs.waitF, dropF := t.nvs.dropF, dropping := t.nvs.dropping }
        pool := { s.pool with high := t.pool.high, refused := t.pool.refused } }))
  ∧ (∀ (c : Fin 6) i r s, i < 512 → s.up = true → s.fnOn .faultWindows = true → s.flt.res = [(resKey c i, r)] →
    r.buckets.length = 8 → ∃ t, ∃ b : List Byte, ∃ q : Nat, exec (.faultBucketBoundary c) s = .next t
    ∧ b = r.buckets.drop 1 ++ [0] ∧ (t.res c i).buckets = b ∧ (t.res c i).pend = r.pend ∧ (t.res c i).suspect = r.suspect
    ∧ q = (if nth r.buckets 7 0 = 0 then min 16 (r.quiet + 1) else 0)
    ∧ (t.res c i).state = (if r.state = .lasting then (if 16 ≤ q then .was else .lasting)
        else if s.thresh c ≤ min 255 (b.map (·.toNat)).sum then .lasting
        else if r.state = .transient ∧ (b.map (·.toNat)).sum = 0 then .none else r.state)
    ∧ (r.state = .lasting → (t.res c i).quiet = q)
    ∧ (∀ m, m ≠ resKey c i → sget Res.fresh t.flt.res m = Res.fresh) ∧ t.nv = s.nv ∧ t.clk = s.clk)
  ∧ (∀ (c : Fin 6) s, s.fnOn .faultWindows = false ∨ s.listed c = [] →
    exec (.faultBucketBoundary c) s = .next s ∧ (s.fnOn .faultWindows = false → exec .faultFold s = .next s))
  ∧ ∀ p (c : Fin 6) (v : Word) s, s.up = true → s.nvs.rescue = false → s.regOn .faultWindows = true →
    (c = 5 → s.offers .retain = true) → s.flt.cfg.length = 6 → 1 ≤ (v.extractLsb' 0 16).toNat → (v.extractLsb' 0 16).toNat ≤ 43200 →
    v.extractLsb' 16 8 ≠ 0 → v.extractLsb' 29 3 = 0 →
    v.extractLsb' 24 5 &&& (match c with | 0 => 7 | 1 => 11 | 2 => 11 | 3 => 19 | _ => 3) = v.extractLsb' 24 5 →
    ∃ t, exec (.fltCfgWrite p c v) s = .next t
    ∧ t.fltCfg c = v ∧ (∀ m, m ≠ c.val → t.fltCfg m = s.fltCfg m)
    ∧ ((s.fltCfg c).extractLsb' 0 16 ≠ v.extractLsb' 0 16 → ∀ i, i ∈ s.listed c → i < 512 →
        (t.res c i) = { s.res c i with
          buckets := List.replicate 8 0, quiet := 0, changed := (s.res c i).changed || (s.res c i).sum != 0 })
    ∧ ((s.fltCfg c).extractLsb' 0 16 = v.extractLsb' 0 16 → t.flt.res = s.flt.res)
    ∧ (∀ m i, i < 512 → m ≠ c.val → t.res m i = s.res m i)
    ∧ (s.fltCfg c ≠ v → t.nvs.pend.contains 3 = true)
    ∧ t = { s with
              flt := { s.flt with cfg := t.flt.cfg, res := t.flt.res }
              nvs := { s.nvs with pend := t.nvs.pend } }

/-- FLT_CMD clears resources, and wants and forgets repairs (R258, R260, R264, R267, R272, R274). -/
def Obligations.FaultCommands : Prop :=
  let only := fun (s t : State) => t = { s with
    flt := t.flt, evt := t.evt
    nvs := { s.nvs with waitF := t.nvs.waitF, dropF := t.nvs.dropF, dropping := t.nvs.dropping }
    pool := { s.pool with high := t.pool.high, refused := t.pool.refused } }
  let cleared := fun (s t : State) (c i : Nat) =>
    t.res c i = { Res.fresh with pend := (s.res c i).pend, recLife := if s.acts c 24 then s.clk.life else 0 }
  (∀ p s, s.up = true → s.nvs.rescue = false → s.regOn .faultWindows = true →
    (∃ t, exec (.fltClearResource p) s = .next t ∧ only s t ∧ cleared s t (s.resSel p).1 (s.resSel p).2
      ∧ (∀ m, m ≠ resKey (s.resSel p).1 (s.resSel p).2 → sget Res.fresh t.flt.res m = sget Res.fresh s.flt.res m)
      ∧ t.flt.repairs = s.flt.repairs ∧ t.flt.saturated = s.flt.saturated)
    ∧ (∃ t, exec (.fltClearClass p) s = .next t ∧ only s t
      ∧ (∀ i, i < 512 → i ∈ s.listed (s.resSel p).1 → (s.listed (s.resSel p).1).Nodup → cleared s t (s.resSel p).1 i)
      ∧ (∀ c i, i < 512 → c ≠ (s.resSel p).1 → t.res c i = s.res c i)
      ∧ t.flt.repairs = s.flt.repairs ∧ t.flt.saturated = s.flt.saturated)
    ∧ (∃ t, exec (.fltClearAll p) s = .next t ∧ only s t ∧ t.flt.saturated = false
      ∧ (∀ c i, c < 6 → i < 512 → (t.res c i).state = .none ∧ (t.res c i).sum = 0 ∧ (t.res c i).suspect = none)
      ∧ t.flt.repairs = s.flt.repairs)
    ∧ (s.regOn .pprAuto = true → ∀ (u : Suspect), (s.resSel p).1 = 0 → (s.res 0 (s.resSel p).2).suspect = some u →
      s.resPresent 0 (s.resSel p).2 = true → s.repairRefused (s.resSel p).2 u.at_ = false → s.flt.repairs.length = 32 → ∃ t e, exec (.fltRepairNow p) s = .next t ∧ only s t
      ∧ (∀ m, m < e → s.repairFree m = false) ∧ s.repairFree e = true ∧ e < s.flt.repairs.length
      ∧ (∃ r, nth t.flt.repairs e Repair.none = r ∧ r.status = .wanted ∧ r.device = (s.resSel p).2 ∧ r.at_ = u.at_
        ∧ r.applied = 0 ∧ r.age = s.flt.nextAge + 1)
      ∧ (∀ m, m ≠ e → nth t.flt.repairs m Repair.none = nth s.flt.repairs m Repair.none)
      ∧ t.flt.res = s.flt.res ∧ t.flt.lastFail = s.flt.lastFail)
    ∧ ((s.resSel p).1 ≠ 0 ∨ s.regOn .pprAuto = false ∨ (s.res 0 (s.resSel p).2).suspect = none
        ∨ s.resPresent 0 (s.resSel p).2 = false →
        exec (.fltRepairNow p) s = .next s)
    ∧ (∀ entry : Fin 32, (s.regOn .pprAuto = true → s.flt.repairs.length = 32 →
          (nth s.flt.repairs entry Repair.none).status ≠ .empty → ∃ t, exec (.fltForget p entry) s = .next t
        ∧ only s t ∧ nth t.flt.repairs entry Repair.none = Repair.none ∧ t.flt.res = s.flt.res
        ∧ ∀ m, m ≠ entry.val → nth t.flt.repairs m Repair.none = nth s.flt.repairs m Repair.none)
      ∧ (s.regOn .pprAuto = false ∨ (nth s.flt.repairs entry Repair.none).status = .empty →
          exec (.fltForget p entry) s = .next s))
    ∧ (s.offers .retain = true → exec (.fltPackTest p) s = .next { s with
        flt := { s.flt with test := { s.flt.test with due := true } } })
    ∧ (s.offers .retain = false → exec (.fltPackTest p) s = .next s))
  ∧ ∀ p s, s.regOn .faultWindows = false ∨ s.up = false → exec (.fltClearResource p) s = .next s
    ∧ exec (.fltClearClass p) s = .next s ∧ exec (.fltClearAll p) s = .next s

/-- The keep-pack test waits for its conditions and reports its result (R208, R222, R256, R270, R271). -/
def Obligations.PackTest : Prop :=
  (∀ s, s.up = true → s.offers .retain = true → s.fnOn .faultWindows = true → s.flt.pack.extractLsb' 0 10 ≠ 0 →
    s.flt.test.busy = false → exec .packTestDue s = .next { s with
      flt := { s.flt with test := { s.flt.test with due := true } } })
  ∧ (∀ s, s.flt.test.due = true → s.flt.test.busy = false → s.up = true → s.fnOn .faultWindows = true →
    s.offers .retain = true → s.pow.dom = .run → s.pow.hostPg = true → s.zxp.chg = 3 → 24000 ≤ s.vbank → s.hrd.st = .idle →
    ∃ t, exec .packTestStart s = .next t ∧ t.flt.test.busy = true ∧ t.flt.test.due = false ∧ t.zxp.chg = 0
    ∧ t.zxp.convCurrent = true ∧ t.flt.test.outcome = s.flt.test.outcome
    ∧ t = { s with
              flt := { s.flt with test := t.flt.test }
              zxp := { s.zxp with chg := 0, chgPlant := t.zxp.chgPlant, convCurrent := true } })
  ∧ (∀ s, s.flt.test.due = false ∨ s.pow.dom ≠ .run ∨ s.pow.hostPg = false ∨ s.zxp.chg ≠ 3 ∨ s.vbank < 24000
      ∨ s.hrd.st ≠ .idle → exec .packTestStart s = .next s)
  ∧ (∀ (c : Nat) (esr : Nat) s, c < 1024 → esr < 4096 → s.up = true → s.flt.test.busy = true →
    ∃ t, exec (.packTestEnd (.result c esr)) s = .next t
    ∧ t.flt.test.busy = false ∧ t.flt.test.due = false ∧ t.flt.test.outcome = 1
    ∧ t.flt.test.c.toNat = c ∧ t.flt.test.esr.toNat = esr
    ∧ t.zxp.cMeas.toNat = c ∧ t.zxp.measValid = true ∧ t.zxp.convCurrent = false
    ∧ (s.offers .retain = true → s.fnOn .faultWindows = true →
        (t.res 5 0).pend = (if c * 100 < (s.flt.pack.extractLsb' 10 8).toNat * (s.zxp.pack.extractLsb' 0 10).toNat
          then satAdd (s.res 5 0).pend 1 else (s.res 5 0).pend)
        ∧ (t.res 5 1).pend = (if (s.flt.pack.extractLsb' 18 12).toNat < esr then satAdd (s.res 5 1).pend 1 else (s.res 5 1).pend))
    ∧ (∀ m, m ≠ resKey 5 0 → m ≠ resKey 5 1 → sget Res.fresh t.flt.res m = sget Res.fresh s.flt.res m)
    ∧ t = { s with
              flt := t.flt, evt := t.evt
              zxp := { s.zxp with
                cMeas := t.zxp.cMeas, measValid := true, convCurrent := false, chg := t.zxp.chg, chgPlant := t.zxp.chgPlant }
              nvs := { s.nvs with waitF := t.nvs.waitF, dropF := t.nvs.dropF, dropping := t.nvs.dropping }
              pool := { s.pool with high := t.pool.high, refused := t.pool.refused } })
  ∧ ∀ (d : Bool) s, s.up = true → s.flt.test.busy = (!d) → (d = true → s.flt.test.due = true) →
    ∃ t, exec (.packTestEnd (if d then .dropped else .noResult)) s = .next t
    ∧ t.flt.test.busy = false ∧ t.flt.test.due = false ∧ t.flt.test.outcome = (if d then 3 else 2)
    ∧ t.flt.test.c = s.flt.test.c ∧ t.flt.test.esr = s.flt.test.esr ∧ t.flt.res = s.flt.res ∧ t.zxp.cMeas = s.zxp.cMeas
    ∧ t.zxp.convCurrent = false ∧ t.nv = s.nv ∧ t.pow = s.pow

/-- An enabled source counts, sets its status bit and joins the queue (R277). -/
def Obligations.EventArise : Prop :=
  ∀ (n : Fin 64) (arg : BitVec 24) s, s.pd2 = true → s.settled = true → s.latches n = false → s.evtPresent n = true →
    s.evt.srcs.length = 64 →
    ((nth s.evt.srcs n EvtSrc.fresh).en = false → exec (.eventArise n arg) s = .next s)
    ∧ ((nth s.evt.srcs n EvtSrc.fresh).en = true → ∃ t, exec (.eventArise n arg) s = .next t
      ∧ (let x := nth s.evt.srcs n EvtSrc.fresh; let y := nth t.evt.srcs n EvtSrc.fresh
        y.total = satAdd x.total 1 ∧ y.status = true ∧ y.arg = arg ∧ y.cfg = x.cfg
        ∧ (if s.evt.queue.length < 32 ∧ x.pend = 0 then
            y.pend = 0 ∧ t.evt.queue = s.evt.queue ++ [⟨BitVec.ofNat 6 n, 1, s.clk.life, arg⟩]
          else t.evt.queue = s.evt.queue ∧ y.pend = satAdd x.pend 1
            ∧ (y.stamp, y.parg) = (if x.pend = 0 then (s.clk.life, arg) else (x.stamp, x.parg))))
      ∧ (∀ m, m ≠ n.val → nth t.evt.srcs m EvtSrc.fresh = nth s.evt.srcs m EvtSrc.fresh)
      ∧ t = { s with evt := t.evt })

/-- Pending counts are released in order, entries delivered, status bits cleared (R276, R278, R280, R281, R282, R283,
R284, R286). -/
def Obligations.EventUnit : Prop :=
  let src := fun (s : State) (n : Nat) => nth s.evt.srcs n EvtSrc.fresh
  (∀ s, s.up = true → s.settled = true → s.evt.srcs.length = 64 → s.evt.queue.length ≤ 32 →
    ∃ t, exec .eventPendingRelease s = .next t
    ∧ (let ns := ((List.range 64).filter (fun n => (src s n).pend ≠ 0)).take (32 - s.evt.queue.length)
      t.evt.queue = s.evt.queue ++ ns.map (fun n => ⟨BitVec.ofNat 6 n, (src s n).pend, (src s n).stamp, (src s n).parg⟩)
      ∧ ∀ n, src t n = if n ∈ ns then { src s n with pend := 0 } else src s n)
    ∧ t = { s with evt := { s.evt with srcs := t.evt.srcs, queue := t.evt.queue, high := t.evt.high } })
  ∧ (∀ s, s.settled = false → exec .eventPendingRelease s = .next s)
  ∧ (∀ e q s, s.up = true → s.evt.queue = e :: q →
    let cfg := (src s e.src.toNat).cfg
    let hn := cfg.getLsbD 2 && s.fnActive .hostNotify
    (hn = true → s.twb.host.job ≠ none → exec .eventDeliver s = .next s)
    ∧ ((hn = true → s.twb.host.job = none) → (cfg.getLsbD 5 = true → s.nvs.waitE.length < 64) → ∃ t, exec .eventDeliver s = .next t
      ∧ t.evt.queue = q
      ∧ (cfg.getLsbD 3 = false → t.evt = { s.evt with queue := q } ∧ t.con = s.con ∧ (cfg.getLsbD 5 = false → t.pool = s.pool))
      ∧ t.twb.host.job = (if hn then some (.notify (e.src.setWidth 8) e.count) else s.twb.host.job)
      ∧ t.nvs.waitE = (if cfg.getLsbD 5 then s.nvs.waitE ++ [⟨e.src, e.count, e.stamp, e.arg⟩] else s.nvs.waitE)
      ∧ t = { s with
                evt := t.evt, con := t.con, pool := t.pool
                twb := { s.twb with host := { s.twb.host with job := t.twb.host.job, tries := t.twb.host.tries }, a1Pend := t.twb.a1Pend }
                nvs := { s.nvs with waitE := t.nvs.waitE } }))
  ∧ (∀ s, s.evt.queue = [] → exec .eventDeliver s = .next s)
  ∧ (∀ p high (v : Word) s, s.up = true → s.nvs.rescue = false → s.evt.srcs.length = 64 →
    ∃ t, exec (.evtStatusClear p high v) s = .next t
    ∧ (∀ n, n < 64 → src t n = if n / 32 = high.toNat ∧ v.getLsbD (n % 32) ∧ (n < 48 ∨ s.regOn .events64 = true)
        then { src s n with status := false } else src s n)
    ∧ ((∃ n, n < 64 ∧ (src t n).status ∧ (src t n).en ∧ (src t n).cfg.getLsbD 1) → t.evt.halrt = s.evt.halrt)
    ∧ ((∃ n, n < 64 ∧ (src s n).status ∧ (src s n).en ∧ (src s n).cfg.getLsbD 1) →
        (∀ n, n < 64 → ((src t n).status && (src t n).en && (src t n).cfg.getLsbD 1) = false) → t.evt.halrt = false)
    ∧ t = { s with evt := { s.evt with srcs := t.evt.srcs, halrt := t.evt.halrt } })
  ∧ (∀ p (v : Word) s, s.up = true → s.nvs.rescue = false → s.settled = true → s.regOn .events64 = true →
    s.evt.srcs.length = 64 → (src s 63).en = true →
    (v.extractLsb' 16 16 = 0xEE63 → ∃ t, exec (.evtRaise p v) s = .next t
      ∧ (src t 63).status = true ∧ (src t 63).arg = (v.extractLsb' 0 16).setWidth 24 ∧ (src t 63).total = satAdd (src s 63).total 1
      ∧ (∀ n, n ≠ 63 → src t n = src s n) ∧ t = { s with evt := t.evt })
    ∧ (v.extractLsb' 16 16 ≠ 0xEE63 → exec (.evtRaise p v) s = .next s))
  ∧ ∀ s, s.evt.srcs.length = 64 → (s.pinEvtLow = true ↔ s.pd2 = true ∧ ∃ n, n < 64 ∧ (src s n).status = true
    ∧ (src s n).en = true ∧ (src s n).cfg.getLsbD 4 = true)

/-- Register access over a two-wire port takes only its shapes (R292, R293, R294, R295, R296, R307). -/
def Obligations.TwbRegisters : Prop :=
  let check := fun (s : State) p addr (bs : List Byte) =>
    bs ++ (if (s.port p).cfg.getLsbD 0 then [pecOf (addrByte addr false :: bs)] else [])
  (∀ p addr s, s.answers p 0 addr false = true → ((s.port p).exec = none ∨ (s.port p).staged = none) →
    (∀ al ah : Byte, exec (.twbA0SetPointer p addr (check s p addr [al, ah]) true) s
        = .next (s.setPort p (fun t => { t with pointer := ah ++ al })))
    ∧ (∀ al ah d0 d1 d2 d3 : Byte, exec (.twbA0Write p addr (check s p addr [al, ah, d0, d1, d2, d3]) true) s
        = .next (s.setPort p (fun t => if t.exec = none
            then { t with pointer := ah ++ al, exec := some (ah ++ al, d3 ++ d2 ++ d1 ++ d0) }
            else { t with pointer := ah ++ al, staged := some (ah ++ al, d3 ++ d2 ++ d1 ++ d0) })))
    ∧ (∀ (bs : List Byte) c stop, (s.port p).cfg.getLsbD 0 = true → c ≠ pecOf (addrByte addr false :: bs) →
        bs.length = 6 ∨ (bs.length = 2 ∧ stop = true) → exec (.twbA0Write p addr (bs ++ [c]) stop) s
        = .next (s.setPort p (fun t => { t with errPec := satAdd t.errPec 1 })))
    ∧ (∀ (bs : List Byte) stop, bs.length ≠ 6 + ((s.port p).cfg.getLsbD 0).toNat →
        bs.length ≠ 2 + ((s.port p).cfg.getLsbD 0).toNat ∨ stop = false → exec (.twbA0Write p addr bs stop) s
        = .next (s.setPort p (fun t => { t with
            errDiscard := satAdd t.errDiscard 1
            pointer := if 2 ≤ bs.length then nth bs 1 0 ++ nth bs 0 0 else t.pointer })))
    ∧ (∀ al ah d0 d1 d2 d3 : Byte, exec (.twbA0Write p addr (check s p addr [al, ah, d0, d1, d2, d3]) false) s
        = .next (s.setPort p (fun t => { t with errDiscard := satAdd t.errDiscard 1, pointer := ah ++ al }))))
  ∧ (∀ p addr s, s.answers p 0 addr true = true → (s.port p).exec = none → (s.port p).staged = none →
    let u := s.setPort p (fun t => { t with busy := true })
    let a := (s.port p).pointer
    ((s.port p).cfg.getLsbD 0 = false →
      (∃ t, exec (.twbA0Read p addr [] 4 true) s = .next t
        ∧ t = (u.afterRead (portPath p) a).setPort p (fun x => { x with
            busy := false, pointer := x.pointer + 4, sent := leBytes 4 (u.hubRead (portPath p) a).toNat }))
      ∧ ∀ count stop, ∃ t, exec (.twbA0Read p addr [] count stop) s = .next t ∧ (t.port p).sent.length = count
        ∧ (t.port p).pointer = a + BitVec.ofNat 16 (4 * (min count 32 / 4)) ∧ (t.port p).busy = false
        ∧ (∀ i, 32 ≤ i → i < count → nth (t.port p).sent i 0 = 0xFF)
        ∧ (t.port p).errDiscard = (if stop = true ∧ 0 < count then (s.port p).errDiscard else satAdd (s.port p).errDiscard 1)
        ∧ t.nv = s.nv ∧ t.pow = s.pow ∧ t.feat = s.feat)
    ∧ ((s.port p).cfg.getLsbD 0 = true → (s.port p).readLen = 4 →
      ∃ t, exec (.twbA0Read p addr [] 5 true) s = .next t
        ∧ (t.port p).sent = (let d := leBytes 4 (u.hubRead (portPath p) a).toNat; d ++ [pecOf (addrByte addr true :: d)])
        ∧ (t.port p).pointer = a + 4 ∧ (t.port p).errDiscard = (s.port p).errDiscard)
    ∧ ((s.port p).cfg.getLsbD 0 = true → (s.port p).readLen = 0 ∨ 32 < (s.port p).readLen → ∀ count stop,
      exec (.twbA0Read p addr [] count stop) s = .next (s.setPort p (fun t => { t with
        errDiscard := satAdd t.errDiscard 1, sent := List.replicate count 0xFF }))))
  ∧ (∀ p a v s, s.up = true → (s.port p).exec = some (a, v) → ∃ t, exec (.twbStagedApply p) s = .next t
    ∧ (let u := (s.setPort p (fun x => { x with exec := none })).hubWrite (portPath p) a v
      t = if (u.port p).exec = none then u.setPort p (fun x => { x with exec := x.staged, staged := none }) else u))
  ∧ (∀ p s, s.up = true → (s.port p).exec = none → exec (.twbStagedApply p) s
    = .next (s.setPort p (fun x => { x with exec := x.staged, staged := none })))
  ∧ ∀ p s, s.up = true → ((s.port p).cfg.getLsbD 1 = true → ∃ t, exec (.twbSclTimeout p) s = .next t
      ∧ t.port p = { s.port p with staged := none, read := none, tmout := satAdd (s.port p).tmout 1 }
      ∧ (∀ q, q ≠ p → t.port q = s.port q)
      ∧ t = { s with twb := t.twb, pool := t.pool, evt := t.evt })
    ∧ ((s.port p).cfg.getLsbD 1 = false → exec (.twbSclTimeout p) s = .next s)

/-- The bulk stream, the Alert Response and the controller role of the two-wire ports (R282, R297, R298, R300, R301,
R302, R303, R305, R306). -/
def Obligations.TwbStream : Prop :=
  (∀ p addr g s, s.answers p 1 addr false = true → (s.port p).read = none →
    ((s.pool.claim (portHolder p)).2 = true → exec (.twbA1Read p addr g) s
      = .next ({ s with pool := (s.pool.claim (portHolder p)).1 }.setPort p (fun t => { t with
          read := some ⟨g, false, false, false, 0, []⟩ })))
    ∧ ((s.pool.claim (portHolder p)).2 = false → exec (.twbA1Read p addr g) s
      = .next ({ s with pool := (s.pool.claim (portHolder p)).1 }.setPort p (fun t => { t with
          busyCount := satAdd t.busyCount 1 }))))
  ∧ (∀ p r s, s.up = true → (s.port p).read = some r → r.filled = false → ∃ t q, exec (.twbA1FillDone p) s = .next t
    ∧ (t.port p).read = some q ∧ q.filled = true ∧ q.ring = r.ring
    ∧ (let cur := (s.port p).cursor r.ring
      let l := (s.ringBytes r.ring).filter (fun e => cur ≤ e.1)
      q.recs = (l.take (match r.ring with | .fault => 7 | .event => 15)).map (·.2)
      ∧ q.first = (match l with | [] => cur | e :: _ => e.1) ∧ (q.gap = true ↔ cur < q.first)
      ∧ (q.more = true ↔ q.recs.length < l.length))
    ∧ t = s.setPort p (fun x => { x with read := (t.port p).read }))
  ∧ (∀ p addr again stop s, s.answers p 1 addr true = true → ∃ t, exec (.twbA1ReadPhase p addr again stop) s = .next t
    ∧ (t.port p).sent = (s.port p).phase addr again
    ∧ (∀ r, (s.port p).read = some r → r.filled = true → stop = true →
        (t.port p).read = none ∧ (t.port p).cursor r.ring = r.first + r.recs.length ∧ t.pool = s.pool.free (portHolder p)
        ∧ t = { s.setPort p (fun x => ({ x with read := none, sent := (t.port p).sent }).setCursor r.ring (r.first + r.recs.length))
            with pool := s.pool.free (portHolder p) })
    ∧ ((∀ r, (s.port p).read = some r → r.filled = false ∨ stop = false) →
        t = s.setPort p (fun x => { x with sent := (t.port p).sent })))
  ∧ (∀ p r s, s.up = true → (s.port p).read = some r → (r.filled = true → exec (.twbA1ReadExpiry p) s
      = .next { s.setPort p (fun x => { x with read := none }) with pool := s.pool.free (portHolder p) })
    ∧ (r.filled = false → exec (.twbA1ReadExpiry p) s = .next s))
  ∧ (∀ p addr g (seq : Word) s, s.answers p 1 addr false = true → (s.port p).read = none →
    let seek := fun n => Host.Outcome.next (s.setPort p (fun t => t.setCursor g n))
    exec (.twbA1SeekSeq p addr g seq true) s = seek (max (s.oldSeq g) (min seq.toNat (s.nextSeq g)))
    ∧ exec (.twbA1SeekOldest p addr g true) s = seek (s.oldSeq g)
    ∧ (s.oldSeq g ≤ s.nextSeq g → exec (.twbA1SeekNext p addr g true) s = seek (s.nextSeq g))
    ∧ ((s.port p).cfg.getLsbD 0 = true → exec (.twbA1SeekSeq p addr g seq false) s
        = .next (s.setPort p (fun t => { t with errPec := satAdd t.errPec 1 }))))
  ∧ (∀ other s, s.up = true → (s.evt.halrt = true ∨ s.twb.a1Pend = true) →
    let mine := (if s.evt.halrt then 0x58 else 0x60) + s.pow.straps.hsa.toNat
    ((∀ a : BitVec 7, other = some a → mine ≤ a.toNat) → ∃ t, exec (.alertResponse other) s = .next t
      ∧ t.evt = { s.evt with halrt := false } ∧ t.twb.a1Pend = (s.twb.a1Pend && s.evt.halrt)
      ∧ t.twb.host.sent.head? = some (BitVec.ofNat 8 (2 * mine))
      ∧ t = { s with
                evt := t.evt
                twb := { s.twb with host := { s.twb.host with sent := t.twb.host.sent }, a1Pend := t.twb.a1Pend } })
    ∧ (∀ a : BitVec 7, other = some a → a.toNat < mine → exec (.alertResponse other) s = .next s))
  ∧ (∀ src cnt o d s, s.up = true → s.twb.host.job = some (.notify src cnt) →
    let c := if s.twb.host.tries = 0 then Instr.hostNotifySend o else .twbControllerRetry .host o d
    let lost := if o = .arbLost then satAdd s.twb.host.arbLost 1 else s.twb.host.arbLost
    let out := [addrByte 8 false, BitVec.ofNat 8 (2 * (0x58 + s.pow.straps.hsa.toNat)), src, cnt]
    (o = .ack → exec c s = .next { s with
      twb := { s.twb with host := { s.twb.host with job := none, tries := 0, sent := out }, hnSent := satAdd s.twb.hnSent 1 } })
    ∧ (o ≠ .ack → s.twb.host.tries < 8 → exec c s = .next { s with
      twb := { s.twb with host := { s.twb.host with tries := s.twb.host.tries + 1, arbLost := lost, sent := out } } })
    ∧ (o ≠ .ack → 8 ≤ s.twb.host.tries → exec c s = .next { s with
      twb := { s.twb with host := { s.twb.host with job := none, tries := 0, arbLost := lost, sent := out }, hnAband := satAdd s.twb.hnAband 1 }
      evt := { s.evt with halrt := true } }))
  ∧ ∀ (k : Fin 4) (b0 b1 : Byte) q s, s.up = true → s.twb.polls.length = 4 →
    nth s.twb.polls k ⟨0, 0, false, false, 0⟩ = q → q.cfg.getLsbD 31 = true → q.cfg.getLsbD 17 = false →
    let out := [addrByte (q.cfg.setWidth 7) false, q.cfg.extractLsb' 8 8, addrByte (q.cfg.setWidth 7) true]
    (s.twb.loc.job = none → k ∉ s.twb.due → ∃ t, exec (.twbPollDue k .ack [b0, b1]) s = .next t
      ∧ nth t.twb.polls k ⟨0, 0, false, false, 0⟩ = { q with
          data := if q.cfg.getLsbD 16 then b1 ++ b0 else b0.setWidth 16, valid := true, fail := false, ageMs := 0 }
      ∧ (∀ m, m ≠ k.val → nth t.twb.polls m ⟨0, 0, false, false, 0⟩ = nth s.twb.polls m ⟨0, 0, false, false, 0⟩)
      ∧ t = { s with twb := { s.twb with
          loc := { s.twb.loc with job := s.twb.due.head?.map TwbJob.poll, tries := 0, sent := out }
          due := s.twb.due.tail, polls := t.twb.polls } })
    ∧ (s.twb.loc.job = none → k ∉ s.twb.due → exec (.twbPollDue k .nack []) s = .next { s with
        twb := { s.twb with loc := { s.twb.loc with job := some (.poll k), tries := 1, sent := out } } })
    ∧ (s.twb.loc.job = some (.poll k) → s.twb.loc.tries < 8 → exec (.twbControllerRetry .loc .nack []) s = .next { s with
        twb := { s.twb with loc := { s.twb.loc with tries := s.twb.loc.tries + 1, sent := out } } })
    ∧ (s.twb.loc.job = some (.poll k) → s.twb.loc.tries = 8 → ∃ t, exec (.twbControllerRetry .loc .nack []) s = .next t
      ∧ nth t.twb.polls k ⟨0, 0, false, false, 0⟩ = { q with fail := true }
      ∧ t.twb.loc.job = s.twb.due.head?.map TwbJob.poll ∧ t.twb.due = s.twb.due.tail ∧ t.twb.loc.tries = 0)
    ∧ (s.twb.loc.job = some (.poll k) ∨ k ∈ s.twb.due → exec (.twbPollDue k .ack [b0, b1]) s = .next s)
    ∧ (s.twb.loc.job ≠ none → s.twb.loc.job ≠ some (.poll k) → k ∉ s.twb.due → exec (.twbPollDue k .ack [b0, b1]) s
        = .next { s with twb := { s.twb with due := s.twb.due ++ [k] } })

/-- Characters build a line, a terminator queues it, the interpreter takes the oldest (R299, R313, R315, R316, R319,
R321, R323). -/
def Obligations.ConsoleLines : Prop :=
  let echo := fun (x : Sess) (t : Text) (y : SessSt) => if y.out.length + t.length ≤ outCap x then y.out ++ t else y.out
  (∀ x (c : Byte) s, s.up = true → (s.ses x).machine = false → c ≠ 0x0D → c ≠ 0x0A →
    exec (.conCharacter x c) s = .next (s.setSes x (fun y => { y with
      afterCr := false
      line := if 0x20 ≤ c.toNat ∧ c.toNat ≤ 0x7E then
            (if y.tooLong ∨ 160 ≤ y.line.length then y.line else y.line ++ [Char.ofNat c.toNat])
          else if c = 8 ∨ c = 0x7F then y.line.dropLast else if c = 0x15 then [] else y.line
      tooLong := if 0x20 ≤ c.toNat ∧ c.toNat ≤ 0x7E then y.tooLong || decide (160 ≤ y.line.length)
          else y.tooLong && c != 0x15
      out := if 0x20 ≤ c.toNat ∧ c.toNat ≤ 0x7E then
            (if y.tooLong ∨ 160 ≤ y.line.length then y.out else echo x [Char.ofNat c.toNat] y)
          else if c = 8 ∨ c = 0x7F then (if y.line = [] then y.out else echo x [Char.ofNat 8, ' ', Char.ofNat 8] y)
          else if c = 0x15 then echo x (crlf ++ prompt) y else y.out })))
  ∧ (∀ x (c : Byte) s, s.up = true → (s.ses x).machine = true → c ≠ 0x0D → c ≠ 0x0A →
    exec (.conCharacter x c) s = .next (s.setSes x (fun y => { y with
      afterCr := false
      line := if y.tooLong ∨ 160 ≤ y.line.length then y.line else y.line ++ [Char.ofNat c.toNat]
      tooLong := y.tooLong || decide (160 ≤ y.line.length) })))
  ∧ (∀ x s, s.up = true → (s.ses x).afterCr = true →
    exec (.conLine x 0x0A) s = .next (s.setSes x (fun y => { y with afterCr := false })))
  ∧ (∀ x c s, s.up = true → c = 0x0D ∨ (c = 0x0A ∧ (s.ses x).afterCr = false) → ∃ t, exec (.conLine x c) s = .next t
    ∧ exec (.conCharacter x c) s = .next t
    ∧ (t.ses x).line = [] ∧ (t.ses x).tooLong = false ∧ (t.ses x).machine = (s.ses x).machine
    ∧ (x = .uart → t.con.revertTo = none) ∧ t.nv = s.nv ∧ t.nvs = s.nvs ∧ t.con.exec = s.con.exec ∧ t.con.cfg = s.con.cfg
    ∧ ((s.ses x).machine = false → (s.ses x).tooLong = false → wordsOf (s.ses x).line ≠ [] → s.con.queue.length < 4 →
        t.con.queue = s.con.queue ++ [(⟨x, none⟩, (s.ses x).line)] ∧ t = { s with con := t.con })
    ∧ ((s.ses x).machine = false → (s.ses x).tooLong = true ∨ wordsOf (s.ses x).line = [] → t.con.queue = s.con.queue)
    ∧ (∀ nn l, (s.ses x).machine = true → (s.ses x).tooLong = false → machineForm (s.ses x).line = some (nn, l, true) →
        s.con.queue.length < 4 → t.con.queue = s.con.queue ++ [(⟨x, some nn⟩, l)] ∧ t.con.errCrc = s.con.errCrc)
    ∧ ((s.ses x).machine = true → (s.ses x).tooLong = true ∨ machineForm (s.ses x).line = none
        ∨ (∃ nn l, machineForm (s.ses x).line = some (nn, l, false)) →
        t.con.queue = s.con.queue ∧ t.con.errCrc = satAdd s.con.errCrc 1)
    ∧ (4 ≤ s.con.queue.length → t.con.queue = s.con.queue
        ∧ ((s.ses x).machine = false → (s.ses x).tooLong = false → wordsOf (s.ses x).line ≠ [] →
            t.con.errBusy = satAdd s.con.errBusy 1)))
  ∧ (∀ rq l q w k s, s.up = true → s.conIdle = true → s.con.queue = (rq, l) :: q → parseLine rq.nn.isSome l = .ok (w, k) →
    exec .conExecute s = .next (State.runCmd { s with con := { s.con with queue := q } } rq k))
  ∧ (∀ s, s.con.queue = [] ∨ s.conIdle = false → exec .conExecute s = .next s)
  ∧ (∀ p addr (n : Byte) (cs : List Byte) s, s.answers p 2 addr false = true → (s.pool.claim (portHolder p)).2 = true →
    1 ≤ n.toNat → n.toNat ≤ 32 → cs.length = n.toNat →
    let bs := n :: cs ++ (if (s.port p).cfg.getLsbD 0 then [pecOf (addrByte addr false :: n :: cs)] else [])
    exec (.twbA2Write p addr bs true) s = .next (cs.foldl (fun u c => u.conRx (portSess p) c)
      { s with pool := (s.pool.claim (portHolder p)).1.free (portHolder p) }))
  ∧ (∀ p addr bs stop s, s.answers p 2 addr false = true → bs ≠ [] → (s.pool.claim (portHolder p)).2 = false →
    exec (.twbA2Write p addr bs stop) s = .next ({ s with pool := (s.pool.claim (portHolder p)).1 }.setPort p
      (fun t => { t with busyCount := satAdd t.busyCount 1 })))
  ∧ ∀ p addr s, s.answers p 2 addr true = true →
    let x := portSess p
    let cs := (s.ses x).out.take 32
    let body := BitVec.ofNat 8 cs.length :: cs.map (fun c => BitVec.ofNat 8 c.toNat)
    let sent := if (s.port p).cfg.getLsbD 0 then body ++ [pecOf (addrByte addr true :: body)] else body
    exec (.twbA2Read p addr false) s = .next (s.setPort p (fun t => { t with sent := sent }))
    ∧ ((s.ses x).resp = [] → (s.ses x).backlog = [] → (s.ses x).lost = 0 → (s.ses x).ending = none → ∃ t,
        exec (.twbA2Read p addr true) s = .next t ∧ (t.port p).sent = sent ∧ (t.ses x).out = (s.ses x).out.drop 32
        ∧ t = { s with twb := t.twb, con := t.con, pool := t.pool })

/-- Break, revert, cut responses, asynchronous lines and the end of an unlock (R311, R313, R314, R325, R326, R330,
R331). -/
def Obligations.ConsoleSessions : Prop :=
  (∀ s, s.up = true → ∃ t, exec .conBreak s = .next t
    ∧ t.con.uart = { SessSt.fresh with out := prompt } ∧ t.con.host = s.con.host ∧ t.con.loc = s.con.loc
    ∧ t.con.queue = s.con.queue.filter (fun e => e.1.sess ≠ .uart)
    ∧ t.con.exec = (if s.con.exec.any (fun e => e.req.sess = .uart) then none else s.con.exec)
    ∧ t.con.rate = 4 ∧ t.con.breakRate = true ∧ t.con.revertTo = none ∧ t.con.cfg = s.con.cfg
    ∧ (s.con.uart.unlocked = false → t.evt = s.evt) ∧ t = { s with con := t.con, evt := t.evt, pool := t.pool })
  ∧ (∀ r s, s.up = true → s.con.revertTo = some r → ∃ t, exec .baudRevert s = .next t
    ∧ t.con.cfg.extractLsb' 0 4 = r ∧ t.con.cfg.extractLsb' 4 28 = s.con.cfg.extractLsb' 4 28 ∧ t.con.revertTo = none
    ∧ (s.con.uart.out = [] → s.con.breakRate = false → t.con.rate = r)
    ∧ (r ≠ s.con.cfg.extractLsb' 0 4 → t.nvs.pend.contains 3 = true)
    ∧ t = { s with
              con := { s.con with cfg := t.con.cfg, revertTo := none, rate := t.con.rate }
              nvs := { s.nvs with pend := t.nvs.pend } })
  ∧ (∀ s, s.con.revertTo = none → exec .baudRevert s = .next s)
  ∧ (∀ x s, s.up = true → (s.ses x).resp ≠ [] → outCap x ≤ (s.ses x).out.length → s.executes x = false →
    ∃ t, exec (.conResponseCut x) s = .next t
    ∧ (t.ses x) = { s.ses x with
        resp := [], ending := none
        lost := (s.ses x).lost + ((s.ses x).resp.filter (fun l => l.getLast? = some '\n')).length }
    ∧ (∀ y, y ≠ x → t.ses y = s.ses y) ∧ t.con.queue = s.con.queue
    ∧ t = { s with con := t.con, pool := t.pool })
  ∧ (∀ x s, (s.ses x).resp = [] → exec (.conResponseCut x) s = .next s)
  ∧ (∀ l s, s.up = true → s.con.cfg.extractLsb' 16 3 = 1 → s.con.uart.machine = false → s.con.uart.line = [] →
    s.con.uart.resp = [] → s.con.uart.lost = 0 → s.con.uart.ending = none →
    (s.executes .uart = false → s.con.uart.backlog = [] → s.con.uart.out = [] → l.length ≤ 2000 →
      exec (.conAsyncLine l) s = .next (s.setSes .uart (fun y => { y with out := l ++ crlf ++ prompt })))
    ∧ (s.executes .uart = true → exec (.conAsyncLine l) s = .next (s.setSes .uart (fun y =>
        if y.backlog.length < 16 then { y with backlog := y.backlog ++ [l] }
        else { y with backlog := y.backlog.drop 1 ++ [l], lost := y.lost + 1 }))))
  ∧ (∀ l s, s.con.cfg.extractLsb' 16 3 = 0 → exec (.conAsyncLine l) s = .next s)
  ∧ (∀ s, s.up = true → s.con.uart.resp = [] → s.con.uart.backlog = [] → s.con.uart.lost = 0 →
    (s.con.uart.ending = none ∨ s.con.uart.ending = some .toMachine ∨ s.con.uart.ending = some .lock) →
    ∃ t, exec (.conOutputSent .uart) s = .next t
    ∧ t.con.uart = { s.con.uart with
        out := [], ending := none
        machine := s.con.uart.machine || decide (s.con.uart.ending = some .toMachine)
        unlocked := s.con.uart.unlocked && decide (s.con.uart.ending ≠ some .lock) }
    ∧ t.con.host = s.con.host ∧ t.con.loc = s.con.loc ∧ t.con.queue = s.con.queue
    ∧ t = { s with con := t.con, evt := t.evt, pool := t.pool })
  ∧ (∀ x s, s.up = true → ((s.ses x).unlocked = true → s.con.cfg.extractLsb' 8 8 ≠ 0 → ∃ t, exec (.unlockIdleEnd x) s = .next t
      ∧ t.ses x = { s.ses x with unlocked := false } ∧ (∀ y, y ≠ x → t.ses y = s.ses y)
      ∧ t = { s with con := t.con, evt := t.evt })
    ∧ ((s.ses x).unlocked = false ∨ s.con.cfg.extractLsb' 8 8 = 0 → exec (.unlockIdleEnd x) s = .next s))
  ∧ ∀ s, exec .unlockLockoutEnd s = .next { s with con := { s.con with lockout := false } }

/-- Read commands answer and change nothing; session commands act once their answer is sent (R311, R316, R318, R322,
R324, R329, R330, R334, R338, R340). -/
def Obligations.ConsoleAnswers : Prop :=
  (∀ rq s, s.conReady rq →
    let u := s.conTaken
    let x := rq.sess
    let only := fun (v t : State) => (∀ y, y ≠ x → t.ses y = v.ses y)
      ∧ t = { v with con := t.con, pool := t.pool, evt := t.evt }
    let tells := fun (v : State) (c : Instr) (ls : List Text) => ∃ t, exec c s = .next t ∧ only v t
      ∧ (∀ nn, rq.nn = some nn → (t.ses x).lastNn = some nn)
      ∧ (rq.nn = none → (v.ses x).quiet → (answerText ls).length ≤ outCap x →
          t.ses x = { v.ses x with out := answerText ls } ∧ t.evt = v.evt)
    tells u (.help rq []) (helpLines tree) ∧ tells u (.id rq) u.idLines ∧ tells u (.featureShow rq) u.featureLines
    ∧ tells u (.show rq .host) u.hostLines ∧ tells u (.show rq .twb) u.twbLines ∧ tells u (.show rq .con) u.conLines
    ∧ tells u (.serviceStatus rq) u.serviceLines ∧ tells u (.timeShow rq) (u.timeLines 9) ∧ tells u (.trainShow rq) u.trainLines
    ∧ tells u (.calShow rq) u.calLines ∧ tells u (.nvsShow rq) u.nvsLines ∧ tells u (.nvsImageStatusCmd rq) u.imageLines
    ∧ tells u (.clockShow rq) u.clockLines ∧ (∀ f, tells u (.powerDomains rq f) (u.powerLines f)) ∧ tells u (.maintShow rq) u.maintLines
    ∧ (s.regOn .liveTrim = true → tells u (.trimShow rq) u.trimLines)
    ∧ (s.offers .retain = true → tells (State.conReads [0x1D08, 0x1D10, 0x1D40, 0x1D48] u) (.keepStatus rq)
        (State.conReads [0x1D08, 0x1D10, 0x1D40, 0x1D48] u).keepLines)
    ∧ (s.regOn .hoard = true → ∀ m, tells u (.hoardStatus rq m) (if m then u.hoardMapLines else u.hoardLines))
    ∧ (s.regOn .faultWindows = true → tells u (.faultList rq none) u.faultLines
        ∧ ∀ (c : Fin 6) i, s.resPresent c i = true → resIndexOk c i = true → tells u (.faultList rq (some (c, i))) (u.faultShow c i))
    ∧ (∀ n, (∀ k, n = some k → s.evtRegPresent k = true) → tells u (.eventShow rq n) (u.eventLines n))
    ∧ (∀ g start k, 1 ≤ k → k ≤ 64 → start.getD 0 < 2 ^ 32 → tells u (.log rq g start k) (u.logLines g start k))
    ∧ (∀ a : Addr, a.toNat % 4 = 0 → tells (u.afterRead .console a) (.peek rq a 1)
        [hex0 4 a.toNat ++ tx " = " ++ hexWord (u.hubRead .console a)]))
  ∧ (∀ rq s, s.conReady rq →
    let x := rq.sess
    let ends := fun (c : Instr) (e : Ending) => ∃ t, exec c s = .next t ∧ (t.ses x).ending = some e
      ∧ (t.ses x).machine = (s.ses x).machine ∧ (t.ses x).unlocked = (s.ses x).unlocked ∧ (∀ y, y ≠ x → t.ses y = s.ses y)
      ∧ t.con.cfg = s.con.cfg ∧ t = { s with con := t.con, pool := t.pool }
    (s.locked = true → s.regOn .conMachine = true → ends (.modeMachine rq) .toMachine)
    ∧ ends (.modeTyped rq) .toTyped ∧ ends (.serviceLock rq) .lock
    ∧ (s.conDenied rq = false → ends (.resetMgmt rq) .mrst
      ∧ ∀ k rate, k < 12 → rates[k]? = some rate → ends (.baud rq rate) (.baud (BitVec.ofNat 4 k)))
    ∧ ∀ code, (s.codeRight code = true → s.con.lockout = false → (s.ses x).quiet → rq.nn = none →
        ∃ t, exec (.serviceUnlock rq code) s = .next t ∧ (t.ses x).unlocked = true ∧ (∀ y, y ≠ x → t.ses y = s.ses y)
        ∧ t.con.wrong = 0 ∧ t.con.granted = satAdd s.con.granted 1 ∧ t.con.denied = s.con.denied
        ∧ t = { s with con := t.con, pool := t.pool, evt := t.evt })
      ∧ (s.codeRight code = false → ∃ t, exec (.serviceUnlock rq code) s = .next t
        ∧ (∀ y, (t.ses y).unlocked = (s.ses y).unlocked) ∧ t.con.denied = satAdd s.con.denied 1
        ∧ t.con.lockout = (s.con.lockout || s.con.wrong == 2)
        ∧ (s.con.lockout = false → s.con.wrong < 2 → t.con.wrong = s.con.wrong + 1)
        ∧ t = { s with con := t.con, pool := t.pool, evt := t.evt }))
  ∧ ∀ rq s a v, s.up = true → s.conIdle = true → rq.nn.isSome = true → (s.ses rq.sess).lastNn = rq.nn → a.toNat % 4 = 0 →
    ∃ t, exec (.poke rq a v) s = .next t ∧ exec (.id rq) s = .next t
    ∧ t = { s with con := t.con, pool := t.pool, evt := t.evt }

/-- A write command makes its register writes in order, then answers; unlocked sessions only (R328, R334, R335, R336,
R337, R339, R341, R342, R343, R344, R346, R349). -/
def Obligations.ConsoleCommands : Prop :=
  (∀ rq s, s.conReady rq → s.conDenied rq = false →
    let u := s.conTaken
    let writes := fun (c : Instr) (ws : List (Nat × Word)) (txt : State → Text) => u.admits ws →
      exec c s = .next ((u.wrote ws).respondOk rq (txt (u.wrote ws)))
    let back := fun (c : Instr) (ws : List (Nat × Word)) (txt : State → Text) => u.admits ws →
      exec c s = .next (((u.wrote ws).setSel .console (fun _ => s.sel .console)).respondOk rq (txt (u.wrote ws)))
    let waits := fun (c : Instr) (ws : List (Nat × Word)) (w : State → Wait) (ms : Nat) => u.admits ws →
      exec c s = .next (let v := u.wrote ws; { v with con := { v.con with exec := some ⟨rq, w v, ms⟩ } })
    let none' := fun (_ : State) => ([] : Text)
    (s.locked = false → (∀ m, m ≤ 0xFFFF → writes (.featureAccept rq m) [(0x0048, BitVec.ofNat 32 m)] none')
      ∧ (s.feat.accept.getLsbD 0 = true → waits (.featureLock rq) [(0x0050, 0xA5C3)] (fun _ => .settled) 2)
      ∧ ∀ n, 5 ≤ n → n ≤ 300 → writes (.featureDeadline rq n) [(0x0060, BitVec.ofNat 32 n)] none')
    ∧ (∀ (a : Addr) v, a.toNat % 4 = 0 → exec (.poke rq a v) s = .next ((u.hubWrite .console a v).respondOk rq []))
    ∧ (∀ t : Civil, civilOk t = true → ∃ (off : Int) (w : BitVec 48), off = (civilSecs t : Int) - s.clk.life.toNat
      ∧ w = BitVec.ofInt 48 off ∧ writes (.timeSet rq t) [(0x2C1C, w.setWidth 32), (0x2C20, (w >>> 32).setWidth 32 ||| 0x80000000)]
        (fun _ => tx "time set offset " ++ decInt off ++ tx " s"))
    ∧ writes (.timeClear rq) [(0x2C20, 0)] none'
    ∧ (s.regOn .liveTrim = true → ∀ p, writes (.trimPause rq p) [(0x1200, setFld (u.hubRead .console 0x1200) 15 15 p.toNat)] none')
    ∧ (∀ x rank, s.pow.straps.nodb = false → s.rankFitted x rank = true → (s.tr x).rankFail.getLsbD rank = false →
      ∃ t, exec (.trainMaint rq x rank) s = .next t ∧ t.tr x = { s.tr x with want := (s.tr x).want ||| BitVec.ofNat 4 (2 ^ rank) }
      ∧ (∀ y, y ≠ x → t.tr y = s.tr y) ∧ t = { s with train := t.train, con := t.con, pool := t.pool, evt := t.evt })
    ∧ (s.regOn .warmBoot = true → s.gated = false → ∀ b, writes (.trainSave rq b) [(0x1110, if b then 0x5A01 else 0x5A02)]
      (fun _ => tx (if b then "train save pending" else "train invalidate pending")))
    ∧ (s.calDom = true → ∀ vref (n : Nat), n ≤ 10 → (n ≠ 0 → s.fnOn .dbPresent = true ∧ s.zlb.present.getLsbD (n - 1) = true
        ∧ s.unreach (n - 1) = false) →
      let ws : List (Nat × Word) := [(0x1008, BitVec.ofNat 32 (0xCA1B0000 + 16 * n + (if vref then 2 else 1)))]
      (n = 0 ∨ (u.wrote ws).unreach (n - 1) = false) → ((u.wrote ws).calOpen n = true →
        waits (.calTapVrefCmd rq vref (some n)) ws (fun _ => .cal vref [n] []) 100)
      ∧ ((u.wrote ws).calOpen n = false → writes (.calTapVrefCmd rq vref (some n)) ws
        (fun v => tx "cal count " ++ dec v.cal.body.count.toNat)))
    ∧ (s.regOn .calAdc = true → (s.pow.dom = .run ∨ s.pow.dom = .attended) → s.unreach 10 = false → ∀ mv, 2000 ≤ mv → mv ≤ 12000 →
      waits (.calAdcRef rq mv) [(0x1038, BitVec.ofNat 32 mv), (0x1008, 0xCA1B00B4)] (fun _ => .adc) 50)
    ∧ (s.offers .retain = true → (∀ n, 10 ≤ n → n ≤ 65535 → writes (.keepSpan rq false n) [(0x1C0C, BitVec.ofNat 32 n)] none')
      ∧ (∀ n, n ≤ 4000 → writes (.keepSpan rq true n) [(0x1C14, BitVec.ofNat 32 n)] none')
      ∧ (s.unreach 10 = false → (∀ v a, 40 ≤ v → v ≤ 116 → v ≤ s.zxp.vmax.toNat → 1 ≤ a → a ≤ 30 →
          writes (.keepCharge rq (some (v, a))) [(0x1D10, BitVec.ofNat 32 (v + 256 * a + 65536))] none')
        ∧ writes (.keepCharge rq none) [(0x1D10, setFld (u.hubRead .console 0x1D10) 16 16 0)] none'
        ∧ ∀ c, 10 ≤ c → c ≤ 1000 → writes (.keepPack rq c) [(0x1D18, BitVec.ofNat 32 c)] none'))
    ∧ (s.regOn .hoard = true → (∀ i, i ≤ 15 → s.hrd.st = .idle → s.hrd.unfinished = false →
        back (.hoardExtent rq i none) [(0x3814, BitVec.ofNat 32 i), (0x3818, (nth s.hrd.extents i ⟨0, 0⟩).lo &&& 0x7FFFFFFF)]
          (fun _ => tx "extent " ++ dec i ++ tx " off")
        ∧ ∀ x : ExtArg, x.rank ≤ 3 → x.cid ≤ 3 → x.first ≤ 0x1FFFF → 1 ≤ x.rows → x.rows ≤ 131072 →
          back (.hoardExtent rq i (some x)) [(0x3814, BitVec.ofNat 32 i), (0x3818, extLo x), (0x381C, BitVec.ofNat 32 x.rows),
            (0x3818, extLo x ||| 0x80000000)] (fun v => v.extentOkText i x.rows))
      ∧ (s.hrd.unfinished = false → ∀ on, writes (.hoardLend rq on) [(0x3810, BitVec.ofNat 32 on.toNat)] none')
      ∧ (s.hrd.unfinished = true → writes (.hoardDiscard rq) [(0x3838, 0x4B0D0001)] none'))
    ∧ (s.regOn .faultWindows = true → (∀ (c : Fin 6) w th (a : BitVec 5), (c = 5 → s.offers .retain = true) → 1 ≤ w → w ≤ 43200 →
        1 ≤ th → th ≤ 255 → actionOk c a.toNat = true →
        writes (.faultCfg rq c w th (some a)) [(0x1410 + 4 * c.val, packWord [(0, w), (16, th), (24, a.toNat)])] none')
      ∧ back (.faultClear rq none) [(0x143C, 0xF17C0003)] (fun _ => tx "fault clear all")
      ∧ (∀ c : Fin 6, back (.faultClear rq (some (c, none))) [(0x1430, selWord c none), (0x143C, 0xF17C0002)]
          (fun _ => tx "fault clear " ++ classWord c))
      ∧ (∀ (c : Fin 6) i, resIndexOk c i = true → s.resPresent c i = true →
        back (.faultClear rq (some (c, some i))) [(0x1430, selWord c (some i)), (0x143C, 0xF17C0001)]
          (fun _ => tx "fault clear " ++ classWord c ++ [' '] ++ dec i))
      ∧ (s.regOn .pprAuto = true → (∀ n, n ≤ 31 → back (.faultRepair rq true n) [(0x143C, BitVec.ofNat 32 (0xF17C0005 + 16 * n))] none')
        ∧ ∀ n, n ≤ 319 → s.resPresent 0 n = true → s.repairNowOk 0 n = true →
          back (.faultRepair rq false n) [(0x1430, selWord 0 (some n)), (0x143C, 0xF17C0004)] none')
      ∧ (s.offers .retain = true → back (.faultPackTest rq) [(0x143C, 0xF17C0006)] (fun _ => tx "pack test requested")))
    ∧ (∀ n, s.evtRegPresent n = true → let cfg := (nth s.evt.srcs n EvtSrc.fresh).cfg.toNat
      (∀ on, writes (.eventEnable rq n on) [(0x1900 + 4 * n, BitVec.ofNat 32 (cfg / 2 * 2 + on.toNat))] none')
      ∧ (∀ r : BitVec 5, writes (.eventRoute rq n r) [(0x1900 + 4 * n, BitVec.ofNat 32 (r.toNat * 2 + cfg % 2))] none')
      ∧ writes (.eventClear rq (some n)) [(if n < 32 then 0x1800 else 0x1804, BitVec.ofNat 32 (2 ^ (n % 32)))] none')
    ∧ writes (.eventClear rq none) [(0x1800, 0xFFFFFFFF), (0x1804, 0xFFFFFFFF)] none'
    ∧ (s.regOn .events64 = true → ∀ n, n ≤ 0xFFFF → writes (.eventRaiseCmd rq n) [(0x1814, BitVec.ofNat 32 (0xEE630000 + n))] none')
    ∧ (s.gated = false → s.locked = true → s.settled = true → let ws : List (Nat × Word) := [(0x2010, 0x9E570001)]
      ((u.wrote ws).nvs.pend = [] → writes (.nvsCommit rq) ws (fun _ => tx "nvs commit none"))
      ∧ ((u.wrote ws).settled = true → (u.wrote ws).nvs.rescue = false → (u.wrote ws).commitsOpen ≠ [] →
          waits (.nvsCommit rq) ws (fun v => .commits v.commitsOpen [] none) 10000))
    ∧ (s.gated = false → s.nvs.img = none → ∀ kib crc, 1 ≤ kib → kib ≤ 447 → crc < 2 ^ 32 → writes (.nvsImageStartCmd rq kib crc)
        [(0x2034, BitVec.ofNat 32 crc), (0x2030, BitVec.ofNat 32 (0x1A0D0000 + kib))] none')
    ∧ (s.nvs.img ≠ none → ∀ bs : List Byte, 4 ≤ bs.length → bs.length ≤ 64 → bs.length % 4 = 0 → bs.length / 4 ≤ s.imgSpace →
      (wordsFrom bs).length = bs.length / 4 ∧ writes (.nvsImageDataCmd rq bs) ((wordsFrom bs).map (fun w => (0x2038, w)))
        (fun v => tx "nvs image " ++ v.imgCounts ++ tx " words"))
    ∧ (s.regOn .settingsWrite = true → writes (.nvsImageAbortCmd rq) [(0x2010, 0x9E570002)] none')
    ∧ (∀ m : BitVec 5, writes (.powerClear rq m) [(0x1C04, BitVec.ofNat 32 (4 * m.toNat))] none')
    ∧ ∀ un, un ≠ .con → s.unitRefused un = none → (un = .hoard → s.hrd.st = .idle ∨ s.hrd.st = .erasing) →
      writes (.resetUnit rq un) [(0x2C10, BitVec.ofNat 32 (2 ^ unitBit un))] (fun _ => tx "crst " ++ unitText un))
  ∧ (∀ rq s, s.conReady rq → s.conDenied rq = false → ∃ t, exec (.resetUnit rq .con) s = .next t
    ∧ (t.ses rq.sess).ending = some (.crst 1) ∧ t = { s with con := t.con, pool := t.pool })
  ∧ ∀ rq s (a : Addr) v, s.conReady rq → s.conDenied rq = true → ∀ c, c ∈ [Instr.poke rq (a &&& 0xFFFC) v, .featureLock rq, .timeClear rq,
      .eventClear rq none, .nvsCommit rq, .resetMgmt rq, .faultClear rq none, .trainSave rq true, .baud rq 9600] →
    ∃ t, exec c s = .next t ∧ t = { s with con := t.con, pool := t.pool, evt := t.evt } ∧ t.con.cfg = s.con.cfg
      ∧ (t.ses rq.sess).ending = none

/-- Sends, pops, SELECT, liveness and core faults of the Warren (R75, R353, R359, R360, R361, R362, R364, R365, R366,
R367, R368). -/
def Obligations.Warren : Prop :=
  let route := fun (s : State) (n : Nat) => nth s.wrn.routes n (0 : Word)
  let stops := fun (s t : State) (core kind : Nat) => (t.wrn.core core).st = .stopped ∧ (t.wrn.core core).stall = none
    ∧ t.wrn.fault.extractLsb' 0 8 = BitVec.ofNat 8 (128 + 16 * kind + core)
    ∧ t.wrn.wdogForced = (s.wrn.wdogForced || decide (1 ≤ core ∧ core ≤ 10))
    ∧ ((s.wrn.core core).st = .running → t.wrn.chans = s.wrn.chans) ∧ (∀ m, (t.wrn.chan m).q = (s.wrn.chan m).q)
    ∧ (∀ m, m ≠ core → t.wrn.core m = s.wrn.core m) ∧ (core ≠ 11 → t.evt = s.evt)
    ∧ t = { s with wrn := t.wrn, evt := t.evt, free := t.free }
  let wrnOnly := fun (s t : State) => t = { s with wrn := { s.wrn with cores := t.wrn.cores, chans := t.wrn.chans } }
  (∀ (core : Fin 12) (ch : Fin 64) ws try_ s, s.up = true → (s.wrn.core core).st = .running → s.wrn.cores.length = 12 →
    s.wrn.chans.length = 64 →
    let c := { s.wrn.core core with sendW := (ws ++ (s.wrn.core core).sendW.drop ws.length).take 4 }
    let own := (route s ch).getLsbD 31 = true ∧ (route s ch).extractLsb' 0 4 = BitVec.ofNat 4 core
      ∧ (try_ = true ∨ (route s ch).getLsbD 14 = true)
    (own → (s.wrn.chan ch).q.length < 16 → ∃ t, exec (.warrenSend core ch ws try_) s = .next t
      ∧ t.wrn.chan ch = { s.wrn.chan ch with
          q := (s.wrn.chan ch).q ++ [ws], count := satAdd (s.wrn.chan ch).count 1
          high := BitVec.ofNat 5 (max (s.wrn.chan ch).high.toNat ((s.wrn.chan ch).q.length + 1)) }
      ∧ (∀ m, m ≠ ch.val → t.wrn.chan m = s.wrn.chan m)
      ∧ t.wrn.core core = (if try_ then { c with sendOk := true } else c)
      ∧ (∀ m, m ≠ core.val → t.wrn.core m = s.wrn.core m) ∧ wrnOnly s t)
    ∧ (own → 16 ≤ (s.wrn.chan ch).q.length → ∃ t, exec (.warrenSend core ch ws try_) s = .next t
      ∧ (try_ = false → t.wrn.core core = { c with st := .sendStall, stall := some (ch.val, ws) } ∧ t.wrn.chans = s.wrn.chans)
      ∧ (try_ = true → t.wrn.core core = { c with sendOk := false }
        ∧ t.wrn.chan ch = { s.wrn.chan ch with tryfail := satAdd (s.wrn.chan ch).tryfail 1 })
      ∧ (∀ m, m ≠ ch.val → t.wrn.chan m = s.wrn.chan m) ∧ (∀ m, m ≠ core.val → t.wrn.core m = s.wrn.core m) ∧ wrnOnly s t)
    ∧ (¬ own → ∃ t, exec (.warrenSend core ch ws try_) s = .next t ∧ stops s t core 3))
  ∧ (∀ (core : Fin 12) cycles ch ws s, s.up = true → (s.wrn.core core).stall = some (ch, ws) → s.wrn.cores.length = 12 →
    ch < s.wrn.chans.length →
    ((s.wrn.chan ch).q.length < 16 → ∃ t, exec (.sendStallEnd core cycles) s = .next t
      ∧ (t.wrn.chan ch).q = (s.wrn.chan ch).q ++ [ws] ∧ (t.wrn.chan ch).stall = satAdd (s.wrn.chan ch).stall cycles
      ∧ (t.wrn.chan ch).count = satAdd (s.wrn.chan ch).count 1
      ∧ t.wrn.core core = { s.wrn.core core with
          st := .running, stall := none, sstall := satAdd (s.wrn.core core).sstall cycles }
      ∧ (∀ m, m ≠ ch → t.wrn.chan m = s.wrn.chan m) ∧ (∀ m, m ≠ core.val → t.wrn.core m = s.wrn.core m) ∧ wrnOnly s t)
    ∧ (16 ≤ (s.wrn.chan ch).q.length → exec (.sendStallEnd core cycles) s = .next s))
  ∧ (∀ (core : Fin 12) (port : Fin 8) s, s.up = true → (s.wrn.core core).st = .running → s.wrn.cores.length = 12 →
    s.wrn.chans.length = 64 →
    (∀ ch ws q, s.wrn.feeder core port = some ch → (s.wrn.chan ch).q = ws :: q → ∃ t, exec (.warrenPop core port) s = .next t
      ∧ t.wrn.chan ch = { s.wrn.chan ch with q := q } ∧ (∀ m, m ≠ ch → t.wrn.chan m = s.wrn.chan m)
      ∧ t.wrn = { s.wrn with chans := t.wrn.chans } ∧ (ch < 62 → wrnOnly s t))
    ∧ ((s.wrn.feeder core port = none ∨ ∃ ch, s.wrn.feeder core port = some ch ∧ (s.wrn.chan ch).q = []) →
      ∃ t, exec (.warrenPop core port) s = .next t ∧ stops s t core 4))
  ∧ (∀ (core : Fin 12) mask round tmo s, s.up = true → (s.wrn.core core).st = .running → s.wrn.cores.length = 12 →
    ((mask ≠ 0 ∨ tmo ≠ 0) → ∃ t, exec (.select core mask round tmo) s = .next t
      ∧ t.wrn.core core = { s.wrn.core core with st := .select, selMask := mask, selRound := round, selTmo := tmo }
      ∧ (∀ m, m ≠ core.val → t.wrn.core m = s.wrn.core m) ∧ t.wrn.chans = s.wrn.chans ∧ wrnOnly s t)
    ∧ (mask = 0 → tmo = 0 → ∃ t, exec (.select core mask round tmo) s = .next t ∧ stops s t core 5))
  ∧ (∀ (core : Fin 12) out cycles s, s.up = true → (s.wrn.core core).st = .select → s.wrn.cores.length = 12 →
    let c := s.wrn.core core
    let ready := fun (p : Nat) => p < 8 ∧ c.selMask.getLsbD p = true ∧ s.wrn.portFull core p = true
    (∀ p, ready p → (if c.selRound then ∀ r, ready r → (p + 8 - c.rp.toNat) % 8 ≤ (r + 8 - c.rp.toNat) % 8
        else ∀ r, ready r → s.wrn.portPrio core r < s.wrn.portPrio core p ∨ (s.wrn.portPrio core r = s.wrn.portPrio core p ∧ p ≤ r)) →
      ∃ t, exec (.selectReturn core out cycles) s = .next t
      ∧ t.wrn.core core = { c with
          st := .running, selResult := BitVec.ofNat 4 p, swait := satAdd c.swait cycles
          rp := if c.selRound then BitVec.ofNat 3 (p + 1) else c.rp }
      ∧ (∀ m, m ≠ core.val → t.wrn.core m = s.wrn.core m) ∧ t.wrn.chans = s.wrn.chans ∧ wrnOnly s t)
    ∧ ((∀ p, ¬ ready p) → (out = true → c.selTmo ≠ 0 → ∃ t, exec (.selectReturn core out cycles) s = .next t
        ∧ t.wrn.core core = { c with st := .running, selResult := 0xF, swait := satAdd c.swait cycles } ∧ wrnOnly s t)
      ∧ (out = false ∨ c.selTmo = 0 → exec (.selectReturn core out cycles) s = .next s)))
  ∧ (∀ (core : Fin 12) s, s.up = true → (s.wrn.core core).st = .running → exec (.heartbeat core) s = .next { s with
      wrn := { s.wrn with alive := s.wrn.alive ||| BitVec.ofNat 12 (2 ^ core.val) } })
  ∧ (∀ s, s.up = true → ((s.wrn.core 0).live = true → s.wrn.wdogForced = false →
      (∀ n, n < 11 → (s.wrn.core n).live = true → s.wrn.alive.getLsbD n = true) →
      exec .watchdogService s = .next { s with wrn := { s.wrn with alive := 0 } })
    ∧ (∀ n, n < 11 → (s.wrn.core n).live = true → s.wrn.alive.getLsbD n = false → exec .watchdogService s = .next s))
  ∧ (∀ (core : Fin 12) (kind : BitVec 3) pc s, s.up = true → s.wrn.cores.length = 12 →
    ((s.wrn.core core).live = true → ∃ t, exec (.coreFault core kind pc) s = .next t ∧ stops s t core kind.toNat
      ∧ t.wrn.fault.extractLsb' 8 15 = pc)
    ∧ ((s.wrn.core core).live = false → exec (.coreFault core kind pc) s = .next s))
  ∧ (∀ s, s.up = true → s.wrn.cores.length = 12 → (s.wrn.core 11).live = true → ∃ t, exec .userHeartbeatMiss s = .next t ∧ stops s t 11 6)
  ∧ ∀ s, s.up = true → s.wrn.cores.length = 12 → (s.fnActive .userCore = true → s.wrn.coreMask.getLsbD 11 = true →
      (s.wrn.core 11).st = .held → ∃ t, exec .userCoreStart s = .next t
      ∧ t.wrn.core 11 = { s.wrn.core 11 with st := .running } ∧ (∀ m, m ≠ 11 → t.wrn.core m = s.wrn.core m) ∧ wrnOnly s t)
    ∧ (s.fnActive .userCore = false ∨ s.wrn.coreMask.getLsbD 11 = false ∨ (s.wrn.core 11).st ≠ .held →
      exec .userCoreStart s = .next s)

/-- Every step keeps the set in one of the domain combinations and keep states of the tables, with KDEEP_n as they say
(R67, R71, R207). -/
def Obligations.LegalDomainsKept : Prop :=
  ∀ s : State, s.pow.legal s.modl = true →
    ∃ t, step s = .next t ∧ t.pow.legal t.modl = true ∧ t.modl = s.modl
end

