-- ==== Sys2Proof/Laws/State.lean ====
section
/-! SUPPORT. One lemma per field per named update of State: what an update writes, and every field it leaves. -/

namespace Sys2Proof.Machine

/-! ## What the updates write -/

@[simp] theorem State.took_free (s : State) : s.took.free = s.free + 1 := rfl
@[simp] theorem State.setSub_sub (s : State) (x : Sub) (f : SubSt → SubSt) : (s.setSub x f).sub x = f (s.sub x) := by
  cases x <;> rfl
@[simp] theorem State.setSub_a (s : State) (f : SubSt → SubSt) : s.setSub .a f = { s with subA := f s.subA } := rfl
@[simp] theorem State.setSub_b (s : State) (f : SubSt → SubSt) : s.setSub .b f = { s with subB := f s.subB } := rfl
@[simp] theorem State.setTr_tr (s : State) (x : Sub) (f : TrainSub → TrainSub) : (s.setTr x f).tr x = f (s.tr x) := by
  cases x <;> rfl
@[simp] theorem State.setDb_dbs (s : State) (n : Nat) (f : Db → Db) : (s.setDb n f).dbs = upd s.dbs n f := rfl
@[simp] theorem State.setSes_ses (s : State) (x : Sess) (f : SessSt → SessSt) : (s.setSes x f).ses x = f (s.ses x) := by
  cases x <;> rfl
@[simp] theorem State.setPort_port (s : State) (p : Port) (f : TwbPort → TwbPort) : (s.setPort p f).port p = f (s.port p) := by
  cases p <;> rfl
@[simp] theorem State.setSel_sels (s : State) (p : Path) (f : PathSel → PathSel) : (s.setSel p f).sels = upd s.sels (pathIdx p) f :=
  rfl
@[simp] theorem State.setRun_runs (s : State) (u : Nat) (r : Option CalRun) :
    (s.setRun u r).cal.runs = upd s.cal.runs u (fun _ => r) := rfl
@[simp] theorem State.setWrn_wrn (s : State) (f : Wrn → Wrn) : (s.setWrn f).wrn = f s.wrn := rfl
@[simp] theorem State.setDom_dom (s : State) (d : Dom) : (s.setDom d).pow.dom = d := rfl
@[simp] theorem State.setDom_keep (s : State) (d : Dom) : (s.setDom d).pow.keep = s.pow.keep := rfl

/-! ## What the updates leave -/

section
variable (s : State)
@[simp] theorem State.took_pending : s.took.pending = s.pending := rfl
@[simp] theorem State.took_modl : s.took.modl = s.modl := rfl
@[simp] theorem State.took_nv : s.took.nv = s.nv := rfl
@[simp] theorem State.took_pow : s.took.pow = s.pow := rfl
@[simp] theorem State.took_clk : s.took.clk = s.clk := rfl
@[simp] theorem State.took_feat : s.took.feat = s.feat := rfl
@[simp] theorem State.took_host : s.took.host = s.host := rfl
@[simp] theorem State.took_subA : s.took.subA = s.subA := rfl
@[simp] theorem State.took_subB : s.took.subB = s.subB := rfl
@[simp] theorem State.took_dbs : s.took.dbs = s.dbs := rfl
@[simp] theorem State.took_zlb : s.took.zlb = s.zlb := rfl
@[simp] theorem State.took_train : s.took.train = s.train := rfl
@[simp] theorem State.took_cal : s.took.cal = s.cal := rfl
@[simp] theorem State.took_trim : s.took.trim = s.trim := rfl
@[simp] theorem State.took_zxp : s.took.zxp = s.zxp := rfl
@[simp] theorem State.took_hrd : s.took.hrd = s.hrd := rfl
@[simp] theorem State.took_nvs : s.took.nvs = s.nvs := rfl
@[simp] theorem State.took_flt : s.took.flt = s.flt := rfl
@[simp] theorem State.took_evt : s.took.evt = s.evt := rfl
@[simp] theorem State.took_twb : s.took.twb = s.twb := rfl
@[simp] theorem State.took_con : s.took.con = s.con := rfl
@[simp] theorem State.took_pool : s.took.pool = s.pool := rfl
@[simp] theorem State.took_wrn : s.took.wrn = s.wrn := rfl
@[simp] theorem State.took_sels : s.took.sels = s.sels := rfl
end

section
variable (s : State) (x : Sub) (f : SubSt → SubSt)
@[simp] theorem State.setSub_pending : (s.setSub x f).pending = s.pending := by cases x <;> rfl
@[simp] theorem State.setSub_free : (s.setSub x f).free = s.free := by cases x <;> rfl
@[simp] theorem State.setSub_modl : (s.setSub x f).modl = s.modl := by cases x <;> rfl
@[simp] theorem State.setSub_nv : (s.setSub x f).nv = s.nv := by cases x <;> rfl
@[simp] theorem State.setSub_pow : (s.setSub x f).pow = s.pow := by cases x <;> rfl
@[simp] theorem State.setSub_clk : (s.setSub x f).clk = s.clk := by cases x <;> rfl
@[simp] theorem State.setSub_feat : (s.setSub x f).feat = s.feat := by cases x <;> rfl
@[simp] theorem State.setSub_host : (s.setSub x f).host = s.host := by cases x <;> rfl
@[simp] theorem State.setSub_dbs : (s.setSub x f).dbs = s.dbs := by cases x <;> rfl
@[simp] theorem State.setSub_zlb : (s.setSub x f).zlb = s.zlb := by cases x <;> rfl
@[simp] theorem State.setSub_train : (s.setSub x f).train = s.train := by cases x <;> rfl
@[simp] theorem State.setSub_cal : (s.setSub x f).cal = s.cal := by cases x <;> rfl
@[simp] theorem State.setSub_trim : (s.setSub x f).trim = s.trim := by cases x <;> rfl
@[simp] theorem State.setSub_zxp : (s.setSub x f).zxp = s.zxp := by cases x <;> rfl
@[simp] theorem State.setSub_hrd : (s.setSub x f).hrd = s.hrd := by cases x <;> rfl
@[simp] theorem State.setSub_nvs : (s.setSub x f).nvs = s.nvs := by cases x <;> rfl
@[simp] theorem State.setSub_flt : (s.setSub x f).flt = s.flt := by cases x <;> rfl
@[simp] theorem State.setSub_evt : (s.setSub x f).evt = s.evt := by cases x <;> rfl
@[simp] theorem State.setSub_twb : (s.setSub x f).twb = s.twb := by cases x <;> rfl
@[simp] theorem State.setSub_con : (s.setSub x f).con = s.con := by cases x <;> rfl
@[simp] theorem State.setSub_pool : (s.setSub x f).pool = s.pool := by cases x <;> rfl
@[simp] theorem State.setSub_wrn : (s.setSub x f).wrn = s.wrn := by cases x <;> rfl
@[simp] theorem State.setSub_sels : (s.setSub x f).sels = s.sels := by cases x <;> rfl
end

section
variable (s : State) (x : Sub) (f : TrainSub → TrainSub)
@[simp] theorem State.setTr_pending : (s.setTr x f).pending = s.pending := by cases x <;> rfl
@[simp] theorem State.setTr_free : (s.setTr x f).free = s.free := by cases x <;> rfl
@[simp] theorem State.setTr_modl : (s.setTr x f).modl = s.modl := by cases x <;> rfl
@[simp] theorem State.setTr_nv : (s.setTr x f).nv = s.nv := by cases x <;> rfl
@[simp] theorem State.setTr_pow : (s.setTr x f).pow = s.pow := by cases x <;> rfl
@[simp] theorem State.setTr_clk : (s.setTr x f).clk = s.clk := by cases x <;> rfl
@[simp] theorem State.setTr_feat : (s.setTr x f).feat = s.feat := by cases x <;> rfl
@[simp] theorem State.setTr_host : (s.setTr x f).host = s.host := by cases x <;> rfl
@[simp] theorem State.setTr_subA : (s.setTr x f).subA = s.subA := by cases x <;> rfl
@[simp] theorem State.setTr_subB : (s.setTr x f).subB = s.subB := by cases x <;> rfl
@[simp] theorem State.setTr_dbs : (s.setTr x f).dbs = s.dbs := by cases x <;> rfl
@[simp] theorem State.setTr_zlb : (s.setTr x f).zlb = s.zlb := by cases x <;> rfl
@[simp] theorem State.setTr_cal : (s.setTr x f).cal = s.cal := by cases x <;> rfl
@[simp] theorem State.setTr_trim : (s.setTr x f).trim = s.trim := by cases x <;> rfl
@[simp] theorem State.setTr_zxp : (s.setTr x f).zxp = s.zxp := by cases x <;> rfl
@[simp] theorem State.setTr_hrd : (s.setTr x f).hrd = s.hrd := by cases x <;> rfl
@[simp] theorem State.setTr_nvs : (s.setTr x f).nvs = s.nvs := by cases x <;> rfl
@[simp] theorem State.setTr_flt : (s.setTr x f).flt = s.flt := by cases x <;> rfl
@[simp] theorem State.setTr_evt : (s.setTr x f).evt = s.evt := by cases x <;> rfl
@[simp] theorem State.setTr_twb : (s.setTr x f).twb = s.twb := by cases x <;> rfl
@[simp] theorem State.setTr_con : (s.setTr x f).con = s.con := by cases x <;> rfl
@[simp] theorem State.setTr_pool : (s.setTr x f).pool = s.pool := by cases x <;> rfl
@[simp] theorem State.setTr_wrn : (s.setTr x f).wrn = s.wrn := by cases x <;> rfl
@[simp] theorem State.setTr_sels : (s.setTr x f).sels = s.sels := by cases x <;> rfl
end

section
variable (s : State) (n : Nat) (f : Db → Db)
@[simp] theorem State.setDb_pending : (s.setDb n f).pending = s.pending := rfl
@[simp] theorem State.setDb_free : (s.setDb n f).free = s.free := rfl
@[simp] theorem State.setDb_modl : (s.setDb n f).modl = s.modl := rfl
@[simp] theorem State.setDb_nv : (s.setDb n f).nv = s.nv := rfl
@[simp] theorem State.setDb_pow : (s.setDb n f).pow = s.pow := rfl
@[simp] theorem State.setDb_clk : (s.setDb n f).clk = s.clk := rfl
@[simp] theorem State.setDb_feat : (s.setDb n f).feat = s.feat := rfl
@[simp] theorem State.setDb_host : (s.setDb n f).host = s.host := rfl
@[simp] theorem State.setDb_subA : (s.setDb n f).subA = s.subA := rfl
@[simp] theorem State.setDb_subB : (s.setDb n f).subB = s.subB := rfl
@[simp] theorem State.setDb_zlb : (s.setDb n f).zlb = s.zlb := rfl
@[simp] theorem State.setDb_train : (s.setDb n f).train = s.train := rfl
@[simp] theorem State.setDb_cal : (s.setDb n f).cal = s.cal := rfl
@[simp] theorem State.setDb_trim : (s.setDb n f).trim = s.trim := rfl
@[simp] theorem State.setDb_zxp : (s.setDb n f).zxp = s.zxp := rfl
@[simp] theorem State.setDb_hrd : (s.setDb n f).hrd = s.hrd := rfl
@[simp] theorem State.setDb_nvs : (s.setDb n f).nvs = s.nvs := rfl
@[simp] theorem State.setDb_flt : (s.setDb n f).flt = s.flt := rfl
@[simp] theorem State.setDb_evt : (s.setDb n f).evt = s.evt := rfl
@[simp] theorem State.setDb_twb : (s.setDb n f).twb = s.twb := rfl
@[simp] theorem State.setDb_con : (s.setDb n f).con = s.con := rfl
@[simp] theorem State.setDb_pool : (s.setDb n f).pool = s.pool := rfl
@[simp] theorem State.setDb_wrn : (s.setDb n f).wrn = s.wrn := rfl
@[simp] theorem State.setDb_sels : (s.setDb n f).sels = s.sels := rfl
end

section
variable (s : State) (x : Sub) (f : Db → Db)
@[simp] theorem State.setDbs_pending : (s.setDbs x f).pending = s.pending := rfl
@[simp] theorem State.setDbs_free : (s.setDbs x f).free = s.free := rfl
@[simp] theorem State.setDbs_modl : (s.setDbs x f).modl = s.modl := rfl
@[simp] theorem State.setDbs_nv : (s.setDbs x f).nv = s.nv := rfl
@[simp] theorem State.setDbs_pow : (s.setDbs x f).pow = s.pow := rfl
@[simp] theorem State.setDbs_clk : (s.setDbs x f).clk = s.clk := rfl
@[simp] theorem State.setDbs_feat : (s.setDbs x f).feat = s.feat := rfl
@[simp] theorem State.setDbs_host : (s.setDbs x f).host = s.host := rfl
@[simp] theorem State.setDbs_subA : (s.setDbs x f).subA = s.subA := rfl
@[simp] theorem State.setDbs_subB : (s.setDbs x f).subB = s.subB := rfl
@[simp] theorem State.setDbs_zlb : (s.setDbs x f).zlb = s.zlb := rfl
@[simp] theorem State.setDbs_train : (s.setDbs x f).train = s.train := rfl
@[simp] theorem State.setDbs_cal : (s.setDbs x f).cal = s.cal := rfl
@[simp] theorem State.setDbs_trim : (s.setDbs x f).trim = s.trim := rfl
@[simp] theorem State.setDbs_zxp : (s.setDbs x f).zxp = s.zxp := rfl
@[simp] theorem State.setDbs_hrd : (s.setDbs x f).hrd = s.hrd := rfl
@[simp] theorem State.setDbs_nvs : (s.setDbs x f).nvs = s.nvs := rfl
@[simp] theorem State.setDbs_flt : (s.setDbs x f).flt = s.flt := rfl
@[simp] theorem State.setDbs_evt : (s.setDbs x f).evt = s.evt := rfl
@[simp] theorem State.setDbs_twb : (s.setDbs x f).twb = s.twb := rfl
@[simp] theorem State.setDbs_con : (s.setDbs x f).con = s.con := rfl
@[simp] theorem State.setDbs_pool : (s.setDbs x f).pool = s.pool := rfl
@[simp] theorem State.setDbs_wrn : (s.setDbs x f).wrn = s.wrn := rfl
@[simp] theorem State.setDbs_sels : (s.setDbs x f).sels = s.sels := rfl
end

section
variable (s : State) (n : Nat) (f : ZTarget → ZTarget)
@[simp] theorem State.setTgt_pending : (s.setTgt n f).pending = s.pending := rfl
@[simp] theorem State.setTgt_free : (s.setTgt n f).free = s.free := rfl
@[simp] theorem State.setTgt_modl : (s.setTgt n f).modl = s.modl := rfl
@[simp] theorem State.setTgt_nv : (s.setTgt n f).nv = s.nv := rfl
@[simp] theorem State.setTgt_pow : (s.setTgt n f).pow = s.pow := rfl
@[simp] theorem State.setTgt_clk : (s.setTgt n f).clk = s.clk := rfl
@[simp] theorem State.setTgt_feat : (s.setTgt n f).feat = s.feat := rfl
@[simp] theorem State.setTgt_host : (s.setTgt n f).host = s.host := rfl
@[simp] theorem State.setTgt_subA : (s.setTgt n f).subA = s.subA := rfl
@[simp] theorem State.setTgt_subB : (s.setTgt n f).subB = s.subB := rfl
@[simp] theorem State.setTgt_dbs : (s.setTgt n f).dbs = s.dbs := rfl
@[simp] theorem State.setTgt_train : (s.setTgt n f).train = s.train := rfl
@[simp] theorem State.setTgt_cal : (s.setTgt n f).cal = s.cal := rfl
@[simp] theorem State.setTgt_trim : (s.setTgt n f).trim = s.trim := rfl
@[simp] theorem State.setTgt_zxp : (s.setTgt n f).zxp = s.zxp := rfl
@[simp] theorem State.setTgt_hrd : (s.setTgt n f).hrd = s.hrd := rfl
@[simp] theorem State.setTgt_nvs : (s.setTgt n f).nvs = s.nvs := rfl
@[simp] theorem State.setTgt_flt : (s.setTgt n f).flt = s.flt := rfl
@[simp] theorem State.setTgt_evt : (s.setTgt n f).evt = s.evt := rfl
@[simp] theorem State.setTgt_twb : (s.setTgt n f).twb = s.twb := rfl
@[simp] theorem State.setTgt_con : (s.setTgt n f).con = s.con := rfl
@[simp] theorem State.setTgt_pool : (s.setTgt n f).pool = s.pool := rfl
@[simp] theorem State.setTgt_wrn : (s.setTgt n f).wrn = s.wrn := rfl
@[simp] theorem State.setTgt_sels : (s.setTgt n f).sels = s.sels := rfl
end

section
variable (s : State) (c i : Nat) (r : Res)
@[simp] theorem State.setRes_pending : (s.setRes c i r).pending = s.pending := rfl
@[simp] theorem State.setRes_free : (s.setRes c i r).free = s.free := rfl
@[simp] theorem State.setRes_modl : (s.setRes c i r).modl = s.modl := rfl
@[simp] theorem State.setRes_nv : (s.setRes c i r).nv = s.nv := rfl
@[simp] theorem State.setRes_pow : (s.setRes c i r).pow = s.pow := rfl
@[simp] theorem State.setRes_clk : (s.setRes c i r).clk = s.clk := rfl
@[simp] theorem State.setRes_feat : (s.setRes c i r).feat = s.feat := rfl
@[simp] theorem State.setRes_host : (s.setRes c i r).host = s.host := rfl
@[simp] theorem State.setRes_subA : (s.setRes c i r).subA = s.subA := rfl
@[simp] theorem State.setRes_subB : (s.setRes c i r).subB = s.subB := rfl
@[simp] theorem State.setRes_dbs : (s.setRes c i r).dbs = s.dbs := rfl
@[simp] theorem State.setRes_zlb : (s.setRes c i r).zlb = s.zlb := rfl
@[simp] theorem State.setRes_train : (s.setRes c i r).train = s.train := rfl
@[simp] theorem State.setRes_cal : (s.setRes c i r).cal = s.cal := rfl
@[simp] theorem State.setRes_trim : (s.setRes c i r).trim = s.trim := rfl
@[simp] theorem State.setRes_zxp : (s.setRes c i r).zxp = s.zxp := rfl
@[simp] theorem State.setRes_hrd : (s.setRes c i r).hrd = s.hrd := rfl
@[simp] theorem State.setRes_nvs : (s.setRes c i r).nvs = s.nvs := rfl
@[simp] theorem State.setRes_evt : (s.setRes c i r).evt = s.evt := rfl
@[simp] theorem State.setRes_twb : (s.setRes c i r).twb = s.twb := rfl
@[simp] theorem State.setRes_con : (s.setRes c i r).con = s.con := rfl
@[simp] theorem State.setRes_pool : (s.setRes c i r).pool = s.pool := rfl
@[simp] theorem State.setRes_wrn : (s.setRes c i r).wrn = s.wrn := rfl
@[simp] theorem State.setRes_sels : (s.setRes c i r).sels = s.sels := rfl
end

section
variable (s : State) (p : Path) (f : PathSel → PathSel)
@[simp] theorem State.setSel_pending : (s.setSel p f).pending = s.pending := rfl
@[simp] theorem State.setSel_free : (s.setSel p f).free = s.free := rfl
@[simp] theorem State.setSel_modl : (s.setSel p f).modl = s.modl := rfl
@[simp] theorem State.setSel_nv : (s.setSel p f).nv = s.nv := rfl
@[simp] theorem State.setSel_pow : (s.setSel p f).pow = s.pow := rfl
@[simp] theorem State.setSel_clk : (s.setSel p f).clk = s.clk := rfl
@[simp] theorem State.setSel_feat : (s.setSel p f).feat = s.feat := rfl
@[simp] theorem State.setSel_host : (s.setSel p f).host = s.host := rfl
@[simp] theorem State.setSel_subA : (s.setSel p f).subA = s.subA := rfl
@[simp] theorem State.setSel_subB : (s.setSel p f).subB = s.subB := rfl
@[simp] theorem State.setSel_dbs : (s.setSel p f).dbs = s.dbs := rfl
@[simp] theorem State.setSel_zlb : (s.setSel p f).zlb = s.zlb := rfl
@[simp] theorem State.setSel_train : (s.setSel p f).train = s.train := rfl
@[simp] theorem State.setSel_cal : (s.setSel p f).cal = s.cal := rfl
@[simp] theorem State.setSel_trim : (s.setSel p f).trim = s.trim := rfl
@[simp] theorem State.setSel_zxp : (s.setSel p f).zxp = s.zxp := rfl
@[simp] theorem State.setSel_hrd : (s.setSel p f).hrd = s.hrd := rfl
@[simp] theorem State.setSel_nvs : (s.setSel p f).nvs = s.nvs := rfl
@[simp] theorem State.setSel_flt : (s.setSel p f).flt = s.flt := rfl
@[simp] theorem State.setSel_evt : (s.setSel p f).evt = s.evt := rfl
@[simp] theorem State.setSel_twb : (s.setSel p f).twb = s.twb := rfl
@[simp] theorem State.setSel_con : (s.setSel p f).con = s.con := rfl
@[simp] theorem State.setSel_pool : (s.setSel p f).pool = s.pool := rfl
@[simp] theorem State.setSel_wrn : (s.setSel p f).wrn = s.wrn := rfl
end

section
variable (s : State) (x : Sub) (f : Win → Win)
@[simp] theorem State.setWin_pending : (s.setWin x f).pending = s.pending := by cases x <;> rfl
@[simp] theorem State.setWin_free : (s.setWin x f).free = s.free := by cases x <;> rfl
@[simp] theorem State.setWin_modl : (s.setWin x f).modl = s.modl := by cases x <;> rfl
@[simp] theorem State.setWin_nv : (s.setWin x f).nv = s.nv := by cases x <;> rfl
@[simp] theorem State.setWin_pow : (s.setWin x f).pow = s.pow := by cases x <;> rfl
@[simp] theorem State.setWin_clk : (s.setWin x f).clk = s.clk := by cases x <;> rfl
@[simp] theorem State.setWin_feat : (s.setWin x f).feat = s.feat := by cases x <;> rfl
@[simp] theorem State.setWin_host : (s.setWin x f).host = s.host := by cases x <;> rfl
@[simp] theorem State.setWin_dbs : (s.setWin x f).dbs = s.dbs := by cases x <;> rfl
@[simp] theorem State.setWin_zlb : (s.setWin x f).zlb = s.zlb := by cases x <;> rfl
@[simp] theorem State.setWin_train : (s.setWin x f).train = s.train := by cases x <;> rfl
@[simp] theorem State.setWin_cal : (s.setWin x f).cal = s.cal := by cases x <;> rfl
@[simp] theorem State.setWin_trim : (s.setWin x f).trim = s.trim := by cases x <;> rfl
@[simp] theorem State.setWin_zxp : (s.setWin x f).zxp = s.zxp := by cases x <;> rfl
@[simp] theorem State.setWin_hrd : (s.setWin x f).hrd = s.hrd := by cases x <;> rfl
@[simp] theorem State.setWin_nvs : (s.setWin x f).nvs = s.nvs := by cases x <;> rfl
@[simp] theorem State.setWin_flt : (s.setWin x f).flt = s.flt := by cases x <;> rfl
@[simp] theorem State.setWin_evt : (s.setWin x f).evt = s.evt := by cases x <;> rfl
@[simp] theorem State.setWin_twb : (s.setWin x f).twb = s.twb := by cases x <;> rfl
@[simp] theorem State.setWin_con : (s.setWin x f).con = s.con := by cases x <;> rfl
@[simp] theorem State.setWin_pool : (s.setWin x f).pool = s.pool := by cases x <;> rfl
@[simp] theorem State.setWin_wrn : (s.setWin x f).wrn = s.wrn := by cases x <;> rfl
@[simp] theorem State.setWin_sels : (s.setWin x f).sels = s.sels := by cases x <;> rfl
end

section
variable (s : State) (p : Port) (f : TwbPort → TwbPort)
@[simp] theorem State.setPort_pending : (s.setPort p f).pending = s.pending := by cases p <;> rfl
@[simp] theorem State.setPort_free : (s.setPort p f).free = s.free := by cases p <;> rfl
@[simp] theorem State.setPort_modl : (s.setPort p f).modl = s.modl := by cases p <;> rfl
@[simp] theorem State.setPort_nv : (s.setPort p f).nv = s.nv := by cases p <;> rfl
@[simp] theorem State.setPort_pow : (s.setPort p f).pow = s.pow := by cases p <;> rfl
@[simp] theorem State.setPort_clk : (s.setPort p f).clk = s.clk := by cases p <;> rfl
@[simp] theorem State.setPort_feat : (s.setPort p f).feat = s.feat := by cases p <;> rfl
@[simp] theorem State.setPort_host : (s.setPort p f).host = s.host := by cases p <;> rfl
@[simp] theorem State.setPort_subA : (s.setPort p f).subA = s.subA := by cases p <;> rfl
@[simp] theorem State.setPort_subB : (s.setPort p f).subB = s.subB := by cases p <;> rfl
@[simp] theorem State.setPort_dbs : (s.setPort p f).dbs = s.dbs := by cases p <;> rfl
@[simp] theorem State.setPort_zlb : (s.setPort p f).zlb = s.zlb := by cases p <;> rfl
@[simp] theorem State.setPort_train : (s.setPort p f).train = s.train := by cases p <;> rfl
@[simp] theorem State.setPort_cal : (s.setPort p f).cal = s.cal := by cases p <;> rfl
@[simp] theorem State.setPort_trim : (s.setPort p f).trim = s.trim := by cases p <;> rfl
@[simp] theorem State.setPort_zxp : (s.setPort p f).zxp = s.zxp := by cases p <;> rfl
@[simp] theorem State.setPort_hrd : (s.setPort p f).hrd = s.hrd := by cases p <;> rfl
@[simp] theorem State.setPort_nvs : (s.setPort p f).nvs = s.nvs := by cases p <;> rfl
@[simp] theorem State.setPort_flt : (s.setPort p f).flt = s.flt := by cases p <;> rfl
@[simp] theorem State.setPort_evt : (s.setPort p f).evt = s.evt := by cases p <;> rfl
@[simp] theorem State.setPort_con : (s.setPort p f).con = s.con := by cases p <;> rfl
@[simp] theorem State.setPort_pool : (s.setPort p f).pool = s.pool := by cases p <;> rfl
@[simp] theorem State.setPort_wrn : (s.setPort p f).wrn = s.wrn := by cases p <;> rfl
@[simp] theorem State.setPort_sels : (s.setPort p f).sels = s.sels := by cases p <;> rfl
end

section
variable (s : State) (k : Nat) (f : PollSt → PollSt)
@[simp] theorem State.setPoll_pending : (s.setPoll k f).pending = s.pending := rfl
@[simp] theorem State.setPoll_free : (s.setPoll k f).free = s.free := rfl
@[simp] theorem State.setPoll_modl : (s.setPoll k f).modl = s.modl := rfl
@[simp] theorem State.setPoll_nv : (s.setPoll k f).nv = s.nv := rfl
@[simp] theorem State.setPoll_pow : (s.setPoll k f).pow = s.pow := rfl
@[simp] theorem State.setPoll_clk : (s.setPoll k f).clk = s.clk := rfl
@[simp] theorem State.setPoll_feat : (s.setPoll k f).feat = s.feat := rfl
@[simp] theorem State.setPoll_host : (s.setPoll k f).host = s.host := rfl
@[simp] theorem State.setPoll_subA : (s.setPoll k f).subA = s.subA := rfl
@[simp] theorem State.setPoll_subB : (s.setPoll k f).subB = s.subB := rfl
@[simp] theorem State.setPoll_dbs : (s.setPoll k f).dbs = s.dbs := rfl
@[simp] theorem State.setPoll_zlb : (s.setPoll k f).zlb = s.zlb := rfl
@[simp] theorem State.setPoll_train : (s.setPoll k f).train = s.train := rfl
@[simp] theorem State.setPoll_cal : (s.setPoll k f).cal = s.cal := rfl
@[simp] theorem State.setPoll_trim : (s.setPoll k f).trim = s.trim := rfl
@[simp] theorem State.setPoll_zxp : (s.setPoll k f).zxp = s.zxp := rfl
@[simp] theorem State.setPoll_hrd : (s.setPoll k f).hrd = s.hrd := rfl
@[simp] theorem State.setPoll_nvs : (s.setPoll k f).nvs = s.nvs := rfl
@[simp] theorem State.setPoll_flt : (s.setPoll k f).flt = s.flt := rfl
@[simp] theorem State.setPoll_evt : (s.setPoll k f).evt = s.evt := rfl
@[simp] theorem State.setPoll_con : (s.setPoll k f).con = s.con := rfl
@[simp] theorem State.setPoll_pool : (s.setPoll k f).pool = s.pool := rfl
@[simp] theorem State.setPoll_wrn : (s.setPoll k f).wrn = s.wrn := rfl
@[simp] theorem State.setPoll_sels : (s.setPoll k f).sels = s.sels := rfl
end

section
variable (s : State) (x : Sess) (f : SessSt → SessSt)
@[simp] theorem State.setSes_pending : (s.setSes x f).pending = s.pending := by cases x <;> rfl
@[simp] theorem State.setSes_free : (s.setSes x f).free = s.free := by cases x <;> rfl
@[simp] theorem State.setSes_modl : (s.setSes x f).modl = s.modl := by cases x <;> rfl
@[simp] theorem State.setSes_nv : (s.setSes x f).nv = s.nv := by cases x <;> rfl
@[simp] theorem State.setSes_pow : (s.setSes x f).pow = s.pow := by cases x <;> rfl
@[simp] theorem State.setSes_clk : (s.setSes x f).clk = s.clk := by cases x <;> rfl
@[simp] theorem State.setSes_feat : (s.setSes x f).feat = s.feat := by cases x <;> rfl
@[simp] theorem State.setSes_host : (s.setSes x f).host = s.host := by cases x <;> rfl
@[simp] theorem State.setSes_subA : (s.setSes x f).subA = s.subA := by cases x <;> rfl
@[simp] theorem State.setSes_subB : (s.setSes x f).subB = s.subB := by cases x <;> rfl
@[simp] theorem State.setSes_dbs : (s.setSes x f).dbs = s.dbs := by cases x <;> rfl
@[simp] theorem State.setSes_zlb : (s.setSes x f).zlb = s.zlb := by cases x <;> rfl
@[simp] theorem State.setSes_train : (s.setSes x f).train = s.train := by cases x <;> rfl
@[simp] theorem State.setSes_cal : (s.setSes x f).cal = s.cal := by cases x <;> rfl
@[simp] theorem State.setSes_trim : (s.setSes x f).trim = s.trim := by cases x <;> rfl
@[simp] theorem State.setSes_zxp : (s.setSes x f).zxp = s.zxp := by cases x <;> rfl
@[simp] theorem State.setSes_hrd : (s.setSes x f).hrd = s.hrd := by cases x <;> rfl
@[simp] theorem State.setSes_nvs : (s.setSes x f).nvs = s.nvs := by cases x <;> rfl
@[simp] theorem State.setSes_flt : (s.setSes x f).flt = s.flt := by cases x <;> rfl
@[simp] theorem State.setSes_evt : (s.setSes x f).evt = s.evt := by cases x <;> rfl
@[simp] theorem State.setSes_twb : (s.setSes x f).twb = s.twb := by cases x <;> rfl
@[simp] theorem State.setSes_pool : (s.setSes x f).pool = s.pool := by cases x <;> rfl
@[simp] theorem State.setSes_wrn : (s.setSes x f).wrn = s.wrn := by cases x <;> rfl
@[simp] theorem State.setSes_sels : (s.setSes x f).sels = s.sels := by cases x <;> rfl
end

section
variable (s : State) (u : Nat) (r : Option CalRun)
@[simp] theorem State.setRun_pending : (s.setRun u r).pending = s.pending := rfl
@[simp] theorem State.setRun_free : (s.setRun u r).free = s.free := rfl
@[simp] theorem State.setRun_modl : (s.setRun u r).modl = s.modl := rfl
@[simp] theorem State.setRun_nv : (s.setRun u r).nv = s.nv := rfl
@[simp] theorem State.setRun_pow : (s.setRun u r).pow = s.pow := rfl
@[simp] theorem State.setRun_clk : (s.setRun u r).clk = s.clk := rfl
@[simp] theorem State.setRun_feat : (s.setRun u r).feat = s.feat := rfl
@[simp] theorem State.setRun_host : (s.setRun u r).host = s.host := rfl
@[simp] theorem State.setRun_subA : (s.setRun u r).subA = s.subA := rfl
@[simp] theorem State.setRun_subB : (s.setRun u r).subB = s.subB := rfl
@[simp] theorem State.setRun_dbs : (s.setRun u r).dbs = s.dbs := rfl
@[simp] theorem State.setRun_zlb : (s.setRun u r).zlb = s.zlb := rfl
@[simp] theorem State.setRun_train : (s.setRun u r).train = s.train := rfl
@[simp] theorem State.setRun_trim : (s.setRun u r).trim = s.trim := rfl
@[simp] theorem State.setRun_zxp : (s.setRun u r).zxp = s.zxp := rfl
@[simp] theorem State.setRun_hrd : (s.setRun u r).hrd = s.hrd := rfl
@[simp] theorem State.setRun_nvs : (s.setRun u r).nvs = s.nvs := rfl
@[simp] theorem State.setRun_flt : (s.setRun u r).flt = s.flt := rfl
@[simp] theorem State.setRun_evt : (s.setRun u r).evt = s.evt := rfl
@[simp] theorem State.setRun_twb : (s.setRun u r).twb = s.twb := rfl
@[simp] theorem State.setRun_con : (s.setRun u r).con = s.con := rfl
@[simp] theorem State.setRun_pool : (s.setRun u r).pool = s.pool := rfl
@[simp] theorem State.setRun_wrn : (s.setRun u r).wrn = s.wrn := rfl
@[simp] theorem State.setRun_sels : (s.setRun u r).sels = s.sels := rfl
end

section
variable (s : State) (u : Nat) (f : CalUnit → CalUnit)
@[simp] theorem State.setUnit_pending : (s.setUnit u f).pending = s.pending := rfl
@[simp] theorem State.setUnit_free : (s.setUnit u f).free = s.free := rfl
@[simp] theorem State.setUnit_modl : (s.setUnit u f).modl = s.modl := rfl
@[simp] theorem State.setUnit_nv : (s.setUnit u f).nv = s.nv := rfl
@[simp] theorem State.setUnit_pow : (s.setUnit u f).pow = s.pow := rfl
@[simp] theorem State.setUnit_clk : (s.setUnit u f).clk = s.clk := rfl
@[simp] theorem State.setUnit_feat : (s.setUnit u f).feat = s.feat := rfl
@[simp] theorem State.setUnit_host : (s.setUnit u f).host = s.host := rfl
@[simp] theorem State.setUnit_subA : (s.setUnit u f).subA = s.subA := rfl
@[simp] theorem State.setUnit_subB : (s.setUnit u f).subB = s.subB := rfl
@[simp] theorem State.setUnit_dbs : (s.setUnit u f).dbs = s.dbs := rfl
@[simp] theorem State.setUnit_zlb : (s.setUnit u f).zlb = s.zlb := rfl
@[simp] theorem State.setUnit_train : (s.setUnit u f).train = s.train := rfl
@[simp] theorem State.setUnit_trim : (s.setUnit u f).trim = s.trim := rfl
@[simp] theorem State.setUnit_zxp : (s.setUnit u f).zxp = s.zxp := rfl
@[simp] theorem State.setUnit_hrd : (s.setUnit u f).hrd = s.hrd := rfl
@[simp] theorem State.setUnit_nvs : (s.setUnit u f).nvs = s.nvs := rfl
@[simp] theorem State.setUnit_flt : (s.setUnit u f).flt = s.flt := rfl
@[simp] theorem State.setUnit_evt : (s.setUnit u f).evt = s.evt := rfl
@[simp] theorem State.setUnit_twb : (s.setUnit u f).twb = s.twb := rfl
@[simp] theorem State.setUnit_con : (s.setUnit u f).con = s.con := rfl
@[simp] theorem State.setUnit_pool : (s.setUnit u f).pool = s.pool := rfl
@[simp] theorem State.setUnit_wrn : (s.setUnit u f).wrn = s.wrn := rfl
@[simp] theorem State.setUnit_sels : (s.setUnit u f).sels = s.sels := rfl
end

section
variable (s : State) (u r v : Nat)
@[simp] theorem State.setSwap_pending : (s.setSwap u r v).pending = s.pending := rfl
@[simp] theorem State.setSwap_free : (s.setSwap u r v).free = s.free := rfl
@[simp] theorem State.setSwap_modl : (s.setSwap u r v).modl = s.modl := rfl
@[simp] theorem State.setSwap_nv : (s.setSwap u r v).nv = s.nv := rfl
@[simp] theorem State.setSwap_pow : (s.setSwap u r v).pow = s.pow := rfl
@[simp] theorem State.setSwap_clk : (s.setSwap u r v).clk = s.clk := rfl
@[simp] theorem State.setSwap_feat : (s.setSwap u r v).feat = s.feat := rfl
@[simp] theorem State.setSwap_host : (s.setSwap u r v).host = s.host := rfl
@[simp] theorem State.setSwap_subA : (s.setSwap u r v).subA = s.subA := rfl
@[simp] theorem State.setSwap_subB : (s.setSwap u r v).subB = s.subB := rfl
@[simp] theorem State.setSwap_dbs : (s.setSwap u r v).dbs = s.dbs := rfl
@[simp] theorem State.setSwap_zlb : (s.setSwap u r v).zlb = s.zlb := rfl
@[simp] theorem State.setSwap_train : (s.setSwap u r v).train = s.train := rfl
@[simp] theorem State.setSwap_trim : (s.setSwap u r v).trim = s.trim := rfl
@[simp] theorem State.setSwap_zxp : (s.setSwap u r v).zxp = s.zxp := rfl
@[simp] theorem State.setSwap_hrd : (s.setSwap u r v).hrd = s.hrd := rfl
@[simp] theorem State.setSwap_nvs : (s.setSwap u r v).nvs = s.nvs := rfl
@[simp] theorem State.setSwap_flt : (s.setSwap u r v).flt = s.flt := rfl
@[simp] theorem State.setSwap_evt : (s.setSwap u r v).evt = s.evt := rfl
@[simp] theorem State.setSwap_twb : (s.setSwap u r v).twb = s.twb := rfl
@[simp] theorem State.setSwap_con : (s.setSwap u r v).con = s.con := rfl
@[simp] theorem State.setSwap_pool : (s.setSwap u r v).pool = s.pool := rfl
@[simp] theorem State.setSwap_wrn : (s.setSwap u r v).wrn = s.wrn := rfl
@[simp] theorem State.setSwap_sels : (s.setSwap u r v).sels = s.sels := rfl
end

section
variable (s : State) (x : Sub) (e : Option Nat)
@[simp] theorem State.setBusy_pending : (s.setBusy x e).pending = s.pending := by cases x <;> rfl
@[simp] theorem State.setBusy_free : (s.setBusy x e).free = s.free := by cases x <;> rfl
@[simp] theorem State.setBusy_modl : (s.setBusy x e).modl = s.modl := by cases x <;> rfl
@[simp] theorem State.setBusy_nv : (s.setBusy x e).nv = s.nv := by cases x <;> rfl
@[simp] theorem State.setBusy_pow : (s.setBusy x e).pow = s.pow := by cases x <;> rfl
@[simp] theorem State.setBusy_clk : (s.setBusy x e).clk = s.clk := by cases x <;> rfl
@[simp] theorem State.setBusy_feat : (s.setBusy x e).feat = s.feat := by cases x <;> rfl
@[simp] theorem State.setBusy_host : (s.setBusy x e).host = s.host := by cases x <;> rfl
@[simp] theorem State.setBusy_subA : (s.setBusy x e).subA = s.subA := by cases x <;> rfl
@[simp] theorem State.setBusy_subB : (s.setBusy x e).subB = s.subB := by cases x <;> rfl
@[simp] theorem State.setBusy_dbs : (s.setBusy x e).dbs = s.dbs := by cases x <;> rfl
@[simp] theorem State.setBusy_zlb : (s.setBusy x e).zlb = s.zlb := by cases x <;> rfl
@[simp] theorem State.setBusy_train : (s.setBusy x e).train = s.train := by cases x <;> rfl
@[simp] theorem State.setBusy_cal : (s.setBusy x e).cal = s.cal := by cases x <;> rfl
@[simp] theorem State.setBusy_trim : (s.setBusy x e).trim = s.trim := by cases x <;> rfl
@[simp] theorem State.setBusy_zxp : (s.setBusy x e).zxp = s.zxp := by cases x <;> rfl
@[simp] theorem State.setBusy_hrd : (s.setBusy x e).hrd = s.hrd := by cases x <;> rfl
@[simp] theorem State.setBusy_nvs : (s.setBusy x e).nvs = s.nvs := by cases x <;> rfl
@[simp] theorem State.setBusy_evt : (s.setBusy x e).evt = s.evt := by cases x <;> rfl
@[simp] theorem State.setBusy_twb : (s.setBusy x e).twb = s.twb := by cases x <;> rfl
@[simp] theorem State.setBusy_con : (s.setBusy x e).con = s.con := by cases x <;> rfl
@[simp] theorem State.setBusy_pool : (s.setBusy x e).pool = s.pool := by cases x <;> rfl
@[simp] theorem State.setBusy_wrn : (s.setBusy x e).wrn = s.wrn := by cases x <;> rfl
@[simp] theorem State.setBusy_sels : (s.setBusy x e).sels = s.sels := by cases x <;> rfl
end

section
variable (s : State) (x : Sub) (p : Phase)
@[simp] theorem State.setPhase_pending : (s.setPhase x p).pending = s.pending := by cases x <;> rfl
@[simp] theorem State.setPhase_free : (s.setPhase x p).free = s.free := by cases x <;> rfl
@[simp] theorem State.setPhase_modl : (s.setPhase x p).modl = s.modl := by cases x <;> rfl
@[simp] theorem State.setPhase_nv : (s.setPhase x p).nv = s.nv := by cases x <;> rfl
@[simp] theorem State.setPhase_pow : (s.setPhase x p).pow = s.pow := by cases x <;> rfl
@[simp] theorem State.setPhase_clk : (s.setPhase x p).clk = s.clk := by cases x <;> rfl
@[simp] theorem State.setPhase_feat : (s.setPhase x p).feat = s.feat := by cases x <;> rfl
@[simp] theorem State.setPhase_host : (s.setPhase x p).host = s.host := by cases x <;> rfl
@[simp] theorem State.setPhase_subA : (s.setPhase x p).subA = s.subA := by cases x <;> rfl
@[simp] theorem State.setPhase_subB : (s.setPhase x p).subB = s.subB := by cases x <;> rfl
@[simp] theorem State.setPhase_dbs : (s.setPhase x p).dbs = s.dbs := by cases x <;> rfl
@[simp] theorem State.setPhase_zlb : (s.setPhase x p).zlb = s.zlb := by cases x <;> rfl
@[simp] theorem State.setPhase_cal : (s.setPhase x p).cal = s.cal := by cases x <;> rfl
@[simp] theorem State.setPhase_trim : (s.setPhase x p).trim = s.trim := by cases x <;> rfl
@[simp] theorem State.setPhase_zxp : (s.setPhase x p).zxp = s.zxp := by cases x <;> rfl
@[simp] theorem State.setPhase_hrd : (s.setPhase x p).hrd = s.hrd := by cases x <;> rfl
@[simp] theorem State.setPhase_nvs : (s.setPhase x p).nvs = s.nvs := by cases x <;> rfl
@[simp] theorem State.setPhase_flt : (s.setPhase x p).flt = s.flt := by cases x <;> rfl
@[simp] theorem State.setPhase_evt : (s.setPhase x p).evt = s.evt := by cases x <;> rfl
@[simp] theorem State.setPhase_twb : (s.setPhase x p).twb = s.twb := by cases x <;> rfl
@[simp] theorem State.setPhase_con : (s.setPhase x p).con = s.con := by cases x <;> rfl
@[simp] theorem State.setPhase_pool : (s.setPhase x p).pool = s.pool := by cases x <;> rfl
@[simp] theorem State.setPhase_wrn : (s.setPhase x p).wrn = s.wrn := by cases x <;> rfl
@[simp] theorem State.setPhase_sels : (s.setPhase x p).sels = s.sels := by cases x <;> rfl
end

section
variable (s : State) (f : Wrn → Wrn)
@[simp] theorem State.setWrn_pending : (s.setWrn f).pending = s.pending := rfl
@[simp] theorem State.setWrn_free : (s.setWrn f).free = s.free := rfl
@[simp] theorem State.setWrn_modl : (s.setWrn f).modl = s.modl := rfl
@[simp] theorem State.setWrn_nv : (s.setWrn f).nv = s.nv := rfl
@[simp] theorem State.setWrn_pow : (s.setWrn f).pow = s.pow := rfl
@[simp] theorem State.setWrn_clk : (s.setWrn f).clk = s.clk := rfl
@[simp] theorem State.setWrn_feat : (s.setWrn f).feat = s.feat := rfl
@[simp] theorem State.setWrn_host : (s.setWrn f).host = s.host := rfl
@[simp] theorem State.setWrn_subA : (s.setWrn f).subA = s.subA := rfl
@[simp] theorem State.setWrn_subB : (s.setWrn f).subB = s.subB := rfl
@[simp] theorem State.setWrn_dbs : (s.setWrn f).dbs = s.dbs := rfl
@[simp] theorem State.setWrn_zlb : (s.setWrn f).zlb = s.zlb := rfl
@[simp] theorem State.setWrn_train : (s.setWrn f).train = s.train := rfl
@[simp] theorem State.setWrn_cal : (s.setWrn f).cal = s.cal := rfl
@[simp] theorem State.setWrn_trim : (s.setWrn f).trim = s.trim := rfl
@[simp] theorem State.setWrn_zxp : (s.setWrn f).zxp = s.zxp := rfl
@[simp] theorem State.setWrn_hrd : (s.setWrn f).hrd = s.hrd := rfl
@[simp] theorem State.setWrn_nvs : (s.setWrn f).nvs = s.nvs := rfl
@[simp] theorem State.setWrn_flt : (s.setWrn f).flt = s.flt := rfl
@[simp] theorem State.setWrn_evt : (s.setWrn f).evt = s.evt := rfl
@[simp] theorem State.setWrn_twb : (s.setWrn f).twb = s.twb := rfl
@[simp] theorem State.setWrn_con : (s.setWrn f).con = s.con := rfl
@[simp] theorem State.setWrn_pool : (s.setWrn f).pool = s.pool := rfl
@[simp] theorem State.setWrn_sels : (s.setWrn f).sels = s.sels := rfl
end

section
variable (s : State) (d : Dom)
@[simp] theorem State.setDom_pending : (s.setDom d).pending = s.pending := rfl
@[simp] theorem State.setDom_free : (s.setDom d).free = s.free := rfl
@[simp] theorem State.setDom_modl : (s.setDom d).modl = s.modl := rfl
@[simp] theorem State.setDom_nv : (s.setDom d).nv = s.nv := rfl
@[simp] theorem State.setDom_clk : (s.setDom d).clk = s.clk := rfl
@[simp] theorem State.setDom_feat : (s.setDom d).feat = s.feat := rfl
@[simp] theorem State.setDom_host : (s.setDom d).host = s.host := rfl
@[simp] theorem State.setDom_subA : (s.setDom d).subA = s.subA := rfl
@[simp] theorem State.setDom_subB : (s.setDom d).subB = s.subB := rfl
@[simp] theorem State.setDom_dbs : (s.setDom d).dbs = s.dbs := rfl
@[simp] theorem State.setDom_zlb : (s.setDom d).zlb = s.zlb := rfl
@[simp] theorem State.setDom_train : (s.setDom d).train = s.train := rfl
@[simp] theorem State.setDom_cal : (s.setDom d).cal = s.cal := rfl
@[simp] theorem State.setDom_trim : (s.setDom d).trim = s.trim := rfl
@[simp] theorem State.setDom_zxp : (s.setDom d).zxp = s.zxp := rfl
@[simp] theorem State.setDom_hrd : (s.setDom d).hrd = s.hrd := rfl
@[simp] theorem State.setDom_nvs : (s.setDom d).nvs = s.nvs := rfl
@[simp] theorem State.setDom_flt : (s.setDom d).flt = s.flt := rfl
@[simp] theorem State.setDom_evt : (s.setDom d).evt = s.evt := rfl
@[simp] theorem State.setDom_twb : (s.setDom d).twb = s.twb := rfl
@[simp] theorem State.setDom_con : (s.setDom d).con = s.con := rfl
@[simp] theorem State.setDom_pool : (s.setDom d).pool = s.pool := rfl
@[simp] theorem State.setDom_wrn : (s.setDom d).wrn = s.wrn := rfl
@[simp] theorem State.setDom_sels : (s.setDom d).sels = s.sels := rfl
end

end Sys2Proof.Machine
end

