-- ==== Sys2Proof/Laws/Keeps.lean ====
section
/-! SUPPORT. Toward the invariant of the power domains (R67, R207): what the small operations keep: the queue, the module, the factory block, and the legal combination of domains. -/

namespace Sys2Proof.Machine

/-! ## Base -/

/-- The island is powered. -/
def Pow.isOn (p : Pow) : Bool := p.dom != .off
/-- Queue, module, factory block, and the combination of domains are the same. -/
abbrev Keeps (s t : State) : Prop :=
  t.pending = s.pending ∧ t.modl = s.modl ∧ t.nv.factory = s.nv.factory ∧ t.pow.isOn = s.pow.isOn ∧ ∀ m, t.pow.legal m = s.pow.legal m
/-- Queue, module and factory block are the same, the island stays powered, and a legal combination of domains stays
legal. -/
abbrev Moves (s t : State) : Prop :=
  t.pending = s.pending ∧ t.modl = s.modl ∧ t.nv.factory = s.nv.factory ∧ (s.pow.isOn = true → t.pow.isOn = true) ∧
    ∀ m, m = s.modl → s.pow.legal m = true → t.pow.legal m = true
@[simp] theorem Pow.legal_mk (p : Pow) (m) (hp pf sv im cp lc) (le um sp re cu cl) (f e ex r c co l lo fb) :
   Pow.legal ⟨p.dom, p.keep, p.on, p.pd2Down, hp, pf, sv, im, cp, lc, le, um, sp, re, cu, cl, p.kdeep, f, e, ex, r, c, co, l, lo, fb, p.straps⟩ m
     = p.legal m := rfl
@[simp] theorem Pow.isOn_mk (p : Pow) (k o pd hp pf sv im cp lc) (le um sp re cu cl kd) (f e ex r c co l lo fb st) :
   Pow.isOn ⟨p.dom, k, o, pd, hp, pf, sv, im, cp, lc, le, um, sp, re, cu, cl, kd, f, e, ex, r, c, co, l, lo, fb, st⟩ = p.isOn := rfl
theorem foldl_kept {α β : Type} (v : State → β) (f : State → α → State) (h : ∀ s a, v (f s a) = v s) (l : List α) (s : State) :
    v (l.foldl f s) = v s := by
  induction l generalizing s with
  | nil => rfl
  | cons a r ih => exact (ih (f s a)).trans (h s a)
variable {α : Type}
section
variable (c : Prop) [Decidable c]
@[simp] theorem ite_k1 (a b : State) : (if c then a else b).pending = if c then a.pending else b.pending := apply_ite ..
@[simp] theorem ite_k2 (a b : State) : (if c then a else b).modl = if c then a.modl else b.modl := apply_ite ..
@[simp] theorem ite_k3 (a b : State) : (if c then a else b).nv = if c then a.nv else b.nv := apply_ite ..
@[simp] theorem ite_k4 (a b : State) : (if c then a else b).pow = if c then a.pow else b.pow := apply_ite ..
@[simp] theorem ite_k5 (a b : Pow) (m) : (if c then a else b).legal m = if c then a.legal m else b.legal m := by split <;> rfl
@[simp] theorem ite_k6 (a b : Pow) : (if c then a else b).isOn = if c then a.isOn else b.isOn := apply_ite ..
@[simp] theorem ite_k10 (a b : Nv) : (if c then a else b).factory = if c then a.factory else b.factory := apply_ite ..
end
@[simp] theorem foldl_k1 (f : State → α → State) (h : ∀ s a, (f s a).pending = s.pending) (l : List α) (s : State) : (l.foldl f s).pending = s.pending := foldl_kept (fun s => s.pending) f h l s
@[simp] theorem foldl_k2 (f : State → α → State) (h : ∀ s a, (f s a).modl = s.modl) (l : List α) (s : State) : (l.foldl f s).modl = s.modl := foldl_kept (fun s => s.modl) f h l s
@[simp] theorem foldl_k3 (f : State → α → State) (h : ∀ s a, (f s a).nv.factory = s.nv.factory) (l : List α) (s : State) : (l.foldl f s).nv.factory = s.nv.factory := foldl_kept (fun s => s.nv.factory) f h l s
@[simp] theorem foldl_k5 (f : State → α → State) (h : ∀ s a, (f s a).pow.isOn = s.pow.isOn) (l : List α) (s : State) : (l.foldl f s).pow.isOn = s.pow.isOn := foldl_kept (fun s => s.pow.isOn) f h l s
@[simp] theorem foldl_k4 (f : State → α → State) (m) (h : ∀ s a, (f s a).pow.legal m = s.pow.legal m) (l : List α) (s : State) : (l.foldl f s).pow.legal m = s.pow.legal m := foldl_kept (fun s => s.pow.legal m) f h l s
theorem foldl_keeps (f : State → α → State) (h : ∀ s a, Keeps s (f s a)) (l : List α) (s : State) : Keeps s (l.foldl f s) :=
  ⟨foldl_kept (fun s => s.pending) f (fun s a => (h s a).1) l s, foldl_kept (fun s => s.modl) f (fun s a => (h s a).2.1) l s,
   foldl_kept (fun s => s.nv.factory) f (fun s a => (h s a).2.2.1) l s,
   foldl_k5 f (fun s a => (h s a).2.2.2.1) l s,
   fun m => foldl_kept (fun s => s.pow.legal m) f (fun s a => (h s a).2.2.2.2 m) l s⟩
theorem foldl_moves (f : State → α → State) (h : ∀ s a, Moves s (f s a)) (l : List α) (s : State) : Moves s (l.foldl f s) := by
  induction l generalizing s with
  | nil => exact ⟨rfl, rfl, rfl, id, fun _ _ h => h⟩
  | cons a r ih =>
    have h1 := h s a; have h2 := ih (f s a)
    refine ⟨h2.1.trans h1.1, h2.2.1.trans h1.2.1, h2.2.2.1.trans h1.2.2.1, fun hd => h2.2.2.2.1 (h1.2.2.2.1 hd), fun m hm hl => h2.2.2.2.2 m (hm.trans h1.2.1.symm) (h1.2.2.2.2 m hm hl)⟩
theorem Moves_refl (t : State) : Moves t t := ⟨rfl, rfl, rfl, id, fun _ _ h => h⟩
theorem Moves_trans {s t u : State} (h1 : Moves s t) (h2 : Moves t u) : Moves s u :=
  ⟨h2.1.trans h1.1, h2.2.1.trans h1.2.1, h2.2.2.1.trans h1.2.2.1, fun hd => h2.2.2.2.1 (h1.2.2.2.1 hd), fun m hm hl => h2.2.2.2.2 m (hm.trans h1.2.1.symm) (h1.2.2.2.2 m hm hl)⟩
theorem Moves_of {s t : State} (h : Keeps s t) : Moves s t := ⟨h.1, h.2.1, h.2.2.1, fun hd => h.2.2.2.1.trans hd, fun m _ hl => (h.2.2.2.2 m).trans hl⟩
theorem Moves_upd (t : State) (fr cl fe ho sa sb db zl tr ca ti zx hr nv fl ev tw co po wr se) :
  Moves t ⟨t.pending, fr, t.modl, t.nv, t.pow, cl, fe, ho, sa, sb, db, zl, tr, ca, ti, zx, hr, nv, fl, ev, tw, co, po, wr, se⟩ := ⟨rfl, rfl, rfl, id, fun _ _ h => h⟩
/-- Every write and read of a register found moves the state legally. -/
def OptMoves (o : Option RegDef) : Prop := ∀ d, o = some d → (∀ v t, Moves t (d.write v t)) ∧ (∀ t, Moves t (d.onRead t)) ∧ ∀ v t, Moves t (d.sent v t)
theorem OptMoves_ite {c : Prop} [Decidable c] {x y : Option RegDef} (hx : OptMoves x) (hy : OptMoves y) :
    OptMoves (if c then x else y) := by split <;> assumption
theorem OptMoves_none : OptMoves none := fun _ h => nomatch h
theorem OptMoves_some (d : RegDef) : OptMoves (some d) ↔
    (∀ v t, Moves t (d.write v t)) ∧ (∀ t, Moves t (d.onRead t)) ∧ ∀ v t, Moves t (d.sent v t) :=
  ⟨fun h => h d rfl, fun h _ e => Option.some.inj e ▸ h⟩

/-! ## Operands -/

@[simp] theorem State.setSel_keeps (s : State) (p : Path) (f : PathSel → PathSel) : Keeps s (State.setSel s p f) := by
  simp [Keeps, State.setSel]

/-! ## Pool -/

theorem poolReg_moves (p : Path) (a : Nat) (s : State) : OptMoves (poolReg p a s) := by
  unfold poolReg
  refine OptMoves_ite ?_ OptMoves_none
  exact (OptMoves_some _).2 ⟨fun _ _ => Moves_upd _ _ _ _ _ _ _ _ _ _ _ _ _ _ _ _ _ _ _ _ _ _, fun _ => Moves_refl _, fun _ _ => Moves_refl _⟩

/-! ## Ops -/

@[simp] theorem State.took_keeps (s : State) : Keeps s (State.took s) := by
  simp [Keeps, State.took]
@[simp] theorem State.setSub_keeps (s : State) (x : Sub) (f : SubSt → SubSt) : Keeps s (State.setSub s x f) := by
  unfold State.setSub; (repeat' split) <;> simp [Keeps]
@[simp] theorem State.setTr_keeps (s : State) (x : Sub) (f : TrainSub → TrainSub) : Keeps s (State.setTr s x f) := by
  unfold State.setTr; (try dsimp only); (repeat' split) <;> simp [Keeps]
@[simp] theorem State.setDb_keeps (s : State) (n : Nat) (f : Db → Db) : Keeps s (State.setDb s n f) := by
  simp [Keeps, State.setDb]
@[simp] theorem State.setDbs_keeps (s : State) (x : Sub) (f : Db → Db) : Keeps s (State.setDbs s x f) := by
  simp [Keeps, State.setDbs]
@[simp] theorem State.setTgt_keeps (s : State) (n : Nat) (f : ZTarget → ZTarget) : Keeps s (State.setTgt s n f) := by
  simp [Keeps, State.setTgt]
@[simp] theorem State.raise_keeps (s : State) (n : Nat) (arg : BitVec 24) : Keeps s (State.raise s n arg) := by
  simp [Keeps, State.raise]
@[simp] theorem State.setRes_keeps (s : State) (cls index : Nat) (r : Res) : Keeps s (State.setRes s cls index r) := by
  simp [Keeps, State.setRes]
@[simp] theorem State.fault_keeps (s : State) (cls index k : Nat) : Keeps s (State.fault s cls index k) := by
  simp [Keeps, State.fault]
@[simp] theorem State.pendRegion_keeps (s : State) (r : Nat) : Keeps s (State.pendRegion s r) := by
  simp [Keeps, State.pendRegion]
@[simp] theorem State.ringDrop_keeps (s : State) (ring : Ring) : Keeps s (State.ringDrop s ring) := by
  simp [Keeps, State.ringDrop]
@[simp] theorem State.handOff_keeps (s : State) : Keeps s s.handOff := by simp [Keeps, State.handOff]
@[simp] theorem State.faultRecord_keeps (s : State) (r : FaultRec) : Keeps s (State.faultRecord s r) := by
  simp [Keeps, State.faultRecord]
@[simp] theorem State.eventRecord_keeps (s : State) (r : EventRec) : Keeps s (State.eventRecord s r) := by
  simp [Keeps, State.eventRecord]

/-! ## ConOps -/

@[simp] theorem State.setSes_keeps (s : State) (x : Sess) (f : SessSt → SessSt) : Keeps s (State.setSes s x f) := by
  unfold State.setSes; (try dsimp only); (repeat' split) <;> simp [Keeps]
@[simp] theorem State.sendLost_keeps (s : State) (x : Sess) : Keeps s (State.sendLost s x) := by
  simp [Keeps, State.sendLost]
@[simp] theorem State.sendBacklog_keeps (s : State) (x : Sess) : Keeps s (State.sendBacklog s x) := by
  simp [Keeps, State.sendBacklog]
@[simp] theorem State.pump_keeps (s : State) (x : Sess) : Keeps s (State.pump s x) := by
  simp [Keeps, State.pump]
@[simp] theorem State.answer_keeps (s : State) (x : Sess) (l : Text) : Keeps s (State.answer s x l) := by
  simp [Keeps, State.answer]
@[simp] theorem State.asyncTo_keeps (s : State) (l : Text) (x : Sess) : Keeps s (State.asyncTo s l x) := by
  simp [Keeps, State.asyncTo]
@[simp] theorem State.asyncLine_keeps (s : State) (l : Text) : Keeps s (State.asyncLine s l) := by
  simp [Keeps, State.asyncLine]
@[simp] theorem State.endUnlock_keeps (s : State) (x : Sess) : Keeps s (State.endUnlock s x) := by
  simp [Keeps, State.endUnlock]
@[simp] theorem State.resetSes_keeps (s : State) (x : Sess) : Keeps s (State.resetSes s x) := by
  simp [Keeps, State.resetSes]
@[simp] theorem State.conRelease_keeps (s : State) : Keeps s (State.conRelease s) := by
  simp [Keeps, State.conRelease]
@[simp] theorem State.respond_keeps (s : State) (rq : Req) (datas : List Text) (final : Text) (ending : Option Ending) : Keeps s (State.respond s rq datas final ending) := by
  unfold State.respond; (try dsimp only); (repeat' split) <;> simp [Keeps]
@[simp] theorem State.respondData_keeps (s : State) (rq : Req) (datas : List Text) : Keeps s (State.respondData s rq datas) := by
  unfold State.respondData; (repeat' split) <;> simp [Keeps]
@[simp] theorem State.respondOk_keeps (s : State) (rq : Req) (t : Text) : Keeps s (State.respondOk s rq t) := by
  simp [Keeps, State.respondOk]
@[simp] theorem State.respondErr_keeps (s : State) (rq : Req) (t : Text) : Keeps s (State.respondErr s rq t) := by
  simp [Keeps, State.respondErr]

/-! ## ConWait -/

@[simp] theorem State.promptAll_keeps (s : State) : Keeps s (State.promptAll s) := by
  simp [Keeps, State.promptAll]
@[simp] theorem State.conHold_keeps (s : State) (e : ExecSt) : Keeps s (State.conHold s e) := by
  simp [Keeps, State.conHold]
@[simp] theorem State.conSettled_keeps (s : State) : Keeps s (State.conSettled s) := by
  unfold State.conSettled; (repeat' split) <;> simp [Keeps]
@[simp] theorem State.conCal_keeps (s : State) (u outcome size : Nat) : Keeps s (State.conCal s u outcome size) := by
  unfold State.conCal; (try dsimp only); (repeat' split) <;> simp [Keeps]
@[simp] theorem State.conAdc_keeps (s : State) (outcome reason : Nat) : Keeps s (State.conAdc s outcome reason) := by
  unfold State.conAdc; (try dsimp only); (repeat' split) <;> simp [Keeps]
@[simp] theorem State.conCommits_keeps (s : State) (rq : Req) (got : List Text) (err : Option Text) : Keeps s (State.conCommits s rq got err) := by
  unfold State.conCommits; (repeat' split) <;> simp [Keeps]
@[simp] theorem State.conCommit_keeps (s : State) (r : Nat) (line : Option Text) (why : Text) : Keeps s (State.conCommit s r line why) := by
  unfold State.conCommit; (try dsimp only); (repeat' split) <;> simp [Keeps]

/-! ## Evt -/

@[simp] theorem State.logEvent_keeps (s : State) (e : EvtEntry) : Keeps s (State.logEvent s e) := by
  simp [Keeps, State.logEvent]
@[simp] theorem State.deliver_keeps (s : State) : Keeps s (State.deliver s) := by
  unfold State.deliver; (try dsimp only); (repeat' split) <;> simp [Keeps]
@[simp] theorem State.dropAbsent_keeps (s : State) : Keeps s (State.dropAbsent s) := by
  simp [Keeps, State.dropAbsent]
@[simp] theorem State.evtSettle_keeps (s : State) (lockedBy : BitVec 3) : Keeps s (State.evtSettle s lockedBy) := by
  simp [Keeps, State.evtSettle]
@[simp] theorem State.releaseLatched_keeps (s : State) : Keeps s (State.releaseLatched s) := by
  simp [Keeps, State.releaseLatched]
@[simp] theorem State.evtFlush_keeps (s : State) : Keeps s (State.evtFlush s) := by
  simp [Keeps, State.evtFlush]
theorem evtReg_moves (p : Path) (a : Nat) (s : State) : OptMoves (evtReg p a s) := by
  unfold evtReg
  (try dsimp only)
  repeat' (first | (with_reducible refine OptMoves_ite ?_ ?_) | split)
  all_goals first | (exact OptMoves_none) | (exact (OptMoves_some _).2 ⟨fun _ _ => Moves_upd _ _ _ _ _ _ _ _ _ _ _ _ _ _ _ _ _ _ _ _ _ _, fun _ => Moves_refl _, fun _ _ => Moves_refl _⟩) | (rw [OptMoves_some]; simp +contextual [Moves, RegDef.ro]; done)

/-! ## CalEnd -/

@[simp] theorem State.setRun_keeps (s : State) (u : Nat) (r : Option CalRun) : Keeps s (State.setRun s u r) := by
  simp [Keeps, State.setRun]
@[simp] theorem State.setUnit_keeps (s : State) (u : Nat) (f : CalUnit → CalUnit) : Keeps s (State.setUnit s u f) := by
  simp [Keeps, State.setUnit]
@[simp] theorem State.calRecord_keeps (s : State) (u kind outcome : Nat) (commanded : Bool) : Keeps s (State.calRecord s u kind outcome commanded) := by
  simp [Keeps, State.calRecord]
@[simp] theorem State.adcFree_keeps (s : State) : Keeps s (State.adcFree s) := by
  simp [Keeps, State.adcFree]
@[simp] theorem State.adcEnd_keeps (s : State) (outcome reason : Nat) : Keeps s (State.adcEnd s outcome reason) := by
  unfold State.adcEnd; (try dsimp only); (repeat' split) <;> simp [Keeps]
@[simp] theorem State.swapsBack_keeps (s : State) (u : Nat) : Keeps s (State.swapsBack s u) := by
  first
  | (simp [Keeps, State.swapsBack]; done)
  | (unfold State.swapsBack; (try dsimp only); (repeat' split) <;> simp [Keeps]; done)
@[simp] theorem State.calAbandon_keeps (s : State) (u : Nat) : Keeps s (State.calAbandon s u) := by
  unfold State.calAbandon; (try dsimp only); (repeat' split) <;> simp [Keeps]
@[simp] theorem State.calAbandonAll_keeps (s : State) : Keeps s (State.calAbandonAll s) := by
  simp [Keeps, State.calAbandonAll]
@[simp] theorem State.calAbandonHck_keeps (s : State) : Keeps s (State.calAbandonHck s) := by
  simp [Keeps, State.calAbandonHck]

end Sys2Proof.Machine
end

