-- ==== Sys2Proof/Laws/KeepsPath.lean ====
section
/-! SUPPORT. Toward the invariant of the power domains (R67, R207): the operations of the host path, the buffers, training, calibration, trim, faults and settings keep it. -/

namespace Sys2Proof.Machine

/-! ## Dbuf -/

@[simp] theorem State.markUnreach_keeps (s : State) (t : Nat) : Keeps s (State.markUnreach s t) := by
  simp [Keeps, State.markUnreach]
@[simp] theorem State.attemptFail_keeps (s : State) (t : Nat) : Keeps s (State.attemptFail s t) := by
  simp [Keeps, State.attemptFail]
@[simp] theorem State.lastFail_keeps (s : State) (t : Nat) : Keeps s (State.lastFail s t) := by
  simp [Keeps, State.lastFail]
@[simp] theorem State.noAnswer_keeps (s : State) (t : Nat) : Keeps s (State.noAnswer s t) := by
  simp [Keeps, State.noAnswer]
@[simp] theorem State.zlbTry_keeps (s : State) (t : Nat) : Keeps s (State.zlbTry s t) := by
  simp [Keeps, State.zlbTry]
@[simp] theorem State.setDbTap_keeps (s : State) (n path entry : Nat) (t : TapSt) : Keeps s (State.setDbTap s n path entry t) := by
  simp [Keeps, State.setDbTap]
@[simp] theorem State.limitOff_keeps (s : State) (u : Nat) : Keeps s (State.limitOff s u) := by
  first
  | (simp [Keeps, State.limitOff]; done)
  | (unfold State.limitOff; (try dsimp only); (repeat' split) <;> simp [Keeps]; done)
@[simp] theorem State.writeDbTap_keeps (s : State) (n path entry : Nat) (t : TapSt) : Keeps s (State.writeDbTap s n path entry t) := by
  simp [Keeps, State.writeDbTap]
@[simp] theorem State.stepDbTap_keeps (s : State) (n path entry : Nat) (t : TapSt) : Keeps s (State.stepDbTap s n path entry t) := by
  simp [Keeps, State.stepDbTap]
@[simp] theorem State.genDb_keeps (s : State) (n path : Nat) (dqs : Bool) : Keeps s (State.genDb s n path dqs) := by
  simp [Keeps, State.genDb]
theorem dbReg_moves (n a : Nat) (s : State) : OptMoves (dbReg n a s) := by
  unfold dbReg
  (try dsimp only)
  repeat' (first | (with_reducible refine OptMoves_ite ?_ ?_) | split)
  all_goals first | (exact OptMoves_none) | (exact (OptMoves_some _).2 ⟨fun _ _ => Moves_upd _ _ _ _ _ _ _ _ _ _ _ _ _ _ _ _ _ _ _ _ _ _, fun _ => Moves_refl _, fun _ _ => Moves_refl _⟩) | (rw [OptMoves_some]; simp +contextual [Moves, RegDef.ro]; done)
@[simp] theorem State.zlbLevel_keeps (s : State) (k : Nat) : Keeps s (State.zlbLevel s k) := by
  simp [Keeps, State.zlbLevel]
@[simp] theorem State.remember_keeps (s : State) (t : Nat) (tag : BitVec 5) (word : BitVec 15) (data resp : Word) : Keeps s (State.remember s t tag word data resp) := by
  simp [Keeps, State.remember]
@[simp] theorem State.warrenAccess_keeps (s : State) (t o : Nat) (data resp : Word) : Keeps s (State.warrenAccess s t o data resp) := by
  first
  | (simp [Keeps, State.warrenAccess]; done)
  | (unfold State.warrenAccess; (try dsimp only); (repeat' split) <;> simp [Keeps]; done)
theorem proxied_moves (p : Path) (t o : Nat) (r : Option RegDef) (s : State) (hr : OptMoves r) : OptMoves (proxied p t o r s) := by
  unfold proxied
  dsimp only
  split
  · rw [OptMoves_some]; simp [Moves]
  · refine (OptMoves_some _).2 ⟨fun v t => ?_, fun t => ?_, fun v t => Moves_of (by simp [Keeps])⟩
    · cases r with
      | none => exact Moves_refl _
      | some d => exact (hr d rfl).1 v t
    · cases r with
      | none => exact Moves_of (by simp [Keeps])
      | some d => exact Moves_trans ((hr d rfl).2.1 t) (Moves_of (by simp [Keeps]))
theorem dbmReg_moves (p : Path) (a : Nat) (s : State) : OptMoves (dbmReg p a s) := by
  unfold dbmReg
  dsimp only
  repeat' with_reducible refine OptMoves_ite ?_ ?_
  all_goals first | (exact OptMoves_none) | (exact (OptMoves_some _).2 ⟨fun _ _ => Moves_upd _ _ _ _ _ _ _ _ _ _ _ _ _ _ _ _ _ _ _ _ _ _, fun _ => Moves_refl _, fun _ _ => Moves_refl _⟩) | (rw [OptMoves_some]; simp +contextual [Moves, RegDef.ro]; done) | exact proxied_moves _ _ _ _ _ (dbReg_moves _ _ _)
@[simp] theorem State.dbcAll_keeps (s : State) (x : Sub) (f : Db → Db) : Keeps s (State.dbcAll s x f) := by
  simp [Keeps, State.dbcAll]
@[simp] theorem State.dbcCmd_keeps (s : State) (x : Sub) (c : DbcCmd) : Keeps s (State.dbcCmd s x c) := by
  first
  | (simp [Keeps, State.dbcCmd]; done)
  | (unfold State.dbcCmd; (try dsimp only); (repeat' split) <;> simp [Keeps]; done)
@[simp] theorem State.applyStage_keeps (s : State) (n : Nat) : Keeps s (State.applyStage s n) := by
  simp [Keeps, State.applyStage]
@[simp] theorem State.trimLeave_keeps (s : State) (x : Sub) : Keeps s (State.trimLeave s x) := by
  simp [Keeps, State.trimLeave]
@[simp] theorem State.pollHot_keeps (s : State) (n : Nat) : Keeps s (State.pollHot s n) := by
  simp [Keeps, State.pollHot]
@[simp] theorem State.statusPoll_keeps (s : State) : Keeps s (State.statusPoll s) := by
  unfold State.statusPoll; (try dsimp only); (repeat' split) <;> simp [Keeps]

/-! ## Flt -/

@[simp] theorem State.wantRanks_keeps (s : State) (x : Sub) (m : Nat) : Keeps s (State.wantRanks s x m) := by
  simp [Keeps, State.wantRanks]
@[simp] theorem State.logRes_keeps (s : State) (kind c i : Nat) : Keeps s (State.logRes s kind c i) := by
  simp [Keeps, State.logRes]
@[simp] theorem State.logRepair_keeps (s : State) (e : Nat) : Keeps s (State.logRepair s e) := by
  simp [Keeps, State.logRepair]
@[simp] theorem State.setRepair_keeps (s : State) (e : Nat) (r : Repair) : Keeps s (State.setRepair s e r) := by
  simp [Keeps, State.setRepair]
@[simp] theorem State.wantRepair_keeps (s : State) (dev : Nat) (a : RowAddr) : Keeps s (State.wantRepair s dev a) := by
  simp [Keeps, State.wantRepair]
@[simp] theorem State.repairTest_keeps (s : State) (i : Nat) : Keeps s (State.repairTest s i) := by
  unfold State.repairTest; (try dsimp only); (repeat' split) <;> simp [Keeps]
@[simp] theorem State.setBusy_keeps (s : State) (x : Sub) (e : Option Nat) : Keeps s (State.setBusy s x e) := by
  unfold State.setBusy; (try dsimp only); (repeat' split) <;> simp [Keeps]
@[simp] theorem State.saveStore_keeps (s : State) (x : Sub) (on : Bool) : Keeps s (State.saveStore s x on) := by
  first
  | (simp [Keeps, State.saveStore]; done)
  | (unfold State.saveStore; (try dsimp only); (repeat' split) <;> simp [Keeps]; done)
@[simp] theorem State.repairStart_keeps (s : State) (x : Sub) (e : Nat) : Keeps s (State.repairStart s x e) := by
  first
  | (simp [Keeps, State.repairStart]; done)
  | (unfold State.repairStart; (try dsimp only); (repeat' split) <;> simp [Keeps]; done)
@[simp] theorem State.repairStop_keeps (s : State) (x : Sub) : Keeps s (State.repairStop s x) := by
  first
  | (simp [Keeps, State.repairStop]; done)
  | (unfold State.repairStop; (try dsimp only); (repeat' split) <;> simp [Keeps]; done)
@[simp] theorem State.repairDone_keeps (s : State) (x : Sub) (pass : Bool) : Keeps s (State.repairDone s x pass) := by
  unfold State.repairDone; (try dsimp only); (repeat' split) <;> simp [Keeps]
@[simp] theorem State.repairAbandon_keeps (s : State) (x : Sub) : Keeps s (State.repairAbandon s x) := by
  simp [Keeps, State.repairAbandon]
@[simp] theorem State.repairCut_keeps (s : State) (x : Sub) : Keeps s (State.repairCut s x) := by
  unfold State.repairCut; (try dsimp only); (repeat' split) <;> simp [Keeps]
@[simp] theorem State.repairsLost_keeps (s : State) (x : Sub) : Keeps s (State.repairsLost s x) := by
  simp [Keeps, State.repairsLost]
@[simp] theorem State.retrain_keeps (s : State) (c i : Nat) : Keeps s (State.retrain s c i) := by
  simp [Keeps, State.retrain]
@[simp] theorem State.lastingActions_keeps (s : State) (c i : Nat) : Keeps s (State.lastingActions s c i) := by
  simp [Keeps, State.lastingActions]
@[simp] theorem State.moveRes_keeps (s : State) (c i : Nat) (r : Res) (st : FltState) : Keeps s (State.moveRes s c i r st) := by
  simp [Keeps, State.moveRes]
@[simp] theorem State.count_keeps (s : State) (c i k : Nat) : Keeps s (State.count s c i k) := by
  simp [Keeps, State.count]
@[simp] theorem State.snapshotOne_keeps (s : State) (c i : Nat) : Keeps s (State.snapshotOne s c i) := by
  simp [Keeps, State.snapshotOne]
@[simp] theorem State.fold_keeps (s : State) : Keeps s (State.fold s) := by
  simp [Keeps, State.fold]
@[simp] theorem State.boundaryOne_keeps (c : Nat) (s : State) (i : Nat) : Keeps s (State.boundaryOne c s i) := by
  simp [Keeps, State.boundaryOne]
@[simp] theorem State.boundary_keeps (s : State) (c : Nat) : Keeps s (State.boundary s c) := by
  simp [Keeps, State.boundary]
@[simp] theorem State.clearRes_keeps (s : State) (c i : Nat) : Keeps s (State.clearRes s c i) := by
  simp [Keeps, State.clearRes]
@[simp] theorem State.clearClass_keeps (s : State) (c : Nat) : Keeps s (State.clearClass s c) := by
  simp [Keeps, State.clearClass]
@[simp] theorem State.clearAll_keeps (s : State) : Keeps s (State.clearAll s) := by
  simp [Keeps, State.clearAll]
@[simp] theorem State.suspectRow_keeps (s : State) (i : Nat) (a : RowAddr) : Keeps s (State.suspectRow s i a) := by
  simp [Keeps, State.suspectRow]
@[simp] theorem State.restoreRec_keeps (s : State) (r : FaultRec) : Keeps s (State.restoreRec s r) := by
  simp [Keeps, State.restoreRec]
@[simp] theorem State.writeCfg_keeps (s : State) (c : Nat) (v : Word) : Keeps s (State.writeCfg s c v) := by
  unfold State.writeCfg
  dsimp only
  split
  · exact foldl_keeps _ (fun s i => State.setRes_keeps s c i _) _ _
  · simp [Keeps]
@[simp] theorem State.fltCmd_keeps (s : State) (p : Path) (v : Word) : Keeps s (State.fltCmd s p v) := by
  unfold State.fltCmd; (try dsimp only); (repeat' split) <;> simp [Keeps]
theorem fltReg_moves (p : Path) (a : Nat) (s : State) : OptMoves (fltReg p a s) := by
  unfold fltReg
  (try dsimp only)
  repeat' (first | (with_reducible refine OptMoves_ite ?_ ?_) | split)
  all_goals first | (exact OptMoves_none) | (exact (OptMoves_some _).2 ⟨fun _ _ => Moves_upd _ _ _ _ _ _ _ _ _ _ _ _ _ _ _ _ _ _ _ _ _ _, fun _ => Moves_refl _, fun _ _ => Moves_refl _⟩) | (rw [OptMoves_some]; simp +contextual [Moves, RegDef.ro]; done)

/-! ## HostOps -/

@[simp] theorem State.attributeOne_keeps (s : State) (n : Nat) : Keeps s (State.attributeOne s n) := by
  unfold State.attributeOne
  dsimp only
  split
  · simp [Keeps]
  · split <;> simp [Keeps]
@[simp] theorem State.attribute_keeps (s : State) (x : Sub) : Keeps s (State.attribute s x) := by
  simp [Keeps, State.attribute]
@[simp] theorem State.reportTaken_keeps (s : State) (r : Report) : Keeps s (State.reportTaken s r) := by
  first
  | (simp [Keeps, State.reportTaken]; done)
  | (unfold State.reportTaken; (try dsimp only); (repeat' split) <;> simp [Keeps]; done)
@[simp] theorem State.report_keeps (s : State) (r : Report) : Keeps s (State.report s r) := by
  first
  | (simp [Keeps, State.report]; done)
  | (unfold State.report; (try dsimp only); (repeat' split) <;> simp [Keeps]; done)
@[simp] theorem State.reportsDrain_keeps (s : State) : Keeps s (State.reportsDrain s) := by
  first
  | (simp [Keeps, State.reportsDrain]; done)
  | (unfold State.reportsDrain; (try dsimp only); (repeat' split) <;> simp [Keeps]; done)
@[simp] theorem State.alertTrigger_keeps (s : State) (k : Pulse) : Keeps s (State.alertTrigger s k) := by
  unfold State.alertTrigger; (try dsimp only); (repeat' split) <;> simp [Keeps]
@[simp] theorem State.setCause_keeps (s : State) (bit : Nat) : Keeps s (State.setCause s bit) := by
  simp [Keeps, State.setCause]
@[simp] theorem State.setRanks_keeps (s : State) (x : Sub) (st : RankSt) : Keeps s (State.setRanks s x st) := by
  simp [Keeps, State.setRanks]
@[simp] theorem State.issue_keeps (s : State) (x : Sub) (cs : List (CmdKind × Nat)) : Keeps s (State.issue s x cs) := by
  first
  | (simp [Keeps, State.issue]; done)
  | (unfold State.issue; (try dsimp only); (repeat' split) <;> simp [Keeps]; done)
@[simp] theorem State.parityStop_keeps (s : State) (x : Sub) : Keeps s (State.parityStop s x) := by
  simp [Keeps, State.parityStop]
@[simp] theorem State.parityError_keeps (s : State) (x : Sub) : Keeps s (State.parityError s x) := by
  simp [Keeps, State.parityError]
@[simp] theorem State.stopFree_keeps (s : State) (x : Sub) : Keeps s (State.stopFree s x) := by
  simp [Keeps, State.stopFree]
@[simp] theorem State.copyCfg_keeps (s : State) (x : Sub) : Keeps s (State.copyCfg s x) := by
  simp [Keeps, State.copyCfg]
@[simp] theorem State.shadowMrw_keeps (s : State) (x : Sub) (ranks : BitVec 4) (mr op : Byte) : Keeps s (State.shadowMrw s x ranks mr op) := by
  simp [Keeps, State.shadowMrw]
@[simp] theorem State.burstFrame_keeps (s : State) (x : Sub) (k : CmdKind) (cs : BitVec 4) : Keeps s (State.burstFrame s x k cs) := by
  first
  | (simp [Keeps, State.burstFrame]; done)
  | (unfold State.burstFrame; (try dsimp only); (repeat' split) <;> simp [Keeps]; done)
@[simp] theorem State.pass_keeps (s : State) (x : Sub) (c : HostCycle) : Keeps s (State.pass s x c) := by
  simp [Keeps, State.pass]
@[simp] theorem State.hold_keeps (s : State) (x : Sub) : Keeps s (State.hold s x) := by
  simp [Keeps, State.hold]
@[simp] theorem State.drop_keeps (s : State) (x : Sub) : Keeps s (State.drop s x) := by
  simp [Keeps, State.drop]
theorem State.winSlot_moves (s : State) (x : Sub) (f : State → State) (h : ∀ t, Moves t (f t)) : Moves s (State.winSlot s x f) := by
  unfold State.winSlot
  split
  · exact Moves_refl s
  · split
    · exact Moves_of (by simp [Keeps])
    · have hk : Keeps s (s.hold x) := by simp [Keeps, State.hold]
      exact Moves_trans (Moves_of hk) (h _)
@[simp] theorem State.setWin_keeps (s : State) (x : Sub) (f : Win → Win) : Keeps s (State.setWin s x f) := by
  simp [Keeps, State.setWin]
@[simp] theorem State.winDrive_keeps (s : State) (x : Sub) (b : Byte) : Keeps s (State.winDrive s x b) := by
  simp [Keeps, State.winDrive]
@[simp] theorem State.dbeEnd_keeps (s : State) (x : Sub) (lowHck : Nat) : Keeps s (State.dbeEnd s x lowHck) := by
  unfold State.dbeEnd; generalize decide (5 ≤ lowHck) = fr; dsimp only
  generalize (match fr, x with
    | true, .a => _ | true, .b => _ | false, .a => _ | false, .b => _ : Zlb) = z
  cases fr <;> simp [Keeps]
@[simp] theorem State.clearCause_keeps (s : State) (v : Word) : Keeps s (State.clearCause s v) := by
  simp [Keeps, State.clearCause]
theorem hostReg_moves (p : Path) (a : Nat) (s : State) : OptMoves (hostReg p a s) := by
  unfold hostReg
  (try dsimp only)
  repeat' (first | (with_reducible refine OptMoves_ite ?_ ?_) | split)
  all_goals first | (exact OptMoves_none) | (exact (OptMoves_some _).2 ⟨fun _ _ => Moves_upd _ _ _ _ _ _ _ _ _ _ _ _ _ _ _ _ _ _ _ _ _ _, fun _ => Moves_refl _, fun _ _ => Moves_refl _⟩) | (rw [OptMoves_some]; simp +contextual [Moves, RegDef.ro]; done)
@[simp] theorem State.winAddress_keeps (s : State) (x : Sub) (high : Bool) (op : Byte) : Keeps s (State.winAddress s x high op) := by
  simp [Keeps, State.winAddress]
@[simp] theorem State.winStage_keeps (s : State) (x : Sub) (i : Nat) (op : Byte) : Keeps s (State.winStage s x i op) := by
  simp [Keeps, State.winStage]
@[simp] theorem State.winCommit_keeps (s : State) (x : Sub) (op : Byte) : Keeps s (State.winCommit s x op) := by
  simp [Keeps, State.winCommit]
@[simp] theorem State.winAbort_keeps (s : State) (x : Sub) (op : Byte) : Keeps s (State.winAbort s x op) := by
  simp [Keeps, State.winAbort]
@[simp] theorem State.winRead_keeps (s : State) (x : Sub) (i : Nat) : Keeps s (State.winRead s x i) := by
  simp [Keeps, State.winRead]
@[simp] theorem State.winStatusRead_keeps (s : State) (x : Sub) : Keeps s (State.winStatusRead s x) := by
  simp [Keeps, State.winStatusRead]
@[simp] theorem State.passRead_keeps (s : State) (x : Sub) (rank : Nat) (data : Byte) : Keeps s (State.passRead s x rank data) := by
  simp [Keeps, State.passRead]
@[simp] theorem State.passMrw_keeps (s : State) (x : Sub) (rank : Nat) : Keeps s (State.passMrw s x rank) := by
  simp [Keeps, State.passMrw]
@[simp] theorem State.ceReport_keeps (s : State) (x : Sub) : Keeps s (State.ceReport s x) := by
  simp [Keeps, State.ceReport]

/-! ## CalOps -/

@[simp] theorem State.calBegin_keeps (s : State) (u kind : Nat) (todo : List Nat) (commanded : Bool) (next : List Nat) (nextCmd : Bool) : Keeps s (State.calBegin s u kind todo commanded next nextCmd) := by
  simp [Keeps, State.calBegin]
@[simp] theorem State.calWait_keeps (s : State) (u : Nat) (commanded : Bool) (next : List Nat) (nextCmd : Bool) : Keeps s (State.calWait s u commanded next nextCmd) := by
  first
  | (simp [Keeps, State.calWait]; done)
  | (unfold State.calWait; (try dsimp only); (repeat' split) <;> simp [Keeps]; done)
@[simp] theorem State.calTap_keeps (s : State) (u : Nat) (commanded : Bool) (next : List Nat) (nextCmd : Bool) : Keeps s (State.calTap s u commanded next nextCmd) := by
  first
  | (simp [Keeps, State.calTap]; done)
  | (unfold State.calTap; (try dsimp only); (repeat' split) <;> simp [Keeps]; done)
@[simp] theorem State.calVref_keeps (s : State) (u : Nat) (rxs : List Nat) (commanded : Bool) : Keeps s (State.calVref s u rxs commanded) := by
  first
  | (simp [Keeps, State.calVref]; done)
  | (unfold State.calVref; (try dsimp only); (repeat' split) <;> simp [Keeps]; done)
@[simp] theorem State.calResume_keeps (s : State) : Keeps s (State.calResume s) := by
  simp [Keeps, State.calResume]
@[simp] theorem State.calBoth_keeps (s : State) (u : Nat) (commanded : Bool) : Keeps s (State.calBoth s u commanded) := by
  first
  | (simp [Keeps, State.calBoth]; done)
  | (unfold State.calBoth; (try dsimp only); (repeat' split) <;> simp [Keeps]; done)
@[simp] theorem State.calEnd_keeps (s : State) (u outcome : Nat) : Keeps s (State.calEnd s u outcome) := by
  unfold State.calEnd; (try dsimp only); (repeat' split) <;> simp [Keeps]
@[simp] theorem State.calReach_keeps (s : State) (u : Nat) : Keeps s (State.calReach s u) := by
  first
  | (simp [Keeps, State.calReach]; done)
  | (unfold State.calReach; (try dsimp only); (repeat' split) <;> simp [Keeps]; done)
@[simp] theorem State.calTapDone_keeps (s : State) (u c64 c32 c64' c32' : Nat) : Keeps s (State.calTapDone s u c64 c32 c64' c32') := by
  unfold State.calTapDone; (try dsimp only); (repeat' split) <;> simp [Keeps]
@[simp] theorem State.setSwap_keeps (s : State) (u rx v : Nat) : Keeps s (State.setSwap s u rx v) := by
  simp [Keeps, State.setSwap]
@[simp] theorem State.rxNext_keeps (s : State) (u : Nat) (r : CalRun) : Keeps s (State.rxNext s u r) := by
  first
  | (simp [Keeps, State.rxNext]; done)
  | (unfold State.rxNext; (try dsimp only); (repeat' split) <;> simp [Keeps]; done)
@[simp] theorem State.setComp_keeps (s : State) (u key : Nat) (v : Byte × Byte) : Keeps s (State.setComp s u key v) := by
  first
  | (simp [Keeps, State.setComp]; done)
  | (unfold State.setComp; (try dsimp only); (repeat' split) <;> simp [Keeps]; done)
@[simp] theorem State.vrefSwap_keeps (s : State) (u rx : Nat) : Keeps s (State.vrefSwap s u rx) := by
  unfold State.vrefSwap; (repeat' split) <;> simp [Keeps]
@[simp] theorem State.swapTimeout_keeps (s : State) (u rx : Nat) : Keeps s (State.swapTimeout s u rx) := by
  unfold State.swapTimeout; (try dsimp only); (repeat' split) <;> simp [Keeps]
@[simp] theorem State.calVrefDone_keeps (s : State) (u rx : Nat) (shadow : Bool) (p q : Trips) : Keeps s (State.calVrefDone s u rx shadow p q) := by
  unfold State.calVrefDone; (try dsimp only); (repeat' split) <;> simp [Keeps]
@[simp] theorem State.adcStart_keeps (s : State) : Keeps s (State.adcStart s) := by
  simp [Keeps, State.adcStart]
@[simp] theorem State.adcSample_keeps (s : State) (code : Nat) (flag : Bool) : Keeps s (State.adcSample s code flag) := by
  first
  | (simp [Keeps, State.adcSample]; done)
  | (unfold State.adcSample; (try dsimp only); (repeat' split) <;> simp [Keeps]; done)
@[simp] theorem State.calAdcDone_keeps (s : State) : Keeps s (State.calAdcDone s) := by
  simp [Keeps, State.calAdcDone]
@[simp] theorem State.calSwitch_keeps (s : State) : Keeps s (State.calSwitch s) := by
  first
  | (simp [Keeps, State.calSwitch]; done)
  | (unfold State.calSwitch; (try dsimp only); (repeat' split) <;> simp [Keeps]; done)
@[simp] theorem State.calCmd_keeps (s : State) (v : Word) : Keeps s (State.calCmd s v) := by
  simp [Keeps, State.calCmd]
@[simp] theorem State.setCa_keeps (s : State) (x : Sub) (i : Nat) (t : TapSt) : Keeps s (State.setCa s x i t) := by
  simp [Keeps, State.setCa]
theorem calReg_moves (p : Path) (a : Nat) (s : State) : OptMoves (calReg p a s) := by
  unfold calReg
  (try dsimp only)
  repeat' (first | (with_reducible refine OptMoves_ite ?_ ?_) | split)
  all_goals first | (exact OptMoves_none) | (exact (OptMoves_some _).2 ⟨fun _ _ => Moves_upd _ _ _ _ _ _ _ _ _ _ _ _ _ _ _ _ _ _ _ _ _ _, fun _ => Moves_refl _, fun _ _ => Moves_refl _⟩) | (rw [OptMoves_some]; simp +contextual [Moves, RegDef.ro]; done)

/-! ## HrdOps -/

@[simp] theorem State.layCopy_keeps (s : State) : Keeps s (State.layCopy s) := by
  simp [Keeps, State.layCopy]
@[simp] theorem State.setExtent_keeps (s : State) (i : Nat) (e : Extent) : Keeps s (State.setExtent s i e) := by
  simp [Keeps, State.setExtent]
@[simp] theorem State.wmarksLost_keeps (s : State) : Keeps s (State.wmarksLost s) := by
  simp [Keeps, State.wmarksLost]

/-! ## TrainOps -/

@[simp] theorem State.genSet_keeps (s : State) (x : Sub) (rank die kind : Nat) : Keeps s (State.genSet s x rank die kind) := by
  first
  | (simp [Keeps, State.genSet]; done)
  | (unfold State.genSet; (try dsimp only); (repeat' split) <;> simp [Keeps]; done)
@[simp] theorem State.genDies_keeps (s : State) (x : Sub) (rank kind : Nat) : Keeps s (State.genDies s x rank kind) := by
  first
  | (simp [Keeps, State.genDies]; done)
  | (unfold State.genDies; (try dsimp only); (repeat' split) <;> simp [Keeps]; done)
@[simp] theorem State.genPath_keeps (s : State) (x : Sub) (path : Nat) (dqs : Bool) : Keeps s (State.genPath s x path dqs) := by
  simp [Keeps, State.genPath]
@[simp] theorem State.reelRank_keeps (s : State) (x : Sub) (k : Nat) : Keeps s (State.reelRank s x k) := by
  first
  | (simp [Keeps, State.reelRank]; done)
  | (unfold State.reelRank; (try dsimp only); (repeat' split) <;> simp [Keeps]; done)
@[simp] theorem State.writeRank_keeps (s : State) (x : Sub) (k : Nat) : Keeps s (State.writeRank s x k) := by
  first
  | (simp [Keeps, State.writeRank]; done)
  | (unfold State.writeRank; (try dsimp only); (repeat' split) <;> simp [Keeps]; done)
@[simp] theorem State.trainRank_keeps (s : State) (x : Sub) (ph : Phase) (k : Nat) : Keeps s (State.trainRank s x ph k) := by
  unfold State.trainRank; (repeat' split) <;> simp [Keeps]
@[simp] theorem State.trainFrames_keeps (s : State) (x : Sub) (cs : List (BitVec 2)) : Keeps s (State.trainFrames s x cs) := by
  first
  | (simp [Keeps, State.trainFrames]; done)
  | (unfold State.trainFrames; (try dsimp only); (repeat' split) <;> simp [Keeps]; done)
@[simp] theorem State.resetRank_keeps (s : State) (x : Sub) (k : Nat) : Keeps s (State.resetRank s x k) := by
  simp [Keeps, State.resetRank]
@[simp] theorem State.noteTemps_keeps (s : State) (x : Sub) (m : Nat) : Keeps s (State.noteTemps s x m) := by
  unfold State.noteTemps; (repeat' split) <;> simp [Keeps]
@[simp] theorem State.recStore_keeps (s : State) (source : Nat) : Keeps s (State.recStore s source) := by
  simp [Keeps, State.recStore]
@[simp] theorem State.recOwed_keeps (s : State) : Keeps s (State.recOwed s) := by
  first
  | (simp [Keeps, State.recOwed]; done)
  | (unfold State.recOwed; (try dsimp only); (repeat' split) <;> simp [Keeps]; done)
@[simp] theorem State.driftCheck_keeps (s : State) (r now : TapSt) : Keeps s (State.driftCheck s r now) := by
  simp [Keeps, State.driftCheck]
@[simp] theorem State.replay_keeps (s : State) (rec : WarmRec) : Keeps s (State.replay s rec) := by
  simp [Keeps, State.replay]
@[simp] theorem State.discardWork_keeps (s : State) (x : Sub) : Keeps s (State.discardWork s x) := by
  simp [Keeps, State.discardWork]
@[simp] theorem State.setPhase_keeps (s : State) (x : Sub) (p : Phase) : Keeps s (State.setPhase s x p) := by
  simp [Keeps, State.setPhase]
@[simp] theorem State.firstVref_keeps (s : State) (x : Sub) : Keeps s (State.firstVref s x) := by
  simp [Keeps, State.firstVref]
@[simp] theorem State.goHost_keeps (s : State) (x : Sub) : Keeps s (State.goHost s x) := by
  simp [Keeps, State.goHost]
@[simp] theorem State.trainDone_keeps (s : State) (x : Sub) : Keeps s (State.trainDone s x) := by
  unfold State.trainDone; (try dsimp only); (repeat' split) <;> simp [Keeps]
@[simp] theorem State.setPath_keeps (s : State) (p : Nat) : Keeps s (State.setPath s p) := by
  simp [Keeps, State.setPath]
@[simp] theorem State.coldPath_keeps (s : State) : Keeps s (State.coldPath s) := by
  simp [Keeps, State.coldPath]
@[simp] theorem State.publish_keeps (s : State) (warm : Bool) : Keeps s (State.publish s warm) := by
  simp [Keeps, State.publish]
@[simp] theorem State.wakeEnd_moves (s : State) (lastEnd : BitVec 3) : Moves s (State.wakeEnd s lastEnd) := by
  unfold State.wakeEnd
  split
  · simp [Moves]
  · rename_i hk
    simp only [bne_iff_ne, ne_eq, Decidable.not_not] at hk
    refine ⟨by dsimp only; split <;> simp, by dsimp only; split <;> simp, by dsimp only; split <;> simp, fun _ => by dsimp only; split <;> simp <;> rfl, fun m hm hl => ?_⟩
    have : (({ s.pow with keep := .normal, dom := .run, lastEnd := lastEnd } : Pow)).legal m = true := by
      simp only [Pow.legal, hk, keepDom, Bool.and_eq_true, beq_iff_eq] at hl ⊢
      obtain ⟨⟨h1, h2⟩, h3⟩ := hl
      simp only [h1] at h2 h3 ⊢
      simp_all [domOnOk, domMask]
      rfl
    dsimp only
    split <;> simp [this]
@[simp] theorem State.wakeEnd_off (s : State) (lastEnd : BitVec 3) : s.pow.isOn = true → (State.wakeEnd s lastEnd).pow.isOn = true := (State.wakeEnd_moves s lastEnd).2.2.2.1 -- moves_off
@[simp] theorem State.resumeEnd_moves (s : State) (result : BitVec 2) : Moves s (State.resumeEnd s result) := by
  refine ⟨?_, ?_, ?_, fun hd => ?_, fun m hm hl => ?_⟩ <;> subst_vars <;> simp only [State.resumeEnd] <;> (repeat' split) <;> (try simp [*]) <;> (repeat' split) <;> simp [*]
@[simp] theorem State.resumeEnd_off (s : State) (result : BitVec 2) : s.pow.isOn = true → (State.resumeEnd s result).pow.isOn = true := (State.resumeEnd_moves s result).2.2.2.1 -- moves_off
@[simp] theorem State.polkaPass_moves (s : State) (x : Sub) : Moves s (State.polkaPass s x) := by
  refine ⟨?_, ?_, ?_, fun hd => ?_, fun m hm hl => ?_⟩ <;> subst_vars <;> simp only [State.polkaPass] <;> (repeat' split) <;> (try simp [*]) <;> (repeat' split) <;> simp [*]
@[simp] theorem State.polkaPass_off (s : State) (x : Sub) : s.pow.isOn = true → (State.polkaPass s x).pow.isOn = true := (State.polkaPass_moves s x).2.2.2.1 -- moves_off
@[simp] theorem State.yrstLow_keeps (s : State) : Keeps s (State.yrstLow s) := by
  simp [Keeps, State.yrstLow]
@[simp] theorem State.yrstPulse_keeps (s : State) : Keeps s (State.yrstPulse s) := by
  first
  | (simp [Keeps, State.yrstPulse]; done)
  | (unfold State.yrstPulse; (try dsimp only); (repeat' split) <;> simp [Keeps]; done)
@[simp] theorem State.dropImage_moves (s : State) (cause : BitVec 24) : Moves s (State.dropImage s cause) := by
  refine ⟨?_, ?_, ?_, fun hd => ?_, fun m hm hl => ?_⟩ <;> subst_vars <;> simp only [State.dropImage] <;> (repeat' split) <;> (try simp [*]) <;> (repeat' split) <;> simp [*]
@[simp] theorem State.dropImage_off (s : State) (cause : BitVec 24) : s.pow.isOn = true → (State.dropImage s cause).pow.isOn = true := (State.dropImage_moves s cause).2.2.2.1 -- moves_off
@[simp] theorem State.polkaFailResume_moves (s : State) (x : Sub) (check : Nat) : Moves s (State.polkaFailResume s x check) := by
  refine ⟨?_, ?_, ?_, fun hd => ?_, fun m hm hl => ?_⟩ <;> subst_vars <;> simp only [State.polkaFailResume] <;> (repeat' split) <;> (try simp [*]) <;> (repeat' split) <;> simp [*]
@[simp] theorem State.polkaFailResume_off (s : State) (x : Sub) (check : Nat) : s.pow.isOn = true → (State.polkaFailResume s x check).pow.isOn = true := (State.polkaFailResume_moves s x check).2.2.2.1 -- moves_off
@[simp] theorem State.polkaFail_keeps (s : State) (x : Sub) (check : Nat) : Keeps s (State.polkaFail s x check) := by
  simp [Keeps, State.polkaFail]
@[simp] theorem State.polkaDone_moves (s : State) (x : Sub) (dies : List PolkaDie) : Moves s (State.polkaDone s x dies) := by
  refine ⟨?_, ?_, ?_, fun hd => ?_, fun m hm hl => ?_⟩ <;> subst_vars <;> simp only [State.polkaDone] <;> (repeat' split) <;> (try simp [*]) <;> (repeat' split) <;> simp [*]
@[simp] theorem State.polkaDone_off (s : State) (x : Sub) (dies : List PolkaDie) : s.pow.isOn = true → (State.polkaDone s x dies).pow.isOn = true := (State.polkaDone_moves s x dies).2.2.2.1 -- moves_off
@[simp] theorem State.failRanks_keeps (s : State) (x : Sub) (m : Nat) : Keeps s (State.failRanks s x m) := by
  simp [Keeps, State.failRanks]
@[simp] theorem State.stepDone_keeps (s : State) (x : Sub) (failed : BitVec 4) : Keeps s (State.stepDone s x failed) := by
  simp [Keeps, State.stepDone]
@[simp] theorem State.trainInit_keeps (s : State) (x : Sub) : Keeps s (State.trainInit s x) := by
  simp [Keeps, State.trainInit]
@[simp] theorem State.initDone_keeps (s : State) (x : Sub) : Keeps s (State.initDone s x) := by
  simp [Keeps, State.initDone]
@[simp] theorem State.reelH_keeps (s : State) (x : Sub) (enough : Bool) (es : List TapVref) : Keeps s (State.reelH s x enough es) := by
  simp [Keeps, State.reelH]
@[simp] theorem State.wantByTemp_keeps (s : State) : Keeps s (State.wantByTemp s) := by
  unfold State.wantByTemp; (try dsimp only); (repeat' split) <;> simp [Keeps]
@[simp] theorem State.calByTemp_keeps (s : State) : Keeps s (State.calByTemp s) := by
  unfold State.calByTemp
  refine foldl_keeps _ (fun s u => ?_) _ _
  split
  · simp [Keeps]
  · simp [Keeps]
@[simp] theorem State.unitRestore_keeps (s : State) (x : Sub) : Keeps s (State.unitRestore s x) := by
  first
  | (simp [Keeps, State.unitRestore]; done)
  | (unfold State.unitRestore; (try dsimp only); (repeat' split) <;> simp [Keeps]; done)
@[simp] theorem State.unitStart_keeps (s : State) (x : Sub) : Keeps s (State.unitStart s x) := by
  unfold State.unitStart; (repeat' split) <;> simp [Keeps]
@[simp] theorem State.unitDone_keeps (s : State) (x : Sub) (pass changed : Bool) (lane : Nat) : Keeps s (State.unitDone s x pass changed lane) := by
  unfold State.unitDone; (try dsimp only); (repeat' split) <;> simp [Keeps]
@[simp] theorem State.unitAbandon_keeps (s : State) (x : Sub) : Keeps s (State.unitAbandon s x) := by
  simp [Keeps, State.unitAbandon]
@[simp] theorem State.settleGo_keeps (s : State) (x : Sub) (go : Bool) : Keeps s (State.settleGo s x go) := by
  simp [Keeps, State.settleGo]
@[simp] theorem State.hrxClear_keeps (s : State) (x : Sub) : Keeps s (State.hrxClear s x) := by
  first
  | (simp [Keeps, State.hrxClear]; done)
  | (unfold State.hrxClear; (try dsimp only); (repeat' split) <;> simp [Keeps]; done)
@[simp] theorem State.settleEnd_keeps (s : State) (x : Sub) (edges : Bool) (es : List TapVref) : Keeps s (State.settleEnd s x edges es) := by
  simp [Keeps, State.settleEnd]
@[simp] theorem State.blobNext_keeps (s : State) (p : Path) : Keeps s (State.blobNext s p) := by
  simp [Keeps, State.blobNext]
@[simp] theorem State.recCmd_keeps (s : State) (key : Nat) : Keeps s (State.recCmd s key) := by
  simp [Keeps, State.recCmd]
theorem trainReg_moves (p : Path) (a : Nat) (s : State) : OptMoves (trainReg p a s) := by
  unfold trainReg
  (try dsimp only)
  repeat' (first | (with_reducible refine OptMoves_ite ?_ ?_) | split)
  all_goals first | (exact OptMoves_none) | (exact (OptMoves_some _).2 ⟨fun _ _ => Moves_upd _ _ _ _ _ _ _ _ _ _ _ _ _ _ _ _ _ _ _ _ _ _, fun _ => Moves_refl _, fun _ _ => Moves_refl _⟩) | (rw [OptMoves_some]; simp +contextual [Moves, RegDef.ro]; done)

/-! ## TrimOps -/

@[simp] theorem State.trimDecide_keeps (s : State) (u path mode entry : Nat) : Keeps s (State.trimDecide s u path mode entry) := by
  simp [Keeps, State.trimDecide]
@[simp] theorem State.smeResult_keeps (s : State) (u path mode n : Nat) (counts : List EyeCount) : Keeps s (State.smeResult s u path mode n counts) := by
  simp [Keeps, State.smeResult]
@[simp] theorem State.windowClose_keeps (s : State) (n uis : Nat) (counts : List EyeCount) : Keeps s (State.windowClose s n uis counts) := by
  first
  | (simp [Keeps, State.windowClose]; done)
  | (unfold State.windowClose; (try dsimp only); (repeat' split) <;> simp [Keeps]; done)
@[simp] theorem State.dbrResult_keeps (s : State) (n path mode : Nat) (rx : List Bool) (room : Bool) : Keeps s (State.dbrResult s n path mode rx room) := by
  simp [Keeps, State.dbrResult]
@[simp] theorem State.centreSweep_keeps (s : State) : Keeps s (State.centreSweep s) := by
  unfold State.centreSweep; (try dsimp only); (repeat' split) <;> simp [Keeps]
@[simp] theorem State.smeBuffer_keeps (s : State) (n path uis : Nat) (counts : List EyeCount) (flips : List (Fin 157)) (room : Bool) : Keeps s (State.smeBuffer s n path uis counts flips room) := by
  first
  | (simp [Keeps, State.smeBuffer]; done)
  | (unfold State.smeBuffer; (try dsimp only); (repeat' split) <;> simp [Keeps]; done)
@[simp] theorem State.smeSlot_keeps (s : State) (n : Nat) (counts : List EyeCount) (flips : List (Fin 157)) (room : Bool) : Keeps s (State.smeSlot s n counts flips room) := by
  unfold State.smeSlot; (try dsimp only); (repeat' split) <;> simp [Keeps]
@[simp] theorem State.refuseStep_keeps (s : State) (u : Nat) (t : TrimStep) : Keeps s (State.refuseStep s u t) := by
  simp [Keeps, State.refuseStep]
@[simp] theorem State.countStep_keeps (s : State) (u : Nat) : Keeps s (State.countStep s u) := by
  simp [Keeps, State.countStep]
@[simp] theorem State.drift_keeps (s : State) (u path entry : Nat) (now : TapSt) : Keeps s (State.drift s u path entry now) := by
  unfold State.drift; (repeat' split) <;> simp [Keeps]
@[simp] theorem State.popStep_keeps (s : State) (u : Nat) (t : TrimStep) : Keeps s (State.popStep s u t) := by
  simp [Keeps, State.popStep]
@[simp] theorem State.trimApply_keeps (s : State) (x : Sub) : Keeps s (State.trimApply s x) := by
  simp [Keeps, State.trimApply]
@[simp] theorem State.placeStep_keeps (s : State) (u : Nat) (t : TrimStep) : Keeps s (State.placeStep s u t) := by
  first
  | (simp [Keeps, State.placeStep]; done)
  | (unfold State.placeStep; (try dsimp only); (repeat' split) <;> simp [Keeps]; done)
@[simp] theorem State.takeStep_keeps (s : State) (u : Nat) (t : TrimStep) : Keeps s (State.takeStep s u t) := by
  simp [Keeps, State.takeStep]
@[simp] theorem State.centreEnd_keeps (s : State) (u : Nat) : Keeps s (State.centreEnd s u) := by
  unfold State.centreEnd; (try dsimp only); (repeat' split) <;> simp [Keeps]
@[simp] theorem State.trimTick_keeps (s : State) (u : Nat) : Keeps s (State.trimTick s u) := by
  unfold State.trimTick; (try dsimp only); (repeat' split) <;> simp [Keeps]
@[simp] theorem State.stepTaken_keeps (s : State) (u : Nat) : Keeps s (State.stepTaken s u) := by
  first
  | (simp [Keeps, State.stepTaken]; done)
  | (unfold State.stepTaken; (try dsimp only); (repeat' split) <;> simp [Keeps]; done)
@[simp] theorem State.caApply_keeps (s : State) (x : Sub) : Keeps s (State.caApply s x) := by
  unfold State.caApply; (try dsimp only); (repeat' split) <;> simp [Keeps]
@[simp] theorem State.dbApply_keeps (s : State) (n : Nat) : Keeps s (State.dbApply s n) := by
  first
  | (simp [Keeps, State.dbApply]; done)
  | (unfold State.dbApply; (try dsimp only); (repeat' split) <;> simp [Keeps]; done)
@[simp] theorem State.smeReset_keeps (s : State) : Keeps s (State.smeReset s) := by
  simp [Keeps, State.smeReset]
theorem trimReg_moves (p : Path) (a : Nat) (s : State) : OptMoves (trimReg p a s) := by
  unfold trimReg
  (try dsimp only)
  repeat' (first | (with_reducible refine OptMoves_ite ?_ ?_) | split)
  all_goals first | (exact OptMoves_none) | (exact (OptMoves_some _).2 ⟨fun _ _ => Moves_upd _ _ _ _ _ _ _ _ _ _ _ _ _ _ _ _ _ _ _ _ _ _, fun _ => Moves_refl _, fun _ _ => Moves_refl _⟩) | (rw [OptMoves_some]; simp +contextual [Moves, RegDef.ro]; done)

/-! ## NvsOps -/

@[simp] theorem State.addErase_keeps (s : State) (r : Nat) (b : Bool) : Keeps s (State.addErase s r b) := by
  simp [Keeps, State.addErase]
@[simp] theorem State.wipeSlot_keeps (s : State) (r : Nat) (b raw : Bool) : Keeps s (State.wipeSlot s r b raw) := by
  first
  | (simp [Keeps, State.wipeSlot]; done)
  | (unfold State.wipeSlot; (try dsimp only); (repeat' split) <;> simp [Keeps]; done)
@[simp] theorem State.nvsIssue_keeps (s : State) (ops : List NvsOp) : Keeps s (State.nvsIssue s ops) := by
  first
  | (simp [Keeps, State.nvsIssue]; done)
  | (unfold State.nvsIssue; (try dsimp only); (repeat' split) <;> simp [Keeps]; done)
@[simp] theorem State.eraseSlot_keeps (s : State) (r : Nat) (b : Bool) : Keeps s (State.eraseSlot s r b) := by
  first
  | (simp [Keeps, State.eraseSlot]; done)
  | (unfold State.eraseSlot; (try dsimp only); (repeat' split) <;> simp [Keeps]; done)
@[simp] theorem State.throttle_keeps (s : State) (r : Nat) : Keeps s (State.throttle s r) := by
  simp [Keeps, State.throttle]
@[simp] theorem State.cmdCommit_keeps (s : State) : Keeps s (State.cmdCommit s) := by
  simp [Keeps, State.cmdCommit]
@[simp] theorem State.startSpace_keeps (s : State) (r : Nat) : Keeps s (State.startSpace s r) := by
  first
  | (simp [Keeps, State.startSpace]; done)
  | (unfold State.startSpace; (try dsimp only); (repeat' split) <;> simp [Keeps]; done)
@[simp] theorem State.preEraseEnd_keeps (s : State) : Keeps s (State.preEraseEnd s) := by
  first
  | (simp [Keeps, State.preEraseEnd]; done)
  | (unfold State.preEraseEnd; (try dsimp only); (repeat' split) <;> simp [Keeps]; done)
@[simp] theorem State.imgStart_keeps (s : State) (kib : Nat) : Keeps s (State.imgStart s kib) := by
  simp [Keeps, State.imgStart]
@[simp] theorem State.imgData_keeps (s : State) (w : Word) : Keeps s (State.imgData s w) := by
  unfold State.imgData; (try dsimp only); (repeat' split) <;> simp [Keeps]
@[simp] theorem State.imgFail_keeps (s : State) (reason : BitVec 3) : Keeps s (State.imgFail s reason) := by
  simp [Keeps, State.imgFail]
@[simp] theorem State.batchFault_keeps (s : State) (n l) : Keeps s (s.batchFault n l) := by
  induction n generalizing s l with
  | zero => cases l <;> simp [State.batchFault, Keeps]
  | succ n ih =>
    cases l with
    | nil => simp [State.batchFault, Keeps]
    | cons r l =>
      unfold State.batchFault
      split
      · simp [Keeps]
      · have := ih { s with nv := { s.nv with faultRing := ringAppend .fault s.nv.faultRing r } } (s.carried ++ l)
        simp [Keeps] at *
        simp [this]
@[simp] theorem State.batchEvent_keeps (s : State) (l) : Keeps s (s.batchEvent l) := by
  induction l generalizing s with
  | nil => simp [State.batchEvent, Keeps]
  | cons r l ih =>
    unfold State.batchEvent; split
    · simp [Keeps]
    · have := ih { s with nv := { s.nv with eventRing := ringAppend .event s.nv.eventRing r } }; simp [Keeps] at *; simp [this]
@[simp] theorem State.ringBatch_keeps (s : State) (g : Ring) : Keeps s (State.ringBatch s g) := by
  unfold State.ringBatch
  dsimp only
  split
  · simp [Keeps]
  · split
    · simp [Keeps]
    · cases g <;> simp [Keeps]
@[simp] theorem State.ringHeads_keeps (s : State) : Keeps s (State.ringHeads s) := by
  first
  | (simp [Keeps, State.ringHeads]; done)
  | (unfold State.ringHeads; (try dsimp only); (repeat' split) <;> simp [Keeps]; done)
@[simp] theorem State.ringScan_keeps (s : State) : Keeps s (State.ringScan s) := by
  simp [Keeps, State.ringScan]
theorem nvsReg_moves (p : Path) (a : Nat) (s : State) : OptMoves (nvsReg p a s) := by
  unfold nvsReg
  (try dsimp only)
  repeat' (first | (with_reducible refine OptMoves_ite ?_ ?_) | split)
  all_goals first | (exact OptMoves_none) | (exact (OptMoves_some _).2 ⟨fun _ _ => Moves_upd _ _ _ _ _ _ _ _ _ _ _ _ _ _ _ _ _ _ _ _ _ _, fun _ => Moves_refl _, fun _ _ => Moves_refl _⟩) | (rw [OptMoves_some]; simp +contextual [Moves, RegDef.ro]; done)

end Sys2Proof.Machine
end

