-- ==== Sys2Proof/Laws/KeepsPower.lean ====
section
/-! SUPPORT. Toward the invariant of the power domains (R67, R207): the operations of the keep-alive island, the clocks, the ports and the register accesses keep or move it legally. -/

namespace Sys2Proof.Machine

/-! ## Zxp -/

theorem Pow.legal_plantOn (p : Pow) (m) : Pow.legal ⟨p.dom, p.keep, p.on ||| 2#7, p.pd2Down, p.hostPg, p.pfailLow, p.svc, p.image, p.copy, p.lockCopy, p.lastEnd, p.usedMs, p.span, p.reserve, p.cuts, p.curl, p.kdeep, p.faults, p.energyJ, p.energyX, p.reserveHit, p.cSrc, p.cutOpen, p.latched, p.lost, p.failedBoots, p.straps⟩ m = p.legal m := by
  have e : (p.on ||| 2#7) &&& 125 = p.on &&& 125 := by ext i hi; simp; interval_cases i <;> simp
  simp only [Pow.legal, domOnOk, e]
theorem Pow.legal_plantOff (p : Pow) (m) : Pow.legal ⟨p.dom, p.keep, p.on &&& 125#7, p.pd2Down, p.hostPg, p.pfailLow, p.svc, p.image, p.copy, p.lockCopy, p.lastEnd, p.usedMs, p.span, p.reserve, p.cuts, p.curl, p.kdeep, p.faults, p.energyJ, p.energyX, p.reserveHit, p.cSrc, p.cutOpen, p.latched, p.lost, p.failedBoots, p.straps⟩ m = p.legal m := by
  have e : (p.on &&& 125#7) &&& 125 = p.on &&& 125 := by ext i hi; simp
  simp only [Pow.legal, domOnOk, e]
@[simp] theorem State.kpaFault_keeps (s : State) (bit : Nat) : Keeps s (State.kpaFault s bit) := by
  simp [Keeps, State.kpaFault]
@[simp] theorem State.charger_keeps (s : State) : Keeps s (State.charger s) := by
  simp [Keeps, State.charger]
@[simp] theorem State.conv_keeps (s : State) (on : Bool) : Keeps s (State.conv s on) := by
  simp [Keeps, State.conv]
@[simp] theorem State.plantOn_keeps (s : State) : Keeps s (State.plantOn s) := by
  unfold State.plantOn; split
  · simp [Keeps]
  · have h := fun m => Pow.legal_plantOn s.pow m; simp [h, Keeps]
@[simp] theorem State.plantOff_keeps (s : State) : Keeps s (State.plantOff s) := by
  unfold State.plantOff; split
  · simp [Keeps]
  · have h := fun m => Pow.legal_plantOff s.pow m
    simp [h, Keeps]
@[simp] theorem State.chargeHold_keeps (s : State) (n : Nat) : Keeps s (State.chargeHold s n) := by
  simp [Keeps, State.chargeHold]
@[simp] theorem State.bankSeen_keeps (s : State) (n : Nat) (coarse : Int) : Keeps s (State.bankSeen s n coarse) := by
  first
  | (simp [Keeps, State.bankSeen]; done)
  | (unfold State.bankSeen; (try dsimp only); (repeat' split) <;> simp [Keeps]; done)
@[simp] theorem State.adcSlot_keeps (s : State) (fine coarse : Int) : Keeps s (State.adcSlot s fine coarse) := by
  simp [Keeps, State.adcSlot]
theorem zxpLocal_moves (a : Nat) (s : State) : OptMoves (zxpLocal a s) := by
  unfold zxpLocal
  (try dsimp only)
  repeat' (first | (with_reducible refine OptMoves_ite ?_ ?_) | split)
  all_goals first | (exact OptMoves_none) | (exact (OptMoves_some _).2 ⟨fun _ _ => Moves_upd _ _ _ _ _ _ _ _ _ _ _ _ _ _ _ _ _ _ _ _ _ _, fun _ => Moves_refl _, fun _ _ => Moves_refl _⟩) | (rw [OptMoves_some]; simp +contextual [Moves, RegDef.ro]; done)
theorem kpaReg_moves (p : Path) (a : Nat) (s : State) : OptMoves (kpaReg p a s) := by
  unfold kpaReg
  dsimp only
  repeat' with_reducible refine OptMoves_ite ?_ ?_
  all_goals first | (exact OptMoves_none) | exact proxied_moves _ _ _ _ _ (zxpLocal_moves _ _)

/-! ## DomOps -/

theorem domMask_low (d : Dom) (b h : Bool) : domMask d b h &&& 2#7 = 0#7 := by cases d <;> cases b <;> cases h <;> rfl
theorem domMask_seven (d : Dom) (b h : Bool) : domMask d b h &&& 125#7 = domMask d b h := by cases d <;> cases b <;> cases h <;> rfl
theorem on_seven (d : Dom) (b h c : Bool) (x : BitVec 7) :
    (domMask d b h ||| (if c then 0 else x &&& 2)) &&& 125 = domMask d b h := by
  show (domMask d b h ||| (if c then 0 else x &&& 2)) &&& 125#7 = domMask d b h
  have : ((if c then 0 else x &&& 2#7) &&& 125#7) = 0 := by
    cases c
    · ext i hi; simp; interval_cases i <;> simp
    · simp
  rw [show (domMask d b h ||| (if c then 0 else x &&& 2)) &&& 125#7 = (domMask d b h &&& 125#7) ||| ((if c then 0 else x &&& 2#7) &&& 125#7) by
    ext i hi; simp [Bool.and_or_distrib_right], this, domMask_seven]; simp
/-- setDom -/
@[simp] theorem State.setDom_keeps3 (s : State) (d) : (s.setDom d).pending = s.pending ∧ (s.setDom d).modl = s.modl ∧ (s.setDom d).nv = s.nv
   := ⟨rfl, rfl, rfl⟩
@[simp] theorem State.setDom_off_keepOnly (s : State) : (s.setDom .keepOnly).pow.isOn = true := id rfl
@[simp] theorem State.setDom_off_boot (s : State) : (s.setDom .boot).pow.isOn = true := id rfl
@[simp] theorem State.setDom_off_run (s : State) : (s.setDom .run).pow.isOn = true := id rfl
@[simp] theorem State.setDom_off_commitHold (s : State) : (s.setDom .commitHold).pow.isOn = true := id rfl
@[simp] theorem State.setDom_off_dormouse (s : State) : (s.setDom .dormouse).pow.isOn = true := id rfl
@[simp] theorem State.setDom_off_attended (s : State) : (s.setDom .attended).pow.isOn = true := id rfl
@[simp] theorem State.setDom_off_save (s : State) : (s.setDom .save).pow.isOn = true := id rfl
@[simp] theorem State.setDom_off_wake (s : State) : (s.setDom .wake).pow.isOn = true := id rfl
@[simp] theorem State.setDom_off_restore (s : State) : (s.setDom .restore).pow.isOn = true := id rfl
theorem State.setDom_legal (s : State) (d : Dom) (m : Module) (hm : m = s.modl) (h1 : keepDom s.pow.keep d = true)
    (h2 : s.pow.kdeep = (d == .commitHold || d == .save)) : (s.setDom d).pow.legal m = true := by
  subst hm
  simp only [State.setDom, Pow.legal, h1, h2, Bool.true_and, domOnOk, State.buffers]
  rw [on_seven]
  cases d <;> simp <;> first | rfl | (generalize (s.modl.dbFitted && !s.pow.straps.nodb) = b; generalize s.modl.hoardFitted = c; cases b <;> cases c <;> rfl)
theorem State.setDom_moves (s : State) (d : Dom) (hd : d = .run ∨ d = .restore) (h : s.pow.dom = .run ∨ s.pow.dom = .restore) :
    Moves s (s.setDom d) := by
  refine ⟨rfl, rfl, rfl, fun _ => by rcases hd with rfl | rfl <;> simp, fun m hm hl => ?_⟩
  simp only [Pow.legal, Bool.and_eq_true, beq_iff_eq] at hl
  obtain ⟨⟨h1, h2⟩, h3⟩ := hl
  refine State.setDom_legal s d m hm ?_ ?_
  · revert h1; rcases h with h | h <;> rcases hd with rfl | rfl <;> rw [h] <;> cases s.pow.keep <;> simp [keepDom]
  · rw [h3]; rcases h with h | h <;> rcases hd with rfl | rfl <;> rw [h] <;> rfl
@[simp] theorem State.dropPending_keeps (s : State) : Keeps s (State.dropPending s) := by
  simp [Keeps, State.dropPending]
@[simp] theorem State.tearCommit_keeps (s : State) : Keeps s (State.tearCommit s) := by
  unfold State.tearCommit; (try dsimp only); (repeat' split) <;> simp [Keeps]
@[simp] theorem State.hoardHalt_keeps (s : State) : Keeps s (State.hoardHalt s) := by
  unfold State.hoardHalt; (try dsimp only); (repeat' split) <;> simp [Keeps]
@[simp] theorem State.restoreEnd_moves (s : State) : Moves s (State.restoreEnd s) := by
  unfold State.restoreEnd
  split
  · rename_i h
    simp only [beq_iff_eq] at h
    refine ⟨rfl, rfl, rfl, fun _ => by simp, fun m hm hl => ?_⟩
    simp only [Pow.legal, h, Bool.and_eq_true, beq_iff_eq] at hl
    obtain ⟨⟨h1, h2⟩, h3⟩ := hl
    refine State.setDom_legal s .run m hm ?_ h3
    revert h1; cases s.pow.keep <;> simp [keepDom]
  · simp [Moves]
@[simp] theorem State.restoreEnd_off (s : State) : s.pow.isOn = true → (State.restoreEnd s).pow.isOn = true := (State.restoreEnd_moves s).2.2.2.1 -- moves_off
@[simp] theorem State.mgmtClear_moves (s : State) : Moves s (State.mgmtClear s) := by
  refine ⟨?_, ?_, ?_, fun hd => ?_, fun m hm hl => ?_⟩ <;> subst_vars <;> simp only [State.mgmtClear] <;> (repeat' split) <;> (try simp [*]) <;> (repeat' split) <;> simp [*]
@[simp] theorem State.mgmtClear_off (s : State) : s.pow.isOn = true → (State.mgmtClear s).pow.isOn = true := (State.mgmtClear_moves s).2.2.2.1 -- moves_off
@[simp] theorem State.pd2Off_moves (s : State) : Moves s (State.pd2Off s) := by
  refine ⟨?_, ?_, ?_, fun hd => ?_, fun m hm hl => ?_⟩ <;> subst_vars <;> simp only [State.pd2Off] <;> (repeat' split) <;> (try simp [*]) <;> (repeat' split) <;> simp [*]
@[simp] theorem State.pd2Off_off (s : State) : s.pow.isOn = true → (State.pd2Off s).pow.isOn = true := (State.pd2Off_moves s).2.2.2.1 -- moves_off
@[simp] theorem Pow.clear_legal (p : Pow) (m) : p.clear.legal m = p.legal m := rfl
@[simp] theorem Pow.clear_isOn (p : Pow) : p.clear.isOn = p.isOn := rfl
@[simp] theorem State.pd2Start_moves (s : State) (cause : BitVec 8) : Moves s (State.pd2Start s cause) := by
  refine Moves_trans (State.mgmtClear_moves s) ?_
  unfold State.pd2Start
  by_cases h : cause = 0 <;> simp [h, Moves]
@[simp] theorem State.pd2Start_off (s : State) (cause : BitVec 8) : s.pow.isOn = true → (State.pd2Start s cause).pow.isOn = true := (State.pd2Start_moves s cause).2.2.2.1 -- moves_off
@[simp] theorem State.pd3Start_keeps (s : State) : Keeps s (State.pd3Start s) := by
  simp [Keeps, State.pd3Start]
@[simp] theorem State.dbsFresh_keeps (s : State) : Keeps s (State.dbsFresh s) := by
  first
  | (simp [Keeps, State.dbsFresh]; done)
  | (unfold State.dbsFresh; (try dsimp only); (repeat' split) <;> simp [Keeps]; done)
@[simp] theorem State.pd5Start_keeps (s : State) : Keeps s (State.pd5Start s) := by
  simp [Keeps, State.pd5Start]
@[simp] theorem State.pd3Off_keeps (s : State) : Keeps s (State.pd3Off s) := by
  simp [Keeps, State.pd3Off]
@[simp] theorem State.saveEnd_keeps (s : State) (outcome : BitVec 3) : Keeps s (State.saveEnd s outcome) := by
  unfold State.saveEnd; (try dsimp only); (repeat' split) <;> simp [Keeps]
theorem State.powerDown_legal (s : State) (lastEnd : BitVec 3) : (s.powerDown lastEnd).pow.legal s.modl = true := by
  unfold State.powerDown
  generalize ht : ((s.conv false).yrstLow).pd3Off.pd2Off = t
  have hmod : t.modl = s.modl := by subst ht; simp
  show Pow.legal { (t.setDom .keepOnly).pow with
    keep := if t.pow.hostPg then .normal else .empty, image := false, kdeep := false, lastEnd := lastEnd } s.modl = true
  simp only [State.setDom, Pow.legal, domOnOk, State.buffers, hmod]
  rw [on_seven]
  cases t.pow.hostPg <;> simp [keepDom]
@[simp] theorem State.powerDown_moves (s : State) (lastEnd : BitVec 3) : Moves s (State.powerDown s lastEnd) :=
  ⟨by simp [State.powerDown], by simp [State.powerDown], by simp [State.powerDown], fun _ => rfl,
    fun _ hm _ => hm ▸ s.powerDown_legal lastEnd⟩
@[simp] theorem State.powerDown_off (s : State) (lastEnd : BitVec 3) : s.pow.isOn = true → (State.powerDown s lastEnd).pow.isOn = true := (State.powerDown_moves s lastEnd).2.2.2.1 -- moves_off
@[simp] theorem State.enterSave_moves (s : State) : Moves s (s.enterSave) := by
  refine ⟨by simp [State.enterSave], by simp [State.enterSave], by simp [State.enterSave], fun _ => by simp [State.enterSave], fun m hm hl => ?_⟩
  unfold State.enterSave
  simp only [State.pd5Start_keeps, State.pd3Start_keeps]
  refine (State.pd2Start_moves _ _).2.2.2.2 m (by simp [hm]) (State.setDom_legal _ _ m (by simp [hm]) rfl rfl)
@[simp] theorem State.enterSave_off (s : State) : s.pow.isOn = true → (State.enterSave s).pow.isOn = true := (State.enterSave_moves s).2.2.2.1 -- moves_off
@[simp] theorem State.sleepSub_keeps (s : State) (x : Sub) : Keeps s (State.sleepSub s x) := by
  first
  | (simp [Keeps, State.sleepSub]; done)
  | (unfold State.sleepSub; (try dsimp only); (repeat' split) <;> simp [Keeps]; done)
@[simp] theorem State.saveAsleep_keeps (s : State) : Keeps s (State.saveAsleep s) := by
  first
  | (simp [Keeps, State.saveAsleep]; done)
  | (unfold State.saveAsleep; (try dsimp only); (repeat' split) <;> simp [Keeps]; done)
@[simp] theorem State.wake_moves (s : State) : Moves s (s.wake) := by
  have key : ∀ u : State, u.modl = s.modl → Moves s u →
      Moves s ((({ u with pow := { u.pow with keep := .wake, kdeep := false },
                          zxp := { u.zxp with convOn := false, orHost := true } } : State).setDom .wake).pd2Start 2) := fun u hu hs => by
    refine ⟨by simp [hs], by simp [hs], by simp [hs], fun _ => by simp, fun m hm _ => ?_⟩
    exact (State.pd2Start_moves _ _).2.2.2.2 m (by simp [hm, hu]) (State.setDom_legal _ _ m (by simp [hm, hu]) rfl rfl)
  unfold State.wake
  dsimp only
  refine Moves_trans ?_ (Moves_of (State.charger_keeps _))
  have h0 : Moves s (s.saveEnd 2) := Moves_of (State.saveEnd_keeps _ _)
  have h1 : Moves s (s.saveEnd 2).saveAsleep := Moves_trans h0 (Moves_of (State.saveAsleep_keeps _))
  split
  · exact Moves_trans (key _ h1.2.1 h1) (Moves_of (State.pd3Start_keeps _))
  · exact Moves_trans (Moves_trans (key _ h0.2.1 h0) (Moves_of (State.pd3Start_keeps _))) (Moves_of (State.pd5Start_keeps _))
@[simp] theorem State.wake_off (s : State) : s.pow.isOn = true → (State.wake s).pow.isOn = true := (State.wake_moves s).2.2.2.1 -- moves_off
@[simp] theorem State.attend_keeps3 (s : State) : s.attend.pending = s.pending ∧ s.attend.modl = s.modl ∧ s.attend.nv.factory = s.nv.factory ∧ s.attend.pow.isOn = true := by
  simp [State.attend]
theorem State.attend_legal (s : State) (m) (hm : m = s.modl) (h1 : s.pow.keep = .hold) (h2 : s.pow.kdeep = false) : s.attend.pow.legal m = true := by
  unfold State.attend
  refine (State.pd2Start_moves _ _).2.2.2.2 m (by simp [hm]) (State.setDom_legal _ _ m hm (by rw [h1]; rfl) (by rw [h2]; rfl))
@[simp] theorem State.reserveTrigger_moves (s : State) : Moves s (State.reserveTrigger s) := by
  refine ⟨?_, ?_, ?_, fun hd => ?_, fun m hm hl => ?_⟩ <;> subst_vars <;> simp only [State.reserveTrigger] <;> (repeat' split) <;> (try simp [*]) <;> (repeat' split) <;> simp [*]
@[simp] theorem State.reserveTrigger_off (s : State) : s.pow.isOn = true → (State.reserveTrigger s).pow.isOn = true := (State.reserveTrigger_moves s).2.2.2.1 -- moves_off
@[simp] theorem State.floorEnd_moves (s : State) : Moves s (State.floorEnd s) := by
  refine ⟨?_, ?_, ?_, fun hd => ?_, fun m hm hl => ?_⟩ <;> subst_vars <;> simp only [State.floorEnd] <;> (repeat' split) <;> (try simp [*]) <;> (repeat' split) <;> simp [*]
@[simp] theorem State.floorEnd_off (s : State) : s.pow.isOn = true → (State.floorEnd s).pow.isOn = true := (State.floorEnd_moves s).2.2.2.1 -- moves_off
theorem State.holdTail_moves (s u : State) (hup : u.pending = s.pending) (hum : u.modl = s.modl)
    (huf : u.nv.factory = s.nv.factory) (huo : u.pow.isOn = true) (huk : u.pow.keep = .hold) (hud : u.pow.kdeep = false)
    (hul : u.pow.legal s.modl = true) :
    Moves s (if u.pow.hostPg then u.wake else if u.floorTripped then u.floorEnd
      else if u.pow.copy && u.atReserve then u.reserveTrigger else if u.pow.svc then u.attend else u) ∧
    (if u.pow.hostPg then u.wake else if u.floorTripped then u.floorEnd
      else if u.pow.copy && u.atReserve then u.reserveTrigger else if u.pow.svc then u.attend else u).pow.legal s.modl = true := by
  repeat' split
  all_goals refine (fun h => ⟨⟨by simp [hup], by simp [hum], by simp [huf], fun _ => by simp [huo], fun m hm _ => hm ▸ h⟩, h⟩) ?_
  · exact (State.wake_moves u).2.2.2.2 _ hum.symm hul
  · exact (State.floorEnd_moves u).2.2.2.2 _ hum.symm hul
  · exact (State.reserveTrigger_moves u).2.2.2.2 _ hum.symm hul
  · exact State.attend_legal u _ hum.symm huk hud
  · exact hul
theorem State.enterHold_tail (s : State) : Moves s s.enterHold ∧ s.enterHold.pow.legal s.modl = true := by
  have hp : s.pd2Off.pending = s.pending := by simp
  have hmod : s.pd2Off.modl = s.modl := by simp
  have hf : s.pd2Off.nv.factory = s.nv.factory := by simp
  unfold State.enterHold
  generalize s.pd2Off = t at *
  refine State.holdTail_moves s _ ?_ ?_ ?_ rfl rfl rfl ?_
  · exact hp
  · exact hmod
  · exact hf
  · simp only [State.setDom, Pow.legal, domOnOk, State.buffers, hmod]
    rw [on_seven]
    simp [keepDom]
@[simp] theorem State.enterHold_moves (s : State) : Moves s (s.enterHold) := s.enterHold_tail.1

/-! ## Feat -/

@[simp] theorem State.lock_keeps (s : State) (lockedBy : BitVec 3) : Keeps s (State.lock s lockedBy) := by
  simp [Keeps, State.lock]
@[simp] theorem State.deadlineLock_keeps (s : State) : Keeps s (State.deadlineLock s) := by
  simp [Keeps, State.deadlineLock]
@[simp] theorem State.deadlinePassed_keeps (s : State) : Keeps s (State.deadlinePassed s) := by
  simp [Keeps, State.deadlinePassed]
@[simp] theorem State.trimSwitch_keeps (s : State) : Keeps s (State.trimSwitch s) := by
  simp [Keeps, State.trimSwitch]
@[simp] theorem State.heldSwitch_keeps (s : State) : Keeps s (State.heldSwitch s) := by
  simp [Keeps, State.heldSwitch]
@[simp] theorem State.settle_keeps (s : State) : Keeps s (State.settle s) := by
  simp [Keeps, State.settle]
@[simp] theorem State.startDeadline_keeps (s : State) : Keeps s (State.startDeadline s) := by
  simp [Keeps, State.startDeadline]
theorem featReg_moves (p : Path) (a : Nat) (s : State) : OptMoves (featReg p a s) := by
  unfold featReg
  (try dsimp only)
  repeat' (first | (with_reducible refine OptMoves_ite ?_ ?_) | split)
  all_goals first | (exact OptMoves_none) | (exact (OptMoves_some _).2 ⟨fun _ _ => Moves_upd _ _ _ _ _ _ _ _ _ _ _ _ _ _ _ _ _ _ _ _ _ _, fun _ => Moves_refl _, fun _ _ => Moves_refl _⟩) | (rw [OptMoves_some]; simp +contextual [Moves, RegDef.ro]; done)

/-! ## Hoard -/

@[simp] theorem State.wakeSub_keeps (s : State) (x : Sub) : Keeps s (State.wakeSub s x) := by
  first
  | (simp [Keeps, State.wakeSub]; done)
  | (unfold State.wakeSub; (try dsimp only); (repeat' split) <;> simp [Keeps]; done)
@[simp] theorem State.controlPage_keeps (s : State) (b : Bool) (page : Nat) (content : List Byte) : Keeps s (State.controlPage s b page content) := by
  first
  | (simp [Keeps, State.controlPage]; done)
  | (unfold State.controlPage; (try dsimp only); (repeat' split) <;> simp [Keeps]; done)
@[simp] theorem State.saveStart_keeps (s : State) : Keeps s (State.saveStart s) := by
  simp [Keeps, State.saveStart]
@[simp] theorem State.saveHeld_keeps (s : State) : Keeps s (State.saveHeld s) := by
  simp [Keeps, State.saveHeld]
@[simp] theorem State.savePolka_keeps (s : State) (x : Sub) (dies : List PolkaDie) : Keeps s (State.savePolka s x dies) := by
  unfold State.savePolka; (try dsimp only); (repeat' split) <;> simp [Keeps]
@[simp] theorem State.retireBlock_keeps (s : State) (b : NandBlock) : Keeps s (State.retireBlock s b) := by
  simp [Keeps, State.retireBlock]
@[simp] theorem State.setCur_keeps (s : State) (b : NandBlock) (u : Option NandCur) : Keeps s (State.setCur s b u) := by
  first
  | (simp [Keeps, State.setCur]; done)
  | (unfold State.setCur; (try dsimp only); (repeat' split) <;> simp [Keeps]; done)
@[simp] theorem State.pageDone_keeps (s : State) (b : NandBlock) (u : NandCur) : Keeps s (State.pageDone s b u) := by
  first
  | (simp [Keeps, State.pageDone]; done)
  | (unfold State.pageDone; (try dsimp only); (repeat' split) <;> simp [Keeps]; done)
@[simp] theorem State.nandDone_keeps (s : State) (b : NandBlock) (ok : Bool) : Keeps s (State.nandDone s b ok) := by
  unfold State.nandDone; (try dsimp only); (repeat' split) <;> simp [Keeps]
@[simp] theorem State.saveComplete_moves (s : State) : Moves s (State.saveComplete s) := by
  refine ⟨?_, ?_, ?_, fun hd => ?_, fun m hm hl => ?_⟩ <;> subst_vars <;> simp only [State.saveComplete] <;> (repeat' split) <;> (try simp [*]) <;> (repeat' split) <;> simp [*]
@[simp] theorem State.saveComplete_off (s : State) : s.pow.isOn = true → (State.saveComplete s).pow.isOn = true := (State.saveComplete_moves s).2.2.2.1 -- moves_off
@[simp] theorem State.areaFull_keeps (s : State) (noSpace : Bool) : Keeps s (State.areaFull s noSpace) := by
  simp [Keeps, State.areaFull]
@[simp] theorem State.releaseReady_keeps (s : State) : Keeps s (State.releaseReady s) := by
  simp [Keeps, State.releaseReady]
@[simp] theorem State.restoreStart_moves (s : State) : Moves s s.restoreStart := by
  unfold State.restoreStart
  split
  · simp [Moves]
  · rename_i h
    have h : s.pow.dom = .run ∨ s.pow.dom = .restore := by simp at h; exact or_iff_not_imp_left.mpr h.1.1.2
    exact ⟨rfl, rfl, rfl, fun _ => by simp, fun m hm hl => (State.setDom_moves _ .restore (.inr rfl) h).2.2.2.2 m hm hl⟩
@[simp] theorem State.restoreStart_off (s : State) : s.pow.isOn = true → (State.restoreStart s).pow.isOn = true := (State.restoreStart_moves s).2.2.2.1 -- moves_off
@[simp] theorem State.uncorrectable_keeps (s : State) (x : Sub) (u n) : Keeps s (s.uncorrectable x u n) := by
  induction n generalizing s with
  | zero => simp [State.uncorrectable, Keeps]
  | succ n ih => have := ih (s.raise 51 (BitVec.ofNat 24 (subNo x + 2 * u))); simp [State.uncorrectable, Keeps] at *; simp [this]
@[simp] theorem State.restoreUnit_keeps (s : State) (x : Sub) (corrected uncorr : Nat) : Keeps s (State.restoreUnit s x corrected uncorr) := by
  simp [Keeps, State.restoreUnit]
@[simp] theorem State.consume_keeps (s : State) : Keeps s (State.consume s) := by
  unfold State.consume; (try dsimp only); (repeat' split) <;> simp [Keeps]
@[simp] theorem State.fullMarks_keeps (s : State) : Keeps s (State.fullMarks s) := by
  simp [Keeps, State.fullMarks]
@[simp] theorem State.restoreComplete_keeps (s : State) : Keeps s (State.restoreComplete s) := by
  simp [Keeps, State.restoreComplete]
@[simp] theorem State.discardImage_keeps (s : State) : Keeps s (State.discardImage s) := by
  simp [Keeps, State.discardImage]
@[simp] theorem State.eraseStart_moves (s : State) : Moves s s.eraseStart := by
  unfold State.eraseStart
  split
  · simp [Moves]
  · rename_i h
    have h : s.pow.dom = .run := by simp at h; exact h.1.1.1.2
    have go : ∀ u : State, Keeps s u → u.pow.dom = .run → Moves s (({ u with hrd := { u.hrd with st := .erasing } } : State).setDom .restore) :=
      fun u hu hd => Moves_trans (Moves_of hu) ⟨rfl, rfl, rfl, fun _ => by simp,
        fun m hm hl => (State.setDom_moves _ .restore (.inr rfl) (.inl hd)).2.2.2.2 m hm hl⟩
    have dm : s.consume.pow = s.pow := by
      unfold State.consume; dsimp only; split <;> simp [State.controlPage]
    cases s.hrd.markerOwed
    · exact go s (by simp [Keeps]) h
    · exact go _ (State.consume_keeps s) (dm ▸ h)
@[simp] theorem State.eraseStart_off (s : State) : s.pow.isOn = true → (State.eraseStart s).pow.isOn = true := (State.eraseStart_moves s).2.2.2.1 -- moves_off
@[simp] theorem State.eraseEnd_moves (s : State) : Moves s (State.eraseEnd s) := by
  refine ⟨?_, ?_, ?_, fun hd => ?_, fun m hm hl => ?_⟩ <;> subst_vars <;> simp only [State.eraseEnd] <;> (repeat' split) <;> (try simp [*]) <;> (repeat' split) <;> simp [*]
@[simp] theorem State.eraseEnd_off (s : State) : s.pow.isOn = true → (State.eraseEnd s).pow.isOn = true := (State.eraseEnd_moves s).2.2.2.1 -- moves_off
@[simp] theorem State.hoardSwitch_moves (s : State) : Moves s (State.hoardSwitch s) := by
  refine ⟨?_, ?_, ?_, fun hd => ?_, fun m hm hl => ?_⟩ <;> subst_vars <;> simp only [State.hoardSwitch] <;> (repeat' split) <;> (try simp [*]) <;> (repeat' split) <;> simp [*]
@[simp] theorem State.hoardSwitch_off (s : State) : s.pow.isOn = true → (State.hoardSwitch s).pow.isOn = true := (State.hoardSwitch_moves s).2.2.2.1 -- moves_off
theorem hrdReg_moves (p : Path) (a : Nat) (s : State) : OptMoves (hrdReg p a s) := by
  unfold hrdReg
  (try dsimp only)
  repeat' (first | (with_reducible refine OptMoves_ite ?_ ?_) | split)
  all_goals first | (exact OptMoves_none) | (exact (OptMoves_some _).2 ⟨fun _ _ => Moves_upd _ _ _ _ _ _ _ _ _ _ _ _ _ _ _ _ _ _ _ _ _ _, fun _ => Moves_refl _, fun _ _ => Moves_refl _⟩) | (rw [OptMoves_some]; simp +contextual [Moves, RegDef.ro]; done)

/-! ## Warren -/

@[simp] theorem State.setWrn_keeps (s : State) (f : Wrn → Wrn) : Keeps s (State.setWrn s f) := by
  simp [Keeps, State.setWrn]
@[simp] theorem State.coreFault_keeps (s : State) (core : Nat) (kind : Nat) (pc : BitVec 15) : Keeps s (State.coreFault s core kind pc) := by
  simp [Keeps, State.coreFault]
@[simp] theorem State.misuse_keeps (s : State) (core kind : Nat) : Keeps s (State.misuse s core kind) := by
  simp [Keeps, State.misuse]
@[simp] theorem State.wrnSend_keeps (s : State) (core ch : Nat) (ws : List Word) (try_ : Bool) : Keeps s (State.wrnSend s core ch ws try_) := by
  unfold State.wrnSend; (try dsimp only); (repeat' split) <;> simp [Keeps]
@[simp] theorem State.stallEnd_keeps (s : State) (core cycles : Nat) : Keeps s (State.stallEnd s core cycles) := by
  unfold State.stallEnd; (repeat' split) <;> simp [Keeps]
@[simp] theorem State.userTuple_keeps (s : State) (ch : Nat) (ws : List Word) : Keeps s (State.userTuple s ch ws) := by
  simp [Keeps, State.userTuple]
@[simp] theorem State.wrnPop_keeps (s : State) (core port : Nat) : Keeps s (State.wrnPop s core port) := by
  unfold State.wrnPop; (repeat' split) <;> simp [Keeps]
@[simp] theorem State.wrnSelect_keeps (s : State) (core : Nat) (mask : BitVec 8) (round : Bool) (tmo : BitVec 24) : Keeps s (State.wrnSelect s core mask round tmo) := by
  simp [Keeps, State.wrnSelect]
@[simp] theorem State.selectEnd_keeps (s : State) (core : Nat) (timedOut : Bool) (cycles : Nat) : Keeps s (State.selectEnd s core timedOut cycles) := by
  unfold State.selectEnd; (try dsimp only); (repeat' split) <;> simp [Keeps]
@[simp] theorem State.beat_keeps (s : State) (core : Nat) : Keeps s (State.beat s core) := by
  simp [Keeps, State.beat]
@[simp] theorem State.wdogService_keeps (s : State) : Keeps s (State.wdogService s) := by
  simp [Keeps, State.wdogService]
@[simp] theorem State.userStart_keeps (s : State) : Keeps s (State.userStart s) := by
  simp [Keeps, State.userStart]
@[simp] theorem State.crstUser_keeps (s : State) : Keeps s (State.crstUser s) := by
  simp [Keeps, State.crstUser]
theorem wrnReg_moves (p : Path) (a : Nat) (s : State) : OptMoves (wrnReg p a s) := by
  unfold wrnReg
  (try dsimp only)
  repeat' (first | (with_reducible refine OptMoves_ite ?_ ?_) | split)
  all_goals first | (exact OptMoves_none) | (exact (OptMoves_some _).2 ⟨fun _ _ => Moves_upd _ _ _ _ _ _ _ _ _ _ _ _ _ _ _ _ _ _ _ _ _ _, fun _ => Moves_refl _, fun _ _ => Moves_refl _⟩) | (rw [OptMoves_some]; simp +contextual [Moves, RegDef.ro, counterReg]; done)

/-! ## ZlbOps -/

theorem tgtReg_moves (t o : Nat) (s : State) : OptMoves (tgtReg t o s) := by
  unfold tgtReg
  exact OptMoves_ite (dbReg_moves _ _ _) (zxpLocal_moves _ _)
@[simp] theorem State.tgtQueue_keeps (s : State) (t : Nat) (r : ZResp) : Keeps s (State.tgtQueue s t r) := by
  simp [Keeps, State.tgtQueue]
@[simp] theorem State.tgtDo_moves (s : State) (t : Nat) (tag : BitVec 5) (write : Bool) (word : BitVec 15) (data : Word) :
    Moves s (s.tgtDo t tag write word data) := by
  have tail : ∀ (u : State) a b c d e f g h i, Moves u ((u.remember a b c d e).tgtQueue f ⟨g, h, i⟩) := fun u _ _ _ _ _ _ _ _ _ =>
    Moves_of (by simp [Keeps])
  unfold State.tgtDo
  refine Moves_trans ?_ (tail _ _ _ _ _ _ _ _ _ _)
  split
  · rename_i d h
    have hd := tgtReg_moves _ _ _ d h
    split
    · exact hd.2.1 s
    · split
      · exact hd.1 _ s
      · exact Moves_refl s
  · exact Moves_refl s
@[simp] theorem State.tgtDo_off (s : State) (t : Nat) (tag : BitVec 5) (write : Bool) (word : BitVec 15) (data : Word) : s.pow.isOn = true → (State.tgtDo s t tag write word data).pow.isOn = true := (State.tgtDo_moves s t tag write word data).2.2.2.1 -- moves_off
@[simp] theorem State.zlbFrame_keeps (s : State) (t : Nat) (f : ZTarget → ZTarget) : Keeps s (State.zlbFrame s t f) := by
  simp [Keeps, State.zlbFrame]
@[simp] theorem State.zlbAsk_moves (s : State) (t : Nat) (tag : BitVec 5) (write : Bool) (word : BitVec 15) (data : Word) : Moves s (State.zlbAsk s t tag write word data) := by
  unfold State.zlbAsk; dsimp only
  have h := Moves_of (State.zlbFrame_keeps s t id)
  split
  · exact Moves_trans h (State.tgtDo_moves _ _ _ _ _ _)
  · exact h
@[simp] theorem State.zlbAsk_off (s : State) (t : Nat) (tag : BitVec 5) (write : Bool) (word : BitVec 15) (data : Word) : s.pow.isOn = true → (State.zlbAsk s t tag write word data).pow.isOn = true := (State.zlbAsk_moves s t tag write word data).2.2.2.1 -- moves_off
@[simp] theorem State.zlbAgain_moves (s : State) (t : Nat) (write : Bool) (tag : BitVec 5) (word : BitVec 15) (data : Word) : Moves s (State.zlbAgain s t write tag word data) := by
  refine ⟨?_, ?_, ?_, fun hd => ?_, fun m hm hl => ?_⟩ <;> subst_vars <;> simp only [State.zlbAgain] <;> (repeat' split) <;> (try simp [*]) <;> (repeat' split) <;> simp [*]
@[simp] theorem State.zlbAgain_off (s : State) (t : Nat) (write : Bool) (tag : BitVec 5) (word : BitVec 15) (data : Word) : s.pow.isOn = true → (State.zlbAgain s t write tag word data).pow.isOn = true := (State.zlbAgain_moves s t write tag word data).2.2.2.1 -- moves_off
@[simp] theorem State.zlbBits_moves (s : State) (t : Nat) (edges : Nat) (header data : Word) : Moves s (State.zlbBits s t edges header data) := by
  unfold State.zlbBits; dsimp only
  repeat' split
  all_goals first | exact Moves_of (State.zlbFrame_keeps _ _ _) | exact State.zlbAgain_moves _ _ _ _ _ _ | exact State.zlbAsk_moves _ _ _ _ _ _
@[simp] theorem State.zlbBits_off (s : State) (t : Nat) (edges : Nat) (header data : Word) : s.pow.isOn = true → (State.zlbBits s t edges header data).pow.isOn = true := (State.zlbBits_moves s t edges header data).2.2.2.1 -- moves_off
@[simp] theorem State.zlbSend_moves (s : State) (q : ZReq) : Moves s (State.zlbSend s q) := by
  unfold State.zlbSend; exact Moves_trans (Moves_of (by simp [Keeps])) (State.zlbAsk_moves _ _ _ _ _ _)
@[simp] theorem State.zlbSend_off (s : State) (q : ZReq) : s.pow.isOn = true → (State.zlbSend s q).pow.isOn = true := (State.zlbSend_moves s q).2.2.2.1 -- moves_off
@[simp] theorem State.zlbWait_keeps (s : State) (q : ZReq) : Keeps s (State.zlbWait s q) := by
  first
  | (simp [Keeps, State.zlbWait]; done)
  | (unfold State.zlbWait; (try dsimp only); (repeat' split) <;> simp [Keeps]; done)
@[simp] theorem State.zlbUnstall_keeps (s : State) (q : ZReq) : Keeps s (State.zlbUnstall s q) := by
  first
  | (simp [Keeps, State.zlbUnstall]; done)
  | (unfold State.zlbUnstall; (try dsimp only); (repeat' split) <;> simp [Keeps]; done)
@[simp] theorem State.zlbPumpOne_moves (s : State) (q : ZReq) : Moves s (State.zlbPumpOne s q) := by
  unfold State.zlbPumpOne
  repeat' split
  · exact Moves_of (State.zlbUnstall_keeps _ _)
  · exact Moves_trans (Moves_of (State.zlbUnstall_keeps _ _)) (State.zlbSend_moves _ _)
  · exact Moves_refl _
@[simp] theorem State.zlbPumpOne_off (s : State) (q : ZReq) : s.pow.isOn = true → (State.zlbPumpOne s q).pow.isOn = true := (State.zlbPumpOne_moves s q).2.2.2.1 -- moves_off
@[simp] theorem State.zlbPump_moves (s : State) : Moves s (State.zlbPump s) := by
  unfold State.zlbPump
  exact Moves_trans (Moves_of (by simp [Keeps])) (foldl_moves _ State.zlbPumpOne_moves _ _)
@[simp] theorem State.zlbPump_off (s : State) : s.pow.isOn = true → (State.zlbPump s).pow.isOn = true := (State.zlbPump_moves s).2.2.2.1 -- moves_off
@[simp] theorem State.zlbRequest_moves (s : State) (t : Nat) (tag : BitVec 5) (write : Bool) (word : BitVec 15) (data : Word) : Moves s (State.zlbRequest s t tag write word data) := by
  refine ⟨?_, ?_, ?_, fun hd => ?_, fun m hm hl => ?_⟩ <;> subst_vars <;> simp only [State.zlbRequest] <;> (repeat' split) <;> (try simp [*]) <;> (repeat' split) <;> simp [*]
@[simp] theorem State.zlbRequest_off (s : State) (t : Nat) (tag : BitVec 5) (write : Bool) (word : BitVec 15) (data : Word) : s.pow.isOn = true → (State.zlbRequest s t tag write word data).pow.isOn = true := (State.zlbRequest_moves s t tag write word data).2.2.2.1 -- moves_off
@[simp] theorem State.zlbDrop_keeps (s : State) (t : Nat) (tag : BitVec 5) : Keeps s (State.zlbDrop s t tag) := by
  first
  | (simp [Keeps, State.zlbDrop]; done)
  | (unfold State.zlbDrop; (try dsimp only); (repeat' split) <;> simp [Keeps]; done)
@[simp] theorem State.zlbDone_moves (s : State) (t : Nat) (tag : BitVec 5) : Moves s (State.zlbDone s t tag) := by
  exact Moves_trans (Moves_of (State.zlbDrop_keeps s t tag)) (State.zlbPump_moves _)
@[simp] theorem State.zlbDone_off (s : State) (t : Nat) (tag : BitVec 5) : s.pow.isOn = true → (State.zlbDone s t tag).pow.isOn = true := (State.zlbDone_moves s t tag).2.2.2.1 -- moves_off
@[simp] theorem State.zlbTimeout_moves (s : State) (t : Nat) (tag : BitVec 5) : Moves s (State.zlbTimeout s t tag) := by
  unfold State.zlbTimeout
  split
  · exact Moves_refl s
  · dsimp only; split
    · exact Moves_trans (Moves_of (by simp [Keeps])) (State.zlbPump_moves _)
    · exact Moves_trans (Moves_of (by simp [Keeps])) (State.zlbAgain_moves _ _ _ _ _ _)
@[simp] theorem State.zlbTimeout_off (s : State) (t : Nat) (tag : BitVec 5) : s.pow.isOn = true → (State.zlbTimeout s t tag).pow.isOn = true := (State.zlbTimeout_moves s t tag).2.2.2.1 -- moves_off
@[simp] theorem State.crstZlb_moves (s : State) : Moves s (State.crstZlb s) := by
  exact Moves_trans (Moves_of (by simp [Keeps])) (State.zlbPump_moves _)
@[simp] theorem State.crstZlb_off (s : State) : s.pow.isOn = true → (State.crstZlb s).pow.isOn = true := (State.crstZlb_moves s).2.2.2.1 -- moves_off

/-! ## TwbOps -/

@[simp] theorem State.setPort_keeps (s : State) (p : Port) (f : TwbPort → TwbPort) : Keeps s (State.setPort s p f) := by
  unfold State.setPort; (try dsimp only); (repeat' split) <;> simp [Keeps]
@[simp] theorem State.dropRead_keeps (s : State) (p : Port) : Keeps s (State.dropRead s p) := by
  simp [Keeps, State.dropRead]
@[simp] theorem State.twbBusy_keeps (s : State) (p : Port) : Keeps s (State.twbBusy s p) := by
  simp [Keeps, State.twbBusy]
@[simp] theorem State.a1Read_keeps (s : State) (p : Port) (g : Ring) : Keeps s (State.a1Read s p g) := by
  simp [Keeps, State.a1Read]
@[simp] theorem State.a1Fill_keeps (s : State) (p : Port) : Keeps s (State.a1Fill s p) := by
  unfold State.a1Fill; (try dsimp only); (repeat' split) <;> simp [Keeps]
@[simp] theorem State.a1Phase_keeps (s : State) (p : Port) (addr : BitVec 7) (again stop : Bool) :
    Keeps s (State.a1Phase s p addr again stop) := by
  unfold State.a1Phase; (try dsimp only); (repeat' split) <;> simp [Keeps]
@[simp] theorem State.a1Seek_keeps (s : State) (p : Port) (g : Ring) (n : Nat) (pecOk : Bool) : Keeps s (State.a1Seek s p g n pecOk) := by
  simp [Keeps, State.a1Seek]
@[simp] theorem State.alertResponse_keeps (s : State) (other : Option (BitVec 7)) : Keeps s (State.alertResponse s other) := by
  simp [Keeps, State.alertResponse]
@[simp] theorem State.attempt_keeps (s : State) (p : Port) (o : Attempt) : Keeps s (State.attempt s p o) := by
  simp [Keeps, State.attempt]
@[simp] theorem State.jobEnd_keeps (s : State) (p : Port) : Keeps s (State.jobEnd s p) := by
  simp [Keeps, State.jobEnd]
@[simp] theorem State.nextPoll_keeps (s : State) : Keeps s (State.nextPoll s) := by
  unfold State.nextPoll; split <;> simp [Keeps]
@[simp] theorem State.setPoll_keeps (s : State) (k : Nat) (f : PollSt → PollSt) : Keeps s (State.setPoll s k f) := by
  simp [Keeps, State.setPoll]
@[simp] theorem State.notifyTry_keeps (s : State) (o : Attempt) : Keeps s (State.notifyTry s o) := by
  simp [Keeps, State.notifyTry]
@[simp] theorem State.pollTry_keeps (s : State) (k : Nat) (o : Attempt) (data : List Byte) : Keeps s (State.pollTry s k o data) := by
  simp [Keeps, State.pollTry]
@[simp] theorem State.retryJob_keeps (s : State) (p : Port) (o : Attempt) (data : List Byte) : Keeps s (State.retryJob s p o data) := by
  unfold State.retryJob; (repeat' split) <;> simp [Keeps]
@[simp] theorem State.pollDue_keeps (s : State) (k : Fin 4) (o : Attempt) (data : List Byte) : Keeps s (State.pollDue s k o data) := by
  simp [Keeps, State.pollDue]
@[simp] theorem State.portReset_keeps (s : State) (p : Port) : Keeps s (State.portReset s p) := by
  simp [Keeps, State.portReset]
@[simp] theorem State.sclTimeout_keeps (s : State) (p : Port) : Keeps s (State.sclTimeout s p) := by
  simp [Keeps, State.sclTimeout]
@[simp] theorem State.crstPort_keeps (s : State) (p : Port) : Keeps s (State.crstPort s p) := by
  cases p <;> simp [Keeps, State.crstPort]
theorem twbReg_moves (p : Path) (a : Nat) (s : State) : OptMoves (twbReg p a s) := by
  unfold twbReg
  (try dsimp only)
  repeat' (first | (with_reducible refine OptMoves_ite ?_ ?_) | split)
  all_goals first | (exact OptMoves_none) | (exact (OptMoves_some _).2 ⟨fun _ _ => Moves_upd _ _ _ _ _ _ _ _ _ _ _ _ _ _ _ _ _ _ _ _ _ _, fun _ => Moves_refl _, fun _ _ => Moves_refl _⟩) | (rw [OptMoves_some]; simp +contextual [Moves, RegDef.ro]; done)

/-! ## Clk -/

@[simp] theorem State.mrstPend_keeps (s : State) (cause : BitVec 8) : Keeps s (State.mrstPend s cause) := by
  simp [Keeps, State.mrstPend]
@[simp] theorem State.mrstRequest_keeps (s : State) (p : Path) : Keeps s (State.mrstRequest s p) := by
  simp [Keeps, State.mrstRequest]
@[simp] theorem State.crstCon_keeps (s : State) : Keeps s (State.crstCon s) := by
  simp [Keeps, State.crstCon]
@[simp] theorem State.crstHrd_moves (s : State) : Moves s (State.crstHrd s) := by
  refine ⟨?_, ?_, ?_, fun hd => ?_, fun m hm hl => ?_⟩ <;> subst_vars <;> simp only [State.crstHrd] <;> (repeat' split) <;> (try simp [*]) <;> (repeat' split) <;> simp [*]
@[simp] theorem State.crstHrd_off (s : State) : s.pow.isOn = true → (State.crstHrd s).pow.isOn = true := (State.crstHrd_moves s).2.2.2.1 -- moves_off
@[simp] theorem State.tgtReset_moves (s : State) (t : Nat) : Moves s (State.tgtReset s t) :=
  Moves_trans (Moves_of (by simp [Keeps])) (State.zlbPump_moves _)
@[simp] theorem State.tgtReset_off (s : State) (t : Nat) : s.pow.isOn = true → (State.tgtReset s t).pow.isOn = true := (State.tgtReset_moves s t).2.2.2.1 -- moves_off
@[simp] theorem State.recover_keeps (s : State) (t : Nat) : Keeps s (State.recover s t) := by
  simp [Keeps, State.recover]
@[simp] theorem State.rediscover_keeps (s : State) (t : Nat) : Keeps s (State.rediscover s t) := by
  simp [Keeps, State.rediscover]
@[simp] theorem State.crstUnit_moves (s : State) (t : Nat) : Moves s (State.crstUnit s t) := by
  have h := Moves_trans (Moves_of (State.calAbandon_keeps s (t + 1))) (State.tgtReset_moves _ t)
  unfold State.crstUnit; dsimp only
  refine Moves_trans h (Moves_of ?_)
  repeat' split
  all_goals simp [Keeps]
@[simp] theorem State.crstUnit_off (s : State) (t : Nat) : s.pow.isOn = true → (State.crstUnit s t).pow.isOn = true := (State.crstUnit_moves s t).2.2.2.1 -- moves_off
@[simp] theorem State.crstBit_moves (s : State) (i : Nat) : Moves s (State.crstBit s i) := by
  refine ⟨?_, ?_, ?_, fun hd => ?_, fun m hm hl => ?_⟩ <;> subst_vars <;> simp only [State.crstBit] <;> (repeat' split) <;> (try simp [*]) <;> (repeat' split) <;> simp [*]
@[simp] theorem State.crstBit_off (s : State) (i : Nat) : s.pow.isOn = true → (State.crstBit s i).pow.isOn = true := (State.crstBit_moves s i).2.2.2.1 -- moves_off
@[simp] theorem State.crst_moves (s : State) (v : Word) : Moves s (s.crst v) := by
  unfold State.crst; split
  · exact Moves_refl s
  · exact foldl_moves State.crstBit (fun s a => State.crstBit_moves s a) _ { s with clk := { s.clk with cause := s.clk.cause ||| 64 } }
@[simp] theorem State.crst_off (s : State) (v : Word) : s.pow.isOn = true → (State.crst s v).pow.isOn = true := (State.crst_moves s v).2.2.2.1 -- moves_off
@[simp] theorem State.latchLife_keeps (s : State) (p : Path) : Keeps s (State.latchLife s p) := by
  simp [Keeps, State.latchLife]
@[simp] theorem State.wallWrite_keeps (s : State) (v : Word) : Keeps s (State.wallWrite s v) := by
  simp [Keeps, State.wallWrite]
theorem clkReg_moves (p : Path) (a : Nat) (s : State) : OptMoves (clkReg p a s) := by
  unfold clkReg
  (try dsimp only)
  repeat' (first | (with_reducible refine OptMoves_ite ?_ ?_) | split)
  all_goals first | (exact OptMoves_none) | (exact (OptMoves_some _).2 ⟨fun _ _ => Moves_upd _ _ _ _ _ _ _ _ _ _ _ _ _ _ _ _ _ _ _ _ _ _, fun _ => Moves_refl _, fun _ _ => Moves_refl _⟩) | (rw [OptMoves_some]; simp +contextual [Moves, RegDef.ro]; done)
theorem pwrReg_moves (p : Path) (a : Nat) (s : State) : OptMoves (pwrReg p a s) := by
  unfold pwrReg
  (try dsimp only)
  repeat' (first | (with_reducible refine OptMoves_ite ?_ ?_) | split)
  all_goals first | (exact OptMoves_none) | (exact (OptMoves_some _).2 ⟨fun _ _ => Moves_upd _ _ _ _ _ _ _ _ _ _ _ _ _ _ _ _ _ _ _ _ _ _, fun _ => Moves_refl _, fun _ _ => Moves_refl _⟩) | (rw [OptMoves_some]; simp +contextual [Moves, RegDef.ro]; done)
@[simp] theorem State.baudApply_keeps (s : State) : Keeps s (State.baudApply s) := by
  simp [Keeps, State.baudApply]
@[simp] theorem State.conCfg_keeps (s : State) (v : Word) : Keeps s (State.conCfg s v) := by
  simp [Keeps, State.conCfg]
theorem conReg_moves (p : Path) (a : Nat) (s : State) : OptMoves (conReg p a s) := by
  unfold conReg
  (try dsimp only)
  repeat' (first | (with_reducible refine OptMoves_ite ?_ ?_) | split)
  all_goals first | (exact OptMoves_none) | (exact (OptMoves_some _).2 ⟨fun _ _ => Moves_upd _ _ _ _ _ _ _ _ _ _ _ _ _ _ _ _ _ _ _ _ _ _, fun _ => Moves_refl _, fun _ _ => Moves_refl _⟩) | (rw [OptMoves_some]; simp +contextual [Moves, RegDef.ro]; done)

/-! ## Regs -/

theorem hubReg_moves (p : Path) (a : Nat) (s : State) : OptMoves (hubReg p a s) := by
  unfold hubReg
  repeat' with_reducible refine OptMoves_ite ?_ ?_
  all_goals first | exact OptMoves_none | exact featReg_moves _ _ _ | exact hostReg_moves _ _ _ | exact dbmReg_moves _ _ _ | exact calReg_moves _ _ _ | exact trainReg_moves _ _ _ | exact trimReg_moves _ _ _ | exact fltReg_moves _ _ _ | exact evtReg_moves _ _ _ | exact pwrReg_moves _ _ _ | exact kpaReg_moves _ _ _ | exact nvsReg_moves _ _ _ | exact twbReg_moves _ _ _ | exact conReg_moves _ _ _ | exact clkReg_moves _ _ _ | exact wrnReg_moves _ _ _ | exact hrdReg_moves _ _ _ | exact poolReg_moves _ _ _
theorem State.reg_moves (s : State) (p : Path) (a : Addr) : OptMoves (s.reg p a) := by
  unfold State.reg
  exact OptMoves_ite OptMoves_none (hubReg_moves _ _ _)
@[simp] theorem State.afterRead_moves (s : State) (p : Path) (a : Addr) : Moves s (s.afterRead p a) := by
  unfold State.afterRead
  split
  · rename_i d h; exact (s.reg_moves p a d h).2.1 s
  · exact Moves_refl s
@[simp] theorem State.afterRead_off (s : State) (p : Path) (a : Addr) : s.pow.isOn = true → (State.afterRead s p a).pow.isOn = true := (State.afterRead_moves s p a).2.2.2.1 -- moves_off
@[simp] theorem State.homePend_keeps (s : State) (r : Nat) : Keeps s (State.homePend s r) := by
  first
  | (simp [Keeps, State.homePend]; done)
  | (unfold State.homePend; (try dsimp only); (repeat' split) <;> simp [Keeps]; done)
theorem RegDef.put_moves (d : RegDef) (h : (∀ v t, Moves t (d.write v t)) ∧ (∀ t, Moves t (d.onRead t)) ∧ ∀ v t, Moves t (d.sent v t)) (a : Nat) (v : Word) (s : State) :
    Moves s (d.put a v s) := by
  unfold RegDef.put
  dsimp only
  split
  · exact Moves_trans (h.1 _ s) (Moves_of (State.homePend_keeps _ _))
  · exact h.1 _ s
@[simp] theorem State.hubWrite_moves (s : State) (p : Path) (a : Addr) (v : Word) : Moves s (s.hubWrite p a v) := by
  unfold State.hubWrite
  split
  · rename_i d h
    have hd := s.reg_moves p a d h
    refine Moves_trans ?_ (hd.2.2 _ _)
    split
    · exact d.put_moves hd _ _ _
    · exact Moves_refl s
  · exact Moves_refl s
@[simp] theorem State.hubWrite_off (s : State) (p : Path) (a : Addr) (v : Word) : s.pow.isOn = true → (State.hubWrite s p a v).pow.isOn = true := (State.hubWrite_moves s p a v).2.2.2.1 -- moves_off
@[simp] theorem State.atUnit_keeps (s : State) (unit : Nat) : Keeps s (State.atUnit s unit) := by
  simp [Keeps, State.atUnit]
@[simp] theorem State.loadEntry_moves (s : State) (e : SetEntry) : Moves s (s.loadEntry e) := by
  unfold State.loadEntry
  dsimp only
  have h0 : Moves s (s.atUnit e.unit) := Moves_of (State.atUnit_keeps _ _)
  split
  · exact Moves_refl s
  split
  · rename_i d h
    have hd := hubReg_moves _ _ _ d h
    split
    · exact Moves_trans h0 (Moves_trans (hd.1 _ _) (hd.2.2 _ _))
    · exact h0
  · exact h0
@[simp] theorem State.loadEntry_off (s : State) (e : SetEntry) : s.pow.isOn = true → (State.loadEntry s e).pow.isOn = true := (State.loadEntry_moves s e).2.2.2.1 -- moves_off
@[simp] theorem State.loadSettings_moves (s : State) (es : List SetEntry) : Moves s (s.loadSettings es) := by
  have h := foldl_moves State.loadEntry (fun s a => State.loadEntry_moves s a) es s
  unfold State.loadSettings
  exact Moves_trans h (Moves_of (by simp [Keeps]))
@[simp] theorem State.loadSettings_off (s : State) (es : List SetEntry) : s.pow.isOn = true → (State.loadSettings s es).pow.isOn = true := (State.loadSettings_moves s es).2.2.2.1 -- moves_off

/-! ## Boot -/

@[simp] theorem State.noteRegion_keeps (s : State) (r : Nat) (c : Option Bool) (bad : Nat) : Keeps s (State.noteRegion s r c bad) := by
  simp [Keeps, State.noteRegion]
@[simp] theorem State.readWear_keeps (s : State) : Keeps s (State.readWear s) := by
  first
  | (simp [Keeps, State.readWear]; done)
  | (unfold State.readWear; (try dsimp only); (repeat' split) <;> simp [Keeps]; done)
@[simp] theorem State.bootRead_keeps (s : State) : Keeps s (State.bootRead s) := by
  simp [Keeps, State.bootRead]
@[simp] theorem State.bootReports_keeps (s : State) : Keeps s (State.bootReports s) := by
  simp [Keeps, State.bootReports]
@[simp] theorem State.bootRun_moves (s : State) : Moves s s.bootRun := by
  unfold State.bootRun
  split
  · rename_i h
    simp only [beq_iff_eq] at h
    refine ⟨rfl, rfl, rfl, fun _ => by simp, fun m hm hl => ?_⟩
    simp only [Pow.legal, h, Bool.and_eq_true, beq_iff_eq] at hl
    obtain ⟨⟨h1, h2⟩, h3⟩ := hl
    refine State.setDom_legal s .run m hm ?_ h3
    revert h1; cases s.pow.keep <;> simp [keepDom]
  · exact Moves_refl s
@[simp] theorem State.bootRun_off (s : State) : s.pow.isOn = true → (State.bootRun s).pow.isOn = true := (State.bootRun_moves s).2.2.2.1 -- moves_off
@[simp] theorem State.rescue_moves (s : State) (partOk : Bool) : Moves s (State.rescue s partOk) := by
  refine ⟨?_, ?_, ?_, fun hd => ?_, fun m hm hl => ?_⟩ <;> subst_vars <;> simp only [State.rescue] <;> (repeat' split) <;> (try simp [*]) <;> (repeat' split) <;> simp [*]
@[simp] theorem State.rescue_off (s : State) (partOk : Bool) : s.pow.isOn = true → (State.rescue s partOk).pow.isOn = true := (State.rescue_moves s partOk).2.2.2.1 -- moves_off
@[simp] theorem State.rescuePart_moves (s : State) : Moves s (State.rescuePart s) := by
  unfold State.rescuePart; dsimp only
  refine Moves_trans ?_ (State.rescue_moves _ _)
  (repeat' split) <;> exact Moves_of (by simp [Keeps])
@[simp] theorem State.rescuePart_off (s : State) : s.pow.isOn = true → (State.rescuePart s).pow.isOn = true := (State.rescuePart_moves s).2.2.2.1 -- moves_off
@[simp] theorem State.discover_keeps (s : State) (b : BootReport) : Keeps s (State.discover s b) := by
  simp [Keeps, State.discover]
@[simp] theorem State.discoveryReports_keeps (s : State) : Keeps s (State.discoveryReports s) := by
  unfold State.discoveryReports; (try dsimp only); (repeat' split) <;> simp [Keeps]
@[simp] theorem State.loadFactory_keeps (s : State) : Keeps s (State.loadFactory s) := by
  simp [Keeps, State.loadFactory]
@[simp] theorem State.loadLife_keeps (s : State) : Keeps s (State.loadLife s) := by
  unfold State.loadLife; (try dsimp only); (repeat' split) <;> simp [Keeps]
@[simp] theorem State.loadSet_moves (s : State) : Moves s (State.loadSet s) := by
  refine ⟨?_, ?_, ?_, fun hd => ?_, fun m hm hl => ?_⟩ <;> subst_vars <;> simp only [State.loadSet] <;> (repeat' split) <;> (try simp [*]) <;> (repeat' split) <;> simp [*]
@[simp] theorem State.loadSet_off (s : State) : s.pow.isOn = true → (State.loadSet s).pow.isOn = true := (State.loadSet_moves s).2.2.2.1 -- moves_off
@[simp] theorem State.loadCal_keeps (s : State) : Keeps s (State.loadCal s) := by
  simp [Keeps, State.loadCal]
@[simp] theorem State.loadKeep_keeps (s : State) : Keeps s (State.loadKeep s) := by
  simp [Keeps, State.loadKeep]
@[simp] theorem State.loadFw_keeps (s : State) (f : FwBody) : Keeps s (State.loadFw s f) := by
  simp [Keeps, State.loadFw]
@[simp] theorem State.noteRecord_keeps (s : State) (ids : List Byte) : Keeps s (State.noteRecord s ids) := by
  unfold State.noteRecord; (try dsimp only); (repeat' split) <;> simp [Keeps]
@[simp] theorem State.warmStart_keeps (s : State) (hottest : Int) : Keeps s (State.warmStart s hottest) := by
  unfold State.warmStart; (try dsimp only); (repeat' split) <;> simp [Keeps]
@[simp] theorem State.islandReports_keeps (s : State) (first : Bool) : Keeps s (State.islandReports s first) := by
  unfold State.islandReports; (try dsimp only); (repeat' split) <;> simp [Keeps]
@[simp] theorem State.bootCal_keeps (s : State) : Keeps s (State.bootCal s) := by
  simp [Keeps, State.bootCal]
@[simp] theorem State.loadHost_keeps (s : State) : Keeps s (State.loadHost s) := by
  simp [Keeps, State.loadHost]
@[simp] theorem State.bootOffer_keeps (s : State) (b : BootReport) : Keeps s (State.bootOffer s b) := by
  simp [Keeps, State.bootOffer]
@[simp] theorem State.bootStore_moves (s : State) (f : FwBody) : Moves s (State.bootStore s f) := by
  refine ⟨?_, ?_, ?_, fun hd => ?_, fun m hm hl => ?_⟩ <;> subst_vars <;> simp only [State.bootStore] <;> (repeat' split) <;> (try simp [*]) <;> (repeat' split) <;> simp [*]
@[simp] theorem State.bootStore_off (s : State) (f : FwBody) : s.pow.isOn = true → (State.bootStore s f).pow.isOn = true := (State.bootStore_moves s f).2.2.2.1 -- moves_off
@[simp] theorem State.firstCounts_keeps (s : State) : Keeps s (State.firstCounts s) := by
  unfold State.firstCounts
  exact foldl_keeps _ (fun s n => by split <;> simp [Keeps]) _ _
@[simp] theorem State.bootParts_keeps (s : State) (b : BootReport) : Keeps s (State.bootParts s b) := by
  simp [Keeps, State.bootParts]
@[simp] theorem State.bootLogs_keeps (s : State) (first : Bool) : Keeps s (State.bootLogs s first) := by
  simp [Keeps, State.bootLogs]
@[simp] theorem State.bootDone_moves (s : State) (b : BootReport) (f : FwBody) : Moves s (State.bootDone s b f) := by
  refine ⟨?_, ?_, ?_, fun hd => ?_, fun m hm hl => ?_⟩ <;> subst_vars <;> simp only [State.bootDone] <;> (repeat' split) <;> (try simp [*]) <;> (repeat' split) <;> simp [*]
@[simp] theorem State.bootDone_off (s : State) (b : BootReport) (f : FwBody) : s.pow.isOn = true → (State.bootDone s b f).pow.isOn = true := (State.bootDone_moves s b f).2.2.2.1 -- moves_off
@[simp] theorem State.bootEnd_moves (s : State) (b : BootReport) : Moves s (State.bootEnd s b) := by
  refine ⟨?_, ?_, ?_, fun hd => ?_, fun m hm hl => ?_⟩ <;> subst_vars <;> simp only [State.bootEnd] <;> (repeat' split) <;> (try simp [*]) <;> (repeat' split) <;> simp [*]
@[simp] theorem State.bootEnd_off (s : State) (b : BootReport) : s.pow.isOn = true → (State.bootEnd s b).pow.isOn = true := (State.bootEnd_moves s b).2.2.2.1 -- moves_off

/-! ## Access -/

@[simp] theorem State.winApply_moves (s : State) (x : Sub) : Moves s (State.winApply s x) := by
  refine ⟨?_, ?_, ?_, fun hd => ?_, fun m hm hl => ?_⟩ <;> subst_vars <;> simp only [State.winApply] <;> (repeat' split) <;> (try simp [*]) <;> (repeat' split) <;> simp [*]
@[simp] theorem State.winApply_off (s : State) (x : Sub) : s.pow.isOn = true → (State.winApply s x).pow.isOn = true := (State.winApply_moves s x).2.2.2.1 -- moves_off
@[simp] theorem State.winFlush_moves (s : State) (x : Sub) : Moves s (s.winFlush x) :=
  foldl_moves (fun s (_ : Nat) => s.winApply x) (fun s _ => State.winApply_moves s x) _ s
@[simp] theorem State.winFlush_off (s : State) (x : Sub) : s.pow.isOn = true → (State.winFlush s x).pow.isOn = true := (State.winFlush_moves s x).2.2.2.1 -- moves_off
@[simp] theorem State.winFetch_moves (s : State) (x : Sub) : Moves s (State.winFetch s x) := by
  refine ⟨?_, ?_, ?_, fun hd => ?_, fun m hm hl => ?_⟩ <;> subst_vars <;> simp only [State.winFetch] <;> (repeat' split) <;> (try simp [*]) <;> (repeat' split) <;> simp [*]
@[simp] theorem State.winFetch_off (s : State) (x : Sub) : s.pow.isOn = true → (State.winFetch s x).pow.isOn = true := (State.winFetch_moves s x).2.2.2.1 -- moves_off
@[simp] theorem State.twbExec_moves (s : State) (p : Port) : Moves s (State.twbExec s p) := by
  refine ⟨?_, ?_, ?_, fun hd => ?_, fun m hm hl => ?_⟩ <;> subst_vars <;> simp only [State.twbExec] <;> (repeat' split) <;> (try simp [*]) <;> (repeat' split) <;> simp [*]
@[simp] theorem State.twbExec_off (s : State) (p : Port) : s.pow.isOn = true → (State.twbExec s p).pow.isOn = true := (State.twbExec_moves s p).2.2.2.1 -- moves_off
@[simp] theorem State.twbMove_keeps (s : State) (p : Port) : Keeps s (State.twbMove s p) := by
  simp [Keeps, State.twbMove]
@[simp] theorem State.twbCut_moves (s : State) (p : Port) : Moves s (State.twbCut s p) := by
  refine ⟨?_, ?_, ?_, fun hd => ?_, fun m hm hl => ?_⟩ <;> subst_vars <;> simp only [State.twbCut] <;> (repeat' split) <;> (try simp [*]) <;> (repeat' split) <;> simp [*]
@[simp] theorem State.twbCut_off (s : State) (p : Port) : s.pow.isOn = true → (State.twbCut s p).pow.isOn = true := (State.twbCut_moves s p).2.2.2.1 -- moves_off

end Sys2Proof.Machine
end

