-- ==== Sys2Proof/Laws/KeepsCurl.lean ====
section
/-! SUPPORT. Toward the invariant of the power domains (R67, R207): a power cut, its end, and the resets move between legal combinations. -/

namespace Sys2Proof.Machine

/-! ## Curl -/

theorem Pow.fresh_legal (st : Straps) (m : Module) : (Pow.fresh st).legal m = true := by
  simp only [Pow.legal, Pow.fresh, keepDom, domOnOk]; cases m.dbFitted <;> cases st.nodb <;> cases m.hoardFitted <;> rfl
theorem domMask_bit0 (d : Dom) (b h : Bool) : (domMask d b h).getLsbD 0 = (d != .off) := by cases d <;> cases b <;> cases h <;> rfl
theorem Pow.legal_bit0 (p : Pow) (m : Module) (h : p.legal m = true) (hd : p.isOn = true) : p.on.getLsbD 0 = true := by
  have e : ∀ y : BitVec 7, p.on &&& 125 = y → p.on.getLsbD 0 = y.getLsbD 0 := by
    rintro y rfl; simp
  have hd' : (p.dom != .off) = true := hd
  simp only [Pow.legal, domOnOk, Bool.and_eq_true] at h
  obtain ⟨⟨_, h2⟩, _⟩ := h
  split at h2
  · simp only [Bool.and_eq_true, beq_iff_eq] at h2
    rw [e _ h2.1]; rfl
  · split at h2
    · simp only [Bool.and_eq_true, beq_iff_eq] at h2
      have := h2.2; simpa using this
    · split at h2
      · simp only [Bool.or_eq_true, beq_iff_eq] at h2
        rcases h2 with h2 | h2 <;> rw [e _ h2, domMask_bit0, hd']
      · simp only [beq_iff_eq] at h2
        rw [e _ h2, domMask_bit0, hd']
theorem bits_curl (x : BitVec 7) (b h : Bool) (hx : x.getLsbD 0 = true) :
    domOnOk .curl false b h (x &&& (domMask .curl b false ||| 2)) = true := by
  cases b <;> cases h <;> (revert hx; simp only [domOnOk]; revert x; decide)
theorem keep_tear (s : State) : s.tearCommit.pow.keep = s.pow.keep ∧ s.tearCommit.pow.kdeep = s.pow.kdeep := by
  unfold State.tearCommit; split
  · simp
  · exact ⟨rfl, rfl⟩
theorem keep_lay (s : State) : s.layCopy.pow.keep = s.pow.keep ∧ s.layCopy.pow.kdeep = s.pow.kdeep := by
  exact ⟨rfl, rfl⟩
theorem keep_halt (s : State) : s.hoardHalt.pow.keep = s.pow.keep ∧ s.hoardHalt.pow.kdeep = s.pow.kdeep := by
  unfold State.hoardHalt; split <;> simp
theorem keep_rend (s : State) : s.restoreEnd.pow.keep = s.pow.keep ∧ s.restoreEnd.pow.kdeep = s.pow.kdeep := by
  unfold State.restoreEnd; split <;> simp [State.setDom]
theorem keep_pd2Off (s : State) : s.pd3Off.pd2Off.pow.keep = s.pow.keep ∧ s.pd3Off.pd2Off.pow.kdeep = s.pow.kdeep := by
  have h : ∀ u : State, u.pd2Off.pow = ((u.tearCommit.layCopy.dropPending).hoardHalt.restoreEnd).pow := fun _ => rfl
  have h' : ∀ u : State, u.dropPending.pow.keep = u.pow.keep ∧ u.dropPending.pow.kdeep = u.pow.kdeep := fun _ => ⟨rfl, rfl⟩
  rw [h]
  simp only [keep_rend, keep_halt, h', keep_lay, keep_tear]
  exact ⟨rfl, rfl⟩
theorem down_bits (x : BitVec 7) (hx : x &&& 0x11 = 0x11) : (x &&& 0x13) &&& 125 = 0x11 := by revert hx; revert x; decide
theorem on_pd2Off (s : State) (h : s.pow.on &&& 0x11 = 0x11) : s.pd3Off.pd2Off.pow.on &&& 0x11 = 0x11 := by
  have e : ∀ u : State, u.pd2Off.pow = ((u.tearCommit.layCopy.dropPending).hoardHalt.restoreEnd).pow := fun _ => rfl
  have h1 : s.pd3Off.tearCommit.pow.on = s.pow.on := by unfold State.tearCommit; split <;> rfl
  have h2 : ∀ u : State, u.hoardHalt.pow.on = u.pow.on := fun u => by unfold State.hoardHalt; split <;> rfl
  have h3 : ∀ u : State, u.pow.on &&& 0x11 = 0x11 → u.restoreEnd.pow.on &&& 0x11 = 0x11 := fun u hu => by
    unfold State.restoreEnd; split
    · show (domMask .run u.buffers u.modl.hoardFitted ||| (u.pow.on &&& 2)) &&& 0x11 = 0x11
      generalize u.pow.on = x
      cases u.buffers <;> cases u.modl.hoardFitted <;> (revert x; decide)
    · exact hu
  rw [e]
  refine h3 _ ?_
  rw [h2]
  exact (congrArg (· &&& 0x11#7) h1).trans h
/-- A supplied island with PD2 on, not in CURL, has PD0 and PD4 on. -/
theorem legal_parts (s : State) (h : s.pow.legal s.modl = true) (hp : s.pd2 = true) (hc : s.pow.dom ≠ .curl) :
    s.pow.on &&& 0x11 = 0x11 := by
  unfold State.pd2 at hp
  simp only [Pow.legal, Bool.and_eq_true] at h
  have h2 := h.1.2
  revert hp hc h2
  generalize (s.modl.dbFitted && !s.pow.straps.nodb) = b
  generalize s.modl.hoardFitted = c
  generalize s.pow.on = x
  generalize s.pow.dom = d
  generalize s.pow.pd2Down = w
  cases w <;> cases d <;> cases b <;> cases c <;> simp only [domOnOk] <;> revert x <;> decide
theorem legal_up (s : State) (h : s.pow.legal s.modl = true) (hp : s.pd2 = true) (hn : s.pow.dom ≠ .commitHold) (ha : s.pow.dom ≠ .attended)
    (hs : s.pow.dom ≠ .save) (hc : s.pow.dom ≠ .curl) (hw : s.pow.dom ≠ .wake) :
    s.pow.isOn = true ∧ keepDom s.pow.keep .boot = true ∧ s.pow.kdeep = false := by
  have e : (s.pow.on &&& 125#7).getLsbD 2 = true := by
    unfold State.pd2 at hp; simp [BitVec.getLsbD_and, hp]
  have n : ∀ d b c, (d = Dom.off ∨ d = .keepOnly ∨ d = .dormouse) → (s.pow.on &&& 125#7) ≠ domMask d b c := by
    intro d b c hd h
    rw [h] at e
    rcases hd with rfl | rfl | rfl <;> cases b <;> cases c <;> exact absurd e (by decide)
  simp only [Pow.legal, Bool.and_eq_true, beq_iff_eq] at h
  obtain ⟨⟨h1, h3⟩, h4⟩ := h
  unfold Pow.isOn
  cases hd : s.pow.dom
  all_goals rw [hd] at h1 h3 h4 hn ha hs hc hw
  all_goals first
    | exact absurd rfl hn | exact absurd rfl ha | exact absurd rfl hs | exact absurd rfl hc | exact absurd rfl hw
    | (refine ⟨rfl, ?_, h4.trans rfl⟩; revert h1; cases s.pow.keep <;> simp [keepDom]; done)
    | (exfalso; simp only [domOnOk] at h3; split at h3
       · simp at h3
       · simp at h3; exact n _ _ _ (by simp) h3)
theorem curl_wake (s : State) (h : s.pow.legal s.modl = true) (hw : s.pow.dom = .wake) : keepDom s.pow.keep .wake = true ∧ s.pow.kdeep = false ∧ s.pow.isOn = true := by
  simp only [Pow.legal, Bool.and_eq_true, beq_iff_eq, hw] at h
  exact ⟨h.1.1, h.2.trans rfl, by unfold Pow.isOn; rw [hw]; rfl⟩
theorem keep_setRanks (s : State) (x r) : (s.setRanks x r).pow = s.pow := by unfold State.setRanks State.setSub; split <;> rfl
def kk (s : State) := (s.pow.keep, s.pow.kdeep, s.pow.dom, s.pow.on)
theorem kk_raise (s : State) (n a) : kk (s.raise n a) = kk s := by
  unfold State.raise
  split
  · rfl
  · split <;> rfl
theorem kk_faultRecord (s : State) (r) : kk (s.faultRecord r) = kk s := by
  unfold State.faultRecord; dsimp only; split; · rfl
  unfold State.ringDrop; dsimp only; split
  · exact kk_raise _ _ _
  · rfl
theorem kk_setRepair (s : State) (n r) : kk (s.setRepair n r) = kk s := by
  unfold State.setRepair State.logRepair; split; · rfl
  exact kk_faultRecord _ _
theorem keep_yrst (s : State) : kk s.yrstLow = kk s := by
  have h : ∀ (s : State) (x : Sub), kk (s.repairsLost x) = kk s := by
    intro s x; unfold State.repairsLost
    refine (foldl_kept kk _ (fun s a => ?_) _ _).trans ?_
    · dsimp only; split
      · exact kk_setRepair _ _ _
      · rfl
    · cases x <;> rfl
  have h2 : ∀ u : State, kk u.wmarksLost = kk u := fun _ => rfl
  unfold State.yrstLow
  rw [h2]
  have := foldl_kept kk State.repairsLost h subs { s with host := { s.host with yrst := false } }
  rw [this]; rfl
theorem halt_pow (s : State) : s.hoardHalt.pow = s.pow := by unfold State.hoardHalt; split <;> rfl
theorem halt_modl (s : State) : s.hoardHalt.modl = s.modl := by unfold State.hoardHalt; split <;> rfl
@[simp] theorem State.por_moves (s : State) (st : Straps) : Moves s (s.por st) := by
  have h := Pow.fresh_legal st
  have h' : (Pow.fresh st).isOn = true := rfl
  unfold State.por; dsimp only; split <;> simp [Moves, h, h']
@[simp] theorem State.por_off (s : State) (st : Straps) : s.pow.isOn = true → (State.por s st).pow.isOn = true := (State.por_moves s st).2.2.2.1 -- moves_off
@[simp] theorem State.vkaLost_keeps3 (s : State) : s.vkaLost.pending = s.pending ∧ s.vkaLost.modl = s.modl ∧ s.vkaLost.nv.factory = s.nv.factory
    ∧ ∀ m, s.vkaLost.pow.legal m = true := by
  refine ⟨by simp [State.vkaLost], by simp [State.vkaLost], by simp [State.vkaLost], fun m => ?_⟩
  have hp : (s.tearCommit.hoardHalt.por s.pow.straps).pow.keep = .normal ∧ (s.tearCommit.hoardHalt.por s.pow.straps).pow.kdeep = false
     ∧ (s.tearCommit.hoardHalt.por s.pow.straps).pow.pd2Down = false := by
    unfold State.por; dsimp only; split
    · unfold State.raise; split
      · exact ⟨rfl, rfl, rfl⟩
      · split <;> exact ⟨rfl, rfl, rfl⟩
    · exact ⟨rfl, rfl, rfl⟩
  simp only [State.vkaLost, Pow.legal, hp.1, hp.2.1, hp.2.2]
  generalize (m.dbFitted && !(s.tearCommit.hoardHalt.por s.pow.straps).pow.straps.nodb) = b
  cases b <;> cases m.hoardFitted <;> rfl
@[simp] theorem State.porBackup_moves (s : State) (st : Straps) : Moves s (State.porBackup s st) := by
  refine ⟨?_, ?_, ?_, fun hd => ?_, fun m hm hl => ?_⟩ <;> subst_vars <;> simp only [State.porBackup] <;> (repeat' split) <;> (try simp [*]) <;> (repeat' split) <;> simp [*]
@[simp] theorem State.porBackup_off (s : State) (st : Straps) : s.pow.isOn = true → (State.porBackup s st).pow.isOn = true := (State.porBackup_moves s st).2.2.2.1 -- moves_off
@[simp] theorem State.chgRearm_keeps (s : State) : Keeps s (State.chgRearm s) := by
  simp [Keeps, State.chgRearm]
@[simp] theorem State.hostUp_keeps (s : State) : Keeps s (State.hostUp s) := by
  simp [Keeps, State.hostUp]
@[simp] theorem State.hostGood_moves (s : State) : Moves s s.hostGood := by
  have h := State.hostUp_keeps s
  unfold State.hostGood
  refine Moves_trans (Moves_of h) ?_
  generalize s.hostUp = u
  dsimp only
  split
  · rename_i hk
    refine ⟨rfl, rfl, rfl, id, fun m hm hl => ?_⟩
    simp only [Pow.legal, hk, keepDom, Bool.and_eq_true, beq_iff_eq] at hl ⊢
    obtain ⟨⟨h1, h2⟩, h3⟩ := hl
    exact ⟨⟨by rw [h1]; rfl, h2⟩, h3⟩
  · exact Moves_trans (State.wake_moves u) (Moves_of (State.chgRearm_keeps _))
  · exact Moves_trans (State.wake_moves u) (Moves_of (State.chgRearm_keeps _))
  · exact Moves_of (State.startDeadline_keeps _)
@[simp] theorem State.hostGood_off (s : State) : s.pow.isOn = true → (State.hostGood s).pow.isOn = true := (State.hostGood_moves s).2.2.2.1 -- moves_off
@[simp] theorem State.bootStart_moves (s : State) : Moves s s.bootStart := by
  unfold State.bootStart; split
  · exact Moves_refl s
  · rename_i h
    simp only [Bool.or_eq_true, bne_iff_ne, ne_eq, Bool.not_eq_true', not_or, Decidable.not_not] at h
    refine ⟨by simp, by simp, by simp, fun _ => by simp, fun m hm hl => ?_⟩
    simp only [Pow.legal, h, Bool.and_eq_true, beq_iff_eq] at hl
    simp only [State.chgRearm_keeps, State.pd5Start_keeps, State.pd3Start_keeps]
    exact (State.pd2Start_moves _ _).2.2.2.2 m (by simp [hm]) (State.setDom_legal s .boot m hm (by rw [h.2]; rfl) (by rw [hl.2]; rfl))
@[simp] theorem State.bootStart_off (s : State) : s.pow.isOn = true → (State.bootStart s).pow.isOn = true := (State.bootStart_moves s).2.2.2.1 -- moves_off
@[simp] theorem State.packStart_keeps (s : State) : Keeps s (State.packStart s) := by
  simp [Keeps, State.packStart]
@[simp] theorem State.packReport_keeps (s : State) (c esr outcome : Nat) : Keeps s (State.packReport s c esr outcome) := by
  simp [Keeps, State.packReport]
@[simp] theorem State.packEnd_keeps (s : State) (r : PackEnd) : Keeps s (State.packEnd s r) := by
  unfold State.packEnd; (try dsimp only); (repeat' split) <;> simp [Keeps]
@[simp] theorem State.packSwitch_keeps (s : State) : Keeps s (State.packSwitch s) := by
  first
  | (simp [Keeps, State.packSwitch]; done)
  | (unfold State.packSwitch; (try dsimp only); (repeat' split) <;> simp [Keeps]; done)
@[simp] theorem State.hrxSwitch_keeps (s : State) : Keeps s (State.hrxSwitch s) := by
  first
  | (simp [Keeps, State.hrxSwitch]; done)
  | (unfold State.hrxSwitch; (try dsimp only); (repeat' split) <;> simp [Keeps]; done)
@[simp] theorem State.cutSub_moves (s : State) (x : Sub) : Moves s (State.cutSub s x) := by
  refine ⟨?_, ?_, ?_, fun hd => ?_, fun m hm hl => ?_⟩ <;> subst_vars <;> simp only [State.cutSub] <;> (repeat' split) <;> (try simp [*]) <;> (repeat' split) <;> simp [*]
@[simp] theorem State.cutSub_off (s : State) (x : Sub) : s.pow.isOn = true → (State.cutSub s x).pow.isOn = true := (State.cutSub_moves s x).2.2.2.1 -- moves_off
@[simp] theorem State.cutCon_keeps (s : State) : Keeps s (State.cutCon s) := by
  simp [Keeps, State.cutCon]
@[simp] theorem State.stopHost_moves (s : State) : Moves s (State.stopHost s) := by
  refine ⟨?_, ?_, ?_, fun hd => ?_, fun m hm hl => ?_⟩ <;> subst_vars <;> simp only [State.stopHost] <;> (repeat' split) <;> (try simp [*]) <;> (repeat' split) <;> simp [*]
@[simp] theorem State.stopHost_off (s : State) : s.pow.isOn = true → (State.stopHost s).pow.isOn = true := (State.stopHost_moves s).2.2.2.1 -- moves_off
@[simp] theorem State.stopPorts_moves (s : State) : Moves s (State.stopPorts s) := by
  refine ⟨?_, ?_, ?_, fun hd => ?_, fun m hm hl => ?_⟩ <;> subst_vars <;> simp only [State.stopPorts] <;> (repeat' split) <;> (try simp [*]) <;> (repeat' split) <;> simp [*]
@[simp] theorem State.stopPorts_off (s : State) : s.pow.isOn = true → (State.stopPorts s).pow.isOn = true := (State.stopPorts_moves s).2.2.2.1 -- moves_off
@[simp] theorem State.stopWork_keeps (s : State) : Keeps s (State.stopWork s) := by
  simp [Keeps, State.stopWork]
@[simp] theorem State.curlStop_moves (s : State) : Moves s (State.curlStop s) := by
  refine ⟨?_, ?_, ?_, fun hd => ?_, fun m hm hl => ?_⟩ <;> subst_vars <;> simp only [State.curlStop] <;> (repeat' split) <;> (try simp [*]) <;> (repeat' split) <;> simp [*]
@[simp] theorem State.curlStop_off (s : State) : s.pow.isOn = true → (State.curlStop s).pow.isOn = true := (State.curlStop_moves s).2.2.2.1 -- moves_off
@[simp] theorem State.curlEnter_keeps3 (s : State) (b : Bool) : (s.curlEnter b).pending = s.pending ∧ (s.curlEnter b).modl = s.modl
   ∧ (s.curlEnter b).nv.factory = s.nv.factory ∧ (s.curlEnter b).pow.isOn = true := ⟨rfl, rfl, rfl, rfl⟩
theorem State.curlEnter_legal (s : State) (b : Bool) (m : Module) (hm : m = s.modl) (hl : s.pow.legal m = true)
    (hd : s.pow.isOn = true) : (s.curlEnter b).pow.legal m = true := by
  have h0 := s.pow.legal_bit0 m hl hd
  subst hm
  simp only [State.curlEnter, Pow.legal, keepDom, State.buffers]
  rw [bits_curl _ _ _ h0]
  rfl
theorem curlEnter_moves (u : State) (b : Bool) (hd : u.pow.isOn = true) : Moves u (u.curlEnter b) :=
  ⟨rfl, rfl, rfl, fun _ => rfl, fun m hm hl => State.curlEnter_legal _ b m hm hl hd⟩
theorem curlTail (u : State) : Moves u ((if u.flt.test.busy then u.packEnd .noResult else u).raise 24 0) := by
  split <;> exact Moves_of (by simp [Keeps])
@[simp] theorem State.curlStart_moves (s : State) (b : Bool) (hd : s.pow.isOn = true) : Moves s (s.curlStart b) := by
  have h1 := State.curlStop_moves s
  have hd1 : s.curlStop.pow.isOn = true := h1.2.2.2.1 hd
  have h2 := curlEnter_moves s.curlStop b hd1
  have h3 := curlTail (s.curlStop.curlEnter b)
  have h4 := Moves_trans h1 (Moves_trans h2 h3)
  generalize hs : s.curlStop.curlEnter b = u at h4
  unfold State.curlStart
  rw [hs]
  exact h4
@[simp] theorem State.pfailNote_keeps (s : State) (bankOk : Bool) : Keeps s (State.pfailNote s bankOk) := by
  simp [Keeps, State.pfailNote]
@[simp] theorem State.pfail_moves (s : State) (b : Bool) : Moves s (s.pfail b) := by
  have h1 := State.pfailNote_keeps s b
  unfold State.pfail
  dsimp only
  split
  · rename_i h
    have hd : (s.pfailNote b).pow.isOn = true := by
      rw [h1.2.2.2.1]
      simp only [Bool.and_eq_true, Bool.or_eq_true, beq_iff_eq] at h
      unfold Pow.isOn
      rcases h.2 with ((h | h) | h) | h <;> rw [h] <;> rfl
    exact Moves_trans (Moves_of h1) (State.curlStart_moves _ b hd)
  · exact Moves_of h1
@[simp] theorem State.pfail_off (s : State) (bankOk : Bool) : s.pow.isOn = true → (State.pfail s bankOk).pow.isOn = true := (State.pfail_moves s bankOk).2.2.2.1 -- moves_off
@[simp] theorem State.curlTimes_keeps (s : State) (t : CurlTimes) (reached : Bool) : Keeps s (State.curlTimes s t reached) := by
  simp [Keeps, State.curlTimes]
@[simp] theorem State.curlMark_keeps (s : State) (image hold : Bool) : Keeps s (State.curlMark s image hold) := by
  simp [Keeps, State.curlMark]
@[simp] theorem State.enterCommitHold_moves (s : State) : Moves s s.enterCommitHold := by
  refine ⟨rfl, rfl, rfl, fun _ => rfl, fun m hm _ => ?_⟩
  subst hm
  simp only [State.enterCommitHold, State.setDom, Pow.legal, domOnOk, State.buffers, keepDom]
  rw [on_seven]
  generalize (s.modl.dbFitted && !s.pow.straps.nodb) = x
  cases x <;> cases s.modl.hoardFitted <;> rfl
@[simp] theorem State.enterCommitHold_off (s : State) : s.pow.isOn = true → (State.enterCommitHold s).pow.isOn = true := (State.enterCommitHold_moves s).2.2.2.1 -- moves_off
@[simp] theorem State.curlSleep_keeps (s : State) (x : Sub) : Keeps s (State.curlSleep s x) := by
  first
  | (simp [Keeps, State.curlSleep]; done)
  | (unfold State.curlSleep; (try dsimp only); (repeat' split) <;> simp [Keeps]; done)
@[simp] theorem State.curlEnd_moves (s : State) (t : CurlTimes) : Moves s (s.curlEnd t) := by
  unfold State.curlEnd
  split
  · exact Moves_refl s
  · dsimp only
    split
    · exact Moves_trans (Moves_of (by simp [Keeps])) (State.enterCommitHold_moves _)
    · split
      · exact Moves_trans (Moves_of (by simp [Keeps])) (State.enterHold_moves _)
      · exact Moves_trans (Moves_of (by simp [Keeps])) (State.powerDown_moves _ _)
@[simp] theorem State.curlEnd_off (s : State) (t : CurlTimes) : s.pow.isOn = true → (State.curlEnd s t).pow.isOn = true := (State.curlEnd_moves s t).2.2.2.1 -- moves_off
@[simp] theorem State.commitHoldEnd_moves (s : State) : Moves s (State.commitHoldEnd s) := by
  refine ⟨?_, ?_, ?_, fun hd => ?_, fun m hm hl => ?_⟩ <;> subst_vars <;> simp only [State.commitHoldEnd] <;> (repeat' split) <;> (try simp [*]) <;> (repeat' split) <;> simp [*]
@[simp] theorem State.commitHoldEnd_off (s : State) : s.pow.isOn = true → (State.commitHoldEnd s).pow.isOn = true := (State.commitHoldEnd_moves s).2.2.2.1 -- moves_off
@[simp] theorem State.domFault_keeps (s : State) (i : Nat) : Keeps s (State.domFault s i) := by
  simp [Keeps, State.domFault]
@[simp] theorem State.pd2Fall_keeps3 (s : State) (d : Dom) : (s.pd2Fall d).pending = s.pending ∧ (s.pd2Fall d).modl = s.modl
    ∧ (s.pd2Fall d).nv.factory = s.nv.factory := by simp [State.pd2Fall]
theorem State.pd2Fall_moves (s : State) (d : Dom) (hd : s.pow.isOn = true) (h1 : d = .boot ∨ d = .wake)
    (hk : keepDom s.pow.keep d = true) (hq : s.pow.kdeep = false) (ho : s.pow.on &&& 0x11 = 0x11) : Moves s (s.pd2Fall d) := by
  have hm := Moves_trans (Moves_of (State.pd3Off_keeps s)) (State.pd2Off_moves s.pd3Off)
  have hkk := keep_pd2Off s
  have hb := on_pd2Off s ho
  unfold State.pd2Fall
  generalize s.pd3Off.pd2Off = u at *
  refine ⟨hm.1, hm.2.1, hm.2.2.1, fun _ => by rcases h1 with rfl | rfl <;> rfl, fun m he hl => ?_⟩
  simp only [Pow.legal, hkk.1, hk, hkk.2, hq, domOnOk, down_bits _ hb]
  rcases h1 with rfl | rfl <;> rfl
@[simp] theorem State.pd2Drop_keeps3 (s : State) : s.pd2Drop.pending = s.pending ∧ s.pd2Drop.modl = s.modl
    ∧ s.pd2Drop.nv.factory = s.nv.factory ∧ (s.pow.isOn = true → s.pd2Drop.pow.isOn = true) := by
  unfold State.pd2Drop
  split
  · refine ⟨by simp, by simp, by simp, fun _ => rfl⟩
  · dsimp only; split <;> simp (config := {contextual := true})
  · refine ⟨by simp, by simp, by simp, fun _ => rfl⟩
  · exact ⟨by simp, by simp, by simp, fun _ => rfl⟩
  · refine ⟨by simp, by simp, by simp, fun _ => rfl⟩
theorem pd2Drop_legal (s : State) (hp : s.pd2 = true) (hc : s.pow.dom ≠ .curl) (hl : s.pow.legal s.modl = true) :
    s.pd2Drop.pow.legal s.modl = true := by
  unfold State.pd2Drop
  have h4' := legal_parts s hl hp hc
  split
  · rename_i h
    obtain ⟨h1, h2, h3⟩ := curl_wake s hl h
    have h4 := legal_parts s hl hp hc
    refine (State.pd2Fall_moves _ .wake ?_ (.inr rfl) ?_ ?_ ?_).2.2.2.2 _ (by simp) (by simp [hl]) <;> simp only [keep_setRanks] <;> assumption
  · dsimp only
    have hm : (({ s with pow := { s.pow with svc := false } } : State).pd2Off.setDom .dormouse).modl = s.modl := by simp
    generalize ({ s with pow := { s.pow with svc := false } } : State).pd2Off.setDom .dormouse = u at hm
    rw [← hm]
    split
    · exact u.enterHold_tail.2
    · exact u.powerDown_legal _
  · rename_i h
    have hm := State.pd2Off_moves s
    have hk : s.pd2Off.pow.keep = s.pow.keep ∧ s.pd2Off.pow.kdeep = s.pow.kdeep := by
      have h : s.pd2Off.pow = ((s.tearCommit.layCopy.dropPending).hoardHalt.restoreEnd).pow := rfl
      have h' : ∀ u : State, u.dropPending.pow.keep = u.pow.keep ∧ u.dropPending.pow.kdeep = u.pow.kdeep := fun _ => ⟨rfl, rfl⟩
      rw [h]
      simp only [keep_rend, keep_halt, h', keep_lay, keep_tear]
      exact ⟨trivial, trivial⟩
    simp only [Pow.legal, Bool.and_eq_true, beq_iff_eq, h] at hl
    refine State.setDom_legal s.pd2Off .dormouse _ hm.2.1.symm ?_ ?_
    · rw [hk.1]; have := hl.1.1; revert this; cases s.pow.keep <;> simp [keepDom]
    · rw [hk.2, hl.2]; rfl
  · exact (Moves_trans (Moves_of (State.saveEnd_keeps s 3)) (State.powerDown_moves _ _)).2.2.2.2 _ rfl hl
  · rename_i h1 h2 h3 h4
    obtain ⟨g1, g2, g3⟩ := legal_up s hl hp h2 h3 h4 hc h1
    refine (State.pd2Fall_moves _ .boot ?_ (.inl rfl) ?_ ?_ ?_).2.2.2.2 _ (by simp) (by simp [hl])
    all_goals
      have hk := (keep_yrst s.hoardHalt).trans (congrArg (fun p : Pow => (p.keep, p.kdeep, p.dom, p.on)) (halt_pow s) : kk s.hoardHalt = kk s)
      simp only [kk, Prod.mk.injEq] at hk
    · unfold Pow.isOn at *; rw [hk.2.2.1]; exact g1
    · rw [hk.1]; exact g2
    · rw [hk.2.1]; exact g3
    · rw [hk.2.2.2]; exact h4'
@[simp] theorem State.pd2Brownout_moves (s : State) : Moves s s.pd2Brownout := by
  unfold State.pd2Brownout
  split
  · exact Moves_refl s
  · rename_i h
    simp only [Bool.or_eq_true, Bool.not_eq_true', beq_iff_eq, not_or, Bool.not_eq_false] at h
    have hk := State.pd2Drop_keeps3 { s with pow := { s.pow with faults := s.pow.faults ||| 1 } }
    have hl := pd2Drop_legal { s with pow := { s.pow with faults := s.pow.faults ||| 1 } } h.1 h.2
    generalize ({ s with pow := { s.pow with faults := s.pow.faults ||| 1 } } : State).pd2Drop = u at *
    refine Moves_trans (t := u) ⟨hk.1, hk.2.1, hk.2.2.1, hk.2.2.2, fun m hm hl' => ?_⟩ (Moves_of (State.raise_keeps _ _ _))
    subst hm
    exact hl hl'
theorem boot_bits (x : BitVec 7) (b h : Bool) (hx : domOnOk .boot false b h x = true) : domOnOk .boot false b h (x &&& 0x3F) = true := by
  cases b <;> cases h <;> (revert hx; simp only [domOnOk]; revert x; decide)
theorem boot_bits' (x : BitVec 7) (b h : Bool) (hx : domOnOk .boot true b h x = true) : domOnOk .boot true b h (x &&& 0x3F) = true := by
  cases b <;> cases h <;> (revert hx; simp only [domOnOk]; revert x; decide)
@[simp] theorem State.pd2Brownout_off (s : State) : s.pow.isOn = true → (State.pd2Brownout s).pow.isOn = true := (State.pd2Brownout_moves s).2.2.2.1 -- moves_off
@[simp] theorem State.pd2Again_moves (s : State) : Moves s s.pd2Again := by
  unfold State.pd2Again; split
  · exact Moves_refl s
  · have hx : s.pow.isOn = true → (s.setDom s.pow.dom).pow.isOn = true := id
    refine ⟨by simp, by simp, by simp, fun hd => by simp [hx hd], fun m hm hl => ?_⟩
    simp only [Pow.legal, Bool.and_eq_true, beq_iff_eq] at hl
    simp only [State.chgRearm_keeps, State.pd5Start_keeps, State.pd3Start_keeps]
    exact (State.pd2Start_moves _ _).2.2.2.2 m (by simp [hm]) (State.setDom_legal s _ m hm hl.1.1 hl.2)
@[simp] theorem State.pd2Again_off (s : State) : s.pow.isOn = true → (State.pd2Again s).pow.isOn = true := (State.pd2Again_moves s).2.2.2.1 -- moves_off
@[simp] theorem State.pd3Block_keeps (s : State) (x : Sub) : Keeps s (State.pd3Block s x) := by
  simp [Keeps, State.pd3Block]
@[simp] theorem State.pd3Brownout_keeps (s : State) : Keeps s (State.pd3Brownout s) := by
  simp [Keeps, State.pd3Brownout]
@[simp] theorem State.pd3Back_keeps (s : State) : Keeps s (State.pd3Back s) := by
  simp [Keeps, State.pd3Back]
@[simp] theorem State.pd5Lost_keeps (s : State) : Keeps s (State.pd5Lost s) := by
  simp [Keeps, State.pd5Lost]
@[simp] theorem State.pd6Fail_moves (s : State) : Moves s s.pd6Fail := by
  unfold State.pd6Fail
  split
  · exact Moves_refl s
  · refine Moves_trans (Moves_of (State.domFault_keeps s 4)) ?_
    generalize s.domFault 4 = u
    dsimp only
    split
    · rename_i hd
      refine ⟨rfl, rfl, rfl, id, fun m hm hl => ?_⟩
      simp only [Pow.legal, Bool.and_eq_true, beq_iff_eq, hd] at hl ⊢
      refine ⟨⟨hl.1.1, ?_⟩, hl.2⟩
      have := hl.1.2
      cases hq : u.pow.pd2Down
      · rw [hq] at this; exact boot_bits _ _ _ this
      · rw [hq] at this; exact boot_bits' _ _ _ this
    · exact Moves_of (by simp [Keeps])
    · exact Moves_trans (Moves_of (State.hoardHalt_keeps u)) (State.restoreEnd_moves _)
theorem legal_hold (s : State) (m) (h : s.pow.legal m = true) (hd : s.pow.dom = .dormouse ∨ s.pow.dom = .attended) : s.pow.keep = .hold ∧ s.pow.kdeep = false := by
  simp only [Pow.legal, Bool.and_eq_true, beq_iff_eq] at h
  obtain ⟨⟨h1, _⟩, h3⟩ := h
  rcases hd with hd | hd <;> rw [hd] at h1 h3 <;> refine ⟨?_, h3⟩ <;> (revert h1; cases s.pow.keep <;> simp [keepDom])
@[simp] theorem State.pd6Fail_off (s : State) : s.pow.isOn = true → (State.pd6Fail s).pow.isOn = true := (State.pd6Fail_moves s).2.2.2.1 -- moves_off
@[simp] theorem State.pd4Lost_moves (s : State) : Moves s (State.pd4Lost s) := by
  refine ⟨?_, ?_, ?_, fun hd => ?_, fun m hm hl => ?_⟩ <;> subst_vars <;> simp only [State.pd4Lost] <;> (repeat' split) <;> (try simp [*]) <;> (repeat' split) <;> simp [*]
@[simp] theorem State.pd4Lost_off (s : State) : s.pow.isOn = true → (State.pd4Lost s).pow.isOn = true := (State.pd4Lost_moves s).2.2.2.1 -- moves_off
@[simp] theorem State.svcOn_moves (s : State) : Moves s s.svcOn := by
  unfold State.svcOn
  dsimp only
  split
  · rename_i h
    have hd : s.pow.dom = .dormouse := by simpa using h
    refine ⟨by simp, by simp, by simp, fun _ => by simp, fun m hm hl => ?_⟩
    obtain ⟨h1, h2⟩ := legal_hold s m hl (.inl hd)
    exact State.attend_legal _ m hm h1 h2
  · exact Moves_of (by simp [Keeps])
theorem off_keep (s : State) : s.pd2Off.pow.keep = s.pow.keep ∧ s.pd2Off.pow.kdeep = s.pow.kdeep := by
  have h : s.pd2Off.pow = ((s.tearCommit.layCopy.dropPending).hoardHalt.restoreEnd).pow := rfl
  have h' : ∀ u : State, u.dropPending.pow.keep = u.pow.keep ∧ u.dropPending.pow.kdeep = u.pow.kdeep := fun _ => ⟨rfl, rfl⟩
  rw [h]
  simp only [keep_rend, keep_halt, h', keep_lay, keep_tear]
  exact ⟨trivial, trivial⟩
@[simp] theorem State.svcOn_off (s : State) : s.pow.isOn = true → (State.svcOn s).pow.isOn = true := (State.svcOn_moves s).2.2.2.1 -- moves_off
@[simp] theorem State.svcOff_moves (s : State) : Moves s s.svcOff := by
  unfold State.svcOff
  dsimp only
  split
  · rename_i h
    have hd : s.pow.dom = .attended := by simpa using h
    refine ⟨by simp, by simp, by simp, fun _ => by simp, fun m hm hl => ?_⟩
    obtain ⟨h1, h2⟩ := legal_hold s m hl (.inr hd)
    have hk := off_keep { s with pow := { s.pow with svc := false } }
    refine State.setDom_legal _ .dormouse m (by simp [hm]) ?_ ?_
    · rw [hk.1]; exact congrArg (fun k => keepDom k .dormouse) h1
    · rw [hk.2]; exact h2
  · exact Moves_of (by simp [Keeps])
@[simp] theorem State.svcOff_off (s : State) : s.pow.isOn = true → (State.svcOff s).pow.isOn = true := (State.svcOff_moves s).2.2.2.1 -- moves_off
@[simp] theorem State.bankFloor_moves (s : State) : Moves s (State.bankFloor s) := by
  refine ⟨?_, ?_, ?_, fun hd => ?_, fun m hm hl => ?_⟩ <;> subst_vars <;> simp only [State.bankFloor] <;> (repeat' split) <;> (try simp [*]) <;> (repeat' split) <;> simp [*]
@[simp] theorem State.bankFloor_off (s : State) : s.pow.isOn = true → (State.bankFloor s).pow.isOn = true := (State.bankFloor_moves s).2.2.2.1 -- moves_off
@[simp] theorem State.commitFloor_moves (s : State) : Moves s (State.commitFloor s) := by
  refine ⟨?_, ?_, ?_, fun hd => ?_, fun m hm hl => ?_⟩ <;> subst_vars <;> simp only [State.commitFloor] <;> (repeat' split) <;> (try simp [*]) <;> (repeat' split) <;> simp [*]
@[simp] theorem State.commitFloor_off (s : State) : s.pow.isOn = true → (State.commitFloor s).pow.isOn = true := (State.commitFloor_moves s).2.2.2.1 -- moves_off
@[simp] theorem State.energyRead_keeps (s : State) : Keeps s s.energyRead := by
  have h : ∀ e x b c, Keeps s { s with pow := { s.pow with energyJ := e, energyX := x, cSrc := b, reserveHit := c } } :=
    fun _ _ _ _ => ⟨rfl, rfl, rfl, rfl, fun _ => rfl⟩
  unfold State.energyRead
  exact h _ _ _ _
@[simp] theorem State.energyUpdate_moves (s : State) : Moves s (State.energyUpdate s) := by
  refine ⟨?_, ?_, ?_, fun hd => ?_, fun m hm hl => ?_⟩ <;> subst_vars <;> simp only [State.energyUpdate] <;> (repeat' split) <;> (try simp [*]) <;> (repeat' split) <;> simp [*]
@[simp] theorem State.energyUpdate_off (s : State) : s.pow.isOn = true → (State.energyUpdate s).pow.isOn = true := (State.energyUpdate_moves s).2.2.2.1 -- moves_off
@[simp] theorem State.spanExpire_moves (s : State) : Moves s (State.spanExpire s) := by
  refine ⟨?_, ?_, ?_, fun hd => ?_, fun m hm hl => ?_⟩ <;> subst_vars <;> simp only [State.spanExpire] <;> (repeat' split) <;> (try simp [*]) <;> (repeat' split) <;> simp [*]
@[simp] theorem State.spanExpire_off (s : State) : s.pow.isOn = true → (State.spanExpire s).pow.isOn = true := (State.spanExpire_moves s).2.2.2.1 -- moves_off
@[simp] theorem State.heldInit_keeps (s : State) (x : Sub) : Keeps s (State.heldInit s x) := by
  simp [Keeps, State.heldInit]
@[simp] theorem State.deadlineDiscard_moves (s : State) : Moves s (State.deadlineDiscard s) := by
  refine ⟨?_, ?_, ?_, fun hd => ?_, fun m hm hl => ?_⟩ <;> subst_vars <;> simp only [State.deadlineDiscard] <;> (repeat' split) <;> (try simp [*]) <;> (repeat' split) <;> simp [*]
@[simp] theorem State.deadlineDiscard_off (s : State) : s.pow.isOn = true → (State.deadlineDiscard s).pow.isOn = true := (State.deadlineDiscard_moves s).2.2.2.1 -- moves_off

/-! ## Resets -/

@[simp] theorem State.crystalStop_keeps (s : State) : Keeps s (State.crystalStop s) := by
  simp [Keeps, State.crystalStop]
@[simp] theorem State.mpllLoss_keeps (s : State) : Keeps s (State.mpllLoss s) := by
  simp [Keeps, State.mpllLoss]
@[simp] theorem State.bootFailed_keeps (s : State) : Keeps s (State.bootFailed s) := by
  unfold State.bootFailed; (try dsimp only); (repeat' split) <;> simp [Keeps]
@[simp] theorem State.mrst_moves (s : State) : Moves s (State.mrst s) := by
  refine ⟨?_, ?_, ?_, fun hd => ?_, fun m hm hl => ?_⟩ <;> subst_vars <;> simp only [State.mrst] <;> (repeat' split) <;> (try simp [*]) <;> (repeat' split) <;> simp [*]
@[simp] theorem State.mrst_off (s : State) : s.pow.isOn = true → (State.mrst s).pow.isOn = true := (State.mrst_moves s).2.2.2.1 -- moves_off
@[simp] theorem State.hrstWin_moves (s : State) (x : Sub) : Moves s (State.hrstWin s x) := by
  refine ⟨?_, ?_, ?_, fun hd => ?_, fun m hm hl => ?_⟩ <;> subst_vars <;> simp only [State.hrstWin] <;> (repeat' split) <;> (try simp [*]) <;> (repeat' split) <;> simp [*]
@[simp] theorem State.hrstWin_off (s : State) (x : Sub) : s.pow.isOn = true → (State.hrstWin s x).pow.isOn = true := (State.hrstWin_moves s x).2.2.2.1 -- moves_off
@[simp] theorem State.hrstSub_keeps (s : State) (x : Sub) : Keeps s (State.hrstSub s x) := by
  simp [Keeps, State.hrstSub]
@[simp] theorem State.hrstDo_moves (s : State) : Moves s (State.hrstDo s) := by
  refine ⟨?_, ?_, ?_, fun hd => ?_, fun m hm hl => ?_⟩ <;> subst_vars <;> simp only [State.hrstDo] <;> (repeat' split) <;> (try simp [*]) <;> (repeat' split) <;> simp [*]
@[simp] theorem State.hrstDo_off (s : State) : s.pow.isOn = true → (State.hrstDo s).pow.isOn = true := (State.hrstDo_moves s).2.2.2.1 -- moves_off
@[simp] theorem State.hrst_moves (s : State) : Moves s (State.hrst s) := by
  refine ⟨?_, ?_, ?_, fun hd => ?_, fun m hm hl => ?_⟩ <;> subst_vars <;> simp only [State.hrst] <;> (repeat' split) <;> (try simp [*]) <;> (repeat' split) <;> simp [*]
@[simp] theorem State.hrst_off (s : State) : s.pow.isOn = true → (State.hrst s).pow.isOn = true := (State.hrst_moves s).2.2.2.1 -- moves_off
@[simp] theorem State.hrstEnd_keeps (s : State) : Keeps s (State.hrstEnd s) := by
  simp [Keeps, State.hrstEnd]
@[simp] theorem State.winLost_keeps (s : State) (x : Sub) : Keeps s (State.winLost s x) := by
  first
  | (simp [Keeps, State.winLost]; done)
  | (unfold State.winLost; (try dsimp only); (repeat' split) <;> simp [Keeps]; done)
@[simp] theorem State.hckLoss_keeps (s : State) : Keeps s (State.hckLoss s) := by
  simp [Keeps, State.hckLoss]
@[simp] theorem State.rateRestart_keeps (s : State) (resumed : Bool) (x : Sub) : Keeps s (State.rateRestart s resumed x) := by
  simp [Keeps, State.rateRestart]
@[simp] theorem State.hckReturn_moves (s : State) (mhz : Nat) : Moves s (State.hckReturn s mhz) := by
  refine ⟨?_, ?_, ?_, fun hd => ?_, fun m hm hl => ?_⟩ <;> subst_vars <;> simp only [State.hckReturn] <;> (repeat' split) <;> (try simp [*]) <;> (repeat' split) <;> simp [*]
@[simp] theorem State.hckReturn_off (s : State) (mhz : Nat) : s.pow.isOn = true → (State.hckReturn s mhz).pow.isOn = true := (State.hckReturn_moves s mhz).2.2.2.1 -- moves_off

end Sys2Proof.Machine
end

