-- ==== Sys2Proof/Laws/KeepsRows.lean ====
section
/-! SUPPORT. Toward the invariant of the power domains (R67, R207): the shared meanings of bus, port, window, settings and console rows. -/

namespace Sys2Proof.Machine

/-! ## TwbRows -/

theorem Moves_setPort (s : State) (p : Port) (f : TwbPort → TwbPort) : Moves s (s.setPort p f) := Moves_of (by simp [Keeps])
@[simp] theorem State.takePointer_keeps (s : State) (p : Port) (bs : List Byte) : Keeps s (State.takePointer s p bs) := by
  unfold State.takePointer; (repeat' split) <;> simp [Keeps]
@[simp] theorem State.a0Discard_keeps (s : State) (p : Port) (bs : List Byte) : Keeps s (State.a0Discard s p bs) := by
  simp [Keeps, State.a0Discard]
theorem State.a0Room_moves (s : State) (p : Port) : Moves s (State.a0Room s p) := by
  unfold State.a0Room
  split
  · exact Moves_trans (State.twbExec_moves s p) (Moves_of (by simp [Keeps]))
  · exact Moves_refl s
@[simp] theorem State.a0Commit_keeps (s : State) (p : Port) (a : Addr) (v : Word) : Keeps s (State.a0Commit s p a v) := by
  simp [Keeps, State.a0Commit]
theorem State.a0Write_moves (s : State) (p : Port) (addr : BitVec 7) (bs : List Byte) (stop : Bool) : Moves s (State.a0Write s p addr bs stop) := by
  unfold State.a0Write
  split
  · exact Moves_refl s
  · refine Moves_trans (State.a0Room_moves s p) ?_
    generalize s.a0Room p = t
    dsimp only
    repeat' split
    all_goals exact Moves_of (by simp [Keeps])
theorem State.a0Fetch_moves (p : Port) (r b : Nat) (s : State) (l : List Byte) : Moves s (State.a0Fetch p r b s l).1 := by
  induction r generalizing b s l with
  | zero => exact Moves_refl s
  | succ r ih =>
    unfold State.a0Fetch
    dsimp only
    refine Moves_trans ?_ (ih _ _ _)
    split
    · exact Moves_trans (State.afterRead_moves s _ _) (Moves_setPort _ p _)
    · exact State.afterRead_moves s _ _
theorem State.a0Flush_moves (s : State) (p : Port) : Moves s (State.a0Flush s p) :=
  Moves_trans (Moves_trans (State.twbExec_moves s p) (Moves_of (by simp [Keeps]))) (State.twbExec_moves _ p)
theorem State.a0Send_moves (s : State) (p : Port) (addr : BitVec 7) (lead : List Byte) (count : Nat) (stop : Bool) : Moves s (State.a0Send s p addr lead count stop) := by
  unfold State.a0Send
  dsimp only
  split
  · exact Moves_of (by simp [Keeps])
  · refine Moves_trans (Moves_trans (State.a0Flush_moves s p) ?_) (Moves_setPort _ p _)
    exact Moves_trans (Moves_setPort _ p _) (State.a0Fetch_moves p _ _ _ [])
theorem State.a0Read_moves (s : State) (p : Port) (addr : BitVec 7) (head : List Byte) (count : Nat) (stop : Bool) : Moves s (State.a0Read s p addr head count stop) := by
  unfold State.a0Read
  split
  · exact Moves_refl s
  · refine Moves_trans (State.a0Room_moves s p) ?_
    generalize s.a0Room p = t
    dsimp only
    split
    · exact State.a0Send_moves _ _ _ _ _ _
    · split
      · exact Moves_of (by simp [Keeps])
      · refine Moves_trans ?_ (State.a0Send_moves _ _ _ _ _ _)
        split <;> exact Moves_of (by simp [Keeps])

/-! ## WinRows -/

theorem State.resumeStart_moves (s : State) (x : Sub) : Moves s (s.resumeStart x) := by
  unfold State.resumeStart
  split
  · exact Moves_refl s
  · dsimp only
    split
    · exact Moves_trans (Moves_upd s ..) (foldl_moves _ (fun s a => State.polkaPass_moves s a) _ _)
    · exact Moves_trans (Moves_upd s ..) (foldl_moves _ (fun s a => Moves_of (State.setPhase_keeps s a _)) _ _)
@[simp] theorem State.grantStart_keeps (s : State) (x : Sub) (g : Grant) : Keeps s (State.grantStart s x g) := by
  simp [Keeps, State.grantStart]
@[simp] theorem State.grantWork_keeps (s : State) (x : Sub) (n : Nat) : Keeps s (State.grantWork s x n) := by
  unfold State.grantWork; (repeat' split) <;> simp [Keeps]
@[simp] theorem State.grantNote_keeps (s : State) (x : Sub) : Keeps s (State.grantNote s x) := by
  first
  | (simp [Keeps, State.grantNote]; done)
  | (unfold State.grantNote; (try dsimp only); (repeat' split) <;> simp [Keeps]; done)
@[simp] theorem State.maintGrant_keeps (s : State) (x : Sub) (ecs : List EcsRead) : Keeps s (State.maintGrant s x ecs) := by
  simp [Keeps, State.maintGrant]
@[simp] theorem State.lendGrant_keeps (s : State) (x : Sub) : Keeps s (State.lendGrant s x) := by
  simp [Keeps, State.lendGrant]
@[simp] theorem State.ecsOne_keeps (x : Sub) (s : State) (r : EcsRead) : Keeps s (State.ecsOne x s r) := by
  simp [Keeps, State.ecsOne]
@[simp] theorem State.ecsRead_keeps (s : State) (x : Sub) (ecs : List EcsRead) : Keeps s (State.ecsRead s x ecs) := by
  simp [Keeps, State.ecsRead]
@[simp] theorem State.grantCut_keeps (s : State) (x : Sub) : Keeps s (State.grantCut s x) := by
  simp [Keeps, State.grantCut]
@[simp] theorem State.handback_keeps (s : State) (x : Sub) : Keeps s (State.handback s x) := by
  unfold State.handback; (try dsimp only); (repeat' split) <;> simp [Keeps]
theorem State.winCommand_moves (s : State) (x : Sub) (cs : BitVec 4) (op : Byte) : Moves s (s.winCommand x cs op) := by
  unfold State.winCommand
  split
  · exact State.resumeStart_moves s x
  all_goals exact Moves_of (by simp [Keeps])
theorem State.winMrw_moves (s : State) (x : Sub) (c : HostCycle) : Moves s (s.winMrw x c) := by
  unfold State.winMrw
  split
  case h_7 => exact State.winCommand_moves s x _ _
  all_goals exact Moves_of (by simp [Keeps])
@[simp] theorem State.winMrr_keeps (s : State) (x : Sub) (c : HostCycle) : Keeps s (s.winMrr x c) := by
  unfold State.winMrr
  split <;> simp [Keeps]
theorem State.obey_moves (s : State) (x : Sub) (c : HostCycle) : Moves s (s.obey x c) := by
  unfold State.obey
  dsimp only
  repeat' split
  · exact Moves_trans (Moves_of (State.hold_keeps s x)) (State.winMrw_moves _ x c)
  · exact Moves_trans (Moves_of (State.hold_keeps s x)) (Moves_of (State.winMrr_keeps _ x c))
  all_goals exact Moves_of (by simp [Keeps])
theorem State.hostCommand_moves (s : State) (x : Sub) (c : HostCycle) : Moves s (s.hostCommand x c) := by
  unfold State.hostCommand
  have pe : ∀ b : Bool, ∀ t : State, Moves t (if b then t.parityError x else t) := fun b t => by
    cases b
    · exact Moves_refl t
    · exact Moves_of (State.parityError_keeps t x)
  split
  · exact Moves_refl s
  · split
    · exact Moves_of (State.hold_keeps s x)
    · dsimp only
      refine Moves_trans (Moves_trans ?_ (pe _ _)) (pe _ _)
      split
      · exact Moves_of (State.hold_keeps s x)
      · exact State.obey_moves s x c

/-! ## NvsRows -/

@[simp] theorem State.budget_keeps (s : State) (r : Nat) : Keeps s (State.budget s r) := by
  simp [Keeps, State.budget]
@[simp] theorem State.commitBegin_keeps (s : State) (r : Nat) : Keeps s (State.commitBegin s r) := by
  simp [Keeps, State.commitBegin]
@[simp] theorem State.commitStart_keeps (s : State) : Keeps s (State.commitStart s) := by
  unfold State.commitStart; (try dsimp only); (repeat' split) <;> simp [Keeps]
@[simp] theorem State.commitStore_keeps (s : State) (c : Commit) : Keeps s (State.commitStore s c) := by
  unfold State.commitStore; (try dsimp only); (repeat' split) <;> simp [Keeps]
@[simp] theorem State.recStored_keeps (s : State) (c : Commit) : Keeps s (State.recStored s c) := by
  unfold State.recStored; (try dsimp only); (repeat' split) <;> simp [Keeps]
@[simp] theorem State.commitFree_keeps (s : State) : Keeps s (State.commitFree s) := by
  simp [Keeps, State.commitFree]
@[simp] theorem State.commitGood_keeps (s : State) (c : Commit) : Keeps s (State.commitGood s c) := by
  simp [Keeps, State.commitGood]
@[simp] theorem State.commitBad_keeps (s : State) (c : Commit) : Keeps s (State.commitBad s c) := by
  simp [Keeps, State.commitBad]
@[simp] theorem State.commitEnd_keeps (s : State) (verified : Bool) : Keeps s (State.commitEnd s verified) := by
  unfold State.commitEnd; (try dsimp only); (repeat' split) <;> simp [Keeps]
@[simp] theorem State.imgGood_keeps (s : State) (body : List Byte) : Keeps s (State.imgGood s body) := by
  simp [Keeps, State.imgGood]
@[simp] theorem State.imgEnd_keeps (s : State) (verified : Bool) : Keeps s (State.imgEnd s verified) := by
  unfold State.imgEnd; (try dsimp only); (repeat' split) <;> simp [Keeps]

/-! ## ConCmd -/

@[simp] theorem State.conAgain_keeps (s : State) (rq : Req) : Keeps s (s.conAgain rq) := by simp [Keeps, State.conAgain]
@[simp] theorem State.conBusy_keeps (s : State) (x : Sess) (nn : Option (BitVec 8)) (why : Text) : Keeps s (s.conBusy x nn why) := by
  unfold State.conBusy; simp [Keeps]
/-- `Moves` as a definition, which unification does not look into. -/
def Mv (s t : State) : Prop := Moves s t
theorem Mv_refl (s : State) : Mv s s := Moves_refl s
theorem Mv_trans {s t u : State} (h1 : Mv s t) (h2 : Mv t u) : Mv s u := Moves_trans h1 h2
theorem Mv_of {s t : State} (h : Keeps s t) : Mv s t := Moves_of h
theorem Mv_in {s t : State} (h : Moves s t) : Mv s t := h
theorem State.conRun_moves (s : State) (rq : Req) (w o : Bool) (pre post : Option Text) (act : State → State)
    (h : ∀ t, Mv t (act t)) : Mv s (s.conRun rq w o pre post act) := by
  unfold State.conRun
  have h0 : ∀ q : Pool, Mv s { s with pool := q } := fun q => Moves_upd s ..
  split
  · exact Mv_refl s
  · split
    · exact Mv_of (State.conAgain_keeps s rq)
    · dsimp only
      refine Mv_trans (h0 (s.pool.claim .con).1) ?_
      generalize ({ s with pool := (s.pool.claim .con).1 } : State) = t
      split
      · exact Mv_of (State.respondErr_keeps t _ _)
      · split
        · exact Mv_of (State.respondErr_keeps t _ _)
        · exact Mv_of (State.conBusy_keeps t _ _ _)
      · split
        · exact h t
        · exact Mv_of (State.conBusy_keeps t _ _ _)
theorem respondData_mv (s : State) (rq : Req) (l : List Text) : Mv s (s.respondData rq l) := Mv_of (State.respondData_keeps s rq l)
theorem respondOk_mv (s : State) (rq : Req) (l : Text) : Mv s (s.respondOk rq l) := Mv_of (State.respondOk_keeps s rq l)
theorem respondErr_mv (s : State) (rq : Req) (l : Text) : Mv s (s.respondErr rq l) := Mv_of (State.respondErr_keeps s rq l)
theorem respond_mv (s : State) (rq : Req) (d : List Text) (l : Text) (e : Option Ending) : Mv s (s.respond rq d l e) := Mv_of (State.respond_keeps s rq d l e)
theorem conHold_mv (s : State) (e : ExecSt) : Mv s (s.conHold e) := Mv_of (State.conHold_keeps s e)
theorem hubWrite_mv (s : State) (p : Path) (a : Addr) (v : Word) : Mv s (s.hubWrite p a v) := State.hubWrite_moves s p a v
theorem State.conSyntax_moves (s : State) (rq : Req) (t : Text) : Mv s (s.conSyntax rq t) :=
  State.conRun_moves s rq _ _ _ _ _ Mv_refl
theorem State.conData_moves (rq : Req) (f : State → List Text) (s : State) : Mv s (State.conData rq f s) :=
  Mv_of (State.respondData_keeps s rq _)
theorem State.conReads_moves (as : List Nat) (s : State) : Mv s (State.conReads as s) :=
  foldl_moves _ (fun s a => State.afterRead_moves s _ _) as s
theorem State.conWrites_moves (rq : Req) (done : State → State) (h : ∀ t, Mv t (done t)) (ws : List (Nat × Word)) (s : State) :
    Mv s (State.conWrites rq done ws s) := by
  induction ws generalizing s with
  | nil => exact h s
  | cons a r ih =>
    obtain ⟨a, v⟩ := a
    unfold State.conWrites
    dsimp only
    split
    · split
      · exact Mv_trans (Mv_trans (Mv_in (State.hubWrite_moves s _ _ _)) (Mv_in (State.afterRead_moves _ _ _))) (ih _)
      · exact Mv_of (State.respondErr_keeps s _ _)
    · exact Mv_of (State.respondErr_keeps s _ _)
theorem State.conOk_moves (rq : Req) (t : Text) (s : State) : Mv s (State.conOk rq t s) := Mv_of (State.respondOk_keeps s rq t)
theorem State.selBack_moves (old s : State) : Mv s (State.selBack old s) := Mv_of (State.setSel_keeps s _ _)
theorem State.cmdHelp_moves (s : State) (rq : Req) (ws : List Text) : Mv s (State.cmdHelp s rq ws) := by
  unfold State.cmdHelp
  repeat' (first
    | with_reducible exact State.conSyntax_moves _ _ _
    | with_reducible exact respondData_mv _ _ _
    | with_reducible refine State.conRun_moves _ _ _ _ _ _ _ (fun _ => ?_)
    | split)
theorem State.cmdId_moves (s : State) (rq : Req) : Mv s (State.cmdId s rq) := by
  unfold State.cmdId
  repeat' (first
    | with_reducible exact State.conData_moves _ _ _
    | with_reducible refine State.conRun_moves _ _ _ _ _ _ _ (fun _ => ?_))
theorem State.peekLines_moves (n a : Nat) (s : State) : Mv s (State.peekLines n a s).1 := by
  induction n generalizing a s with
  | zero => exact Mv_refl s
  | succ n ih => exact Mv_trans (Mv_in (State.afterRead_moves s _ _)) (ih _ _)
theorem State.cmdPeek_moves (s : State) (rq : Req) (a : Addr) (n : Nat) : Mv s (State.cmdPeek s rq a n) := by
  unfold State.cmdPeek
  repeat' (first
    | with_reducible exact State.conSyntax_moves _ _ _
    | with_reducible refine State.conRun_moves _ _ _ _ _ _ _ (fun _ => ?_)
    | (with_reducible refine Mv_trans ?_ (respondData_mv _ _ _))
    | with_reducible exact State.peekLines_moves _ _ _
    | split
    | dsimp only)
theorem State.cmdPoke_moves (s : State) (rq : Req) (a : Addr) (v : Word) : Mv s (State.cmdPoke s rq a v) := by
  unfold State.cmdPoke
  repeat' (first
    | with_reducible exact State.conSyntax_moves _ _ _
    | with_reducible refine State.conRun_moves _ _ _ _ _ _ _ (fun _ => ?_)
    | (with_reducible refine Mv_trans ?_ (respondOk_mv _ _ _))
    | with_reducible exact hubWrite_mv _ _ _ _
    | split)
theorem State.dbReads_moves (ns : List Nat) (s : State) : Mv s (State.dbReads ns s) :=
  foldl_moves _ (fun s n => Mv_trans (Mv_of (State.setSel_keeps s _ _)) (State.conReads_moves _ _)) ns s
theorem State.cmdShow_moves (s : State) (rq : Req) (what : ShowWhat) : Mv s (State.cmdShow s rq what) := by
  unfold State.cmdShow
  repeat' (first
    | with_reducible exact State.conData_moves _ _ _
    | with_reducible refine State.conRun_moves _ _ _ _ _ _ _ (fun _ => ?_)
    | (with_reducible refine Mv_trans ?_ (respondData_mv _ _ _))
    | with_reducible exact Mv_trans (State.dbReads_moves _ _) (State.selBack_moves _ _)
    | split)
theorem State.cmdModeMachine_moves (s : State) (rq : Req) : Mv s (State.cmdModeMachine s rq) := by
  unfold State.cmdModeMachine
  repeat' (first
    | with_reducible exact respond_mv _ _ _ _ _
    | with_reducible refine State.conRun_moves _ _ _ _ _ _ _ (fun _ => ?_))
theorem State.cmdModeTyped_moves (s : State) (rq : Req) : Mv s (State.cmdModeTyped s rq) := by
  unfold State.cmdModeTyped
  repeat' (first
    | with_reducible exact respond_mv _ _ _ _ _
    | with_reducible refine State.conRun_moves _ _ _ _ _ _ _ (fun _ => ?_))
theorem State.cmdBaud_moves (s : State) (rq : Req) (rate : Nat) : Mv s (State.cmdBaud s rq rate) := by
  unfold State.cmdBaud
  repeat' (first
    | with_reducible exact respond_mv _ _ _ _ _
    | with_reducible refine State.conRun_moves _ _ _ _ _ _ _ (fun _ => ?_))
theorem State.unlockGrant_moves (s : State) (x : Sess) : Mv s (s.unlockGrant x) :=
  Mv_of (by simp [Keeps, State.unlockGrant])
theorem State.unlockWrong_moves (s : State) : Mv s s.unlockWrong := Moves_upd s ..
theorem State.cmdUnlock_moves (s : State) (rq : Req) (code : Text) : Mv s (State.cmdUnlock s rq code) := by
  unfold State.cmdUnlock
  refine State.conRun_moves _ _ _ _ _ _ _ (fun u => ?_)
  cases u.codeRight code
  · exact Mv_trans (State.unlockWrong_moves u) (respondErr_mv _ _ _)
  · cases u.con.lockout
    · exact Mv_trans (State.unlockGrant_moves u _) (respondOk_mv _ _ _)
    · exact respondErr_mv u _ _
theorem State.cmdServiceLock_moves (s : State) (rq : Req) : Mv s (State.cmdServiceLock s rq) := by
  unfold State.cmdServiceLock
  repeat' (first
    | with_reducible exact respond_mv _ _ _ _ _
    | with_reducible refine State.conRun_moves _ _ _ _ _ _ _ (fun _ => ?_))
theorem State.cmdServiceStatus_moves (s : State) (rq : Req) : Mv s (State.cmdServiceStatus s rq) := by
  unfold State.cmdServiceStatus
  repeat' (first
    | with_reducible exact State.conData_moves _ _ _
    | with_reducible refine State.conRun_moves _ _ _ _ _ _ _ (fun _ => ?_))
theorem State.cmdFeatureShow_moves (s : State) (rq : Req) : Mv s (State.cmdFeatureShow s rq) := by
  unfold State.cmdFeatureShow
  repeat' (first
    | with_reducible exact State.conData_moves _ _ _
    | with_reducible refine State.conRun_moves _ _ _ _ _ _ _ (fun _ => ?_))
theorem State.cmdFeatureAccept_moves (s : State) (rq : Req) (mask : Nat) : Mv s (State.cmdFeatureAccept s rq mask) := by
  unfold State.cmdFeatureAccept
  repeat' (first
    | with_reducible exact State.conOk_moves _ _ _
    | with_reducible refine State.conRun_moves _ _ _ _ _ _ _ (fun _ => ?_)
    | with_reducible refine State.conWrites_moves _ _ (fun _ => ?_) _ _)
theorem State.cmdFeatureLock_moves (s : State) (rq : Req) : Mv s (State.cmdFeatureLock s rq) := by
  unfold State.cmdFeatureLock
  repeat' (first
    | with_reducible exact conHold_mv _ _
    | with_reducible refine State.conRun_moves _ _ _ _ _ _ _ (fun _ => ?_)
    | with_reducible refine State.conWrites_moves _ _ (fun _ => ?_) _ _)
theorem State.cmdFeatureDeadline_moves (s : State) (rq : Req) (tenths : Nat) : Mv s (State.cmdFeatureDeadline s rq tenths) := by
  unfold State.cmdFeatureDeadline
  repeat' (first
    | with_reducible exact State.conOk_moves _ _ _
    | with_reducible refine State.conRun_moves _ _ _ _ _ _ _ (fun _ => ?_)
    | with_reducible refine State.conWrites_moves _ _ (fun _ => ?_) _ _)
theorem State.cmdTimeShow_moves (s : State) (rq : Req) : Mv s (State.cmdTimeShow s rq) := by
  unfold State.cmdTimeShow
  repeat' (first
    | with_reducible exact State.conData_moves _ _ _
    | with_reducible refine State.conRun_moves _ _ _ _ _ _ _ (fun _ => ?_))
theorem State.cmdTimeSet_moves (s : State) (rq : Req) (t : Civil) : Mv s (State.cmdTimeSet s rq t) := by
  unfold State.cmdTimeSet
  repeat' (first
    | with_reducible exact State.conOk_moves _ _ _
    | with_reducible refine State.conRun_moves _ _ _ _ _ _ _ (fun _ => ?_)
    | with_reducible refine State.conWrites_moves _ _ (fun _ => ?_) _ _)
theorem State.cmdTimeClear_moves (s : State) (rq : Req) : Mv s (State.cmdTimeClear s rq) := by
  unfold State.cmdTimeClear
  repeat' (first
    | with_reducible exact State.conOk_moves _ _ _
    | with_reducible refine State.conRun_moves _ _ _ _ _ _ _ (fun _ => ?_)
    | with_reducible refine State.conWrites_moves _ _ (fun _ => ?_) _ _)
theorem State.cmdClockShow_moves (s : State) (rq : Req) : Mv s (State.cmdClockShow s rq) := by
  unfold State.cmdClockShow
  repeat' (first
    | with_reducible exact State.conData_moves _ _ _
    | with_reducible refine State.conRun_moves _ _ _ _ _ _ _ (fun _ => ?_))
theorem State.cmdPower_moves (s : State) (rq : Req) (faults : Bool) : Mv s (State.cmdPower s rq faults) := by
  unfold State.cmdPower
  repeat' (first
    | with_reducible exact State.conData_moves _ _ _
    | with_reducible refine State.conRun_moves _ _ _ _ _ _ _ (fun _ => ?_))
theorem State.cmdPowerClear_moves (s : State) (rq : Req) (mask : BitVec 5) : Mv s (State.cmdPowerClear s rq mask) := by
  unfold State.cmdPowerClear
  repeat' (first
    | with_reducible exact State.conOk_moves _ _ _
    | with_reducible refine State.conRun_moves _ _ _ _ _ _ _ (fun _ => ?_)
    | with_reducible refine State.conWrites_moves _ _ (fun _ => ?_) _ _)
theorem State.cmdMaintShow_moves (s : State) (rq : Req) : Mv s (State.cmdMaintShow s rq) := by
  unfold State.cmdMaintShow
  repeat' (first
    | with_reducible exact State.conData_moves _ _ _
    | with_reducible refine State.conRun_moves _ _ _ _ _ _ _ (fun _ => ?_))
theorem State.cmdResetMgmt_moves (s : State) (rq : Req) : Mv s (State.cmdResetMgmt s rq) := by
  unfold State.cmdResetMgmt
  repeat' (first
    | with_reducible exact respond_mv _ _ _ _ _
    | with_reducible refine State.conRun_moves _ _ _ _ _ _ _ (fun _ => ?_))
theorem State.cmdResetUnit_moves (s : State) (rq : Req) (u : UnitName) : Mv s (State.cmdResetUnit s rq u) := by
  unfold State.cmdResetUnit
  repeat' (first
    | with_reducible exact State.conOk_moves _ _ _
    | with_reducible exact respond_mv _ _ _ _ _
    | with_reducible refine State.conRun_moves _ _ _ _ _ _ _ (fun _ => ?_)
    | with_reducible refine State.conWrites_moves _ _ (fun _ => ?_) _ _
    | split)
theorem State.cmdTrimShow_moves (s : State) (rq : Req) : Mv s (State.cmdTrimShow s rq) := by
  unfold State.cmdTrimShow
  repeat' (first
    | with_reducible exact State.conData_moves _ _ _
    | with_reducible refine State.conRun_moves _ _ _ _ _ _ _ (fun _ => ?_))
theorem State.cmdTrimPause_moves (s : State) (rq : Req) (pause : Bool) : Mv s (State.cmdTrimPause s rq pause) := by
  unfold State.cmdTrimPause
  repeat' (first
    | with_reducible exact State.conOk_moves _ _ _
    | with_reducible refine State.conRun_moves _ _ _ _ _ _ _ (fun _ => ?_)
    | with_reducible refine State.conWrites_moves _ _ (fun _ => ?_) _ _)
theorem State.cmdTrainShow_moves (s : State) (rq : Req) : Mv s (State.cmdTrainShow s rq) := by
  unfold State.cmdTrainShow
  repeat' (first
    | with_reducible exact State.conData_moves _ _ _
    | with_reducible refine State.conRun_moves _ _ _ _ _ _ _ (fun _ => ?_))
theorem State.cmdTrainMaint_moves (s : State) (rq : Req) (x : Sub) (rank : Nat) : Mv s (State.cmdTrainMaint s rq x rank) := by
  unfold State.cmdTrainMaint
  repeat' (first
    | with_reducible refine State.conRun_moves _ _ _ _ _ _ _ (fun _ => ?_)
    | (with_reducible refine Mv_trans ?_ (respondOk_mv _ _ _))
    | with_reducible exact Mv_of (State.wantRanks_keeps _ _ _))
theorem State.cmdTrainSave_moves (s : State) (rq : Req) (save : Bool) : Mv s (State.cmdTrainSave s rq save) := by
  unfold State.cmdTrainSave
  repeat' (first
    | with_reducible exact State.conOk_moves _ _ _
    | with_reducible refine State.conRun_moves _ _ _ _ _ _ _ (fun _ => ?_)
    | with_reducible refine State.conWrites_moves _ _ (fun _ => ?_) _ _)
theorem State.cmdCalShow_moves (s : State) (rq : Req) : Mv s (State.cmdCalShow s rq) := by
  unfold State.cmdCalShow
  repeat' (first
    | with_reducible exact State.conData_moves _ _ _
    | with_reducible refine State.conRun_moves _ _ _ _ _ _ _ (fun _ => ?_))
theorem State.cmdCalRun_moves (s : State) (rq : Req) (vref : Bool) (unit : Option Nat) : Mv s (State.cmdCalRun s rq vref unit) := by
  unfold State.cmdCalRun
  repeat' (first
    | with_reducible exact respond_mv _ _ _ _ _
    | with_reducible exact conHold_mv _ _
    | with_reducible refine State.conRun_moves _ _ _ _ _ _ _ (fun _ => ?_)
    | with_reducible refine State.conWrites_moves _ _ (fun _ => ?_) _ _
    | split
    | dsimp only)
theorem State.cmdCalAdc_moves (s : State) (rq : Req) (mv : Nat) : Mv s (State.cmdCalAdc s rq mv) := by
  unfold State.cmdCalAdc
  repeat' (first
    | with_reducible exact conHold_mv _ _
    | with_reducible refine State.conRun_moves _ _ _ _ _ _ _ (fun _ => ?_)
    | with_reducible refine State.conWrites_moves _ _ (fun _ => ?_) _ _)
theorem State.cmdKeepStatus_moves (s : State) (rq : Req) : Mv s (State.cmdKeepStatus s rq) := by
  unfold State.cmdKeepStatus
  repeat' (first
    | with_reducible refine State.conRun_moves _ _ _ _ _ _ _ (fun _ => ?_)
    | (with_reducible refine Mv_trans ?_ (respondData_mv _ _ _))
    | with_reducible exact State.conReads_moves _ _)
theorem State.cmdKeepSpan_moves (s : State) (rq : Req) (reserve : Bool) (v : Nat) : Mv s (State.cmdKeepSpan s rq reserve v) := by
  unfold State.cmdKeepSpan
  repeat' (first
    | with_reducible exact State.conOk_moves _ _ _
    | with_reducible refine State.conRun_moves _ _ _ _ _ _ _ (fun _ => ?_)
    | with_reducible refine State.conWrites_moves _ _ (fun _ => ?_) _ _)
theorem State.cmdKeepCharge_moves (s : State) (rq : Req) (cfg : Option (Nat × Nat)) : Mv s (State.cmdKeepCharge s rq cfg) := by
  unfold State.cmdKeepCharge
  repeat' (first
    | with_reducible exact State.conOk_moves _ _ _
    | with_reducible refine State.conRun_moves _ _ _ _ _ _ _ (fun _ => ?_)
    | with_reducible refine State.conWrites_moves _ _ (fun _ => ?_) _ _)
theorem State.cmdKeepPack_moves (s : State) (rq : Req) (c : Nat) : Mv s (State.cmdKeepPack s rq c) := by
  unfold State.cmdKeepPack
  repeat' (first
    | with_reducible exact State.conOk_moves _ _ _
    | with_reducible refine State.conRun_moves _ _ _ _ _ _ _ (fun _ => ?_)
    | with_reducible refine State.conWrites_moves _ _ (fun _ => ?_) _ _)
theorem State.cmdHoardStatus_moves (s : State) (rq : Req) (map : Bool) : Mv s (State.cmdHoardStatus s rq map) := by
  unfold State.cmdHoardStatus
  repeat' (first
    | with_reducible exact State.conData_moves _ _ _
    | with_reducible refine State.conRun_moves _ _ _ _ _ _ _ (fun _ => ?_))
theorem State.extentOn_moves (rq : Req) (i : Nat) (x : ExtArg) (old : State) (s : State) : Mv s (State.extentOn rq i x old s) := by
  unfold State.extentOn
  dsimp only
  have h : ∀ b : Bool, ∀ u x y, Mv s u → Mv s (if b = true then u.respondOk rq x else u.respondErr rq y) := fun b u x y h => by
    cases b
    · exact Mv_trans h (respondErr_mv _ _ _)
    · exact Mv_trans h (respondOk_mv _ _ _)
  exact h _ _ _ _ (Mv_trans (hubWrite_mv s _ _ _) (State.selBack_moves old _))
theorem State.cmdHoardExtent_moves (s : State) (rq : Req) (i : Nat) (x : Option ExtArg) : Mv s (State.cmdHoardExtent s rq i x) := by
  unfold State.cmdHoardExtent
  repeat' (first
    | with_reducible refine State.conRun_moves _ _ _ _ _ _ _ (fun _ => ?_)
    | with_reducible refine State.conWrites_moves _ _ (fun _ => ?_) _ _
    | (with_reducible refine Mv_trans ?_ (respondOk_mv _ _ _))
    | with_reducible exact State.selBack_moves _ _
    | with_reducible exact State.extentOn_moves _ _ _ _ _
    | split)
theorem State.cmdHoardLend_moves (s : State) (rq : Req) (on : Bool) : Mv s (State.cmdHoardLend s rq on) := by
  unfold State.cmdHoardLend
  repeat' (first
    | with_reducible exact State.conOk_moves _ _ _
    | with_reducible refine State.conRun_moves _ _ _ _ _ _ _ (fun _ => ?_)
    | with_reducible refine State.conWrites_moves _ _ (fun _ => ?_) _ _)
theorem State.cmdHoardDiscard_moves (s : State) (rq : Req) : Mv s (State.cmdHoardDiscard s rq) := by
  unfold State.cmdHoardDiscard
  repeat' (first
    | with_reducible exact State.conOk_moves _ _ _
    | with_reducible refine State.conRun_moves _ _ _ _ _ _ _ (fun _ => ?_)
    | with_reducible refine State.conWrites_moves _ _ (fun _ => ?_) _ _)
theorem State.cmdFaultList_moves (s : State) (rq : Req) (sel : Option (Fin 6 × Nat)) : Mv s (State.cmdFaultList s rq sel) := by
  unfold State.cmdFaultList
  repeat' (first
    | with_reducible exact State.conData_moves _ _ _
    | with_reducible refine State.conRun_moves _ _ _ _ _ _ _ (fun _ => ?_)
    | split)
theorem State.cmdFaultCfg_moves (s : State) (rq : Req) (c : Fin 6) (window thresh : Nat) (act : Option (BitVec 5)) : Mv s (State.cmdFaultCfg s rq c window thresh act) := by
  unfold State.cmdFaultCfg
  repeat' (first
    | with_reducible exact State.conOk_moves _ _ _
    | with_reducible refine State.conRun_moves _ _ _ _ _ _ _ (fun _ => ?_)
    | with_reducible refine State.conWrites_moves _ _ (fun _ => ?_) _ _)
theorem State.fltWrites_moves (rq : Req) (sel : Option Word) (key : Word) (t : Text) (old : State) : Mv old (State.fltWrites rq sel key t old) := by
  unfold State.fltWrites
  repeat' (first
    | with_reducible refine State.conWrites_moves _ _ (fun _ => ?_) _ _
    | (with_reducible refine Mv_trans ?_ (respondOk_mv _ _ _))
    | with_reducible exact State.selBack_moves _ _)
theorem State.cmdFaultClear_moves (s : State) (rq : Req) (sel : Option (Fin 6 × Option Nat)) : Mv s (State.cmdFaultClear s rq sel) := by
  unfold State.cmdFaultClear
  repeat' (first
    | with_reducible refine State.conRun_moves _ _ _ _ _ _ _ (fun _ => ?_)
    | with_reducible exact State.fltWrites_moves _ _ _ _ _
    | split)
theorem State.cmdFaultRepair_moves (s : State) (rq : Req) (forget : Bool) (n : Nat) : Mv s (State.cmdFaultRepair s rq forget n) := by
  unfold State.cmdFaultRepair
  repeat' (first
    | with_reducible refine State.conRun_moves _ _ _ _ _ _ _ (fun _ => ?_)
    | with_reducible exact State.fltWrites_moves _ _ _ _ _
    | split)
theorem State.cmdPackTest_moves (s : State) (rq : Req) : Mv s (State.cmdPackTest s rq) := by
  unfold State.cmdPackTest
  repeat' (first
    | with_reducible refine State.conRun_moves _ _ _ _ _ _ _ (fun _ => ?_)
    | with_reducible exact State.fltWrites_moves _ _ _ _ _)
theorem State.cmdEventShow_moves (s : State) (rq : Req) (n : Option Nat) : Mv s (State.cmdEventShow s rq n) := by
  unfold State.cmdEventShow
  repeat' (first
    | with_reducible exact State.conData_moves _ _ _
    | with_reducible refine State.conRun_moves _ _ _ _ _ _ _ (fun _ => ?_))
theorem State.srcWrite_moves (rq : Req) (n : Nat) (cfg : BitVec 6 → Nat) (s : State) : Mv s (State.srcWrite rq n cfg s) := by
  unfold State.srcWrite
  repeat' (first
    | with_reducible exact State.conOk_moves _ _ _
    | with_reducible refine State.conWrites_moves _ _ (fun _ => ?_) _ _)
theorem State.cmdEventEnable_moves (s : State) (rq : Req) (n : Nat) (on : Bool) : Mv s (State.cmdEventEnable s rq n on) := by
  unfold State.cmdEventEnable
  repeat' (first
    | with_reducible refine State.conRun_moves _ _ _ _ _ _ _ (fun _ => ?_)
    | with_reducible exact State.srcWrite_moves _ _ _ _)
theorem State.cmdEventRoute_moves (s : State) (rq : Req) (n : Nat) (routes : BitVec 5) : Mv s (State.cmdEventRoute s rq n routes) := by
  unfold State.cmdEventRoute
  repeat' (first
    | with_reducible refine State.conRun_moves _ _ _ _ _ _ _ (fun _ => ?_)
    | with_reducible exact State.srcWrite_moves _ _ _ _)
theorem State.cmdEventClear_moves (s : State) (rq : Req) (n : Option Nat) : Mv s (State.cmdEventClear s rq n) := by
  unfold State.cmdEventClear
  repeat' (first
    | with_reducible exact State.conOk_moves _ _ _
    | with_reducible refine State.conRun_moves _ _ _ _ _ _ _ (fun _ => ?_)
    | with_reducible refine State.conWrites_moves _ _ (fun _ => ?_) _ _)
theorem State.cmdEventRaise_moves (s : State) (rq : Req) (arg : Nat) : Mv s (State.cmdEventRaise s rq arg) := by
  unfold State.cmdEventRaise
  repeat' (first
    | with_reducible exact State.conOk_moves _ _ _
    | with_reducible refine State.conRun_moves _ _ _ _ _ _ _ (fun _ => ?_)
    | with_reducible refine State.conWrites_moves _ _ (fun _ => ?_) _ _)
theorem State.cmdLog_moves (s : State) (rq : Req) (g : Ring) (start : Option Nat) (k : Nat) : Mv s (State.cmdLog s rq g start k) := by
  unfold State.cmdLog
  repeat' (first
    | with_reducible exact State.conData_moves _ _ _
    | with_reducible refine State.conRun_moves _ _ _ _ _ _ _ (fun _ => ?_))
theorem State.cmdNvsShow_moves (s : State) (rq : Req) : Mv s (State.cmdNvsShow s rq) := by
  unfold State.cmdNvsShow
  repeat' (first
    | with_reducible exact State.conData_moves _ _ _
    | with_reducible refine State.conRun_moves _ _ _ _ _ _ _ (fun _ => ?_))
theorem State.cmdNvsCommit_moves (s : State) (rq : Req) : Mv s (State.cmdNvsCommit s rq) := by
  unfold State.cmdNvsCommit
  repeat' (first
    | with_reducible exact respondOk_mv _ _ _
    | with_reducible exact conHold_mv _ _
    | with_reducible refine State.conRun_moves _ _ _ _ _ _ _ (fun _ => ?_)
    | with_reducible refine State.conWrites_moves _ _ (fun _ => ?_) _ _
    | split
    | dsimp only)
theorem State.cmdImageStart_moves (s : State) (rq : Req) (kib crc : Nat) : Mv s (State.cmdImageStart s rq kib crc) := by
  unfold State.cmdImageStart
  repeat' (first
    | with_reducible exact State.conOk_moves _ _ _
    | with_reducible refine State.conRun_moves _ _ _ _ _ _ _ (fun _ => ?_)
    | with_reducible refine State.conWrites_moves _ _ (fun _ => ?_) _ _)
theorem State.cmdImageData_moves (s : State) (rq : Req) (bs : List Byte) : Mv s (State.cmdImageData s rq bs) := by
  unfold State.cmdImageData
  repeat' (first
    | with_reducible exact State.conSyntax_moves _ _ _
    | with_reducible exact respondOk_mv _ _ _
    | with_reducible refine State.conRun_moves _ _ _ _ _ _ _ (fun _ => ?_)
    | with_reducible refine State.conWrites_moves _ _ (fun _ => ?_) _ _
    | split)
theorem State.cmdImageAbort_moves (s : State) (rq : Req) : Mv s (State.cmdImageAbort s rq) := by
  unfold State.cmdImageAbort
  repeat' (first
    | with_reducible exact State.conOk_moves _ _ _
    | with_reducible refine State.conRun_moves _ _ _ _ _ _ _ (fun _ => ?_)
    | with_reducible refine State.conWrites_moves _ _ (fun _ => ?_) _ _)
theorem State.cmdImageStatus_moves (s : State) (rq : Req) : Mv s (State.cmdImageStatus s rq) := by
  unfold State.cmdImageStatus
  repeat' (first
    | with_reducible exact State.conData_moves _ _ _
    | with_reducible refine State.conRun_moves _ _ _ _ _ _ _ (fun _ => ?_))
theorem State.runCmd_moves (s : State) (rq : Req) (c : ConCmd) : Mv s (s.runCmd rq c) :=
  match c with
  | .help ws => State.cmdHelp_moves s rq ws
  | .id => State.cmdId_moves s rq
  | .featureShow => State.cmdFeatureShow_moves s rq
  | .featureAccept m => State.cmdFeatureAccept_moves s rq m
  | .featureLock => State.cmdFeatureLock_moves s rq
  | .featureDeadline n => State.cmdFeatureDeadline_moves s rq n
  | .peek a n => State.cmdPeek_moves s rq a n
  | .poke a v => State.cmdPoke_moves s rq a v
  | .show w => State.cmdShow_moves s rq w
  | .modeMachine => State.cmdModeMachine_moves s rq
  | .modeTyped => State.cmdModeTyped_moves s rq
  | .baud r => State.cmdBaud_moves s rq r
  | .serviceUnlock c => State.cmdUnlock_moves s rq c
  | .serviceLock => State.cmdServiceLock_moves s rq
  | .serviceStatus => State.cmdServiceStatus_moves s rq
  | .timeShow => State.cmdTimeShow_moves s rq
  | .timeSet t => State.cmdTimeSet_moves s rq t
  | .timeClear => State.cmdTimeClear_moves s rq
  | .trimShow => State.cmdTrimShow_moves s rq
  | .trimPause p => State.cmdTrimPause_moves s rq p
  | .trainShow => State.cmdTrainShow_moves s rq
  | .trainMaint x r => State.cmdTrainMaint_moves s rq x r
  | .trainSave b => State.cmdTrainSave_moves s rq b
  | .calShow => State.cmdCalShow_moves s rq
  | .calRun v u => State.cmdCalRun_moves s rq v u
  | .calAdcRef mv => State.cmdCalAdc_moves s rq mv
  | .keepStatus => State.cmdKeepStatus_moves s rq
  | .keepSpan r v => State.cmdKeepSpan_moves s rq r v
  | .keepCharge c => State.cmdKeepCharge_moves s rq c
  | .keepPack c => State.cmdKeepPack_moves s rq c
  | .hoardStatus m => State.cmdHoardStatus_moves s rq m
  | .hoardExtent i x => State.cmdHoardExtent_moves s rq i x
  | .hoardLend on => State.cmdHoardLend_moves s rq on
  | .hoardDiscard => State.cmdHoardDiscard_moves s rq
  | .faultList sel => State.cmdFaultList_moves s rq sel
  | .faultCfg c w t a => State.cmdFaultCfg_moves s rq c w t a
  | .faultClear sel => State.cmdFaultClear_moves s rq sel
  | .faultRepair f n => State.cmdFaultRepair_moves s rq f n
  | .faultPackTest => State.cmdPackTest_moves s rq
  | .eventShow n => State.cmdEventShow_moves s rq n
  | .eventEnable n on => State.cmdEventEnable_moves s rq n on
  | .eventRoute n r => State.cmdEventRoute_moves s rq n r
  | .eventClear n => State.cmdEventClear_moves s rq n
  | .eventRaise a => State.cmdEventRaise_moves s rq a
  | .log g st k => State.cmdLog_moves s rq g st k
  | .nvsShow => State.cmdNvsShow_moves s rq
  | .nvsCommit => State.cmdNvsCommit_moves s rq
  | .nvsImageStart k c => State.cmdImageStart_moves s rq k c
  | .nvsImageData bs => State.cmdImageData_moves s rq bs
  | .nvsImageAbort => State.cmdImageAbort_moves s rq
  | .nvsImageStatus => State.cmdImageStatus_moves s rq
  | .clockShow => State.cmdClockShow_moves s rq
  | .powerDomains f => State.cmdPower_moves s rq f
  | .powerClear m => State.cmdPowerClear_moves s rq m
  | .maintShow => State.cmdMaintShow_moves s rq
  | .resetMgmt => State.cmdResetMgmt_moves s rq
  | .resetUnit u => State.cmdResetUnit_moves s rq u

end Sys2Proof.Machine
end

