-- ==== Sys2Proof/Laws/KeepsExec.lean ====
section
/-! SUPPORT. Toward the invariant of the power domains (R67, R207): every command answers a next state of the same module with a legal combination of domains. -/

namespace Sys2Proof.Machine

/-! ## ConRows -/

theorem setPort_mv (s : State) (p : Port) (f : TwbPort → TwbPort) : Mv s (s.setPort p f) := Moves_setPort s p f
theorem setSes_mv (s : State) (x : Sess) (f : SessSt → SessSt) : Mv s (s.setSes x f) := Mv_of (State.setSes_keeps s x f)
theorem con_mv (s : State) (c : Con) : Mv s { s with con := c } := Mv_in (Moves_upd s ..)
theorem pool_mv (s : State) (c : Pool) : Mv s { s with pool := c } := Mv_in (Moves_upd s ..)
theorem answer_mv (s : State) (x : Sess) (t : Text) : Mv s (s.answer x t) := Mv_of (State.answer_keeps s x t)
theorem release_mv (s : State) (x : Sess) : Mv s (s.pump x).conRelease :=
  Mv_trans (Mv_of (State.pump_keeps s x)) (Mv_of (State.conRelease_keeps _))
theorem Mv_ite {c : Prop} [Decidable c] {s t u : State} (ht : Mv s t) (hu : Mv s u) : Mv s (if c then t else u) := by
  split <;> assumption
theorem State.conEcho_mv (s : State) (x : Sess) (t : Text) : Mv s (s.conEcho x t) := Mv_ite (Mv_refl s) (setSes_mv s x _)
theorem State.typedChar_mv (s : State) (x : Sess) (c : Byte) : Mv s (s.typedChar x c) :=
  Mv_ite (Mv_ite (setSes_mv s x _) (Mv_trans (setSes_mv s x _) (State.conEcho_mv _ x _)))
    (Mv_ite (Mv_ite (Mv_refl s) (Mv_trans (setSes_mv s x _) (State.conEcho_mv _ x _)))
      (Mv_ite (Mv_trans (setSes_mv s x _) (State.conEcho_mv _ x _)) (Mv_refl s)))
theorem State.machineChar_mv (s : State) (x : Sess) (c : Byte) : Mv s (s.machineChar x c) := setSes_mv s x _
theorem State.conQueue_mv (s : State) (x : Sess) (nn : Option (BitVec 8)) (t : Text) : Mv s (s.conQueue x nn t) :=
  Mv_ite (Mv_of (State.conBusy_keeps s x nn [])) (con_mv s _)
theorem State.conRefuse_mv (s : State) (x : Sess) (t : Text) : Mv s (s.conRefuse x t) :=
  Mv_trans (con_mv s _) (answer_mv _ x t)
theorem State.machineEnd_mv (s : State) (x : Sess) (l : Text) (b : Bool) : Mv s (s.machineEnd x l b) := by
  unfold State.machineEnd
  refine Mv_ite (State.conRefuse_mv s x _) ?_
  split
  · exact State.conRefuse_mv s x _
  · exact State.conRefuse_mv s x _
  · exact State.conQueue_mv s x _ _
theorem State.typedEnd_mv (s : State) (x : Sess) (l : Text) (b : Bool) : Mv s (s.typedEnd x l b) :=
  Mv_trans (State.conEcho_mv s x _) (Mv_ite (answer_mv _ x _) (Mv_ite (State.conEcho_mv _ x _) (State.conQueue_mv _ x _ _)))
theorem State.lineEnd_mv (s : State) (x : Sess) : Mv s (s.lineEnd x) := by
  unfold State.lineEnd
  dsimp only
  refine Mv_trans (Mv_trans (setSes_mv s x (fun y => { y with line := [], tooLong := false })) ?_) (Mv_ite (State.machineEnd_mv _ x _ _) (State.typedEnd_mv _ x _ _))
  exact Mv_ite (con_mv _ _) (Mv_refl _)
theorem State.conRx_mv (s : State) (x : Sess) (c : Byte) : Mv s (s.conRx x c) := by
  unfold State.conRx
  refine Mv_ite (Mv_refl s) ?_
  dsimp only
  refine Mv_trans (setSes_mv s x (fun y => { y with afterCr := c == 0x0D })) ?_
  exact Mv_ite (State.lineEnd_mv _ x) (Mv_ite (Mv_ite (Mv_refl _) (State.lineEnd_mv _ x))
    (Mv_ite (State.machineChar_mv _ x c) (State.typedChar_mv _ x c)))
theorem State.conExecute_mv (s : State) : Mv s s.conExecute := by
  unfold State.conExecute
  split
  · exact Mv_refl s
  · rename_i rq l q h
    refine Mv_ite (Mv_refl s) ?_
    dsimp only
    refine Mv_trans (con_mv s { s.con with queue := q }) ?_
    split
    · exact State.conSyntax_moves _ _ _
    · exact State.runCmd_moves _ _ _
theorem State.baudSet_mv (s : State) (c : BitVec 4) : Mv s (s.baudSet c) :=
  Mv_trans (hubWrite_mv s _ _ _) (con_mv _ _)
theorem State.conEnding_mv (s : State) (x : Sess) : Mv s (s.conEnding x) := by
  unfold State.conEnding
  dsimp only
  refine Mv_trans (setSes_mv s x (fun t => { t with ending := none })) ?_
  split
  · exact Mv_refl _
  · exact setSes_mv _ x _
  · exact Mv_trans (setSes_mv _ x _) (State.conEcho_mv _ x _)
  · exact Mv_of (State.endUnlock_keeps _ x)
  · exact State.baudSet_mv _ _
  · exact Mv_of (State.mrstRequest_keeps _ _)
  · exact hubWrite_mv _ _ _ _
theorem State.conSent_mv (s : State) (x : Sess) : Mv s (s.conSent x) := by
  unfold State.conSent
  refine Mv_ite (Mv_refl s) ?_
  dsimp only
  refine Mv_trans (Mv_trans (t := if ((s.ses x).out.isEmpty && (s.ses x).resp.isEmpty) = true then s.conEnding x else s)
    (Mv_ite (State.conEnding_mv s x) (Mv_refl s)) ?_) (release_mv _ x)
  exact Mv_ite (Mv_of (State.baudApply_keeps _)) (Mv_refl _)
theorem State.outputSent_mv (s : State) (x : Sess) : Mv s (s.outputSent x) :=
  Mv_trans (Mv_ite (setSes_mv s x _) (Mv_refl s)) (State.conSent_mv _ x)
theorem State.conBreak_mv (s : State) : Mv s s.conBreak := by
  unfold State.conBreak
  refine Mv_ite (Mv_refl s) ?_
  dsimp only
  exact Mv_trans (Mv_trans (Mv_trans (Mv_of (State.resetSes_keeps s _)) (setSes_mv _ _ _)) (con_mv _ _)) (Mv_of (State.conRelease_keeps _))
theorem State.baudRevert_mv (s : State) : Mv s s.baudRevert := by
  unfold State.baudRevert
  split
  · exact Mv_refl s
  · rename_i r h
    refine Mv_ite (Mv_refl s) ?_
    dsimp only
    refine Mv_trans (Mv_trans (con_mv s { s.con with cfg := setFld s.con.cfg 3 0 r.toNat, revertTo := none }) ?_) (Mv_of (State.baudApply_keeps _))
    exact Mv_ite (Mv_of (State.pendRegion_keeps _ _)) (Mv_refl _)
theorem State.responseCut_mv (s : State) (x : Sess) : Mv s (s.responseCut x) := by
  unfold State.responseCut
  dsimp only
  exact Mv_ite (Mv_refl s) (Mv_trans (setSes_mv s x _) (release_mv _ x))
theorem State.a2Write_mv (s : State) (p : Port) (addr : BitVec 7) (bs : List Byte) (stop : Bool) : Mv s (s.a2Write p addr bs stop) := by
  unfold State.a2Write
  refine Mv_ite (Mv_refl s) ?_
  split
  · exact setPort_mv s p _
  · dsimp only
    refine Mv_ite (Mv_trans (pool_mv s (s.pool.claim (portHolder p)).1) (Mv_of (State.twbBusy_keeps _ p)))
      (Mv_trans (pool_mv s ((s.pool.claim (portHolder p)).1.free (portHolder p))) ?_)
    refine Mv_ite (setPort_mv _ p _) (Mv_ite (setPort_mv _ p _) ?_)
    exact Mv_in (foldl_moves _ (fun t c => State.conRx_mv t _ c) _ _)
theorem State.a2Read_mv (s : State) (p : Port) (addr : BitVec 7) (stop : Bool) : Mv s (s.a2Read p addr stop) := by
  unfold State.a2Read
  refine Mv_ite (Mv_refl s) ?_
  dsimp only
  have tail : ∀ u : State, ∀ f, Mv u (if stop = true then (u.setSes (portSess p) f).conSent (portSess p) else u) :=
    fun u f => Mv_ite (Mv_trans (setSes_mv u _ f) (State.conSent_mv _ _)) (Mv_refl u)
  exact Mv_trans (setPort_mv s p _) (tail _ _)

/-! ## RowWrites -/

@[simp] theorem State.put_moves (s : State) (p : Path) (a : Addr) (v : Nat) : Moves s (State.put s p a v) := by
  refine ⟨?_, ?_, ?_, fun hd => ?_, fun m hm hl => ?_⟩ <;> subst_vars <;> simp only [State.put] <;> (repeat' split) <;> (try simp [*]) <;> (repeat' split) <;> simp [*]
@[simp] theorem State.put_off (s : State) (p : Path) (a : Addr) (v : Nat) : s.pow.isOn = true → (State.put s p a v).pow.isOn = true := (State.put_moves s p a v).2.2.2.1 -- moves_off
@[simp] theorem State.tgtAnswers_keeps (s : State) (t : Nat) (answers : Bool) : Keeps s (State.tgtAnswers s t answers) := by
  simp [Keeps, State.tgtAnswers]
@[simp] theorem State.spanWrite_moves (s : State) (p : Path) (v : Word) : Moves s (State.spanWrite s p v) := by
  refine ⟨?_, ?_, ?_, fun hd => ?_, fun m hm hl => ?_⟩ <;> subst_vars <;> simp only [State.spanWrite] <;> (repeat' split) <;> (try simp [*]) <;> (repeat' split) <;> simp [*]
@[simp] theorem State.spanWrite_off (s : State) (p : Path) (v : Word) : s.pow.isOn = true → (State.spanWrite s p v).pow.isOn = true := (State.spanWrite_moves s p v).2.2.2.1 -- moves_off
@[simp] theorem State.crstTarget_keeps (s : State) (t : Nat) (fitted answers : Bool) : Keeps s (State.crstTarget s t fitted answers) := by
  simp [Keeps, State.crstTarget]

/-! ## Tick -/

@[simp] theorem State.tickLife_keeps (s : State) : Keeps s (State.tickLife s) := by
  simp [Keeps, State.tickLife]
@[simp] theorem State.tickFeat_keeps (s : State) : Keeps s (State.tickFeat s) := by
  simp [Keeps, State.tickFeat]
@[simp] theorem State.tickSpan_keeps (s : State) : Keeps s (State.tickSpan s) := by
  simp [Keeps, State.tickSpan]
@[simp] theorem State.tickPolls_keeps (s : State) : Keeps s (State.tickPolls s) := by
  simp [Keeps, State.tickPolls]
@[simp] theorem State.tickCon_keeps (s : State) : Keeps s (State.tickCon s) := by
  unfold State.tickCon; (try dsimp only); (repeat' split) <;> simp [Keeps]
@[simp] theorem State.tickDevice_keeps (s : State) : Keeps s (State.tickDevice s) := by
  simp [Keeps, State.tickDevice]
@[simp] theorem State.tickSave_keeps (s : State) : Keeps s (State.tickSave s) := by
  simp [Keeps, State.tickSave]
@[simp] theorem State.tickYrst_keeps (s : State) : Keeps s (State.tickYrst s) := by
  first
  | (simp [Keeps, State.tickYrst]; done)
  | (unfold State.tickYrst; (try dsimp only); (repeat' split) <;> simp [Keeps]; done)
@[simp] theorem State.tickCycle_keeps (s : State) : Keeps s (State.tickCycle s) := by
  simp [Keeps, State.tickCycle]
@[simp] theorem State.tickRetire_keeps (s : State) : Keeps s (State.tickRetire s) := by
  unfold State.tickRetire; (try dsimp only); (repeat' split) <;> simp [Keeps]
@[simp] theorem State.tickSpacing_keeps (s : State) : Keeps s (State.tickSpacing s) := by
  first
  | (simp [Keeps, State.tickSpacing]; done)
  | (unfold State.tickSpacing; (try dsimp only); (repeat' split) <;> simp [Keeps]; done)
@[simp] theorem State.tick_keeps (s : State) : Keeps s (State.tick s) := by
  simp [Keeps, State.tick]

/-! ## Exec -/

theorem evt_mv (s : State) (e) : Mv s { s with evt := e } := Mv_in (Moves_upd s ..)
theorem execPorRelease_mv (st : Straps) (s : State) : ∃ nx, execPorRelease st s = .next nx ∧ Mv s nx :=
  ⟨_, rfl, Mv_ite (Mv_in (State.por_moves ..)) (Mv_refl s)⟩
theorem execHostPowerGood_mv (s : State) : ∃ nx, execHostPowerGood s = .next nx ∧ Mv s nx :=
  ⟨_, rfl, Mv_ite (Mv_refl s) (Mv_in (State.hostGood_moves ..))⟩
theorem execBootStart_mv (s : State) : ∃ nx, execBootStart s = .next nx ∧ Mv s nx :=
  ⟨_, rfl, Mv_in (State.bootStart_moves ..)⟩
theorem execManagementReady_mv (b : BootReport) (s : State) : ∃ nx, execManagementReady b s = .next nx ∧ Mv s nx :=
  ⟨_, rfl, Mv_in (State.bootEnd_moves ..)⟩
theorem execPfail_mv (bankOk : Bool) (s : State) : ∃ nx, execPfail bankOk s = .next nx ∧ Mv s nx :=
  ⟨_, rfl, Mv_ite (Mv_refl s) (Mv_in (State.pfail_moves ..))⟩
theorem execCurlComplete_mv (t : CurlTimes) (s : State) : ∃ nx, execCurlComplete t s = .next nx ∧ Mv s nx :=
  ⟨_, rfl, Mv_in (State.curlEnd_moves ..)⟩
theorem execCommitHoldEnd_mv (s : State) : ∃ nx, execCommitHoldEnd s = .next nx ∧ Mv s nx :=
  ⟨_, rfl, Mv_in (State.commitHoldEnd_moves ..)⟩
theorem execPd2Brownout_mv (s : State) : ∃ nx, execPd2Brownout s = .next nx ∧ Mv s nx :=
  ⟨_, rfl, Mv_in (State.pd2Brownout_moves ..)⟩
theorem execPd2BrownoutRestart_mv (s : State) : ∃ nx, execPd2BrownoutRestart s = .next nx ∧ Mv s nx :=
  ⟨_, rfl, Mv_in (State.pd2Again_moves ..)⟩
theorem execPd3Brownout_mv (s : State) : ∃ nx, execPd3Brownout s = .next nx ∧ Mv s nx :=
  ⟨_, rfl, Mv_of (State.pd3Brownout_keeps ..)⟩
theorem execPd3BrownoutEnd_mv (s : State) : ∃ nx, execPd3BrownoutEnd s = .next nx ∧ Mv s nx :=
  ⟨_, rfl, Mv_of (State.pd3Back_keeps ..)⟩
theorem execPd4Lost_mv (s : State) : ∃ nx, execPd4Lost s = .next nx ∧ Mv s nx :=
  ⟨_, rfl, Mv_in (State.pd4Lost_moves ..)⟩
theorem execPd6RailTimeout_mv (s : State) : ∃ nx, execPd6RailTimeout s = .next nx ∧ Mv s nx :=
  ⟨_, rfl, Mv_in (State.pd6Fail_moves ..)⟩
theorem execSvcAttend_mv (s : State) : ∃ nx, execSvcAttend s = .next nx ∧ Mv s nx :=
  ⟨_, rfl, Mv_in (State.svcOn_moves ..)⟩
theorem execSvcRelease_mv (s : State) : ∃ nx, execSvcRelease s = .next nx ∧ Mv s nx :=
  ⟨_, rfl, Mv_in (State.svcOff_moves ..)⟩
theorem execPlantPresent_mv (s : State) : ∃ nx, execPlantPresent s = .next nx ∧ Mv s nx :=
  ⟨_, rfl, Mv_of (State.plantOn_keeps ..)⟩
theorem execPlantAbsent_mv (s : State) : ∃ nx, execPlantAbsent s = .next nx ∧ Mv s nx :=
  ⟨_, rfl, Mv_ite (Mv_of (State.plantOff_keeps ..)) (Mv_refl s)⟩
theorem execPlantOverVoltage_mv (s : State) : ∃ nx, execPlantOverVoltage s = .next nx ∧ Mv s nx :=
  ⟨_, rfl, Mv_of (by simp [Keeps]; done)⟩
theorem execPlantReverse_mv (s : State) : ∃ nx, execPlantReverse s = .next nx ∧ Mv s nx :=
  ⟨_, rfl, Mv_of (by simp [Keeps]; done)⟩
theorem execBankFloor_mv (s : State) : ∃ nx, execBankFloor s = .next nx ∧ Mv s nx :=
  ⟨_, rfl, Mv_ite (Mv_in (State.bankFloor_moves ..)) (Mv_refl s)⟩
theorem execCommitFloor_mv (s : State) : ∃ nx, execCommitFloor s = .next nx ∧ Mv s nx :=
  ⟨_, rfl, Mv_ite (Mv_in (State.commitFloor_moves ..)) (Mv_refl s)⟩
theorem execBankArmChange_mv (armed : Bool) (s : State) : ∃ nx, execBankArmChange armed s = .next nx ∧ Mv s nx :=
  ⟨_, rfl, Mv_ite (Mv_in (Moves_upd s ..)) (Mv_refl s)⟩
theorem execChargerFull_mv (s : State) : ∃ nx, execChargerFull s = .next nx ∧ Mv s nx :=
  ⟨_, rfl, Mv_ite (Mv_in (Moves_upd s ..)) (Mv_refl s)⟩
theorem execChargerResume_mv (s : State) : ∃ nx, execChargerResume s = .next nx ∧ Mv s nx :=
  ⟨_, rfl, Mv_ite (Mv_in (Moves_upd s ..)) (Mv_refl s)⟩
theorem execChargerFault_mv (s : State) : ∃ nx, execChargerFault s = .next nx ∧ Mv s nx :=
  ⟨_, rfl, Mv_ite (Mv_refl s) (Mv_of (State.kpaFault_keeps ..))⟩
theorem execConverterFault_mv (s : State) : ∃ nx, execConverterFault s = .next nx ∧ Mv s nx :=
  ⟨_, rfl, Mv_ite (Mv_of (State.kpaFault_keeps ..)) (Mv_refl s)⟩
theorem execOrReverseFault_mv (s : State) : ∃ nx, execOrReverseFault s = .next nx ∧ Mv s nx :=
  ⟨_, rfl, Mv_ite (Mv_of (State.kpaFault_keeps ..)) (Mv_refl s)⟩
theorem execThermalChargerPause_mv (s : State) : ∃ nx, execThermalChargerPause s = .next nx ∧ Mv s nx :=
  ⟨_, rfl, Mv_ite (Mv_of (State.charger_keeps ..)) (Mv_refl s)⟩
theorem execAdcSlot_mv (fine coarse : Int) (s : State) : ∃ nx, execAdcSlot fine coarse s = .next nx ∧ Mv s nx :=
  ⟨_, rfl, Mv_ite (Mv_of (State.adcSlot_keeps ..)) (Mv_refl s)⟩
theorem execEnergyUpdate_mv (s : State) : ∃ nx, execEnergyUpdate s = .next nx ∧ Mv s nx :=
  ⟨_, rfl, Mv_in (State.energyUpdate_moves ..)⟩
theorem execSpanExpiry_mv (s : State) : ∃ nx, execSpanExpiry s = .next nx ∧ Mv s nx :=
  ⟨_, rfl, Mv_in (State.spanExpire_moves ..)⟩
theorem execNandProgramDone_mv (c : Fin 4) (l : Fin 8) (b : BitVec 16) (ok : Bool) (s : State) : ∃ nx, execNandProgramDone c l b ok s = .next nx ∧ Mv s nx :=
  ⟨_, rfl, Mv_ite (Mv_of (State.nandDone_keeps ..)) (Mv_refl s)⟩
theorem execHoardSaveComplete_mv (s : State) : ∃ nx, execHoardSaveComplete s = .next nx ∧ Mv s nx :=
  ⟨_, rfl, Mv_ite (Mv_in (State.saveComplete_moves ..)) (Mv_refl s)⟩
theorem execHoardAreaFull_mv (noSpace : Bool) (s : State) : ∃ nx, execHoardAreaFull noSpace s = .next nx ∧ Mv s nx :=
  ⟨_, rfl, Mv_ite (Mv_of (State.areaFull_keeps ..)) (Mv_refl s)⟩
theorem execHoardRestoreStart_mv (s : State) : ∃ nx, execHoardRestoreStart s = .next nx ∧ Mv s nx :=
  ⟨_, rfl, Mv_ite (Mv_in (State.restoreStart_moves ..)) (Mv_refl s)⟩
theorem execHoardRestoreUnit_mv (x : Sub) (corrected uncorr : Nat) (s : State) : ∃ nx, execHoardRestoreUnit x corrected uncorr s = .next nx ∧ Mv s nx :=
  ⟨_, rfl, Mv_ite (Mv_of (State.restoreUnit_keeps ..)) (Mv_refl s)⟩
theorem execHoardRestoreComplete_mv (s : State) : ∃ nx, execHoardRestoreComplete s = .next nx ∧ Mv s nx :=
  ⟨_, rfl, Mv_ite (Mv_of (State.restoreComplete_keeps ..)) (Mv_refl s)⟩
theorem execHoardSpareEraseStart_mv (s : State) : ∃ nx, execHoardSpareEraseStart s = .next nx ∧ Mv s nx :=
  ⟨_, rfl, Mv_ite (Mv_in (State.eraseStart_moves ..)) (Mv_refl s)⟩
theorem execHoardSpareClean_mv (s : State) : ∃ nx, execHoardSpareClean s = .next nx ∧ Mv s nx :=
  ⟨_, rfl, Mv_ite (Mv_in (State.eraseEnd_moves ..)) (Mv_refl s)⟩
theorem execHrdDiscard_mv (p : Path) (v : Word) (s : State) : ∃ nx, execHrdDiscard p v s = .next nx ∧ Mv s nx :=
  ⟨_, rfl, Mv_in (State.hubWrite_moves ..)⟩
theorem execHrdExtLoWrite_mv (p : Path) (v : Word) (s : State) : ∃ nx, execHrdExtLoWrite p v s = .next nx ∧ Mv s nx :=
  ⟨_, rfl, Mv_in (State.hubWrite_moves ..)⟩
theorem execRetainDeadlineDiscard_mv (s : State) : ∃ nx, execRetainDeadlineDiscard s = .next nx ∧ Mv s nx :=
  ⟨_, rfl, Mv_in (State.deadlineDiscard_moves ..)⟩
theorem execCrystalNoStart_mv (st : Straps) (s : State) : ∃ nx, execCrystalNoStart st s = .next nx ∧ Mv s nx :=
  ⟨_, rfl, Mv_ite (Mv_in (State.porBackup_moves ..)) (Mv_refl s)⟩
theorem execCrystalStop_mv (s : State) : ∃ nx, execCrystalStop s = .next nx ∧ Mv s nx :=
  ⟨_, rfl, Mv_of (State.crystalStop_keeps ..)⟩
theorem execMpllLockLoss_mv (s : State) : ∃ nx, execMpllLockLoss s = .next nx ∧ Mv s nx :=
  ⟨_, rfl, Mv_of (State.mpllLoss_keeps ..)⟩
theorem execMpllRelock_mv (s : State) : ∃ nx, execMpllRelock s = .next nx ∧ Mv s nx :=
  ⟨_, rfl, Mv_ite (Mv_trans (Mv_in (Moves_upd s ..)) (Mv_of (State.reportsDrain_keeps _))) (Mv_refl s)⟩
theorem execMpllRelockTimeout_mv (s : State) : ∃ nx, execMpllRelockTimeout s = .next nx ∧ Mv s nx :=
  ⟨_, rfl, Mv_ite (Mv_of (State.mrstPend_keeps ..)) (Mv_refl s)⟩
theorem execHckLoss_mv (s : State) : ∃ nx, execHckLoss s = .next nx ∧ Mv s nx :=
  ⟨_, rfl, Mv_of (State.hckLoss_keeps ..)⟩
theorem execHckReturn_mv (mhz : Nat) (s : State) : ∃ nx, execHckReturn mhz s = .next nx ∧ Mv s nx :=
  ⟨_, rfl, Mv_in (State.hckReturn_moves ..)⟩
theorem execWatchdogExpiry_mv (s : State) : ∃ nx, execWatchdogExpiry s = .next nx ∧ Mv s nx :=
  ⟨_, rfl, Mv_of (by simp [Keeps]; done)⟩
theorem execMrstRequest_mv (p : Path) (v : Word) (s : State) : ∃ nx, execMrstRequest p v s = .next nx ∧ Mv s nx :=
  ⟨_, rfl, Mv_in (State.hubWrite_moves ..)⟩
theorem execMrst_mv (s : State) : ∃ nx, execMrst s = .next nx ∧ Mv s nx :=
  ⟨_, rfl, Mv_in (State.mrst_moves ..)⟩
theorem execHrst_mv (s : State) : ∃ nx, execHrst s = .next nx ∧ Mv s nx :=
  ⟨_, rfl, Mv_in (State.hrst_moves ..)⟩
theorem execHrstEnd_mv (s : State) : ∃ nx, execHrstEnd s = .next nx ∧ Mv s nx :=
  ⟨_, rfl, Mv_of (State.hrstEnd_keeps ..)⟩
theorem execCrstCon_mv (p : Path) (s : State) : ∃ nx, execCrstCon p s = .next nx ∧ Mv s nx :=
  ⟨_, rfl, Mv_in (State.put_moves ..)⟩
theorem execCrstTwbHost_mv (p : Path) (s : State) : ∃ nx, execCrstTwbHost p s = .next nx ∧ Mv s nx :=
  ⟨_, rfl, Mv_in (State.put_moves ..)⟩
theorem execCrstTwbLocal_mv (p : Path) (s : State) : ∃ nx, execCrstTwbLocal p s = .next nx ∧ Mv s nx :=
  ⟨_, rfl, Mv_in (State.put_moves ..)⟩
theorem execCrstEvtQueue_mv (p : Path) (s : State) : ∃ nx, execCrstEvtQueue p s = .next nx ∧ Mv s nx :=
  ⟨_, rfl, Mv_in (State.put_moves ..)⟩
theorem execCrstSme_mv (p : Path) (s : State) : ∃ nx, execCrstSme p s = .next nx ∧ Mv s nx :=
  ⟨_, rfl, Mv_in (State.put_moves ..)⟩
theorem execCrstZlb_mv (p : Path) (s : State) : ∃ nx, execCrstZlb p s = .next nx ∧ Mv s nx :=
  ⟨_, rfl, Mv_in (State.put_moves ..)⟩
theorem execCrstHrd_mv (p : Path) (s : State) : ∃ nx, execCrstHrd p s = .next nx ∧ Mv s nx :=
  ⟨_, rfl, Mv_in (State.put_moves ..)⟩
theorem execCrstUser_mv (p : Path) (s : State) : ∃ nx, execCrstUser p s = .next nx ∧ Mv s nx :=
  ⟨_, rfl, Mv_in (State.put_moves ..)⟩
theorem execCrstDb_mv (p : Path) (n : Fin 10) (answers : Bool) (s : State) : ∃ nx, execCrstDb p n answers s = .next nx ∧ Mv s nx :=
  ⟨_, rfl, Mv_trans (Mv_of (State.crstTarget_keeps ..)) (Mv_in (State.put_moves ..))⟩
theorem execCrstZxp_mv (p : Path) (answers : Bool) (s : State) : ∃ nx, execCrstZxp p answers s = .next nx ∧ Mv s nx :=
  ⟨_, rfl, Mv_trans (Mv_of (State.crstTarget_keeps ..)) (Mv_in (State.put_moves ..))⟩
theorem execFeatLock_mv (p : Path) (v : Word) (s : State) : ∃ nx, execFeatLock p v s = .next nx ∧ Mv s nx :=
  ⟨_, rfl, Mv_in (State.hubWrite_moves ..)⟩
theorem execFeatDeadlineLock_mv (s : State) : ∃ nx, execFeatDeadlineLock s = .next nx ∧ Mv s nx :=
  ⟨_, rfl, Mv_ite (Mv_of (State.deadlineLock_keeps ..)) (Mv_refl s)⟩
theorem execFeatDeadlineWrite_mv (p : Path) (v : Word) (s : State) : ∃ nx, execFeatDeadlineWrite p v s = .next nx ∧ Mv s nx :=
  ⟨_, rfl, Mv_in (State.hubWrite_moves ..)⟩
theorem execFeatSettled_mv (s : State) : ∃ nx, execFeatSettled s = .next nx ∧ Mv s nx :=
  ⟨_, rfl, Mv_ite (Mv_trans (Mv_trans (Mv_trans (Mv_trans (Mv_trans (Mv_of (State.settle_keeps _)) (Mv_of (State.calSwitch_keeps _)))
    (Mv_of (State.hrxSwitch_keeps _))) (Mv_of (State.packSwitch_keeps _))) (Mv_in (State.hoardSwitch_moves _)))
    (Mv_of (State.conSettled_keeps _))) (Mv_refl s)⟩
theorem execRegisterWrite_mv (p : Path) (a : Addr) (v : Word) (s : State) : ∃ nx, execRegisterWrite p a v s = .next nx ∧ Mv s nx :=
  ⟨_, rfl, Mv_in (State.hubWrite_moves ..)⟩
theorem execHostCommand_mv (x : Sub) (c : HostCycle) (s : State) : ∃ nx, execHostCommand x c s = .next nx ∧ Mv s nx :=
  ⟨_, rfl, Mv_in (State.hostCommand_moves ..)⟩
theorem execAlertPulseStart_mv (s : State) : ∃ nx, execAlertPulseStart s = .next nx ∧ Mv s nx :=
  ⟨_, rfl, Mv_of (by simp [Keeps]; done)⟩
theorem execAlertPulseEnd_mv (s : State) : ∃ nx, execAlertPulseEnd s = .next nx ∧ Mv s nx :=
  ⟨_, rfl, Mv_in (Moves_upd s ..)⟩
theorem execStopRelease_mv (p : Path) (v : Word) (s : State) : ∃ nx, execStopRelease p v s = .next nx ∧ Mv s nx :=
  ⟨_, rfl, Mv_in (State.hubWrite_moves ..)⟩
theorem execYalert_mv (x : Sub) (s : State) : ∃ nx, execYalert x s = .next nx ∧ Mv s nx :=
  ⟨_, rfl, Mv_of (by simp [Keeps]; done)⟩
theorem execWindowAddressWrite_mv (x : Sub) (high : Bool) (op : Byte) (s : State) : ∃ nx, execWindowAddressWrite x high op s = .next nx ∧ Mv s nx :=
  ⟨_, rfl, Mv_in (State.winSlot_moves _ _ _ fun _ => Moves_of (State.winAddress_keeps ..))⟩
theorem execWindowStageWrite_mv (x : Sub) (i : Fin 3) (op : Byte) (s : State) : ∃ nx, execWindowStageWrite x i op s = .next nx ∧ Mv s nx :=
  ⟨_, rfl, Mv_in (State.winSlot_moves _ _ _ fun _ => Moves_of (State.winStage_keeps ..))⟩
theorem execWindowCommit_mv (x : Sub) (op : Byte) (s : State) : ∃ nx, execWindowCommit x op s = .next nx ∧ Mv s nx :=
  ⟨_, rfl, Mv_in (State.winSlot_moves _ _ _ fun _ => Moves_of (State.winCommit_keeps ..))⟩
theorem execWindowCommitApplied_mv (x : Sub) (s : State) : ∃ nx, execWindowCommitApplied x s = .next nx ∧ Mv s nx :=
  ⟨_, rfl, Mv_ite (Mv_in (State.winApply_moves ..)) (Mv_refl s)⟩
theorem execWindowFetchDone_mv (x : Sub) (s : State) : ∃ nx, execWindowFetchDone x s = .next nx ∧ Mv s nx :=
  ⟨_, rfl, Mv_in (State.winFetch_moves ..)⟩
theorem execWindowAbort_mv (x : Sub) (op : Byte) (s : State) : ∃ nx, execWindowAbort x op s = .next nx ∧ Mv s nx :=
  ⟨_, rfl, Mv_in (State.winSlot_moves _ _ _ fun _ => Moves_of (State.winAbort_keeps ..))⟩
theorem execWindowRead_mv (x : Sub) (i : Fin 6) (s : State) : ∃ nx, execWindowRead x i s = .next nx ∧ Mv s nx :=
  ⟨_, rfl, Mv_in (State.winSlot_moves _ _ _ fun _ => Moves_of (State.winRead_keeps ..))⟩
theorem execWindowStatusRead_mv (x : Sub) (s : State) : ∃ nx, execWindowStatusRead x s = .next nx ∧ Mv s nx :=
  ⟨_, rfl, Mv_in (State.winSlot_moves _ _ _ fun _ => Moves_of (State.winStatusRead_keeps ..))⟩
theorem execPassThroughRead_mv (x : Sub) (rank : Fin 4) (data : Byte) (s : State) : ∃ nx, execPassThroughRead x rank data s = .next nx ∧ Mv s nx :=
  ⟨_, rfl, Mv_in (State.winSlot_moves _ _ _ fun _ => Moves_of (State.passRead_keeps ..))⟩
theorem execResume_mv (x : Sub) (s : State) : ∃ nx, execResume x s = .next nx ∧ Mv s nx :=
  ⟨_, rfl, Mv_in (State.winSlot_moves _ _ _ fun _ => (State.resumeStart_moves ..))⟩
theorem execMaintGrant_mv (x : Sub) (ecs : List EcsRead) (s : State) : ∃ nx, execMaintGrant x ecs s = .next nx ∧ Mv s nx :=
  ⟨_, rfl, Mv_in (State.winSlot_moves _ _ _ fun _ => Moves_of (State.maintGrant_keeps ..))⟩
theorem execLendGrant_mv (x : Sub) (s : State) : ∃ nx, execLendGrant x s = .next nx ∧ Mv s nx :=
  ⟨_, rfl, Mv_in (State.winSlot_moves _ _ _ fun _ => Moves_of (State.lendGrant_keeps ..))⟩
theorem execHostCeReport_mv (x : Sub) (s : State) : ∃ nx, execHostCeReport x s = .next nx ∧ Mv s nx :=
  ⟨_, rfl, Mv_in (State.winSlot_moves _ _ _ fun _ => Moves_of (State.ceReport_keeps ..))⟩
theorem execPassWrite_mv (x : Sub) (rank : Fin 4) (s : State) : ∃ nx, execPassWrite x rank s = .next nx ∧ Mv s nx :=
  ⟨_, rfl, Mv_in (State.winSlot_moves _ _ _ fun _ => Moves_of (State.passMrw_keeps ..))⟩
theorem execGrantHandback_mv (x : Sub) (s : State) : ∃ nx, execGrantHandback x s = .next nx ∧ Mv s nx :=
  ⟨_, rfl, Mv_of (State.handback_keeps ..)⟩
theorem execDbcNop_mv (x : Sub) (s : State) : ∃ nx, execDbcNop x s = .next nx ∧ Mv s nx :=
  ⟨_, rfl, Mv_of (State.dbcAll_keeps ..)⟩
theorem execDbcWr_mv (x : Sub) (rank : Fin 4) (chk : Bool) (bad : BitVec 10) (s : State) : ∃ nx, execDbcWr x rank chk bad s = .next nx ∧ Mv s nx :=
  ⟨_, rfl, Mv_ite (Mv_in (Moves_upd s ..)) (Mv_refl s)⟩
theorem execDbcRd_mv (x : Sub) (rank : Fin 4) (s : State) : ∃ nx, execDbcRd x rank s = .next nx ∧ Mv s nx :=
  ⟨_, rfl, Mv_of (State.dbcAll_keeps ..)⟩
theorem execDbcWinLo_mv (x : Sub) (nib : BitVec 4) (s : State) : ∃ nx, execDbcWinLo x nib s = .next nx ∧ Mv s nx :=
  ⟨_, rfl, Mv_of (State.dbcAll_keeps ..)⟩
theorem execDbcWinHi_mv (x : Sub) (nib : BitVec 4) (s : State) : ∃ nx, execDbcWinHi x nib s = .next nx ∧ Mv s nx :=
  ⟨_, rfl, Mv_of (State.dbcAll_keeps ..)⟩
theorem execDbcTrain_mv (x : Sub) (mode : Fin 4) (s : State) : ∃ nx, execDbcTrain x mode s = .next nx ∧ Mv s nx :=
  ⟨_, rfl, Mv_of (State.dbcAll_keeps ..)⟩
theorem execDbcSample_mv (x : Sub) (pos : Fin 5) (drx : Bool) (s : State) : ∃ nx, execDbcSample x pos drx s = .next nx ∧ Mv s nx :=
  ⟨_, rfl, Mv_of (State.dbcCmd_keeps ..)⟩
theorem execDbcTrimApply_mv (x : Sub) (s : State) : ∃ nx, execDbcTrimApply x s = .next nx ∧ Mv s nx :=
  ⟨_, rfl, Mv_of (State.dbcAll_keeps ..)⟩
theorem execDbcHold_mv (x : Sub) (s : State) : ∃ nx, execDbcHold x s = .next nx ∧ Mv s nx :=
  ⟨_, rfl, Mv_of (State.dbcAll_keeps ..)⟩
theorem execDbcRelease_mv (x : Sub) (s : State) : ∃ nx, execDbcRelease x s = .next nx ∧ Mv s nx :=
  ⟨_, rfl, Mv_of (State.dbcAll_keeps ..)⟩
theorem execDbcHostReset_mv (x : Sub) (s : State) : ∃ nx, execDbcHostReset x s = .next nx ∧ Mv s nx :=
  ⟨_, rfl, Mv_of (State.dbcAll_keeps ..)⟩
theorem execDbcFrameError_mv (x : Sub) (seen : BitVec 5) (first second : BitVec 5) (s : State) : ∃ nx, execDbcFrameError x seen first second s = .next nx ∧ Mv s nx :=
  ⟨_, rfl, Mv_ite (Mv_in (Moves_upd s ..)) (Mv_refl s)⟩
theorem execShadowWindowEnd_mv (n : Fin 10) (uis : Nat) (counts : List EyeCount) (flips : List (Fin 157)) (s : State) : ∃ nx, execShadowWindowEnd n uis counts flips s = .next nx ∧ Mv s nx :=
  ⟨_, rfl, Mv_ite (Mv_refl s) (Mv_ite
    (Mv_trans (Mv_of (State.windowClose_keeps ..)) (Mv_of (State.dbrResult_keeps ..))) (Mv_of (State.windowClose_keeps ..)))⟩
theorem execTrimStepApply_mv (n : Fin 10) (s : State) : ∃ nx, execTrimStepApply n s = .next nx ∧ Mv s nx :=
  ⟨_, rfl, Mv_ite (Mv_of (State.dbApply_keeps ..)) (Mv_refl s)⟩
theorem execDbeReport_mv (x : Sub) (lowHck : Nat) (s : State) : ∃ nx, execDbeReport x lowHck s = .next nx ∧ Mv s nx :=
  ⟨_, rfl, Mv_ite (Mv_of (State.dbeEnd_keeps ..)) (Mv_refl s)⟩
theorem execDbdTrimStageWrite_mv (p : Path) (v : Word) (s : State) : ∃ nx, execDbdTrimStageWrite p v s = .next nx ∧ Mv s nx :=
  ⟨_, rfl, Mv_in (State.hubWrite_moves ..)⟩
theorem execDbTempConversion_mv (n : Fin 10) (temp : Int) (s : State) : ∃ nx, execDbTempConversion n temp s = .next nx ∧ Mv s nx :=
  ⟨_, rfl, Mv_ite (Mv_of (State.setDb_keeps ..)) (Mv_refl s)⟩
theorem execDbStatusPoll_mv (s : State) : ∃ nx, execDbStatusPoll s = .next nx ∧ Mv s nx :=
  ⟨_, rfl, Mv_ite (Mv_trans (Mv_trans (Mv_of (State.statusPoll_keeps ..)) (Mv_of (State.wantByTemp_keeps ..))) (Mv_of (State.calByTemp_keeps ..))) (Mv_refl s)⟩
theorem execZlbWrite_mv (t : Fin 11) (tag : Fin 32) (word : BitVec 15) (data : Word) (s : State) : ∃ nx, execZlbWrite t tag word data s = .next nx ∧ Mv s nx :=
  ⟨_, rfl, Mv_in (State.zlbRequest_moves ..)⟩
theorem execZlbRead_mv (t : Fin 11) (tag : Fin 32) (word : BitVec 15) (s : State) : ∃ nx, execZlbRead t tag word s = .next nx ∧ Mv s nx :=
  ⟨_, rfl, Mv_in (State.zlbRequest_moves ..)⟩
theorem execZlbFetch_mv (t : Fin 11) (s : State) : ∃ nx, execZlbFetch t s = .next nx ∧ Mv s nx :=
  ⟨_, rfl, Mv_of (State.zlbFrame_keeps ..)⟩
theorem execZlbRefetch_mv (t : Fin 11) (s : State) : ∃ nx, execZlbRefetch t s = .next nx ∧ Mv s nx :=
  ⟨_, rfl, Mv_of (State.zlbFrame_keeps ..)⟩
theorem execZlbRetry_mv (t : Fin 11) (write : Bool) (tag : Fin 32) (word : BitVec 15) (data : Word) (s : State) : ∃ nx, execZlbRetry t write tag word data s = .next nx ∧ Mv s nx :=
  ⟨_, rfl, Mv_in (State.zlbAgain_moves ..)⟩
theorem execZlbFrameDiscard_mv (t : Fin 11) (edges : Nat) (header data : Word) (s : State) : ∃ nx, execZlbFrameDiscard t edges header data s = .next nx ∧ Mv s nx :=
  ⟨_, rfl, Mv_in (State.zlbBits_moves ..)⟩
theorem execZlbFetchTick_mv (t : Fin 11) (crcOk : Bool) (s : State) : ∃ nx, execZlbFetchTick t crcOk s = .next nx ∧ Mv s nx :=
  ⟨_, rfl, Mv_ite (Mv_refl s) (Mv_of (State.zlbFrame_keeps ..))⟩
theorem execZlbResponse_mv (t : Fin 11) (tag : Fin 32) (data : Word) (s : State) : ∃ nx, execZlbResponse t tag data s = .next nx ∧ Mv s nx :=
  ⟨_, rfl, Mv_ite (Mv_in (State.zlbDone_moves ..)) (Mv_refl s)⟩
theorem execZlbAttemptTimeout_mv (t : Fin 11) (tag : Fin 32) (s : State) : ∃ nx, execZlbAttemptTimeout t tag s = .next nx ∧ Mv s nx :=
  ⟨_, rfl, Mv_in (State.zlbTimeout_moves ..)⟩
theorem execTrainingInit_mv (x : Sub) (s : State) : ∃ nx, execTrainingInit x s = .next nx ∧ Mv s nx :=
  ⟨_, rfl, Mv_ite (Mv_of (State.trainInit_keeps ..)) (Mv_refl s)⟩
theorem execTrainingInitDone_mv (x : Sub) (s : State) : ∃ nx, execTrainingInitDone x s = .next nx ∧ Mv s nx :=
  ⟨_, rfl, Mv_ite (Mv_of (State.initDone_keeps ..)) (Mv_refl s)⟩
theorem execPolkaDone_mv (x : Sub) (dies : List PolkaDie) (s : State) : ∃ nx, execPolkaDone x dies s = .next nx ∧ Mv s nx :=
  ⟨_, rfl, Mv_ite (Mv_refl s) (Mv_ite (Mv_of (State.savePolka_keeps ..)) (Mv_in (State.polkaDone_moves ..)))⟩
theorem execQuadrilleStepDone_mv (x : Sub) (failed : BitVec 4) (s : State) : ∃ nx, execQuadrilleStepDone x failed s = .next nx ∧ Mv s nx :=
  ⟨_, rfl, Mv_ite (Mv_of (State.stepDone_keeps ..)) (Mv_refl s)⟩
theorem execReelHEnd_mv (x : Sub) (enough : Bool) (es : List TapVref) (s : State) : ∃ nx, execReelHEnd x enough es s = .next nx ∧ Mv s nx :=
  ⟨_, rfl, Mv_ite (Mv_of (State.reelH_keeps ..)) (Mv_refl s)⟩
theorem execMaintUnitDone_mv (x : Sub) (rank : Fin 4) (pass changed : Bool) (lane : Fin 10) (s : State) : ∃ nx, execMaintUnitDone x rank pass changed lane s = .next nx ∧ Mv s nx :=
  ⟨_, rfl, Mv_ite (Mv_of (State.unitDone_keeps ..)) (Mv_refl s)⟩
theorem execRepairUnitDone_mv (x : Sub) (pass : Bool) (s : State) : ∃ nx, execRepairUnitDone x pass s = .next nx ∧ Mv s nx :=
  ⟨_, rfl, Mv_ite (Mv_of (State.repairDone_keeps ..)) (Mv_refl s)⟩
theorem execHsettleStart_mv (p : Path) (v : Word) (s : State) : ∃ nx, execHsettleStart p v s = .next nx ∧ Mv s nx :=
  ⟨_, rfl, Mv_in (State.hubWrite_moves ..)⟩
theorem execHsettleEnd_mv (x : Sub) (edges : Bool) (es : List TapVref) (s : State) : ∃ nx, execHsettleEnd x edges es s = .next nx ∧ Mv s nx :=
  ⟨_, rfl, Mv_ite (Mv_of (State.settleEnd_keeps ..)) (Mv_refl s)⟩
theorem execRecSave_mv (p : Path) (s : State) : ∃ nx, execRecSave p s = .next nx ∧ Mv s nx :=
  ⟨_, rfl, Mv_in (State.put_moves ..)⟩
theorem execRecInvalidate_mv (p : Path) (s : State) : ∃ nx, execRecInvalidate p s = .next nx ∧ Mv s nx :=
  ⟨_, rfl, Mv_in (State.put_moves ..)⟩
theorem execHblobDataAccess_mv (p : Path) (w : Option Word) (s : State) : ∃ nx, execHblobDataAccess p w s = .next nx ∧ Mv s nx := by
  refine ⟨_, rfl, ?_⟩
  cases w with
  | some v => exact hubWrite_mv ..
  | none => exact Mv_in (State.afterRead_moves ..)
theorem execCalTap_mv (p : Path) (unit : BitVec 4) (s : State) : ∃ nx, execCalTap p unit s = .next nx ∧ Mv s nx :=
  ⟨_, rfl, Mv_in (State.put_moves ..)⟩
theorem execCalVref_mv (p : Path) (unit : BitVec 4) (s : State) : ∃ nx, execCalVref p unit s = .next nx ∧ Mv s nx :=
  ⟨_, rfl, Mv_in (State.put_moves ..)⟩
theorem execCalTapThenVref_mv (p : Path) (unit : BitVec 4) (s : State) : ∃ nx, execCalTapThenVref p unit s = .next nx ∧ Mv s nx :=
  ⟨_, rfl, Mv_in (State.put_moves ..)⟩
theorem execCalAdc_mv (p : Path) (s : State) : ∃ nx, execCalAdc p s = .next nx ∧ Mv s nx :=
  ⟨_, rfl, Mv_in (State.put_moves ..)⟩
theorem execCalPeriodExpiry_mv (u : Fin 11) (s : State) : ∃ nx, execCalPeriodExpiry u s = .next nx ∧ Mv s nx :=
  ⟨_, rfl, Mv_ite (Mv_of (State.calBoth_keeps ..)) (Mv_refl s)⟩
theorem execVrefSwap_mv (u : Fin 11) (rx : Fin 38) (s : State) : ∃ nx, execVrefSwap u rx s = .next nx ∧ Mv s nx :=
  ⟨_, rfl, Mv_ite (Mv_of (State.vrefSwap_keeps ..)) (Mv_refl s)⟩
theorem execVrefSwapTimeout_mv (u : Fin 11) (rx : Fin 38) (s : State) : ∃ nx, execVrefSwapTimeout u rx s = .next nx ∧ Mv s nx :=
  ⟨_, rfl, Mv_ite (Mv_of (State.swapTimeout_keeps ..)) (Mv_refl s)⟩
theorem execCalVrefDone_mv (u : Fin 11) (rx : Fin 38) (shadow : Bool) (lo hi lo' hi' : Nat) (s : State) : ∃ nx, execCalVrefDone u rx shadow lo hi lo' hi' s = .next nx ∧ Mv s nx :=
  ⟨_, rfl, Mv_ite (Mv_of (State.calVrefDone_keeps ..)) (Mv_refl s)⟩
theorem execCalAdcDone_mv (s : State) : ∃ nx, execCalAdcDone s = .next nx ∧ Mv s nx :=
  ⟨_, rfl, Mv_ite (Mv_of (State.calAdcDone_keeps ..)) (Mv_refl s)⟩
theorem execCalAbandon_mv (u : Fin 12) (s : State) : ∃ nx, execCalAbandon u s = .next nx ∧ Mv s nx :=
  ⟨_, rfl, Mv_ite (Mv_refl s) (Mv_ite
    (Mv_trans (Mv_of (State.calAbandon_keeps ..)) (Mv_of (State.calResume_keeps _))) (Mv_of (State.calAbandon_keeps ..)))⟩
theorem execSmeSlot_mv (n : Nat) (counts : List EyeCount) (flips : List (Fin 157)) (room : Bool) (s : State) : ∃ nx, execSmeSlot n counts flips room s = .next nx ∧ Mv s nx :=
  ⟨_, rfl, Mv_ite (Mv_of (State.smeSlot_keeps ..)) (Mv_refl s)⟩
theorem execTrimTick_mv (u : Fin 12) (s : State) : ∃ nx, execTrimTick u s = .next nx ∧ Mv s nx :=
  ⟨_, rfl, Mv_ite (Mv_of (State.trimTick_keeps ..)) (Mv_refl s)⟩
theorem execCaTrimStepApply_mv (x : Sub) (s : State) : ∃ nx, execCaTrimStepApply x s = .next nx ∧ Mv s nx :=
  ⟨_, rfl, Mv_ite (Mv_of (State.caApply_keeps ..)) (Mv_refl s)⟩
theorem execNvsCommitStart_mv (s : State) : ∃ nx, execNvsCommitStart s = .next nx ∧ Mv s nx :=
  ⟨_, rfl, Mv_of (State.commitStart_keeps ..)⟩
theorem execNvsCommitDone_mv (verified : Bool) (s : State) : ∃ nx, execNvsCommitDone verified s = .next nx ∧ Mv s nx :=
  ⟨_, rfl, Mv_of (State.commitEnd_keeps ..)⟩
theorem execNvsPreEraseDone_mv (s : State) : ∃ nx, execNvsPreEraseDone s = .next nx ∧ Mv s nx :=
  ⟨_, rfl, Mv_of (State.preEraseEnd_keeps _)⟩
theorem execNvsCmdCommit_mv (p : Path) (s : State) : ∃ nx, execNvsCmdCommit p s = .next nx ∧ Mv s nx :=
  ⟨_, rfl, Mv_in (State.put_moves ..)⟩
theorem execNvsCmdAbortImage_mv (p : Path) (s : State) : ∃ nx, execNvsCmdAbortImage p s = .next nx ∧ Mv s nx :=
  ⟨_, rfl, Mv_in (State.put_moves ..)⟩
theorem execNvsImageStart_mv (p : Path) (v : Word) (s : State) : ∃ nx, execNvsImageStart p v s = .next nx ∧ Mv s nx :=
  ⟨_, rfl, Mv_in (State.hubWrite_moves ..)⟩
theorem execNvsImageData_mv (p : Path) (v : Word) (s : State) : ∃ nx, execNvsImageData p v s = .next nx ∧ Mv s nx :=
  ⟨_, rfl, Mv_in (State.hubWrite_moves ..)⟩
theorem execNvsImageEnd_mv (verified : Bool) (s : State) : ∃ nx, execNvsImageEnd verified s = .next nx ∧ Mv s nx :=
  ⟨_, rfl, Mv_ite (Mv_of (State.imgEnd_keeps ..)) (Mv_refl s)⟩
theorem execNvsRingScan_mv (s : State) : ∃ nx, execNvsRingScan s = .next nx ∧ Mv s nx :=
  ⟨_, rfl, Mv_ite (Mv_of (State.ringScan_keeps ..)) (Mv_refl s)⟩
theorem execNvsRingBatch_mv (g : Ring) (s : State) : ∃ nx, execNvsRingBatch g s = .next nx ∧ Mv s nx :=
  ⟨_, rfl, Mv_ite (Mv_of (State.ringBatch_keeps ..)) (Mv_refl s)⟩
theorem execLifetimePersist_mv (s : State) : ∃ nx, execLifetimePersist s = .next nx ∧ Mv s nx :=
  ⟨_, rfl, Mv_ite (Mv_of (State.pendRegion_keeps ..)) (Mv_refl s)⟩
theorem execClkLifeLoRead_mv (p : Path) (s : State) : ∃ nx, execClkLifeLoRead p s = .next nx ∧ Mv s nx :=
  ⟨_, rfl, Mv_in (State.afterRead_moves ..)⟩
theorem execClkWallHiWrite_mv (p : Path) (v : Word) (s : State) : ∃ nx, execClkWallHiWrite p v s = .next nx ∧ Mv s nx :=
  ⟨_, rfl, Mv_in (State.hubWrite_moves ..)⟩
theorem execPwrSpanWrite_mv (p : Path) (v : Word) (s : State) : ∃ nx, execPwrSpanWrite p v s = .next nx ∧ Mv s nx :=
  ⟨_, rfl, Mv_in (State.spanWrite_moves ..)⟩
theorem execFaultFold_mv (s : State) : ∃ nx, execFaultFold s = .next nx ∧ Mv s nx :=
  ⟨_, rfl, Mv_ite (Mv_of (State.fold_keeps ..)) (Mv_refl s)⟩
theorem execFaultBucketBoundary_mv (c : Fin 6) (s : State) : ∃ nx, execFaultBucketBoundary c s = .next nx ∧ Mv s nx :=
  ⟨_, rfl, Mv_ite (Mv_of (State.boundary_keeps ..)) (Mv_refl s)⟩
theorem execFltCfgWrite_mv (p : Path) (c : Fin 6) (v : Word) (s : State) : ∃ nx, execFltCfgWrite p c v s = .next nx ∧ Mv s nx :=
  ⟨_, rfl, Mv_in (State.hubWrite_moves ..)⟩
theorem execFltClearResource_mv (p : Path) (s : State) : ∃ nx, execFltClearResource p s = .next nx ∧ Mv s nx :=
  ⟨_, rfl, Mv_in (State.put_moves ..)⟩
theorem execFltClearClass_mv (p : Path) (s : State) : ∃ nx, execFltClearClass p s = .next nx ∧ Mv s nx :=
  ⟨_, rfl, Mv_in (State.put_moves ..)⟩
theorem execFltClearAll_mv (p : Path) (s : State) : ∃ nx, execFltClearAll p s = .next nx ∧ Mv s nx :=
  ⟨_, rfl, Mv_in (State.put_moves ..)⟩
theorem execFltRepairNow_mv (p : Path) (s : State) : ∃ nx, execFltRepairNow p s = .next nx ∧ Mv s nx :=
  ⟨_, rfl, Mv_in (State.put_moves ..)⟩
theorem execFltForget_mv (p : Path) (entry : Fin 32) (s : State) : ∃ nx, execFltForget p entry s = .next nx ∧ Mv s nx :=
  ⟨_, rfl, Mv_in (State.put_moves ..)⟩
theorem execFltPackTest_mv (p : Path) (s : State) : ∃ nx, execFltPackTest p s = .next nx ∧ Mv s nx :=
  ⟨_, rfl, Mv_in (State.put_moves ..)⟩
theorem execPackTestDue_mv (s : State) : ∃ nx, execPackTestDue s = .next nx ∧ Mv s nx :=
  ⟨_, rfl, Mv_ite (Mv_in (Moves_upd s ..)) (Mv_refl s)⟩
theorem execPackTestStart_mv (s : State) : ∃ nx, execPackTestStart s = .next nx ∧ Mv s nx :=
  ⟨_, rfl, Mv_of (State.packStart_keeps ..)⟩
theorem execPackTestEnd_mv (r : PackEnd) (s : State) : ∃ nx, execPackTestEnd r s = .next nx ∧ Mv s nx :=
  ⟨_, rfl, Mv_ite (Mv_of (State.packEnd_keeps ..)) (Mv_refl s)⟩
theorem execEventArise_mv (src : Fin 64) (arg : BitVec 24) (s : State) : ∃ nx, execEventArise src arg s = .next nx ∧ Mv s nx :=
  ⟨_, rfl, Mv_of (State.raise_keeps ..)⟩
theorem execEventPendingRelease_mv (s : State) : ∃ nx, execEventPendingRelease s = .next nx ∧ Mv s nx :=
  ⟨_, rfl, Mv_ite (Mv_refl s) (evt_mv s _)⟩
theorem execEventDeliver_mv (s : State) : ∃ nx, execEventDeliver s = .next nx ∧ Mv s nx :=
  ⟨_, rfl, Mv_ite (Mv_of (State.deliver_keeps ..)) (Mv_refl s)⟩
theorem execEvtStatusClear_mv (p : Path) (high : Bool) (v : Word) (s : State) : ∃ nx, execEvtStatusClear p high v s = .next nx ∧ Mv s nx :=
  ⟨_, rfl, Mv_in (State.hubWrite_moves ..)⟩
theorem execEvtRaise_mv (p : Path) (v : Word) (s : State) : ∃ nx, execEvtRaise p v s = .next nx ∧ Mv s nx :=
  ⟨_, rfl, Mv_in (State.hubWrite_moves ..)⟩
theorem execTwbA0SetPointer_mv (p : Port) (addr : BitVec 7) (bs : List Byte) (stop : Bool) (s : State) : ∃ nx, execTwbA0SetPointer p addr bs stop s = .next nx ∧ Mv s nx :=
  ⟨_, rfl, Mv_in (State.a0Write_moves ..)⟩
theorem execTwbA0Write_mv (p : Port) (addr : BitVec 7) (bs : List Byte) (stop : Bool) (s : State) : ∃ nx, execTwbA0Write p addr bs stop s = .next nx ∧ Mv s nx :=
  ⟨_, rfl, Mv_in (State.a0Write_moves ..)⟩
theorem execTwbA0Read_mv (p : Port) (addr : BitVec 7) (head : List Byte) (count : Nat) (stop : Bool) (s : State) : ∃ nx, execTwbA0Read p addr head count stop s = .next nx ∧ Mv s nx :=
  ⟨_, rfl, Mv_in (State.a0Read_moves ..)⟩
theorem execTwbStagedApply_mv (p : Port) (s : State) : ∃ nx, execTwbStagedApply p s = .next nx ∧ Mv s nx :=
  ⟨_, rfl, Mv_ite (Mv_trans (Mv_in (State.twbExec_moves ..)) (Mv_of (State.twbMove_keeps ..))) (Mv_refl s)⟩
theorem execTwbA1Read_mv (p : Port) (addr : BitVec 7) (g : Ring) (s : State) : ∃ nx, execTwbA1Read p addr g s = .next nx ∧ Mv s nx :=
  ⟨_, rfl, Mv_ite (Mv_of (State.a1Read_keeps ..)) (Mv_refl s)⟩
theorem execTwbA1SeekSeq_mv (p : Port) (addr : BitVec 7) (g : Ring) (seq : Word) (pecOk : Bool) (s : State) : ∃ nx, execTwbA1SeekSeq p addr g seq pecOk s = .next nx ∧ Mv s nx :=
  ⟨_, rfl, Mv_ite (Mv_of (State.a1Seek_keeps ..)) (Mv_refl s)⟩
theorem execTwbA1SeekOldest_mv (p : Port) (addr : BitVec 7) (g : Ring) (pecOk : Bool) (s : State) : ∃ nx, execTwbA1SeekOldest p addr g pecOk s = .next nx ∧ Mv s nx :=
  ⟨_, rfl, Mv_ite (Mv_of (State.a1Seek_keeps ..)) (Mv_refl s)⟩
theorem execTwbA1SeekNext_mv (p : Port) (addr : BitVec 7) (g : Ring) (pecOk : Bool) (s : State) : ∃ nx, execTwbA1SeekNext p addr g pecOk s = .next nx ∧ Mv s nx :=
  ⟨_, rfl, Mv_ite (Mv_of (State.a1Seek_keeps ..)) (Mv_refl s)⟩
theorem execTwbA1FillDone_mv (p : Port) (s : State) : ∃ nx, execTwbA1FillDone p s = .next nx ∧ Mv s nx :=
  ⟨_, rfl, Mv_ite (Mv_of (State.a1Fill_keeps ..)) (Mv_refl s)⟩
theorem execTwbA1ReadPhase_mv (p : Port) (addr : BitVec 7) (again stop : Bool) (s : State) :
    ∃ nx, execTwbA1ReadPhase p addr again stop s = .next nx ∧ Mv s nx :=
  ⟨_, rfl, Mv_ite (Mv_of (State.a1Phase_keeps ..)) (Mv_refl s)⟩
theorem execTwbA1ReadExpiry_mv (p : Port) (s : State) : ∃ nx, execTwbA1ReadExpiry p s = .next nx ∧ Mv s nx :=
  ⟨_, rfl, Mv_ite (Mv_of (State.dropRead_keeps ..)) (Mv_refl s)⟩
theorem execTwbA2Write_mv (p : Port) (addr : BitVec 7) (bs : List Byte) (stop : Bool) (s : State) : ∃ nx, execTwbA2Write p addr bs stop s = .next nx ∧ Mv s nx :=
  ⟨_, rfl, State.a2Write_mv ..⟩
theorem execTwbA2Read_mv (p : Port) (addr : BitVec 7) (stop : Bool) (s : State) : ∃ nx, execTwbA2Read p addr stop s = .next nx ∧ Mv s nx :=
  ⟨_, rfl, State.a2Read_mv ..⟩
theorem execAlertResponse_mv (other : Option (BitVec 7)) (s : State) : ∃ nx, execAlertResponse other s = .next nx ∧ Mv s nx :=
  ⟨_, rfl, Mv_of (State.alertResponse_keeps ..)⟩
theorem execHostNotifySend_mv (o : Attempt) (s : State) : ∃ nx, execHostNotifySend o s = .next nx ∧ Mv s nx :=
  ⟨_, rfl, Mv_ite (Mv_of (State.notifyTry_keeps ..)) (Mv_refl s)⟩
theorem execTwbControllerRetry_mv (p : Port) (o : Attempt) (data : List Byte) (s : State) : ∃ nx, execTwbControllerRetry p o data s = .next nx ∧ Mv s nx :=
  ⟨_, rfl, Mv_ite (Mv_of (State.retryJob_keeps ..)) (Mv_refl s)⟩
theorem execTwbPollDue_mv (k : Fin 4) (o : Attempt) (data : List Byte) (s : State) : ∃ nx, execTwbPollDue k o data s = .next nx ∧ Mv s nx :=
  ⟨_, rfl, Mv_ite (Mv_of (State.pollDue_keeps ..)) (Mv_refl s)⟩
theorem execTwbSclTimeout_mv (p : Port) (s : State) : ∃ nx, execTwbSclTimeout p s = .next nx ∧ Mv s nx :=
  ⟨_, rfl, Mv_of (State.sclTimeout_keeps ..)⟩
theorem execConCharacter_mv (x : Sess) (c : Byte) (s : State) : ∃ nx, execConCharacter x c s = .next nx ∧ Mv s nx :=
  ⟨_, rfl, State.conRx_mv ..⟩
theorem execConLine_mv (x : Sess) (c : Byte) (s : State) : ∃ nx, execConLine x c s = .next nx ∧ Mv s nx :=
  ⟨_, rfl, Mv_ite (State.conRx_mv ..) (Mv_refl s)⟩
theorem execConExecute_mv (s : State) : ∃ nx, execConExecute s = .next nx ∧ Mv s nx :=
  ⟨_, rfl, State.conExecute_mv ..⟩
theorem execConBreak_mv (s : State) : ∃ nx, execConBreak s = .next nx ∧ Mv s nx :=
  ⟨_, rfl, State.conBreak_mv ..⟩
theorem execBaudRevert_mv (s : State) : ∃ nx, execBaudRevert s = .next nx ∧ Mv s nx :=
  ⟨_, rfl, State.baudRevert_mv ..⟩
theorem execUnlockIdleEnd_mv (x : Sess) (s : State) : ∃ nx, execUnlockIdleEnd x s = .next nx ∧ Mv s nx :=
  ⟨_, rfl, Mv_ite (Mv_of (State.endUnlock_keeps ..)) (Mv_refl s)⟩
theorem execUnlockLockoutEnd_mv (s : State) : ∃ nx, execUnlockLockoutEnd s = .next nx ∧ Mv s nx :=
  ⟨_, rfl, Mv_in (Moves_upd s ..)⟩
theorem execConResponseCut_mv (x : Sess) (s : State) : ∃ nx, execConResponseCut x s = .next nx ∧ Mv s nx :=
  ⟨_, rfl, State.responseCut_mv ..⟩
theorem execConAsyncLine_mv (t : Text) (s : State) : ∃ nx, execConAsyncLine t s = .next nx ∧ Mv s nx :=
  ⟨_, rfl, Mv_of (State.asyncLine_keeps ..)⟩
theorem execHelp_mv (rq : Req) (ws : List Text) (s : State) : ∃ nx, execHelp rq ws s = .next nx ∧ Mv s nx :=
  ⟨_, rfl, State.cmdHelp_moves ..⟩
theorem execId_mv (rq : Req) (s : State) : ∃ nx, execId rq s = .next nx ∧ Mv s nx :=
  ⟨_, rfl, State.cmdId_moves ..⟩
theorem execFeatureShow_mv (rq : Req) (s : State) : ∃ nx, execFeatureShow rq s = .next nx ∧ Mv s nx :=
  ⟨_, rfl, State.cmdFeatureShow_moves ..⟩
theorem execFeatureAccept_mv (rq : Req) (mask : Nat) (s : State) : ∃ nx, execFeatureAccept rq mask s = .next nx ∧ Mv s nx :=
  ⟨_, rfl, State.cmdFeatureAccept_moves ..⟩
theorem execFeatureLock_mv (rq : Req) (s : State) : ∃ nx, execFeatureLock rq s = .next nx ∧ Mv s nx :=
  ⟨_, rfl, State.cmdFeatureLock_moves ..⟩
theorem execFeatureDeadline_mv (rq : Req) (tenths : Nat) (s : State) : ∃ nx, execFeatureDeadline rq tenths s = .next nx ∧ Mv s nx :=
  ⟨_, rfl, State.cmdFeatureDeadline_moves ..⟩
theorem execPeek_mv (rq : Req) (a : Addr) (n : Nat) (s : State) : ∃ nx, execPeek rq a n s = .next nx ∧ Mv s nx :=
  ⟨_, rfl, State.cmdPeek_moves ..⟩
theorem execPoke_mv (rq : Req) (a : Addr) (v : Word) (s : State) : ∃ nx, execPoke rq a v s = .next nx ∧ Mv s nx :=
  ⟨_, rfl, State.cmdPoke_moves ..⟩
theorem execShow_mv (rq : Req) (what : ShowWhat) (s : State) : ∃ nx, execShow rq what s = .next nx ∧ Mv s nx :=
  ⟨_, rfl, State.cmdShow_moves ..⟩
theorem execModeMachine_mv (rq : Req) (s : State) : ∃ nx, execModeMachine rq s = .next nx ∧ Mv s nx :=
  ⟨_, rfl, State.cmdModeMachine_moves ..⟩
theorem execModeTyped_mv (rq : Req) (s : State) : ∃ nx, execModeTyped rq s = .next nx ∧ Mv s nx :=
  ⟨_, rfl, State.cmdModeTyped_moves ..⟩
theorem execBaud_mv (rq : Req) (rate : Nat) (s : State) : ∃ nx, execBaud rq rate s = .next nx ∧ Mv s nx :=
  ⟨_, rfl, State.cmdBaud_moves ..⟩
theorem execServiceUnlock_mv (rq : Req) (code : Text) (s : State) : ∃ nx, execServiceUnlock rq code s = .next nx ∧ Mv s nx :=
  ⟨_, rfl, State.cmdUnlock_moves ..⟩
theorem execServiceLock_mv (rq : Req) (s : State) : ∃ nx, execServiceLock rq s = .next nx ∧ Mv s nx :=
  ⟨_, rfl, State.cmdServiceLock_moves ..⟩
theorem execServiceStatus_mv (rq : Req) (s : State) : ∃ nx, execServiceStatus rq s = .next nx ∧ Mv s nx :=
  ⟨_, rfl, State.cmdServiceStatus_moves ..⟩
theorem execTimeShow_mv (rq : Req) (s : State) : ∃ nx, execTimeShow rq s = .next nx ∧ Mv s nx :=
  ⟨_, rfl, State.cmdTimeShow_moves ..⟩
theorem execTimeSet_mv (rq : Req) (t : Civil) (s : State) : ∃ nx, execTimeSet rq t s = .next nx ∧ Mv s nx :=
  ⟨_, rfl, State.cmdTimeSet_moves ..⟩
theorem execTimeClear_mv (rq : Req) (s : State) : ∃ nx, execTimeClear rq s = .next nx ∧ Mv s nx :=
  ⟨_, rfl, State.cmdTimeClear_moves ..⟩
theorem execTrimShow_mv (rq : Req) (s : State) : ∃ nx, execTrimShow rq s = .next nx ∧ Mv s nx :=
  ⟨_, rfl, State.cmdTrimShow_moves ..⟩
theorem execTrimPause_mv (rq : Req) (pause : Bool) (s : State) : ∃ nx, execTrimPause rq pause s = .next nx ∧ Mv s nx :=
  ⟨_, rfl, State.cmdTrimPause_moves ..⟩
theorem execTrainShow_mv (rq : Req) (s : State) : ∃ nx, execTrainShow rq s = .next nx ∧ Mv s nx :=
  ⟨_, rfl, State.cmdTrainShow_moves ..⟩
theorem execTrainMaint_mv (rq : Req) (x : Sub) (rank : Nat) (s : State) : ∃ nx, execTrainMaint rq x rank s = .next nx ∧ Mv s nx :=
  ⟨_, rfl, State.cmdTrainMaint_moves ..⟩
theorem execTrainSave_mv (rq : Req) (save : Bool) (s : State) : ∃ nx, execTrainSave rq save s = .next nx ∧ Mv s nx :=
  ⟨_, rfl, State.cmdTrainSave_moves ..⟩
theorem execCalShow_mv (rq : Req) (s : State) : ∃ nx, execCalShow rq s = .next nx ∧ Mv s nx :=
  ⟨_, rfl, State.cmdCalShow_moves ..⟩
theorem execCalTapVrefCmd_mv (rq : Req) (vref : Bool) (unit : Option Nat) (s : State) : ∃ nx, execCalTapVrefCmd rq vref unit s = .next nx ∧ Mv s nx :=
  ⟨_, rfl, State.cmdCalRun_moves ..⟩
theorem execCalAdcRef_mv (rq : Req) (mv : Nat) (s : State) : ∃ nx, execCalAdcRef rq mv s = .next nx ∧ Mv s nx :=
  ⟨_, rfl, State.cmdCalAdc_moves ..⟩
theorem execKeepStatus_mv (rq : Req) (s : State) : ∃ nx, execKeepStatus rq s = .next nx ∧ Mv s nx :=
  ⟨_, rfl, State.cmdKeepStatus_moves ..⟩
theorem execKeepSpan_mv (rq : Req) (reserve : Bool) (v : Nat) (s : State) : ∃ nx, execKeepSpan rq reserve v s = .next nx ∧ Mv s nx :=
  ⟨_, rfl, State.cmdKeepSpan_moves ..⟩
theorem execKeepCharge_mv (rq : Req) (cfg : Option (Nat × Nat)) (s : State) : ∃ nx, execKeepCharge rq cfg s = .next nx ∧ Mv s nx :=
  ⟨_, rfl, State.cmdKeepCharge_moves ..⟩
theorem execKeepPack_mv (rq : Req) (c : Nat) (s : State) : ∃ nx, execKeepPack rq c s = .next nx ∧ Mv s nx :=
  ⟨_, rfl, State.cmdKeepPack_moves ..⟩
theorem execHoardStatus_mv (rq : Req) (map : Bool) (s : State) : ∃ nx, execHoardStatus rq map s = .next nx ∧ Mv s nx :=
  ⟨_, rfl, State.cmdHoardStatus_moves ..⟩
theorem execHoardExtent_mv (rq : Req) (i : Nat) (x : Option ExtArg) (s : State) : ∃ nx, execHoardExtent rq i x s = .next nx ∧ Mv s nx :=
  ⟨_, rfl, State.cmdHoardExtent_moves ..⟩
theorem execHoardLend_mv (rq : Req) (on : Bool) (s : State) : ∃ nx, execHoardLend rq on s = .next nx ∧ Mv s nx :=
  ⟨_, rfl, State.cmdHoardLend_moves ..⟩
theorem execHoardDiscard_mv (rq : Req) (s : State) : ∃ nx, execHoardDiscard rq s = .next nx ∧ Mv s nx :=
  ⟨_, rfl, State.cmdHoardDiscard_moves ..⟩
theorem execFaultList_mv (rq : Req) (sel : Option (Fin 6 × Nat)) (s : State) : ∃ nx, execFaultList rq sel s = .next nx ∧ Mv s nx :=
  ⟨_, rfl, State.cmdFaultList_moves ..⟩
theorem execFaultCfg_mv (rq : Req) (c : Fin 6) (window thresh : Nat) (act : Option (BitVec 5)) (s : State) : ∃ nx, execFaultCfg rq c window thresh act s = .next nx ∧ Mv s nx :=
  ⟨_, rfl, State.cmdFaultCfg_moves ..⟩
theorem execFaultClear_mv (rq : Req) (sel : Option (Fin 6 × Option Nat)) (s : State) : ∃ nx, execFaultClear rq sel s = .next nx ∧ Mv s nx :=
  ⟨_, rfl, State.cmdFaultClear_moves ..⟩
theorem execFaultRepair_mv (rq : Req) (forget : Bool) (n : Nat) (s : State) : ∃ nx, execFaultRepair rq forget n s = .next nx ∧ Mv s nx :=
  ⟨_, rfl, State.cmdFaultRepair_moves ..⟩
theorem execFaultPackTest_mv (rq : Req) (s : State) : ∃ nx, execFaultPackTest rq s = .next nx ∧ Mv s nx :=
  ⟨_, rfl, State.cmdPackTest_moves ..⟩
theorem execEventShow_mv (rq : Req) (n : Option Nat) (s : State) : ∃ nx, execEventShow rq n s = .next nx ∧ Mv s nx :=
  ⟨_, rfl, State.cmdEventShow_moves ..⟩
theorem execEventEnable_mv (rq : Req) (n : Nat) (on : Bool) (s : State) : ∃ nx, execEventEnable rq n on s = .next nx ∧ Mv s nx :=
  ⟨_, rfl, State.cmdEventEnable_moves ..⟩
theorem execEventRoute_mv (rq : Req) (n : Nat) (routes : BitVec 5) (s : State) : ∃ nx, execEventRoute rq n routes s = .next nx ∧ Mv s nx :=
  ⟨_, rfl, State.cmdEventRoute_moves ..⟩
theorem execEventClear_mv (rq : Req) (n : Option Nat) (s : State) : ∃ nx, execEventClear rq n s = .next nx ∧ Mv s nx :=
  ⟨_, rfl, State.cmdEventClear_moves ..⟩
theorem execEventRaiseCmd_mv (rq : Req) (arg : Nat) (s : State) : ∃ nx, execEventRaiseCmd rq arg s = .next nx ∧ Mv s nx :=
  ⟨_, rfl, State.cmdEventRaise_moves ..⟩
theorem execLog_mv (rq : Req) (g : Ring) (start : Option Nat) (k : Nat) (s : State) : ∃ nx, execLog rq g start k s = .next nx ∧ Mv s nx :=
  ⟨_, rfl, State.cmdLog_moves ..⟩
theorem execNvsShow_mv (rq : Req) (s : State) : ∃ nx, execNvsShow rq s = .next nx ∧ Mv s nx :=
  ⟨_, rfl, State.cmdNvsShow_moves ..⟩
theorem execNvsCommit_mv (rq : Req) (s : State) : ∃ nx, execNvsCommit rq s = .next nx ∧ Mv s nx :=
  ⟨_, rfl, State.cmdNvsCommit_moves ..⟩
theorem execNvsImageStartCmd_mv (rq : Req) (kib crc : Nat) (s : State) : ∃ nx, execNvsImageStartCmd rq kib crc s = .next nx ∧ Mv s nx :=
  ⟨_, rfl, State.cmdImageStart_moves ..⟩
theorem execNvsImageDataCmd_mv (rq : Req) (bs : List Byte) (s : State) : ∃ nx, execNvsImageDataCmd rq bs s = .next nx ∧ Mv s nx :=
  ⟨_, rfl, State.cmdImageData_moves ..⟩
theorem execNvsImageAbortCmd_mv (rq : Req) (s : State) : ∃ nx, execNvsImageAbortCmd rq s = .next nx ∧ Mv s nx :=
  ⟨_, rfl, State.cmdImageAbort_moves ..⟩
theorem execNvsImageStatusCmd_mv (rq : Req) (s : State) : ∃ nx, execNvsImageStatusCmd rq s = .next nx ∧ Mv s nx :=
  ⟨_, rfl, State.cmdImageStatus_moves ..⟩
theorem execClockShow_mv (rq : Req) (s : State) : ∃ nx, execClockShow rq s = .next nx ∧ Mv s nx :=
  ⟨_, rfl, State.cmdClockShow_moves ..⟩
theorem execPowerDomains_mv (rq : Req) (faults : Bool) (s : State) : ∃ nx, execPowerDomains rq faults s = .next nx ∧ Mv s nx :=
  ⟨_, rfl, State.cmdPower_moves ..⟩
theorem execPowerClear_mv (rq : Req) (mask : BitVec 5) (s : State) : ∃ nx, execPowerClear rq mask s = .next nx ∧ Mv s nx :=
  ⟨_, rfl, State.cmdPowerClear_moves ..⟩
theorem execMaintShow_mv (rq : Req) (s : State) : ∃ nx, execMaintShow rq s = .next nx ∧ Mv s nx :=
  ⟨_, rfl, State.cmdMaintShow_moves ..⟩
theorem execResetMgmt_mv (rq : Req) (s : State) : ∃ nx, execResetMgmt rq s = .next nx ∧ Mv s nx :=
  ⟨_, rfl, State.cmdResetMgmt_moves ..⟩
theorem execResetUnit_mv (rq : Req) (u : UnitName) (s : State) : ∃ nx, execResetUnit rq u s = .next nx ∧ Mv s nx :=
  ⟨_, rfl, State.cmdResetUnit_moves ..⟩
theorem execWarrenSend_mv (core : Fin 12) (ch : Fin 64) (ws : List Word) (try_ : Bool) (s : State) : ∃ nx, execWarrenSend core ch ws try_ s = .next nx ∧ Mv s nx :=
  ⟨_, rfl, Mv_ite (Mv_of (State.wrnSend_keeps ..)) (Mv_refl s)⟩
theorem execSendStallEnd_mv (core : Fin 12) (cycles : Nat) (s : State) : ∃ nx, execSendStallEnd core cycles s = .next nx ∧ Mv s nx :=
  ⟨_, rfl, Mv_ite (Mv_of (State.stallEnd_keeps ..)) (Mv_refl s)⟩
theorem execWarrenPop_mv (core : Fin 12) (port : Fin 8) (s : State) : ∃ nx, execWarrenPop core port s = .next nx ∧ Mv s nx :=
  ⟨_, rfl, Mv_ite (Mv_of (State.wrnPop_keeps ..)) (Mv_refl s)⟩
theorem execSelect_mv (core : Fin 12) (mask : BitVec 8) (round : Bool) (tmo : BitVec 24) (s : State) : ∃ nx, execSelect core mask round tmo s = .next nx ∧ Mv s nx :=
  ⟨_, rfl, Mv_ite (Mv_of (State.wrnSelect_keeps ..)) (Mv_refl s)⟩
theorem execSelectReturn_mv (core : Fin 12) (timedOut : Bool) (cycles : Nat) (s : State) : ∃ nx, execSelectReturn core timedOut cycles s = .next nx ∧ Mv s nx :=
  ⟨_, rfl, Mv_ite (Mv_of (State.selectEnd_keeps ..)) (Mv_refl s)⟩
theorem execHeartbeat_mv (core : Fin 12) (s : State) : ∃ nx, execHeartbeat core s = .next nx ∧ Mv s nx :=
  ⟨_, rfl, Mv_ite (Mv_of (State.beat_keeps ..)) (Mv_refl s)⟩
theorem execWatchdogService_mv (s : State) : ∃ nx, execWatchdogService s = .next nx ∧ Mv s nx :=
  ⟨_, rfl, Mv_ite (Mv_of (State.wdogService_keeps ..)) (Mv_refl s)⟩
theorem execCoreFault_mv (core : Fin 12) (kind : BitVec 3) (pc : BitVec 15) (s : State) : ∃ nx, execCoreFault core kind pc s = .next nx ∧ Mv s nx :=
  ⟨_, rfl, Mv_ite (Mv_of (State.coreFault_keeps ..)) (Mv_refl s)⟩
theorem execUserHeartbeatMiss_mv (s : State) : ∃ nx, execUserHeartbeatMiss s = .next nx ∧ Mv s nx :=
  ⟨_, rfl, Mv_ite (Mv_of (State.misuse_keeps ..)) (Mv_refl s)⟩
theorem execUserCoreStart_mv (s : State) : ∃ nx, execUserCoreStart s = .next nx ∧ Mv s nx :=
  ⟨_, rfl, Mv_ite (Mv_of (State.userStart_keeps ..)) (Mv_refl s)⟩
theorem execPd5Lost_mv (s : State) : ∃ nx, execPd5Lost s = .next nx ∧ Mv s nx :=
  ⟨_, rfl, Mv_of (State.pd5Lost_keeps ..)⟩
theorem execThermalChargerResume_mv (s : State) : ∃ nx, execThermalChargerResume s = .next nx ∧ Mv s nx :=
  ⟨_, rfl, Mv_ite (Mv_of (State.charger_keeps ..)) (Mv_refl s)⟩
theorem execOverVoltageResume_mv (s : State) : ∃ nx, execOverVoltageResume s = .next nx ∧ Mv s nx :=
  ⟨_, rfl, Mv_ite (Mv_of (State.charger_keeps ..)) (Mv_refl s)⟩
theorem execPlantReverseClear_mv (s : State) : ∃ nx, execPlantReverseClear s = .next nx ∧ Mv s nx :=
  ⟨_, rfl, Mv_ite (Mv_in (Moves_upd s ..)) (Mv_refl s)⟩
theorem execConOutputSent_mv (x : Sess) (s : State) : ∃ nx, execConOutputSent x s = .next nx ∧ Mv s nx :=
  ⟨_, rfl, State.outputSent_mv ..⟩

/-! ## The rest -/

theorem tick_mv (s : State) : Mv s s.tick := Mv_of (State.tick_keeps s)
/-- What every command keeps. -/
def Ok (s t : State) : Prop :=
  t.pending = s.pending ∧ t.modl = s.modl ∧ t.nv.factory = s.nv.factory ∧ (s.pow.legal s.modl = true → t.pow.legal s.modl = true)
theorem Mv.ok {s t : State} (h : Mv s t) : Ok s t := ⟨h.1, h.2.1, h.2.2.1, h.2.2.2.2 _ rfl⟩
theorem execVkaLost_ok (s : State) : ∃ nx, execVkaLost s = .next nx ∧ Ok s nx := by
  refine ⟨_, rfl, ?_⟩
  split
  · exact Mv.ok (Mv_refl s)
  · obtain ⟨h1, h2, h3⟩ := State.vkaLost_keeps3 s
    exact ⟨h1, h2, h3.1, fun _ => h3.2 _⟩
theorem Mv.e {i : Instr} {s : State} (h : ∃ nx, exec i s = .next nx ∧ Mv s nx) : ∃ nx, exec i s = .next nx ∧ Ok s nx :=
  ⟨h.choose, h.choose_spec.1, Mv.ok h.choose_spec.2⟩
theorem execCalTapDone_mv (u : Fin 11) (a b c d : Nat) (s : State) : ∃ nx, execCalTapDone u a b c d s = .next nx ∧ Mv s nx :=
  ⟨_, rfl, Mv_ite (Mv_of (State.calTapDone_keeps ..)) (Mv_refl s)⟩

end Sys2Proof.Machine
end

