-- ==== Sys2Proof/Laws/Ops.lean ====
section
/-! SUPPORT. What each shared operation can do, said once: which part of the state it may change, and the rest kept. -/

namespace Sys2Proof.Machine

/-- An arising changes the island's latch or the event unit, and nothing else. -/
theorem State.raise_form (s : State) (n : Nat) (a : BitVec 24) :
    ∃ l e, s.raise n a = { s with pow := { s.pow with latched := l }, evt := e } := by
  unfold State.raise
  split
  · exact ⟨_, s.evt, rfl⟩
  · split
    · exact ⟨s.pow.latched, _, rfl⟩
    · exact ⟨s.pow.latched, s.evt, rfl⟩

/-- Faults change the fault unit alone. -/
theorem State.fault_form (s : State) (c i k : Nat) : ∃ f, s.fault c i k = { s with flt := f } := by
  unfold State.fault State.setRes
  split
  · exact ⟨s.flt, rfl⟩
  · dsimp only
    split
    · exact ⟨_, rfl⟩
    · exact ⟨_, rfl⟩

/-- A region becoming pending changes the list of pending regions alone. -/
theorem State.pendRegion_form (s : State) (r : Nat) :
    ∃ l, s.pendRegion r = { s with nvs := { s.nvs with pend := l } } := by
  unfold State.pendRegion
  split
  · exact ⟨s.nvs.pend, rfl⟩
  · exact ⟨_, rfl⟩

/-- A dropped ring record is counted in W9's state, and may be an event. -/
theorem State.ringDrop_form (s : State) (g : Ring) :
    ∃ n l e, s.ringDrop g = { s with nvs := n, pow := { s.pow with latched := l }, evt := e } := by
  have key : ∀ (n : Nvs) (b : Bool) (a : BitVec 24),
      ∃ n' l e, (if b = true then ({ s with nvs := n } : State).raise 39 a else { s with nvs := n })
        = { s with nvs := n', pow := { s.pow with latched := l }, evt := e } := fun n b a => by
    cases b
    · exact ⟨n, s.pow.latched, s.evt, rfl⟩
    · obtain ⟨l, e, h⟩ := State.raise_form { s with nvs := n } 39 a
      exact ⟨n, l, e, h⟩
  exact key _ _ _

/-- A fault record is handed to W9, or dropped; the transfer pool sees the buffer. -/
theorem State.faultRecord_form (s : State) (r : FaultRec) :
    ∃ n l e q, s.faultRecord r = { s with nvs := n, pow := { s.pow with latched := l }, evt := e, pool := q } := by
  unfold State.faultRecord
  dsimp only
  split
  · exact ⟨_, s.pow.latched, s.evt, _, rfl⟩
  · obtain ⟨n, l, e, h⟩ := State.ringDrop_form s.handOff .fault
    exact ⟨n, l, e, _, h⟩

/-- An event record is handed to W9, or dropped; the transfer pool sees the buffer. -/
theorem State.eventRecord_form (s : State) (r : EventRec) :
    ∃ n l e q, s.eventRecord r = { s with nvs := n, pow := { s.pow with latched := l }, evt := e, pool := q } := by
  unfold State.eventRecord
  dsimp only
  split
  · exact ⟨_, s.pow.latched, s.evt, _, rfl⟩
  · obtain ⟨n, l, e, h⟩ := State.ringDrop_form s.handOff .event
    exact ⟨n, l, e, _, h⟩

/-- A commit torn by a loss of power changes the settings memory, its RAM state, the island's latch of lost regions and
the pool. -/
theorem State.tearCommit_form (s : State) :
    ∃ v n b c, s.tearCommit = { s with nv := v, nvs := n, pow := { s.pow with lost := b }, pool := c } := by
  unfold State.tearCommit
  split
  · exact ⟨s.nv, s.nvs, s.pow.lost, s.pool, rfl⟩
  · exact ⟨_, _, _, _, rfl⟩

/-- Halted Hoard work changes the Hoard unit alone. -/
theorem State.hoardHalt_form (s : State) : ∃ h, s.hoardHalt = { s with hrd := h } := by
  unfold State.hoardHalt
  split <;> exact ⟨_, rfl⟩

end Sys2Proof.Machine
end

