-- ==== Sys2Proof/WellFormed.lean ====
section
/-! DEFINITION. Well-formed commands: operands that carry a number or a list stay inside what the hardware can
deliver (a count field, a frame, a transaction). -/

namespace Sys2Proof

/-- An SME result has its eight bits' counts, each of eight bits (R116, R122). -/
def EyeCount.ok (e : EyeCount) : Bool := e.early < 256 && e.late < 256

/-- A trained entry stays in the code ranges of R109. -/
def TapVref.ok (t : TapVref) : Bool := t.tap < 128 && t.vref < 121

/-- A console line and its arguments fit a line of 160 characters (R315). -/
def textOk (t : Text) : Bool := t.length ≤ 160

/-- What the hardware can offer as a command. -/
def Instr.wf : Instr → Bool
  | .adcSlot f c => f.natAbs < 2 ^ 20 && c.natAbs < 2 ^ 20
  | .hckReturn mhz => mhz < 4096
  | .hoardRestoreUnit _ c u => c ≤ 64 && u ≤ 64
  | .dbeReport _ n => 0 < n
  | .shadowWindowEnd _ n c _ => n < 65536 && c.length == 8 && c.all EyeCount.ok
  | .smeSlot n c _ _ => n < 65536 && c.length ≤ 19 && c.all EyeCount.ok
  | .polkaDone _ ds => ds.length ≤ 16
  | .reelHEnd _ _ e => e.length == 19 && e.all TapVref.ok
  | .hsettleEnd _ _ e => e.length == 50 && e.all TapVref.ok
  | .dbTempConversion _ t => -160 ≤ t && t ≤ 500
  | .calTapDone _ a b c d => 0 < a && 0 < b && 0 < c && 0 < d
  | .calVrefDone _ _ _ a b c d => a ≤ 480 && b ≤ 480 && c ≤ 480 && d ≤ 480
  | .zlbFrameDiscard _ e _ _ => e < 65536
  | .twbA0SetPointer _ _ bs _ => bs.length ≤ 64
  | .twbA0Write _ _ bs _ => bs.length ≤ 64
  | .twbA0Read _ _ bs n _ => bs.length ≤ 64 && n ≤ 64
  | .twbA2Write _ _ bs _ => bs.length ≤ 64
  | .conAsyncLine t => textOk t
  | .warrenSend _ _ ws _ => 1 ≤ ws.length && ws.length ≤ 4
  | .help _ ws => ws.all textOk
  | _ => true

end Sys2Proof
end

