-- ==== Sys2Proof/Tests/Slice0.lean ====
section
/-! SUPPORT. Tests: terms that WellFormed refuses, the worked examples of the spec, and a witness for the hypotheses
of each statement. -/

open Sys2Proof Sys2Proof.Machine

/-! ## Ill-formed commands -/

theorem test_wf_adcSlot : (Instr.adcSlot 1048576 0).wf = false ∧ (Instr.adcSlot 0 (-1048576)).wf = false := by decide
theorem test_wf_hckReturn : (Instr.hckReturn 4096).wf = false := by decide
theorem test_wf_hoardRestoreUnit : (Instr.hoardRestoreUnit .a 65 0).wf = false ∧ (Instr.hoardRestoreUnit .a 0 65).wf = false := by
  decide
theorem test_wf_dbeReport : (Instr.dbeReport .a 0).wf = false := by decide
theorem test_wf_shadowWindowEnd : (Instr.shadowWindowEnd 0 65536 (List.replicate 8 ⟨0, 0⟩) []).wf = false
    ∧ (Instr.shadowWindowEnd 0 1 (List.replicate 7 ⟨0, 0⟩) []).wf = false
    ∧ (Instr.shadowWindowEnd 0 1 (List.replicate 8 ⟨256, 0⟩) []).wf = false := by decide
theorem test_wf_smeSlot : (Instr.smeSlot 65536 [] [] true).wf = false
    ∧ (Instr.smeSlot 1 (List.replicate 20 ⟨0, 0⟩) [] true).wf = false ∧ (Instr.smeSlot 1 [⟨0, 256⟩] [] true).wf = false := by
  decide
theorem test_wf_polkaDone : (Instr.polkaDone .a (List.replicate 17
    (let c : PolkaCheck := ⟨(⟨0, 0, 0, 0⟩, ⟨0, 0, 0, 0⟩), (⟨0, 0, 0, 0⟩, ⟨0, 0, 0, 0⟩)⟩; ⟨c, c, c, c⟩))).wf = false := by decide
theorem test_wf_reelHEnd : (Instr.reelHEnd .a true []).wf = false
    ∧ (Instr.reelHEnd .a true (List.replicate 19 ⟨128, 0⟩)).wf = false := by decide
theorem test_wf_hsettleEnd : (Instr.hsettleEnd .a true []).wf = false
    ∧ (Instr.hsettleEnd .a true (List.replicate 40 ⟨0, 121⟩)).wf = false := by decide
theorem test_wf_dbTempConversion : (Instr.dbTempConversion 0 (-161)).wf = false ∧ (Instr.dbTempConversion 0 501).wf = false := by
  decide
theorem test_wf_calTapDone : (Instr.calTapDone 0 0 1 1 1).wf = false ∧ (Instr.calTapDone 0 1 0 1 1).wf = false
    ∧ (Instr.calTapDone 0 1 1 0 1).wf = false ∧ (Instr.calTapDone 0 1 1 1 0).wf = false := by decide
theorem test_wf_calVrefDone : (Instr.calVrefDone 0 0 true 481 0 0 0).wf = false ∧ (Instr.calVrefDone 0 0 true 0 481 0 0).wf = false
    ∧ (Instr.calVrefDone 0 0 true 0 0 481 0).wf = false ∧ (Instr.calVrefDone 0 0 true 0 0 0 481).wf = false := by decide
theorem test_wf_zlbFrameDiscard : (Instr.zlbFrameDiscard 0 65536 0 0).wf = false := by decide
theorem test_wf_twbA0SetPointer : (Instr.twbA0SetPointer .host 0 (List.replicate 65 0) true).wf = false := by decide
theorem test_wf_twbA0Write : (Instr.twbA0Write .host 0 (List.replicate 65 0) true).wf = false := by decide
theorem test_wf_twbA0Read : (Instr.twbA0Read .host 0 (List.replicate 65 0) 0 true).wf = false
    ∧ (Instr.twbA0Read .host 0 [] 65 true).wf = false := by decide
theorem test_wf_twbA2Write : (Instr.twbA2Write .host 0 (List.replicate 65 0) true).wf = false := by decide
theorem test_wf_conAsyncLine : (Instr.conAsyncLine (List.replicate 161 'a')).wf = false := by decide +kernel
theorem test_wf_warrenSend : (Instr.warrenSend 0 0 [] true).wf = false ∧ (Instr.warrenSend 0 0 [1, 2, 3, 4, 5] true).wf = false := by
  decide
theorem test_wf_help : (Instr.help ⟨.uart, none⟩ [List.replicate 161 'a']).wf = false := by decide +kernel
/-- A command with no such operand is well formed. -/
theorem test_wf_pfail : (Instr.pfail true).wf = true := by decide

/-! ## Worked examples of the spec -/

/-- 14, worked example: the CRC of a machine request and of its reply. -/
theorem test_machine_line : machineLine "#01 mode typed".toList = "#01 mode typed *4BC3".toList
    ∧ machineLine "#01 ok".toList = "#01 ok *BD2F".toList := by decide +kernel
/-- 14, worked example: `t` is ambiguous. -/
theorem test_ambiguous : parseLine false "t".toList = .error (.ambiguous "t".toList ["time", "trim", "train"])
    ∧ (ParseErr.ambiguous "t".toList ["time", "trim", "train"]).text = "syntax ambiguous t (time trim train)".toList := by
  decide +kernel
/-- 14, worked example: `fe sh` names `feature show`. -/
theorem test_abbreviation : parseLine false "fe sh".toList = .ok (false, .featureShow) := by decide +kernel
/-- 13, worked example: the PEC of one register write. -/
theorem test_pec : pecOf [0xB4, 0x48, 0x00, 0xFF, 0xDE, 0x00, 0x00] = 0x66 := by decide +kernel
/-- 07, worked example: the results of an ADC calibration against 10.000 V, the sums being 64 times its codes. -/
theorem test_adc_calibration : adcOffset 20 512 = 977 ∧ adcGain 20 10000 523456 512 = 2570
    ∧ adcOffset 80 192 = 1465 ∧ adcGain 80 10000 130816 192 = 3430 ∧ gainOk 20 5000 523456 512 = false := by decide +kernel
/-- 09, worked example: 3.3 F at 50 V hold 3465 J usable. -/
theorem test_usable_energy : nearest (energyNum 330 50000) 200000000 = 3465 := by decide +kernel
/-- 10, worked example: MIN_J of two extents of 3,200 rows with eight logical units. -/
theorem test_min_j : ({ Hrd.fresh with
    luns := 8, extents := [⟨0x80000000, 0xC80⟩, ⟨0x80020000, 0xC80⟩] } : Hrd).minJ = 32 := by decide +kernel
/-- 16, worked example: the route word of MC12. -/
theorem test_route12 : nth routesIssueB 12 0 = 0x80005193 := by decide

/-! ## Small states -/

namespace Wit
/-- a module that runs: management ready, settled with every feature, host power good. -/
def pow1 : Pow := { Pow.fresh Straps.ref with dom := .run, on := 0x3D, hostPg := true, pfailLow := false }
def run : State :=
  { State.reset with
    pow := pow1
    clk := { Clk.fresh with mpllLock := true, hckOk := true, zlbKeep := false, lifeLoad := false }
    feat := { Feat.fresh with phase := .settled, offer := 0xFFFF, accept := 0xFFFF, active := 0xFFFF, lockedBy := 3 }
    nvs := { Nvs.fresh with ready := true, partOk := true } }
/-- A command cycle on rank 0 with an empty second cycle. -/
def cyc (k : CmdKind) (mr : Byte) (par : Bool) : HostCycle := ⟨k, 1, 0, par, none, 0, mr, 0, 0⟩
/-- the same with RESET_n high, A with the host and B not ready. -/
def host : State :=
  { run with
    host := { HostSt.fresh with resetHigh := true }, subA := { SubSt.fresh with owner := .host }
    subB := { SubSt.fresh with owner := .notReady } }
/-- the same with every target of the local bus answering and one request remembered. -/
def bus : State :=
  { run with
    zlb := { Zlb.por true with
      targets := List.replicate 11 { ZTarget.fresh with alive := true, memo := [(3, ⟨3, 5, ⟨3, 3, 0⟩⟩)] } } }
/-- `host` with two ranks a subchannel, A in a training phase. -/
def train (p : Phase) : State := { host with
  train := { Train.fresh with a := { TrainSub.fresh with phase := p, ready := 1 } }
  host := { host.host with cfgA := 0x03, cfgB := 0x03 } }
/-- a calibration of a kind in hand on a unit, its receiver 3 still to do. -/
def cal (u kind : Nat) : State := { bus with
  cal := { Cal.fresh with
    adcMv := 5000, adcLatched := 5000
    runs := (List.replicate 12 none).set u (some ⟨kind, false, [], false, false, [3], none, false, [], [], ⟨[], []⟩, 0, false, CalUnit.fresh⟩) } }
/-- a called-for step at the head of a trim unit, and pending where unit `u` modulo 2 stands. -/
def trim (u : Nat) (h : TrimStep) : State := { bus with
  subA := { SubSt.fresh with owner := .host }
  trim := { Trim.fresh with
    slot := 22, queues := (List.replicate 12 []).set u [h], placed := (List.replicate 12 none).set (u % 2) (some h) } }
/-- `run` with the settings pending and its memory state changed. -/
def nvs (f : Nvs → Nvs) : State := { run with
  nvs := f { run.nvs with pend := [3] }
  zxp := { run.zxp with bankArm := true } }
/-- `bus` with one counted resource, nibble 3 of the buffers. -/
def flt (r : Res) : State := { bus with
  flt := { bus.flt with res := [(resKey 1 3, r)], cfg := [0x071005A0, 0x0B1005A0, 0x0B1005A0, 0x031005A0, 0x031005A0, 0x031005A0] } }
/-- `run` with every event source so configured, its status bit set and a count pending, and one entry queued. -/
def evt (cfg : BitVec 6) : State := { run with
  evt := { run.evt with
    srcs := List.replicate 64 { EvtSrc.fresh with cfg := cfg, status := true, pend := 2 }
    queue := [⟨33, 1, 9, 3⟩] } }
/-- `run` with the local port changed. -/
def twb (f : TwbPort → TwbPort) : State := run.setPort .loc f
/-- `run` with the UART session changed. -/
def con (f : SessSt → SessSt) : State := run.setSes .uart f
/-- `run` with every system core in a state, MC10 from W3 to port 1 of W1, and k tuples in every channel. -/
def wrn (st : CoreRun) (k : Nat) : State := { run with
  wrn := { run.wrn with
    coreMask := 0xFFF, alive := 0x7FF
    cores := (List.replicate 12 { Core.fresh with st := st, selMask := 0xFF, selTmo := 5 }).set 11 { Core.fresh with st := .held }
    routes := (List.replicate 64 (0 : Word)).set 10 0x80005113
    chans := List.replicate 64 { Chan.fresh with q := List.replicate k [7] } } }
end Wit

/-! ## Worked examples that take a step -/

/-- 01, worked example: offer 0xFFEF and accept mask 0xDEFF lock to 0xDEEF, by hub window A. -/
theorem test_lock_example : ∃ t, exec (.featLock .hubA 0xA5C3) { Wit.run with
    feat := { Feat.fresh with phase := .waitHost, offer := 0xFFEF, accept := 0xDEFF } } = .next t
    ∧ t.feat.active = 0xDEEF ∧ t.feat.lockedBy = 1 := by
  refine ⟨_, rfl, ?_⟩
  decide
/-- 07, worked example: the staged step of DB3, host receive, bit 5, tap down. -/
theorem test_trim_stage : ∃ t, exec (.trimTick 5) (Wit.trim 5 ⟨0, 5, false, true, false⟩) = .next t
    ∧ (t.db 3).stage = 0x250 := by
  refine ⟨_, rfl, ?_⟩
  decide +kernel
/-- 11, worked example: the report word names resource 46 and its row. -/
theorem test_ce_report : ∃ t, exec (.hostCeReport .a) { Wit.host with
    host := { Wit.host.host with cfgA := 0xAF }
    subA := { SubSt.fresh with owner := .host, win := { Win.fresh with stage := 0x30345931 } } } = .next t
    ∧ t.flt.res.map (·.1) = [resKey 0 46] := by
  refine ⟨_, rfl, ?_⟩
  decide +kernel

/-! ## Witnesses: a state and operands that meet the hypotheses of each statement -/

/-- Witness: nothing waits after reset. -/
theorem stepLaw_witness : State.reset.pending = [] := rfl

theorem wit_power_on_and_off : (∃ s : State, s.pow.dom = .off) ∧ ∃ s : State, s.pow.dom ≠ .off ∧ s.nvs.commit = none :=
  ⟨⟨{ State.reset with pow := { State.reset.pow with dom := .off } }, rfl⟩, ⟨State.reset, by decide⟩⟩

theorem wit_host_power_good :
    (∃ s : State, s.pow.dom ≠ .off ∧ s.pow.hostPg = false ∧ s.pow.keep = .normal)
    ∧ ∃ s : State, s.pow.dom ≠ .off ∧ s.pow.hostPg = false ∧ s.pow.keep = .hold :=
  ⟨⟨State.reset, by decide⟩,
   ⟨{ State.reset with pow := { State.reset.pow with dom := .dormouse, keep := .hold, image := true } }, by decide⟩⟩

theorem wit_boot_begins : ∃ s : State, s.pow.dom = .keepOnly ∧ s.pow.keep = .normal ∧ s.pow.hostPg = true :=
  ⟨{ State.reset with pow := { State.reset.pow with hostPg := true, pfailLow := false } }, by decide⟩

/-- a boot that runs. -/
def Wit.boot (nv : Nv) : State := { Wit.run with
  pow := { Wit.pow1 with dom := .boot }, feat := { Feat.fresh with phase := .booting }, nvs := Nvs.fresh, nv := nv }
theorem wit_management_ready :
    (∃ s : State, ∃ f : FwBody, s.bootRuns = true ∧ s.nv.kind ≠ 0 ∧ s.nv.boot.ok = true ∧ s.nv.factoryOk = true
      ∧ s.fwSlot = some false ∧ s.fwBody false = some f ∧ f.boots = true)
    ∧ (∃ s : State, s.bootRuns = true ∧ s.nv.kind ≠ 0 ∧ s.nv.boot.ok = true ∧ s.nv.factoryOk = true ∧ s.fwSlot = none)
    ∧ (∃ s : State, s.bootRuns = true ∧ s.nv.kind = 0) ∧ ∃ s : State, s.bootRuns = false :=
  ⟨⟨Wit.boot Nv.ref, _, by decide +kernel, by decide +kernel, by decide +kernel, by decide +kernel, by decide +kernel,
      rfl, by decide +kernel⟩,
   ⟨Wit.boot { Nv.ref with fw := Slots.blank }, by decide +kernel⟩,
   ⟨Wit.boot { Nv.ref with sfdp := none, boot := { Nv.ref.boot with magic := 0 } }, by decide +kernel⟩,
   ⟨Wit.run, by decide⟩⟩

theorem wit_power_fail :
    (∃ s : State, s.pow.dom ≠ .off ∧ s.pow.pfailLow = false ∧ s.pow.dom = .run)
    ∧ ∃ s : State, s.pow.dom ≠ .off ∧ s.pow.pfailLow = true :=
  ⟨⟨Wit.run, by decide⟩, ⟨State.reset, by decide⟩⟩

theorem wit_curl_outcome :
    (∃ s : State, s.pow.keep = .curl ∧ (s.nvs.commit.isSome && s.zxp.convOn) = true)
    ∧ (∃ s : State, s.pow.keep = .curl ∧ (s.nvs.commit.isSome && s.zxp.convOn) = false
        ∧ (s.modl.zxpFitted && (s.subA.asleep && s.subB.asleep) && s.host.yrst && !s.pow.curl.noBank) = true
        ∧ s.pow.hostPg = false ∧ s.zxp.above20 = true ∧ s.atReserve = false ∧ s.pow.svc = false)
    ∧ (∃ s : State, s.pow.keep = .curl ∧ (s.nvs.commit.isSome && s.zxp.convOn) = false ∧ s.host.yrst = false)
    ∧ (∃ s : State, s.pow.keep = .commitHold ∧ s.nvs.commit = none ∧ s.pow.image = true ∧ s.pow.hostPg = false
        ∧ s.zxp.above20 = true ∧ s.atReserve = false ∧ s.pow.svc = false)
    ∧ ∃ s : State, s.pow.keep = .commitHold ∧ s.nvs.commit = none ∧ s.pow.image = false :=
  ⟨⟨{ Wit.run with
        pow := { Wit.pow1 with keep := .curl }, zxp := { Wit.run.zxp with convOn := true }
        nvs := { Wit.run.nvs with commit := some ⟨3, true, .settings ⟨0, 0, false, []⟩, false, 0⟩ } }, by decide⟩,
   ⟨{ Wit.run with
        pow := { Wit.pow1 with keep := .curl, hostPg := false }, zxp := { Wit.run.zxp with above20 := true }
        host := { Wit.run.host with yrst := true } }, by decide⟩,
   ⟨{ Wit.run with pow := { Wit.pow1 with keep := .curl } }, by decide⟩,
   ⟨{ Wit.run with
        pow := { Wit.pow1 with keep := .commitHold, hostPg := false, image := true }
        zxp := { Wit.run.zxp with above20 := true } }, by decide⟩,
   ⟨{ Wit.run with pow := { Wit.pow1 with keep := .commitHold } }, by decide⟩⟩

theorem wit_dormouse_ends :
    let hold : State := { Wit.run with pow := { Wit.pow1 with dom := .dormouse, keep := .hold } }
    (hold.pow.keep = .hold ∧ hold.zxpOn = true ∧ hold.zxp.plant = false ∧ hold.pow.copy = false)
    ∧ (∃ s : State, s.zxpOn = true ∧ s.pow.keep = .save)
    ∧ (∃ s : State, s.zxpOn = true ∧ s.pow.keep ≠ .hold ∧ s.pow.keep ≠ .save ∧ s.pow.keep ≠ .commitHold)
    ∧ (∃ s : State, s.zxpOn = true ∧ s.pow.keep = .commitHold)
    ∧ (∃ s : State, s.pow.keep = .hold ∧ s.zxp.plant = false ∧ s.pow.copy = true)
    ∧ (∃ s : State, (s.zxpOn && s.reaches 10) = true ∧ s.zxp.held = none ∧ s.pow.keep ≠ .hold)
    ∧ ∃ s : State, s.pow.keep = .wake ∧ s.pow.image = true ∧ s.host.resume = none ∧ s.mgmtReady = true
        ∧ s.train.a.phase = .held ∧ s.train.b.phase = .held :=
  ⟨by decide, ⟨{ Wit.run with pow := { Wit.pow1 with keep := .save } }, by decide⟩, ⟨Wit.run, by decide⟩,
   ⟨{ Wit.run with pow := { Wit.pow1 with keep := .commitHold } }, by decide⟩,
   ⟨{ Wit.run with pow := { Wit.pow1 with keep := .hold, copy := true } }, by decide⟩, ⟨Wit.run, by decide⟩,
   ⟨{ Wit.run with
        pow := { Wit.pow1 with dom := .wake, keep := .wake, image := true }
        train := { Wit.run.train with a := { TrainSub.fresh with phase := .held }, b := { TrainSub.fresh with phase := .held } } },
    by decide⟩⟩

theorem wit_brownouts :
    (∃ s : State, s.pd2 = true ∧ s.pow.dom = .run ∧ s.pow.on &&& 0x11 = 0x11) ∧ (∃ s : State, s.pd2 = true ∧ s.pow.dom = .attended)
    ∧ (∃ s : State, s.pd2 = true ∧ s.pow.dom = .wake)
    ∧ (∃ s : State, s.pd2 = true ∧ s.pow.dom = .commitHold ∧ s.pow.image = true ∧ s.pow.hostPg = false
        ∧ s.zxp.above20 = true ∧ s.atReserve = false)
    ∧ (∃ s : State, s.pd2 = true ∧ s.pow.dom = .save) ∧ (∃ s : State, s.pd2 = true ∧ s.pow.dom = .commitHold ∧ s.pow.image = false)
    ∧ (∃ s : State, s.pow.pd2Down = true ∧ s.pow.dom = .boot)
    ∧ (∃ s : State, s.pd3 = true ∧ s.pow.pfailLow = false ∧ s.host.pd3Fault = false)
    ∧ (∃ s : State, s.host.pd3Fault = true ∧ s.pow.image = true)
    ∧ (∃ s : State, s.host.pd3Fault = true ∧ s.pow.image = false ∧ s.mgmtReady = true ∧ s.nvs.rescue = false)
    ∧ (∃ s : State, (s.pow.on.getLsbD 5 && s.pd3) = true ∧ s.pow.pfailLow = false)
    ∧ (∃ s : State, s.pow.on.getLsbD 6 = true ∧ s.pow.dom = .restore)
    ∧ ∃ s : State, s.pd2 = false ∧ s.pow.pd2Down = false ∧ s.pd3 = false ∧ s.host.pd3Fault = false
        ∧ s.pow.pfailLow = true ∧ s.pow.on.getLsbD 6 = false :=
  ⟨⟨Wit.run, by decide⟩, ⟨{ Wit.run with pow := { Wit.pow1 with dom := .attended, on := 0x15 } }, by decide⟩,
   ⟨{ Wit.run with pow := { Wit.pow1 with dom := .wake, keep := .wake } }, by decide⟩,
   ⟨{ Wit.run with pow := { Wit.pow1 with dom := .commitHold, keep := .commitHold, image := true, hostPg := false },
                   zxp := { Wit.run.zxp with above20 := true } }, by decide⟩,
   ⟨{ Wit.run with pow := { Wit.pow1 with dom := .save, on := 0x7D } }, by decide⟩,
   ⟨{ Wit.run with pow := { Wit.pow1 with dom := .commitHold, on := 0x15 } }, by decide⟩,
   ⟨{ Wit.run with pow := { Wit.pow1 with dom := .boot, on := 1, pd2Down := true } }, by decide⟩, ⟨Wit.run, by decide⟩,
   ⟨{ Wit.run with pow := { Wit.pow1 with image := true }, host := { HostSt.fresh with pd3Fault := true } }, by decide⟩,
   ⟨{ Wit.run with host := { HostSt.fresh with pd3Fault := true } }, by decide⟩, ⟨Wit.run, by decide⟩,
   ⟨{ Wit.run with pow := { Wit.pow1 with dom := .restore, on := 0x7D } }, by decide⟩, ⟨State.reset, by decide⟩⟩

theorem wit_fixture : (∃ s : State, s.pow.dom = .dormouse) ∧ (∃ s : State, s.pow.dom = .attended)
    ∧ ∃ s : State, s.pow.dom ≠ .dormouse ∧ s.pow.dom ≠ .attended :=
  ⟨⟨{ Wit.run with pow := { Wit.pow1 with dom := .dormouse } }, rfl⟩, ⟨{ Wit.run with pow := { Wit.pow1 with dom := .attended } }, rfl⟩,
   ⟨Wit.run, by decide⟩⟩

theorem wit_plant_bus :
    (∃ s : State, s.zxpOn = true ∧ s.zxp.plant = false ∧ s.zxp.plantOv = false ∧ s.zxp.plantRev = false)
    ∧ ∃ s : State, s.zxpOn = true ∧ s.zxp.plant = true :=
  ⟨⟨Wit.run, by decide⟩, ⟨{ Wit.run with zxp := { Wit.run.zxp with plant := true } }, by decide⟩⟩

theorem wit_charger : ∃ s : State, s.zxpOn = true := ⟨Wit.run, by decide⟩

theorem wit_adc_slot : ∃ s : State, s.zxpOn = true ∧ s.zxp.chans.length = 16 ∧ s.zxp.settleLeft = 0 :=
  ⟨Wit.run, by decide⟩

theorem wit_hoard_save :
    let sav : State := { Wit.train .held with
      pow := { Wit.pow1 with dom := .save }, hrd := { Hrd.fresh with provedB := true } }
    let run : State := { Wit.run with hrd := { Hrd.fresh with
      st := .saving, luns := 1, pages := 20, curs := some ⟨7, 0, true, 0⟩ :: some ⟨7, 0, false, 0⟩ :: List.replicate 30 none
      areaA := ⟨false, some ⟨1, 1, 0, []⟩, none, none⟩ } }
    (sav.up = true ∧ sav.pow.dom = .save ∧ sav.hrd.st = .idle ∧ (sav.tr .a).phase = .held ∧ sav.trains = true
      ∧ (sav.polkaJudge .a []).1 ≠ 0)
    ∧ (∃ s : State, s.up = true ∧ s.pow.dom = .save ∧ s.hrd.st = .idle ∧ (s.tr .a).phase = .held ∧ s.trains = true
        ∧ (s.polkaJudge .a []).1 = 0 ∧ s.hrd.provedB = true)
    ∧ (run.up = true ∧ run.hrd.st = .saving ∧ run.nandCur ⟨0, 0, 8⟩ = none ∧ run.nandCur ⟨0, 0, 7⟩ = some ⟨7, 0, true, 0⟩
      ∧ run.hrd.pages = run.hrd.saveTrailer.pages)
    ∧ (∃ s : State, s.up = true ∧ s.hrd.st = .saving ∧ s.nandCur ⟨0, 0, 7⟩ = some ⟨7, 0, false, 0⟩)
    ∧ (∃ s : State, s.up = true ∧ s.hrd.st = .saving ∧ s.hrd.noRoom = true)
    ∧ ∃ s : State, s.up = true ∧ s.hrd.st = .erasing :=
  ⟨by decide,
   ⟨{ Wit.train .held with
        host := Wit.host.host, pow := { Wit.pow1 with dom := .save }, hrd := { Hrd.fresh with provedB := true } }, by decide⟩,
   by decide,
   ⟨{ Wit.run with hrd := { Hrd.fresh with
        st := .saving, luns := 1, curs := some ⟨7, 0, false, 0⟩ :: List.replicate 31 none
        areaA := ⟨false, some ⟨1, 1, 0, []⟩, none, none⟩ } }, by decide⟩,
   ⟨{ Wit.run with hrd := { Hrd.fresh with
        st := .saving, luns := 1, areaA := ⟨false, some ⟨1, 1, 0, []⟩, none, none⟩ } }, by decide⟩,
   ⟨{ Wit.run with hrd := { Hrd.fresh with st := .erasing } }, by decide⟩⟩

theorem wit_hoard_restore :
    let e : Extent := ⟨0x80000000, 1⟩
    let img : Area := ⟨false, some ⟨1, 1, 0, [e]⟩, some ⟨1, 20, []⟩, none⟩
    let due : State := { Wit.run with
      hrd := { Hrd.fresh with areaA := img }
      train := { Train.fresh with a := { TrainSub.fresh with phase := .done }, b := { TrainSub.fresh with phase := .done } }
      subA := { SubSt.fresh with owner := .notReady }, subB := { SubSt.fresh with owner := .notReady } }
    (due.up = true ∧ due.hrd.st = .idle ∧ due.pow.dom = .run ∧ due.restoreDue = true ∧ due.restoreReady = true)
    ∧ (let s := { due with hrd := { due.hrd with st := .restoring } }
       s.up = true ∧ s.hrd.st = .restoring ∧ s.hrd.done .a = false ∧ (s.tr .a).phase = .done)
    ∧ (∃ s : State, s.up = true ∧ s.hrd.st = .restoring ∧ s.hrd.unfinished = false)
    ∧ (∃ s : State, s.up = true ∧ s.hrd.st = .idle ∧ s.pow.dom = .run ∧ s.fnOn .hoard = true ∧ s.hrd.unfinished = false
        ∧ s.hrd.markerOwed = false ∧ s.hrd.spare.state ≠ 0)
    ∧ (∃ s : State, s.up = true ∧ s.hrd.st = .idle ∧ s.pow.dom = .run ∧ s.fnOn .hoard = true ∧ s.hrd.markerOwed = true)
    ∧ ∃ s : State, s.up = true ∧ s.hrd.st = .erasing ∧ s.pow.dom = .restore :=
  ⟨by decide, by decide, ⟨{ Wit.run with hrd := { Hrd.fresh with st := .restoring } }, by decide⟩,
   ⟨{ Wit.run with hrd := { Hrd.fresh with areaA := { Area.clean with torn := true } } }, by decide⟩,
   ⟨{ Wit.run with hrd := { Hrd.fresh with markerOwed := true } }, by decide⟩,
   ⟨{ Wit.run with pow := { Wit.pow1 with dom := .restore }, hrd := { Hrd.fresh with st := .erasing } }, by decide⟩⟩

theorem wit_hoard_registers :
    let e : Extent := ⟨0x80000000, 1⟩
    let img : Area := ⟨false, some ⟨1, 1, 0, [e]⟩, some ⟨1, 20, []⟩, none⟩
    (∃ s : State, s.up = true ∧ s.nvs.rescue = false ∧ s.regOn .hoard = true ∧ s.hrd.unfinished = true ∧ s.hrd.st = .idle
      ∧ s.hrd.areaA = img)
    ∧ (∃ (p : Path) (v : Word) (s : State), s.up = true ∧ s.nvs.rescue = false ∧ s.regOn .hoard = true ∧ v &&& 0x7FC00000 = 0
      ∧ v.getLsbD 31 = true
      ∧ s.extentOk (s.sel p).hrdMap.toNat ⟨v, (nth s.hrd.extents (s.sel p).hrdMap.toNat ⟨0, 0⟩).hi⟩ = true)
    ∧ ∃ (p : Path) (v : Word) (s : State), v.getLsbD 31 = true
      ∧ s.extentOk (s.sel p).hrdMap.toNat ⟨v, (nth s.hrd.extents (s.sel p).hrdMap.toNat ⟨0, 0⟩).hi⟩ = false :=
  ⟨⟨{ Wit.run with hrd := { Hrd.fresh with areaA := ⟨false, some ⟨1, 1, 0, [⟨0x80000000, 1⟩]⟩, some ⟨1, 20, []⟩, none⟩ } }, by decide⟩,
   ⟨.console, 0x80000000, { Wit.run with
      host := { HostSt.fresh with cfgA := 0x0F, cfgB := 0x0F }
      hrd := { Hrd.fresh with extents := ⟨0, 1⟩ :: List.replicate 15 ⟨0, 0⟩, luns := 8, ppbLog2 := 9, areaBlocks := 200 } }, by decide⟩,
   ⟨.console, 0x80000000, Wit.run, by decide⟩⟩

theorem wit_clock_faults :
    (Wit.run.pow.dom ≠ .off ∧ Wit.run.clk.rootOk = true ∧ Wit.run.pd2 = true ∧ Wit.run.clk.mpllLock = true
      ∧ Wit.run.pow.dom ≠ .curl ∧ Wit.run.pow.dom ≠ .commitHold ∧ Wit.run.feat.phase ≠ .booting ∧ Wit.run.clk.hckOk = true)
    ∧ (∃ s : State, s.pd2 = true ∧ s.clk.mpllLock = false ∧ s.pow.dom ≠ .curl ∧ s.pow.dom ≠ .commitHold)
    ∧ (∃ s : State, s.pd2 = true ∧ s.pow.dom ≠ .curl ∧ s.pow.dom ≠ .commitHold ∧ s.feat.phase = .booting
        ∧ s.nvs.rescue = false ∧ s.fwSlot = some false)
    ∧ ∃ s : State, s.pd3 = true ∧ s.pow.dom ≠ .save ∧ s.pow.dom ≠ .curl ∧ s.clk.hckOk = false :=
  ⟨by decide, ⟨{ Wit.run with clk := { Clk.fresh with mpllLock := false } }, by decide⟩,
   ⟨{ Wit.run with feat := { Feat.fresh with phase := .booting } }, by decide⟩,
   ⟨{ Wit.run with clk := { Clk.fresh with mpllLock := true } }, by decide⟩⟩

theorem wit_management_reset :
    (Wit.run.up = true ∧ Wit.run.nvs.rescue = false ∧ Wit.run.pow.dom ≠ .curl ∧ Wit.run.pow.dom ≠ .commitHold)
    ∧ ∃ s : State, s.pd2 = true ∧ s.clk.mrstWait = true ∧ s.nvs.commit = none ∧ s.pow.dom ≠ .curl ∧ s.pow.dom ≠ .commitHold
        ∧ s.pow.dom ≠ .restore :=
  ⟨by decide, ⟨{ Wit.run with clk := { Clk.fresh with mrstWait := true } }, by decide⟩⟩

theorem wit_host_reset :
    (Wit.run.pd3 = true ∧ Wit.run.pow.dom ≠ .curl ∧ Wit.run.subA.win.commits = [] ∧ Wit.run.subB.win.commits = []
      ∧ Wit.run.pow.image = false ∧ Wit.run.host.resetHigh = false)
    ∧ (∃ s : State, s.pd3 = true ∧ s.pow.dom ≠ .curl ∧ s.subA.win.commits = [] ∧ s.subB.win.commits = [] ∧ s.pow.image = true)
    ∧ ∃ s : State, s.pd3 = false ∧ s.host.resetHigh = false :=
  ⟨by decide, ⟨{ Wit.run with pow := { Wit.pow1 with image := true } }, by decide⟩, ⟨State.reset, by decide⟩⟩

theorem wit_unit_resets :
    Wit.run.up = true ∧ Wit.run.nvs.rescue = false ∧ Wit.run.regOn .hoard = true ∧ Wit.run.hrdFree = true
      ∧ (Wit.run.locked && Wit.run.feat.active.getLsbD 13) = true ∧ Wit.run.buffers = true ∧ Wit.run.modl.zxpFitted = true := by
  decide

theorem wit_feature_lock :
    Wit.run.up = true ∧ Wit.run.nvs.rescue = false ∧ Wit.run.locked = true
      ∧ ∃ s : State, s.up = true ∧ s.nvs.rescue = false ∧ s.locked = false ∧ s.feat.accept.getLsbD 0 = true := by
  refine ⟨by decide, by decide, by decide, { Wit.run with feat := { Feat.fresh with phase := .waitHost, accept := 0x4007 } }, ?_⟩
  decide

theorem wit_deadline_and_settled :
    (∃ s : State, s.up = true ∧ s.feat.phase = .counting ∧ s.nvs.rescue = false ∧ s.locked = false)
    ∧ (5 ≤ (30 : Word).toNat ∧ (30 : Word).toNat ≤ 300) ∧ 300 < (301 : Word).toNat
    ∧ ∃ s : State, s.up = true ∧ s.feat.phase = .locked ∧ s.feat.active.getLsbD 4 = true := by
  refine ⟨⟨{ Wit.run with feat := { Feat.fresh with phase := .counting } }, ?_⟩, by decide, by decide,
    ⟨{ Wit.run with feat := { Feat.fresh with phase := .locked, active := 0x0010 } }, ?_⟩⟩ <;> decide

theorem wit_register_writes :
    Wit.run.up = true ∧ Wit.run.nvs.rescue = false ∧ (3 : Word).toNat < 4 ∧ (0x21 : Word).toNat < 64
      ∧ Wit.run.evtRegPresent 63 = true ∧ 63 < Wit.run.evt.srcs.length := by decide
theorem wit_register_writes_ro : ∃ d, Wit.run.reg .hubA 0x0000 = some d ∧ d.flds.any Fld.writable = false := ⟨_, rfl, by decide⟩

theorem wit_alert_pin :
    (∃ s : State, s.alertLow = false ∧ s.host.waitPar = true)
    ∧ (∃ s : State, s.alertLow = false ∧ s.host.waitPar = false ∧ s.host.waitCrc = true)
    ∧ (∃ s : State, s.pd3 = true ∧ (s.sub .a).owner = .host ∧ (s.sub .b).owner ≠ .host ∧ s.pow.on.getLsbD 5 = true)
    ∧ ∃ s : State, s.up = true ∧ s.nvs.rescue = false ∧ s.subA.owner = .stopped :=
  ⟨⟨{ Wit.run with host := { HostSt.fresh with waitPar := true } }, by decide⟩,
   ⟨{ Wit.run with host := { HostSt.fresh with waitCrc := true } }, by decide⟩,
   ⟨{ Wit.run with subA := { SubSt.fresh with owner := .host } }, by decide⟩,
   ⟨{ Wit.run with subA := { SubSt.fresh with owner := .stopped } }, by decide⟩⟩

theorem wit_host_commands :
    (Wit.host.samples = true ∧ (Wit.cyc .act 0 false).kind ≠ .des ∧ (Wit.cyc .act 0 false).cs ≠ 0
      ∧ Wit.host.discards .a = false ∧ Wit.host.discards .b = false ∧ Wit.host.host.parEn = false
      ∧ isWindow (Wit.cyc .act 0 false) = false ∧ (Wit.host.sub .a).owner = .host ∧ (Wit.host.sub .b).owner ≠ .host)
    ∧ (∃ s : State, s.samples = true ∧ s.discards .a = true)
    ∧ isWindow (Wit.cyc .mrw 0xF7 false) = true ∧ isWindow (Wit.cyc .mrr 0xF0 false) = true
    ∧ (∃ s : State, s.samples = true ∧ s.discards .a = false ∧ s.host.parEn = true ∧ s.host.parStop = true
        ∧ (s.sub .a).owner = .host)
    ∧ parityBad (Wit.cyc .act 0 true).ca1 (Wit.cyc .act 0 true).par1 = true ∧ Wit.run.host.resetHigh = false := by
  refine ⟨by decide, ⟨{ Wit.host with host := { HostSt.fresh with resetHigh := true, caBlock := true } }, by decide⟩,
    by decide, by decide, ⟨{ Wit.host with host := { HostSt.fresh with resetHigh := true, parEn := true, parStop := true } },
      by decide⟩, by decide, by decide⟩

theorem wit_window_moves :
    (Wit.host.samples = true ∧ Wit.host.winOn .a = true ∧ (Wit.host.sub .a).win.commits.length < 8 ∧ Wit.host.up = true)
    ∧ (∃ s : State, s.samples = true ∧ s.winOn .a = true ∧ 8 ≤ (s.sub .a).win.commits.length ∧ (s.sub .a).win.fetch = true
        ∧ ∃ r, (s.sub .a).win.commits = (0x0108, 8) :: r) ∧ State.reset.samples = false ∧ (0 : Byte) ≠ 1 :=
  ⟨by decide, ⟨{ Wit.host with
      subA := { SubSt.fresh with owner := .host, win := { Win.fresh with commits := List.replicate 8 (0x0108, 8), fetch := true } } },
      by decide, by decide, by decide, by decide, _, rfl⟩, by decide, by decide⟩

theorem wit_window_reads :
    (Wit.host.samples = true ∧ Wit.host.winOn .a = true ∧ Wit.host.winUndefined .a = false)
    ∧ (∃ s : State, s.samples = true ∧ s.winOn .a = false ∧ s.discards .a = false ∧ s.winUndefined .a = false)
    ∧ (∃ s : State, s.samples = true ∧ s.winOn .a = true ∧ s.winUndefined .a = true ∧ (s.sub .a).owner ≠ .host)
    ∧ ∃ s : State, s.samples = true ∧ s.winOn .a = true ∧ (s.sub .a).win.commits.length < 8
        ∧ (s.sub .a).owner = .host ∧ 0xF0 ≤ (s.sub .a).win.stage.toNat % 256
        ∧ (s.sub .a).win.stage.toNat % 256 ≤ 0xF7 :=
  ⟨by decide, ⟨{ Wit.host with feat := { Wit.run.feat with active := 0xFFFD } }, by decide⟩,
   ⟨{ Wit.host with subA := { SubSt.fresh with owner := .granted } }, by decide⟩,
   ⟨{ Wit.host with subA := { SubSt.fresh with owner := .host, win := { Win.fresh with stage := 0x12F7 } } }, by decide⟩⟩

theorem wit_resume_and_grants :
    (∃ s : State, s.samples = true ∧ s.winTakes .a = true ∧ s.fnActive .retain = true ∧ s.retainPending = true ∧ s.pow.keep = .wake
        ∧ s.host.resume = none ∧ s.feat.elapsed ≤ s.feat.limitMs ∧ s.pow.straps.nodb = false)
    ∧ (∃ s : State, s.samples = true ∧ s.winTakes .a = true ∧ (s.sub .a).owner = .host ∧ s.host.resume = none ∧ (s.sub .a).grant = none
        ∧ 1 ≤ (s.sub .a).win.stage.toNat % 256 ∧ (s.sub .a).win.stage.toNat % 256 ≤ 10 ∧ s.fnActive .hoard = true
        ∧ s.hrd.unfinished = true ∧ s.hrd.lend = true)
    ∧ (∃ s : State, (s.sub .a).grant = some ⟨false, [], 0, 5, false⟩) ∧ Wit.host.pow.image = false ∧ (Wit.host.sub .b).owner ≠ .host := by
  refine ⟨⟨{ Wit.host with pow := { Wit.pow1 with dom := .wake, keep := .wake, image := true } }, by decide⟩,
    ⟨{ Wit.host with
        subA := { SubSt.fresh with owner := .host, win := { Win.fresh with stage := 10 } }
        hrd := { Hrd.fresh with
                  lend := true
                  areaA := ⟨false, some ⟨1, 1, 0, [⟨0x80000000, 1⟩]⟩, some ⟨1, 20, []⟩, none⟩ } }, by decide⟩,
    ⟨{ Wit.host with subA := { SubSt.fresh with grant := some ⟨false, [], 0, 5, false⟩ } }, by decide⟩, by decide, by decide⟩

theorem wit_suspect_row :
    (∃ s : State, s.samples = true ∧ s.winTakes .a = true ∧ s.ceOk .a (s.sub .a).win.stage.toNat = true ∧ s.fnOn .faultWindows = true
        ∧ s.resPresent 0 9 = true)
    ∧ ∃ s : State, (s.sub .a).grant = some ⟨false, [⟨9, 5, 0, 0, 7⟩], 0, 5, true⟩ ∧ (s.sub .a).ecsBase = true
        ∧ s.resPresent 0 9 = true ∧ sget 0 (s.sub .a).ecs 9 < 5 ∧ s.fnOn .faultWindows = true := by
  refine ⟨⟨{ Wit.host with
        subA := { SubSt.fresh with owner := .host, win := { Win.fresh with stage := 0x48000000 } }
        host := { Wit.host.host with cfgA := 1 } }, by decide⟩,
    ⟨{ Wit.host with
        subA := { SubSt.fresh with owner := .granted, grant := some ⟨false, [⟨9, 5, 0, 0, 7⟩], 0, 5, true⟩, ecsBase := true }
        host := { Wit.host.host with cfgA := 1 } }, by decide⟩⟩

theorem wit_dbc_frames : Wit.run.dbcOn = true ∧ 9 < Wit.run.dbs.length := by decide

theorem wit_buffer_sampling :
    (Wit.run.dbcOn = true ∧ Wit.run.dbs.length = 10)
    ∧ (∃ s : State, s.dbcOn = true ∧ s.dbs.length = 10 ∧ (s.db 3).streaming = true ∧ (s.db 3).stageArmed = true
        ∧ (s.db 3).stagePend = true)
    ∧ ((0x12 : BitVec 5).getLsbD 4 = true ∧ frameOk 0x12 0x00 = false)
    ∧ ∃ s : State, s.up = true ∧ s.nvs.rescue = false ∧ s.regOn .dbPresent = true ∧ s.dbs.length = 10
        ∧ (s.sel .console).dbm.toNat < 10 ∧ s.reaches (s.sel .console).dbm.toNat = true
        ∧ stageOk (s.db 0) (s.dbTap 0) 0 = true := by
  refine ⟨by decide, ⟨{ Wit.run with dbs := List.replicate 10 { Db.fresh with streaming := true, stageArmed := true, stagePend := true } },
    by decide⟩, by decide, ⟨{ Wit.run with zlb := { Zlb.por true with targets := List.replicate 11 { ZTarget.fresh with alive := true } } }, by decide⟩⟩

theorem wit_buffer_temperature :
    ∃ s : State, s.up = true ∧ s.pow.straps.nodb = false ∧ s.pow.on.getLsbD 5 = true ∧ (∀ n, n < 10 → s.reaches n = true)
      ∧ (∀ n, n < 11 → s.calRun n = none) ∧ s.dbs.length = 10 := by
  refine ⟨{ Wit.run with zlb := { Zlb.por true with targets := List.replicate 11 { ZTarget.fresh with alive := true } } }, ?_⟩
  decide

theorem wit_retry_memory :
    Wit.bus.pd2 = true ∧ Wit.bus.unreach 2 = false ∧ Wit.bus.zlbCredit 2 7 = true ∧ Wit.bus.tgtTakes 2 = true
      ∧ (Wit.bus.tgt 2).memo.find? (fun e => e.1 == 3) = some (3, ⟨3, 5, ⟨3, 3, 0⟩⟩)
      ∧ (Wit.bus.tgt 2).memo.find? (fun e => e.1 == 4) = none := by
  decide

theorem wit_bus_requests :
    (Wit.bus.pd2 = true ∧ Wit.bus.unreach 2 = false ∧ Wit.bus.zlbCredit 2 7 = true ∧ Wit.bus.tgtTakes 2 = true
      ∧ Wit.bus.dbs.length = 10)
    ∧ (∃ s : State, s.pd2 = true ∧ s.unreach 2 = false ∧ s.zlbCredit 2 7 = false) ∧ ∃ s : State, s.unreach 3 = true := by
  refine ⟨by decide, ⟨{ Wit.run with zlb := { Zlb.por true with out := [⟨2, 7, false, 0, 0, 0⟩] } }, by decide⟩,
    { Wit.run with zlb := { Zlb.por true with unreach := 8 } }, by decide⟩

theorem wit_bus_responses :
    (∃ s : State, s.tgtOn 2 = true ∧ s.tgtTakes 2 = true ∧ s.zlb.waiting = [] ∧ (∃ r q, (s.tgt 2).queue = r :: q)
      ∧ (∃ r, (s.tgt 2).last = some r ∧ r.tag = BitVec.ofNat 5 (7 : Fin 32) ∧ r.data = 9)
      ∧ s.zlb.out = [⟨2, BitVec.ofNat 5 (7 : Fin 32), true, 3, 0, 3⟩] ∧ s.tgtOut 2 ≠ 0 ∧ s.tgtOut 3 = 0)
    ∧ (frameGood 64 (frameHeader 3 0 0 0) 0 = true ∧ ((frameHeader 3 0 0 0).extractLsb' 28 3).toNat = 3)
    ∧ ((0x50000000 : Word).extractLsb' 28 3).toNat = 5 ∧ ((0 : Word).extractLsb' 28 3).toNat = 0 := by
  refine ⟨⟨{ Wit.run with zlb := { Zlb.por true with
      targets := List.replicate 11 { ZTarget.fresh with alive := true, queue := [⟨7, 0, 9⟩], last := some ⟨7, 0, 9⟩ }
      out := [⟨2, BitVec.ofNat 5 (7 : Fin 32), true, 3, 0, 3⟩] } }, by decide, by decide, by decide, ⟨_, _, rfl⟩, ⟨_, rfl, by decide, by decide⟩,
      by decide, by decide, by decide⟩, by decide +kernel, by decide, by decide⟩

theorem wit_training_init :
    ((Wit.train .wait).up = true ∧ (Wit.train .wait).trains = true ∧ ((Wit.train .wait).tr .a).phase = .wait
      ∧ (Wit.train .wait).host.resetHigh = true ∧ (Wit.train .wait).clk.hckOk = true)
    ∧ ((Wit.train .init).up = true ∧ (Wit.train .init).trains = true ∧ ((Wit.train .init).tr .a).phase = .init ∧ (Wit.train .init).host.resetHigh = true
      ∧ (Wit.train .init).clk.hckOk = true ∧ (Wit.train .init).pow.straps.nodb = false)
    ∧ ∃ s : State, s.up = true ∧ s.trains = true ∧ (s.tr .a).phase = .init ∧ s.host.resetHigh = true ∧ s.clk.hckOk = true
        ∧ s.pow.straps.nodb = true ∧ s.restoreHolds = false ∧ (s.sub .a).owner = .notReady := by
  refine ⟨by decide, by decide, { Wit.train .init with
    subA := { (Wit.train .init).subA with owner := .notReady }
    pow := { Wit.pow1 with straps := { Straps.ref with nodb := true } } }, by decide⟩

theorem wit_polka_ends :
    ((Wit.train .polka).up = true ∧ (Wit.train .polka).pow.dom ≠ .save ∧ ((Wit.train .polka).tr .a).phase = .polka
      ∧ (Wit.train .polka).host.resume = none ∧ (Wit.train .polka).trains = true
      ∧ ((Wit.train .polka).polkaJudge .a []).1 ≠ 0)
    ∧ (∃ s : State, s.up = true ∧ s.pow.dom ≠ .save ∧ (s.tr .a).phase = .polka ∧ s.trains = true
        ∧ (s.polkaJudge .a []).1 = 0 ∧ s.host.resume = none ∧ s.restoreHolds = false ∧ (s.sub .a).owner = .notReady)
    ∧ (∃ s : State, s.up = true ∧ s.pow.dom ≠ .save ∧ (s.tr .a).phase = .polka ∧ s.trains = true
        ∧ (s.polkaJudge .a []).1 = 0 ∧ s.host.resume = none ∧ s.restoreHolds = true)
    ∧ ∃ s : State, s.up = true ∧ s.pow.dom ≠ .save ∧ (s.tr .a).phase = .polka ∧ s.trains = true
        ∧ s.host.resume = some .a ∧ s.pow.keep = .wake := by
  refine ⟨by decide,
    ⟨{ Wit.train .polka with host := Wit.host.host, subA := { SubSt.fresh with owner := .notReady } }, by decide⟩,
    ⟨{ Wit.train .polka with
        host := Wit.host.host
        hrd := { Hrd.fresh with areaA := ⟨false, some ⟨1, 1, 0, [⟨0x80000000, 1⟩]⟩, some ⟨1, 20, []⟩, none⟩ } }, by decide⟩,
    ⟨{ Wit.train .polka with
        host := { Wit.host.host with resume := some .a }, pow := { Wit.pow1 with dom := .wake, keep := .wake, image := true } },
      by decide⟩⟩

theorem wit_quadrille_steps :
    (Wit.train .reel).up = true ∧ (Wit.train .reel).trains = true ∧ ((Wit.train .reel).tr .a).phase = .reel ∧ (Wit.train .reel).goodRanks .a ≠ 0
      ∧ ((Wit.train .minuet).tr .a).phase = .minuet ∧ ((Wit.train .gavotte).tr .a).phase = .gavotte
      ∧ (Wit.train .minuet).restoreHolds = false := by decide

theorem wit_receivers_and_units :
    ((Wit.train .reel).up = true ∧ (Wit.train .reel).trains = true ∧ (Wit.train .reel).clk.hckOk = true
      ∧ ((Wit.train .reel).sub .b).owner = .notReady ∧ ((Wit.train .reel).tr .b).reelDone = false
      ∧ ((Wit.train .reel).tr .a).reelDone = false ∧ (List.replicate 19 (⟨3, 4⟩ : TapVref)).length = 19
      ∧ (Wit.train .reel).nvs.rescue = false ∧ (Wit.train .reel).regOn .dbPresent = true
      ∧ (Wit.train .reel).subA.owner = .host ∧ (Wit.train .reel).train.a.settleGo = false
      ∧ (Wit.train .reel).train.b.settleGo = false)
    ∧ (∃ s : State, s.up = true ∧ (s.tr .a).settleGo = true ∧ (s.tr .a).unit = some 1)
    ∧ ∃ s : State, s.up = true ∧ s.repairBusy .a = some 4 ∧ 4 < s.flt.repairs.length := by
  refine ⟨by decide,
    ⟨{ Wit.run with train := { Train.fresh with a := { TrainSub.fresh with settleGo := true, unit := some 1 } } }, by decide⟩,
    ⟨{ Wit.run with flt := { Flt.fresh with busyA := some 4 } }, by decide⟩⟩

theorem wit_warm_record_commands :
    Wit.run.up = true ∧ Wit.run.nvs.rescue = false ∧ Wit.run.regOn .warmBoot = true ∧ Wit.run.sels.length = 6 := by decide

theorem wit_calibration_starts :
    ((Wit.cal 5 1).up = true ∧ (Wit.cal 5 1).nvs.rescue = false ∧ (Wit.cal 5 1).pow.dom = .run
      ∧ (Wit.cal 5 1).cal.runs.length = 12 ∧ (Wit.cal 5 1).calRun (3 : BitVec 4).toNat = none
      ∧ (Wit.cal 5 1).regOn .dbPresent = true ∧ (Wit.cal 5 1).fnOn .dbPresent = true
      ∧ (Wit.cal 5 1).reaches ((3 : BitVec 4).toNat - 1) = true ∧ (Wit.cal 5 1).clk.hckOk = true
      ∧ (Wit.cal 5 1).cal.cfg.extractLsb' 0 11 ≠ 0 ∧ (Wit.cal 5 1).regOn .calAdc = true ∧ (Wit.cal 5 1).cal.adcMv ≠ 0
      ∧ (Wit.cal 5 1).calRun 11 = none ∧ (Wit.cal 5 1).reaches 10 = true ∧ (Wit.cal 5 1).cal.defer = [])
    ∧ State.reset.pow.dom ≠ .run ∧ State.reset.pow.dom ≠ .restore := by decide

theorem wit_calibration_ends :
    ((Wit.cal 5 1).up = true ∧ ∃ r, (Wit.cal 5 1).calRun 5 = some r ∧ r.kind = 1 ∧ r.next = [])
    ∧ ((Wit.cal 5 1).reaches 4 = true ∧ (Wit.cal 5 1).cal.defer = []
      ∧ (Wit.cal 5 1).cal.runs.length = 12 ∧ (Wit.cal 5 1).cal.body.units.length = 11)
    ∧ tapOk 2400 (tphFrac 6400 12801) (tphFrac 6400 12800) = false ∧ tapOk 2400 (tphFrac 3328 6656) (tphFrac 3328 6656) = true
    ∧ (∃ r, (Wit.cal 5 2).calRun 5 = some r ∧ r.kind = 2 ∧ r.todo.head? = some 3 ∧ r.shadow = none)
    ∧ (Wit.cal 5 2).swapOf 5 3 = 0
    ∧ tripsAgree (80, 320) (84, 316) = true ∧ tripsAgree (80, 320) (85, 320) = false := by
  refine ⟨⟨by decide, _, rfl, by decide, by decide⟩, by decide, by decide, by decide, ⟨_, rfl, by decide, by decide, by decide⟩, by decide, by decide, by decide⟩
/-- The shadow comparator of receiver 3 is through, and another receiver follows; every sample of an ADC calibration is in. -/
theorem wit_calibration_through :
    (∃ (s : State) (r : CalRun), s.up = true ∧ s.calRun 5 = some r ∧ r.kind = 2 ∧ r.todo.head? = some 3 ∧ s.swapOf 5 3 = 0
      ∧ r.shadow = some (some (1, 2)) ∧ 1 < r.todo.length)
    ∧ (∃ (s : State) (r : CalRun), s.up = true ∧ s.calRun 5 = some r ∧ r.kind = 2 ∧ r.todo.head? = some 3 ∧ s.swapOf 5 3 = 1)
    ∧ ∃ (s : State) (r : CalRun), s.up = true ∧ s.calRun 11 = some r ∧ s.reaches 10 = true ∧ 256 ≤ s.cal.adcRun.count
      ∧ s.cal.adcRun.flagged = false ∧ gainOk 20 5000 (nth s.cal.adcRun.sums 0 0) (nth s.cal.adcRun.sums 2 0) = true
      ∧ gainOk 80 5000 (nth s.cal.adcRun.sums 1 0) (nth s.cal.adcRun.sums 3 0) = true
      ∧ offsetOk 20 (nth s.cal.adcRun.sums 2 0) = true ∧ s.cal.adcLatched = 5000 :=
  ⟨⟨(Wit.cal 5 2).setRun 5 (some ⟨2, false, [], false, false, [3, 4], some (some (1, 2)), false, [], [], ⟨[], []⟩, 0, false,
      CalUnit.fresh⟩), _, by decide, rfl, by decide⟩,
   ⟨(Wit.cal 5 2).setSwap 5 3 1, _, by decide, rfl, by decide⟩,
   ⟨{ Wit.cal 11 4 with cal := { (Wit.cal 11 4).cal with adcRun := ⟨[262144, 65536, 0, 0], 256, false⟩ } }, _, by decide, rfl,
      by decide⟩⟩

theorem wit_live_trim :
    ((Wit.trim 2 ⟨0, 3, false, true, false⟩).up = true ∧ (Wit.trim 2 ⟨0, 3, false, true, false⟩).trimOn 2 = true
      ∧ (Wit.trim 2 ⟨0, 3, false, true, false⟩).calRun (trimCal 2) = none
      ∧ nth (Wit.trim 2 ⟨0, 3, false, true, false⟩).trim.queues 2 [] = [⟨0, 3, false, true, false⟩]
      ∧ (Wit.trim 2 ⟨0, 3, false, true, false⟩).suspended 2 0 = false
      ∧ (Wit.trim 2 ⟨0, 3, false, true, false⟩).trim.recentre = []
      ∧ stepEdge ((Wit.trim 2 ⟨0, 3, false, true, false⟩).trimVal 2 0 3) false true = false
      ∧ ((Wit.trim 2 ⟨0, 3, false, true, false⟩).db 0).stagePend = false
      ∧ (Wit.trim 2 ⟨0, 3, false, true, false⟩).reaches 0 = true ∧ (Wit.trim 2 ⟨0, 3, false, true, false⟩).dbcOn = true)
    ∧ (Wit.trim 0 ⟨0, 3, false, true, false⟩).trim.placed.length = 12
    ∧ nth (Wit.trim 1 ⟨0, 3, false, true, false⟩).trim.placed 0 none = none
    ∧ nth (Wit.trim 0 ⟨0, 3, false, true, false⟩).trim.placed (subNo .a) none = some ⟨0, 3, false, true, false⟩
    ∧ (Wit.trim 0 ⟨0, 3, false, true, false⟩).clk.hckOk = true ∧ (Wit.trim 0 ⟨0, 3, false, true, false⟩).calRun 0 = none
    ∧ 3 < ((Wit.trim 0 ⟨0, 3, false, true, false⟩).tr .a).ca.length
    ∧ (Wit.cal 5 1).calRun (trimCal 6) ≠ none
    ∧ stepEdge ⟨0, 0⟩ false true = true := by decide
/-- A buffer that holds live trim's step, staged and armed. -/
theorem wit_live_trim_staged : ∃ s : State, s.dbcOn = true ∧ (s.db 2).stagePend = true ∧ (s.db 2).stageArmed = true
    ∧ s.dbs.length = 10 ∧ nth s.trim.placed (2 + 2) none = some ⟨0, 3, false, true, false⟩ :=
  ⟨{ Wit.trim 2 ⟨0, 3, false, true, false⟩ with
      trim := { Trim.fresh with placed := (List.replicate 12 none).set 4 (some ⟨0, 3, false, true, false⟩) }
      dbs := (List.range 10).map (fun n => { Db.fresh with stagePend := n == 2, stageArmed := n == 2 }) }, by decide⟩

theorem wit_commits :
    ((Wit.nvs id).w9Free = true ∧ (Wit.nvs id).nvs.pend = [3] ∧ (Wit.nvs id).regionOpen 3 = true
      ∧ (Wit.nvs id).wearOk 3 = true ∧ (Wit.nvs id).spaceOk 3 = true
      ∧ ((Wit.nvs id).pool.claim .w9).2 = true ∧ (Wit.nvs id).nvs.inUse.length = 5 ∧ (Wit.nvs id).nvs.spacing.length = 7)
    ∧ ((Wit.nvs (fun n => { n with spacing := List.replicate 7 5 })).spaceOk 3 = false
      ∧ (Wit.nvs (fun n => { n with wear := List.replicate 5 (20, 20) })).wearOk 3 = false)
    ∧ (∃ (c : Commit) (s : State), s.nvs.commit = some c ∧ c.second = true ∧ c.region = 6)
    ∧ (Wit.nvs id).up = true ∧ (Wit.nvs id).nvs.rescue = false ∧ (Wit.nvs id).regOn .settingsWrite = true
    ∧ (Wit.nvs id).nvs.preErase = none := by
  refine ⟨by decide, by decide, ⟨_, Wit.nvs (fun n => { n with commit := some ⟨6, true, .settings ⟨0, 0, false, []⟩, true, 0⟩ }),
    rfl, by decide⟩, by decide, by decide, by decide, by decide⟩
/-- A commit of the settings, ready to be verified. -/
theorem wit_commit_done : ∃ (c : Commit) (s : State), s.nvs.commit = some c ∧ s.nvs.preErase = none ∧ c.second = false ∧ c.region = 3
    ∧ s.nvs.inUse.length = 5 ∧ c.snap = .settings ⟨0, 0, false, []⟩ ∧ 1 ≤ c.sum.2 ∧ c.sum.2 ≤ (regionAt c.region false).2 - 32
    ∧ genOk (s.nextGen c.region).toNat = true ∧ s.nv.fram = false ∧ s.w9Ends = false :=
  ⟨_, Wit.nvs (fun n => { n with commit := some ⟨3, true, .settings ⟨0, 0, false, []⟩, false, 0⟩ }), rfl, by decide +kernel⟩

theorem wit_image_load :
    (Wit.run.up = true ∧ Wit.run.nvs.rescue = false ∧ Wit.run.regOn .settingsWrite = true ∧ Wit.run.gated = false
      ∧ Wit.run.nvs.img = none)
    ∧ (∃ (i : ImgLoad) (s : State), s.up = true ∧ s.nvs.rescue = false ∧ s.regOn .settingsWrite = true ∧ s.nvs.img = some i ∧ i.count < i.kib * 256)
    ∧ ∃ (i : ImgLoad) (s : State), s.up = true ∧ s.gated = false ∧ s.nvs.img = some i ∧ i.kib * 256 ≤ i.count := by
  refine ⟨by decide, ⟨_, Wit.nvs (fun n => { n with img := some ⟨1, [], 0⟩ }), by decide, by decide, by decide, rfl, by decide⟩,
    ⟨_, Wit.nvs (fun n => { n with img := some ⟨1, [], 256⟩ }), by decide, by decide, rfl, by decide⟩⟩

theorem wit_rings_and_time :
    (Wit.run.up = true ∧ Wit.run.nvs.rescue = false ∧ Wit.run.sels.length = 6 ∧ Wit.run.offers .retain = true
      ∧ Wit.run.pow.dom ≠ .attended ∧ (0x80001234 : Word).extractLsb' 16 15 = 0)
    ∧ (∃ (r : EventRec) (s : State), s.up = true ∧ s.batchDue .event = true ∧ s.nvs.waitE = [r]
        ∧ s.ringTakes .event (highSeq s.nv.eventRing) = true ∧ (s.pool.claim .w9).2 = true)
    ∧ (∃ (r : FaultRec) (s : State), s.up = true ∧ s.batchDue .fault = true ∧ s.nvs.waitF = [r]
        ∧ highSeq s.nv.faultRing % 128 ≠ 0 ∧ highSeq s.nv.faultRing < 0xFFFFFFFE ∧ (s.pool.claim .w9).2 = true)
    ∧ Wit.run.nvs.scanF = false ∧ Wit.run.nvs.scanE = false := by
  refine ⟨by decide, ⟨_, Wit.nvs (fun n => { n with scanE := true, waitE := [⟨3, 1, 0, 0⟩] }), by decide, by decide, rfl,
      by decide⟩,
    ⟨⟨1, 0, 0, 0, .none, 0, [], []⟩, { Wit.nvs (fun n => { n with scanF := true, waitF := [⟨1, 0, 0, 0, .none, 0, [], []⟩] }) with
        nv := { Nv.ref with faultRing := [(5, ⟨1, 0, 0, 0, .none, 0, [], []⟩)] } }, by decide, by decide, rfl, by decide⟩,
    by decide, by decide⟩

theorem wit_fault_windows :
    ((Wit.flt { Res.fresh with pend := 20 }).up = true ∧ (Wit.flt { Res.fresh with pend := 20 }).fnOn .faultWindows = true
      ∧ (Wit.flt { Res.fresh with pend := 20 }).flt.res = [(resKey 1 3, { Res.fresh with pend := 20 })]
      ∧ (Wit.flt { Res.fresh with pend := 20 }).acts 1 25 = true ∧ (Wit.flt Res.fresh).evt.srcs.length = 64
      ∧ (nth (Wit.flt Res.fresh).evt.srcs 40 EvtSrc.fresh).en = true ∧ (Wit.flt Res.fresh).thresh 1 ≤ 20)
    ∧ ((Wit.flt Res.fresh).nvs.rescue = false ∧ (Wit.flt Res.fresh).regOn .faultWindows = true
      ∧ (Wit.flt Res.fresh).offers .retain = true ∧ (Wit.flt Res.fresh).flt.cfg.length = 6)
    ∧ ((0x0B1005A0 : Word).extractLsb' 29 3 = 0 ∧ ((0x0B1005A0 : Word).extractLsb' 0 16).toNat = 1440
      ∧ (0x0B1005A0 : Word).extractLsb' 16 8 ≠ 0 ∧ (0x0B1005A0 : Word).extractLsb' 24 5 &&& 11 = (0x0B1005A0 : Word).extractLsb' 24 5)
    ∧ 3 ∈ (Wit.flt { Res.fresh with quiet := 2 }).listed 1 ∧ (Wit.flt Res.fresh).listed 2 = []
    ∧ ∃ s : State, s.fnOn .faultWindows = false := by
  refine ⟨by decide, by decide, by decide, by decide, by decide, { Wit.run with feat := { Wit.run.feat with active := 0 } }, by decide⟩

theorem wit_fault_commands :
    (Wit.bus.up = true ∧ Wit.bus.nvs.rescue = false ∧ Wit.bus.regOn .faultWindows = true ∧ Wit.bus.regOn .pprAuto = true
      ∧ (Wit.bus.resSel .hubA).1 = 0 ∧ Wit.bus.flt.repairs.length = 32 ∧ Wit.bus.offers .retain = true)
    ∧ (∃ (u : Suspect) (s : State), s.up = true ∧ s.nvs.rescue = false ∧ s.regOn .faultWindows = true ∧ s.regOn .pprAuto = true
        ∧ (s.resSel .hubA).1 = 0 ∧ (s.res 0 (s.resSel .hubA).2).suspect = some u ∧ s.repairRefused (s.resSel .hubA).2 u.at_ = false
        ∧ s.resPresent 0 (s.resSel .hubA).2 = true ∧ s.flt.repairs.length = 32
        ∧ (nth s.flt.repairs 5 Repair.none).status ≠ .empty)
    ∧ (3 ∈ (Wit.flt { Res.fresh with quiet := 2 }).listed 1 ∧ ((Wit.flt Res.fresh).listed 1).Nodup)
    ∧ (Wit.bus.res 0 (Wit.bus.resSel .hubA).2).suspect = none
    ∧ (∃ s : State, s.up = true ∧ s.nvs.rescue = false ∧ s.regOn .faultWindows = true ∧ s.offers .retain = false
        ∧ s.regOn .pprAuto = false)
    ∧ State.reset.up = false := by
  refine ⟨by decide, ⟨⟨⟨1, 2, 3⟩, 4⟩, { Wit.bus with
        host := { Wit.bus.host with cfgA := 1 }
        flt := { Wit.bus.flt with
          res := [(0, { Res.fresh with suspect := some ⟨⟨1, 2, 3⟩, 4⟩ })]
          repairs := (List.replicate 32 Repair.none).set 5 { Repair.none with status := .wanted } } },
      by decide⟩, by decide, by decide,
    ⟨{ Wit.bus with feat := { Wit.bus.feat with offer := 0xFFF7, active := 0xFFB7 } }, by decide⟩, by decide⟩

theorem wit_pack_test :
    (∃ s : State, s.up = true ∧ s.offers .retain = true ∧ s.fnOn .faultWindows = true ∧ s.flt.pack.extractLsb' 0 10 ≠ 0
        ∧ s.flt.test.due = true ∧ s.flt.test.busy = false ∧ s.pow.dom = .run ∧ s.pow.hostPg = true ∧ s.zxp.chg = 3
        ∧ 24000 ≤ s.vbank ∧ s.hrd.st = .idle)
    ∧ (∃ s : State, s.up = true ∧ s.flt.test.busy = true ∧ s.offers .retain = true ∧ s.fnOn .faultWindows = true)
    ∧ (∃ s : State, s.up = true ∧ s.flt.test.busy = (!true) ∧ s.flt.test.due = true)
    ∧ State.reset.flt.test.due = false := by
  refine ⟨⟨{ Wit.run with
      flt := { Wit.run.flt with pack := 0x0C8140A8, test := { Wit.run.flt.test with due := true, busy := false } }
      zxp := { Wit.run.zxp with chg := 3, chans := List.replicate 3 { AdcCh.fresh with value := 30000 } } }, by decide⟩,
    ⟨{ Wit.run with flt := { Wit.run.flt with test := { Wit.run.flt.test with busy := true } } }, by decide⟩,
    ⟨{ Wit.run with flt := { Wit.run.flt with test := { Wit.run.flt.test with due := true, busy := false } } }, by decide⟩, by decide⟩

theorem wit_event_arise :
    Wit.run.pd2 = true ∧ Wit.run.settled = true ∧ Wit.run.latches 33 = false ∧ Wit.run.evtPresent 33 = true
      ∧ Wit.run.evt.srcs.length = 64 ∧ (nth Wit.run.evt.srcs 33 EvtSrc.fresh).en = true
      ∧ (∃ s : State, s.pd2 = true ∧ s.settled = true ∧ s.latches 33 = false ∧ s.evtPresent 33 = true
          ∧ s.evt.srcs.length = 64 ∧ (nth s.evt.srcs 33 EvtSrc.fresh).en = false) := by
  refine ⟨by decide, by decide, by decide, by decide, by decide, by decide,
    { Wit.run with evt := { Wit.run.evt with srcs := List.replicate 64 { EvtSrc.fresh with cfg := 0x28 } } }, by decide⟩

theorem wit_event_unit :
    ((Wit.evt 0x3F).up = true ∧ (Wit.evt 0x3F).settled = true ∧ (Wit.evt 0x3F).evt.srcs.length = 64
      ∧ (Wit.evt 0x3F).evt.queue.length ≤ 32 ∧ (Wit.evt 0x3F).evt.queue = [⟨33, 1, 9, 3⟩] ∧ (Wit.evt 0x3F).fnActive .hostNotify = true
      ∧ (Wit.evt 0x3F).twb.host.job = none ∧ (Wit.evt 0x3F).nvs.waitE.length < 64 ∧ (Wit.evt 0x3F).nvs.rescue = false
      ∧ (Wit.evt 0x3F).regOn .events64 = true)
    ∧ ((nth (Wit.evt 0x3F).evt.srcs 63 EvtSrc.fresh).en = true ∧ (nth (Wit.evt 0x3F).evt.srcs 63 EvtSrc.fresh).status = true
      ∧ (nth (Wit.evt 0x3F).evt.srcs 63 EvtSrc.fresh).cfg.getLsbD 1 = true)
    ∧ (∃ (e : EvtEntry) (q : List EvtEntry) (s : State), s.up = true ∧ s.evt.queue = e :: q
        ∧ ((nth s.evt.srcs e.src.toNat EvtSrc.fresh).cfg.getLsbD 2 && s.fnActive .hostNotify) = true ∧ s.twb.host.job ≠ none)
    ∧ (Wit.run.evt.queue = [] ∧ State.reset.settled = false ∧ (0xEE630005 : Word).extractLsb' 16 16 = 0xEE63)
    ∧ (Wit.evt 0x3F).pinEvtLow = true := by
  refine ⟨by decide, by decide, ⟨⟨33, 1, 9, 3⟩, [], { Wit.evt 0x3F with
    twb := { (Wit.evt 0x3F).twb with host := { (Wit.evt 0x3F).twb.host with job := some (.notify 1 1) } } }, by decide⟩, by decide, by decide⟩

theorem wit_twb_registers :
    ((Wit.twb id).up = true ∧ (Wit.twb id).answers .loc 0 0x58 false = true ∧ (Wit.twb id).answers .loc 0 0x58 true = true
      ∧ ((Wit.twb id).port .loc).exec = none ∧ ((Wit.twb id).port .loc).staged = none
      ∧ ((Wit.twb id).port .loc).cfg.getLsbD 0 = false ∧ ((Wit.twb id).port .loc).cfg.getLsbD 1 = true
      ∧ ((Wit.twb id).port .loc).readLen = 4)
    ∧ ((Wit.twb (fun t => { t with cfg := 1, readLen := 33 })).answers .loc 0 0x58 false = true
      ∧ ((Wit.twb (fun t => { t with cfg := 1, readLen := 33 })).port .loc).cfg.getLsbD 0 = true
      ∧ 32 < ((Wit.twb (fun t => { t with cfg := 1, readLen := 33 })).port .loc).readLen
      ∧ ((Wit.twb (fun t => { t with cfg := 1 })).port .loc).cfg.getLsbD 1 = false
      ∧ ((Wit.twb (fun t => { t with cfg := 1 })).port .loc).readLen = 4)
    ∧ ∃ s : State, s.up = true ∧ (s.port .loc).exec = some (0x1C00, 5) := by
  refine ⟨by decide, by decide, Wit.twb (fun t => { t with exec := some (0x1C00, 5) }), by decide⟩

theorem wit_twb_stream :
    ((Wit.twb id).answers .loc 1 0x60 false = true ∧ (Wit.twb id).answers .loc 1 0x60 true = true
      ∧ ((Wit.twb id).port .loc).read = none ∧ ((Wit.twb id).pool.claim .loc).2 = true ∧ (Wit.twb id).oldSeq .event ≤ (Wit.twb id).nextSeq .event)
    ∧ (({ (Wit.twb id) with pool := { (Wit.twb id).pool with w9 := 4, cores := 7, host := 2, loc := 2 } }).pool.claim .loc).2 = false
    ∧ (∃ (r : TwbRead) (s : State), s.up = true ∧ (s.port .loc).read = some r ∧ r.filled = false)
    ∧ (∃ (r : TwbRead) (s : State), s.up = true ∧ (s.port .loc).read = some r ∧ r.filled = true
        ∧ s.answers .loc 1 0x60 true = true)
    ∧ (∃ s : State, s.up = true ∧ s.evt.halrt = true ∧ 0x58 + s.pow.straps.hsa.toNat ≤ (0x60 : BitVec 7).toNat
        ∧ (0x50 : BitVec 7).toNat < 0x58 + s.pow.straps.hsa.toNat)
    ∧ (∃ s : State, s.up = true ∧ s.twb.host.job = some (.notify 33 1) ∧ s.twb.host.tries < 8)
    ∧ (∃ s : State, s.up = true ∧ s.twb.host.job = some (.notify 33 1) ∧ 8 ≤ s.twb.host.tries)
    ∧ (∃ (q : PollSt) (s : State), s.up = true ∧ s.twb.polls.length = 4 ∧ nth s.twb.polls 2 ⟨0, 0, false, false, 0⟩ = q
        ∧ q.cfg.getLsbD 31 = true ∧ q.cfg.getLsbD 17 = false ∧ s.twb.loc.job = none ∧ 2 ∉ s.twb.due)
    ∧ (∃ (q : PollSt) (s : State), s.up = true ∧ s.twb.polls.length = 4 ∧ nth s.twb.polls 2 ⟨0, 0, false, false, 0⟩ = q
        ∧ q.cfg.getLsbD 31 = true ∧ q.cfg.getLsbD 17 = false ∧ s.twb.loc.job ≠ none ∧ s.twb.loc.job ≠ some (.poll 2)
        ∧ 2 ∉ s.twb.due)
    ∧ ∃ (q : PollSt) (s : State), s.up = true ∧ s.twb.polls.length = 4 ∧ nth s.twb.polls 2 ⟨0, 0, false, false, 0⟩ = q
        ∧ q.cfg.getLsbD 31 = true ∧ q.cfg.getLsbD 17 = false ∧ s.twb.loc.job = some (.poll 2) ∧ s.twb.loc.tries = 8 := by
  refine ⟨by decide, by decide,
    ⟨⟨.event, false, false, false, 0, []⟩, Wit.twb (fun t => { t with read := some ⟨.event, false, false, false, 0, []⟩ }), by decide⟩,
    ⟨⟨.event, true, false, false, 0, []⟩, Wit.twb (fun t => { t with read := some ⟨.event, true, false, false, 0, []⟩ }), by decide⟩,
    ⟨{ Wit.run with evt := { Wit.run.evt with halrt := true } }, by decide⟩,
    ⟨Wit.run.setPort .host (fun t => { t with job := some (.notify 33 1), tries := 3 }), by decide⟩,
    ⟨Wit.run.setPort .host (fun t => { t with job := some (.notify 33 1), tries := 8 }), by decide⟩,
    ⟨⟨0x80110012, 0, false, false, 0⟩, { Wit.run with twb := { Wit.run.twb with polls := List.replicate 4 ⟨0x80110012, 0, false, false, 0⟩ } }, by decide⟩,
    ⟨⟨0x80110012, 0, false, false, 0⟩, { Wit.run with twb := { Wit.run.twb with
      polls := List.replicate 4 ⟨0x80110012, 0, false, false, 0⟩
      loc := { Wit.run.twb.loc with job := some (.poll 1) } } }, by decide⟩,
    ⟨⟨0x80110012, 0, false, false, 0⟩, { Wit.run with twb := { Wit.run.twb with
      polls := List.replicate 4 ⟨0x80110012, 0, false, false, 0⟩
      loc := { Wit.run.twb.loc with job := some (.poll 2), tries := 8 } } }, by decide⟩⟩

theorem wit_console_lines :
    ((Wit.con id).up = true ∧ ((Wit.con id).ses .uart).machine = false ∧ (Wit.con id).conIdle = true ∧ (Wit.con id).con.queue = []
      ∧ (Wit.con id).answers .loc 2 0x70 false = true ∧ (Wit.con id).answers .loc 2 0x70 true = true
      ∧ ((Wit.con id).pool.claim .loc).2 = true ∧ ((Wit.con id).ses .loc).resp = [] ∧ ((Wit.con id).ses .loc).backlog = []
      ∧ ((Wit.con id).ses .loc).lost = 0 ∧ ((Wit.con id).ses .loc).ending = none)
    ∧ ((Wit.con (fun t => { t with machine := true })).up = true
      ∧ ((Wit.con (fun t => { t with afterCr := true })).ses .uart).afterCr = true
      ∧ ((Wit.con (fun t => { t with line := ['i', 'd'] })).ses .uart).afterCr = false
      ∧ wordsOf ((Wit.con (fun t => { t with line := ['i', 'd'] })).ses .uart).line ≠ [])
    ∧ (∃ s : State, s.up = true ∧ 4 ≤ s.con.queue.length)
    ∧ (∃ (l : Text) (q : List (Req × Text)) (w : Bool) (k : ConCmd) (s : State), s.up = true ∧ s.conIdle = true
        ∧ s.con.queue = (⟨.uart, none⟩, l) :: q ∧ parseLine false l = .ok (w, k))
    ∧ (({ Wit.run with pool := { Wit.run.pool with w9 := 4, cores := 7, host := 2, loc := 2 } }).pool.claim .loc).2 = false
    ∧ (∃ (nn : BitVec 8) (l : Text), machineForm (tx "#5C id *" ++ hexPad 4 (crc16 ((tx "#5C id ").map byteOf)).toNat) = some (nn, l, true))
    ∧ machineForm ['x'] = none := by
  refine ⟨by decide, by decide, ⟨{ Wit.run with con := { Wit.run.con with queue := List.replicate 4 (⟨.uart, none⟩, ['i', 'd']) } }, by decide⟩,
    ⟨['i', 'd'], [], false, .id, { Wit.run with con := { Wit.run.con with queue := [(⟨.uart, none⟩, ['i', 'd'])] } }, by decide, by decide, by decide, by decide +kernel⟩,
    by decide, ⟨0x5C, ['i', 'd'], by decide +kernel⟩, by decide⟩

theorem wit_console_sessions :
    Wit.run.up = true ∧ Wit.run.con.revertTo = none
    ∧ (∃ (r : BitVec 4) (s : State), s.up = true ∧ s.con.revertTo = some r ∧ r ≠ s.con.cfg.extractLsb' 0 4)
    ∧ (∃ s : State, s.up = true ∧ (s.ses .host).resp ≠ [] ∧ outCap .host ≤ (s.ses .host).out.length ∧ s.executes .host = false)
    ∧ (∃ s : State, s.up = true ∧ s.con.cfg.extractLsb' 16 3 = 1 ∧ s.con.uart.machine = false ∧ s.con.uart.line = []
        ∧ s.con.uart.resp = [] ∧ s.con.uart.lost = 0 ∧ s.con.uart.ending = none ∧ s.executes .uart = false
        ∧ s.con.uart.backlog = [] ∧ s.con.uart.out = [])
    ∧ (∃ s : State, s.up = true ∧ s.con.cfg.extractLsb' 16 3 = 1 ∧ s.con.uart.machine = false ∧ s.con.uart.line = []
        ∧ s.con.uart.resp = [] ∧ s.con.uart.lost = 0 ∧ s.con.uart.ending = none ∧ s.executes .uart = true)
    ∧ (∃ s : State, s.con.cfg.extractLsb' 16 3 = 0)
    ∧ (∃ s : State, s.up = true ∧ s.con.uart.resp = [] ∧ s.con.uart.backlog = [] ∧ s.con.uart.lost = 0
        ∧ s.con.uart.ending = some .toMachine)
    ∧ ∃ s : State, s.up = true ∧ (s.ses .uart).unlocked = true ∧ s.con.cfg.extractLsb' 8 8 ≠ 0 := by
  refine ⟨by decide, by decide,
    ⟨5, { Wit.run with con := { Wit.run.con with revertTo := some 5 } }, by decide⟩,
    ⟨Wit.run.setSes .host (fun t => { t with out := List.replicate 1024 'a', resp := [['b', '\n']] }), by decide, by decide, ?_, by decide⟩,
    ⟨{ Wit.run with con := { Wit.run.con with cfg := 0x00010A04 } }, by decide⟩,
    ⟨{ Wit.run with con := { Wit.run.con with cfg := 0x00010A04, exec := some ⟨⟨.uart, none⟩, .adc, 5⟩ } }, by decide⟩,
    ⟨{ Wit.run with con := { Wit.run.con with cfg := 0x0A04 } }, by decide⟩,
    ⟨Wit.con (fun t => { t with ending := some .toMachine }), by decide⟩,
    ⟨{ Wit.con (fun t => { t with unlocked := true }) with con := { (Wit.con (fun t => { t with unlocked := true })).con with cfg := 0x0A04 } }, by decide⟩⟩
  change 1024 ≤ (List.replicate 1024 'a').length
  rw [List.length_replicate]

theorem wit_console_answers :
    (Wit.run.up = true ∧ Wit.run.nvs.rescue = false ∧ Wit.run.conIdle = true ∧ (Wit.run.pool.claim .con).2 = true)
    ∧ (Wit.run.regOn .liveTrim = true ∧ Wit.run.offers .retain = true ∧ Wit.run.regOn .hoard = true ∧ Wit.run.regOn .faultWindows = true
      ∧ Wit.run.evtRegPresent 63 = true ∧ Wit.run.resPresent 2 1 = true ∧ Wit.run.locked = true ∧ Wit.run.regOn .conMachine = true)
    ∧ Wit.run.conReady ⟨.uart, none⟩ ∧ (Wit.run.ses .uart).quiet ∧ Wit.run.conDenied ⟨.uart, none⟩ = false ∧ Wit.run.con.lockout = false
    ∧ Wit.run.codeRight ['x'] = false
    ∧ (∃ s : State, s.codeRight ['2', '3', '4', '5', '6', '7', '8', '9'] = true)
    ∧ ∃ s : State, s.up = true ∧ s.conIdle = true ∧ (s.ses .host).lastNn = some 7 := by
  refine ⟨by decide, by decide, ⟨by decide, by decide, by decide, by decide, Or.inl rfl⟩, by unfold SessSt.quiet; decide, by decide, by decide, by decide, ⟨{ Wit.run with nv := { Wit.run.nv with factory := { Wit.run.nv.factory with
      service := crc32c ((upper ['2', '3', '4', '5', '6', '7', '8', '9']).map byteOf ++ leBytes 8 Wit.run.modl.serial.toNat) } } }, ?_⟩,
    ⟨Wit.run.setSes .host (fun t => { t with machine := true, lastNn := some 7 }), by decide⟩⟩
  have h : (upper ['2', '3', '4', '5', '6', '7', '8', '9']).length == 8 := by decide
  simp only [State.codeRight, h, Bool.true_and, beq_self_eq_true]

theorem wit_console_commands :
    (Wit.run.conReady ⟨.uart, none⟩ ∧ Wit.run.conDenied ⟨.uart, none⟩ = false)
    ∧ (Wit.run.regOn .liveTrim = true ∧ Wit.run.regOn .warmBoot = true ∧ Wit.run.gated = false ∧ Wit.run.calDom = true ∧ Wit.run.regOn .calAdc = true
      ∧ Wit.run.pow.dom = .run ∧ Wit.run.unreach 10 = false ∧ Wit.run.offers .retain = true ∧ Wit.run.regOn .hoard = true
      ∧ Wit.run.hrd.st = .idle ∧ Wit.run.hrd.unfinished = false ∧ Wit.run.regOn .faultWindows = true ∧ Wit.run.regOn .pprAuto = true
      ∧ Wit.run.regOn .events64 = true ∧ Wit.run.settled = true ∧ Wit.run.nvs.img = none ∧ Wit.run.regOn .settingsWrite = true)
    ∧ (Wit.run.conTaken.admits [(0x2C20, 0)] ∧ Wit.run.conTaken.admits [(0x1008, 0xCA1B0001)]
      ∧ (Wit.run.conTaken.wrote [(0x1008, 0xCA1B0001)]).calOpen 0 = true ∧ Wit.run.conTaken.admits [(0x1C0C, 50)]
      ∧ Wit.run.conTaken.admits [(0x1430, selWord 4 none), (0x143C, 0xF17C0002)])
    ∧ (∃ s : State, s.conReady ⟨.uart, none⟩ ∧ s.conDenied ⟨.uart, none⟩ = false ∧ s.locked = false ∧ s.feat.accept.getLsbD 0 = true
        ∧ s.conTaken.admits [(0x0050, 0xA5C3)])
    ∧ ∃ s : State, s.conReady ⟨.uart, none⟩ ∧ s.conDenied ⟨.uart, none⟩ = true := by
  have hr : ∀ s : State, (s.up && !s.nvs.rescue && s.conIdle && (s.pool.claim .con).2) = true → s.conReady ⟨.uart, none⟩ := by
    intro s h
    simp only [Bool.and_eq_true, Bool.not_eq_true'] at h
    exact ⟨h.1.1.1, h.1.1.2, h.1.2, h.2, Or.inl rfl⟩
  refine ⟨⟨hr _ (by decide), by decide⟩, by decide, ⟨⟨⟨_, rfl, by decide⟩, trivial⟩, ⟨⟨_, rfl, by decide⟩, trivial⟩, by decide, ⟨⟨_, rfl, by decide⟩, trivial⟩,
      ⟨⟨_, rfl, by decide⟩, ⟨_, rfl, by decide⟩, trivial⟩⟩,
    ⟨{ Wit.run with feat := { Feat.fresh with phase := .waitHost, offer := 0xFFFF, accept := 0x4007 } }, hr _ (by decide), by decide, by decide, by decide,
      ⟨_, rfl, by decide⟩, trivial⟩,
    ⟨{ Wit.run with pow := { Wit.run.pow with straps := { Wit.run.pow.straps with conWp := true } } }, hr _ (by decide), by decide⟩⟩

theorem wit_warren :
    ((Wit.wrn .running 2).up = true ∧ ((Wit.wrn .running 2).wrn.core 3).st = .running ∧ (Wit.wrn .running 2).wrn.cores.length = 12
      ∧ (Wit.wrn .running 2).wrn.chans.length = 64 ∧ (nth (Wit.wrn .running 2).wrn.routes 10 (0 : Word)).getLsbD 31 = true
      ∧ (nth (Wit.wrn .running 2).wrn.routes 10 (0 : Word)).extractLsb' 0 4 = 3
      ∧ (nth (Wit.wrn .running 2).wrn.routes 10 (0 : Word)).getLsbD 14 = true ∧ ((Wit.wrn .running 2).wrn.chan 10).q.length < 16
      ∧ 16 ≤ ((Wit.wrn .running 16).wrn.chan 10).q.length ∧ (nth (Wit.wrn .running 2).wrn.routes 11 (0 : Word)).getLsbD 31 = false)
    ∧ ((Wit.wrn .running 2).wrn.feeder 1 1 = some 10 ∧ ((Wit.wrn .running 2).wrn.chan 10).q = [7] :: [[7]]
      ∧ (Wit.wrn .running 2).wrn.feeder 1 2 = none)
    ∧ (((Wit.wrn .select 2).wrn.core 1).st = .select ∧ ((Wit.wrn .select 2).wrn.core 1).selMask.getLsbD 1 = true
      ∧ (Wit.wrn .select 2).wrn.portFull 1 1 = true ∧ (Wit.wrn .select 2).wrn.portFull 1 2 = false
      ∧ ((Wit.wrn .select 2).wrn.core 1).selTmo ≠ 0)
    ∧ (((Wit.wrn .running 2).wrn.core 0).live = true ∧ (Wit.wrn .running 2).wrn.wdogForced = false
      ∧ (∀ n, n < 11 → (Wit.wrn .running 2).wrn.alive.getLsbD n = true)
      ∧ (Wit.wrn .running 2).fnActive .userCore = true ∧ ((Wit.wrn .running 2).wrn.core 11).st = .held)
    ∧ (∃ s : State, s.up = true ∧ (s.wrn.core 3).stall = some (10, [7]) ∧ s.wrn.cores.length = 12 ∧ (s.wrn.chan 10).q.length < 16)
    ∧ ∃ s : State, s.up = true ∧ s.wrn.cores.length = 12 ∧ (s.wrn.core 11).live = true := by
  refine ⟨by decide, by decide, by decide, by decide, ⟨{ Wit.wrn .running 2 with wrn := { (Wit.wrn .running 2).wrn with
      cores := List.replicate 12 { Core.fresh with st := .sendStall, stall := some (10, [7]) } } }, by decide⟩,
    ⟨{ Wit.wrn .running 2 with wrn := { (Wit.wrn .running 2).wrn with cores := List.replicate 12 { Core.fresh with st := .running } } }, by decide⟩⟩

/-- Witness: a running module and the module at reset stand in legal states. -/
theorem legalDomainsKept_witness : Wit.run.pow.legal Wit.run.modl = true ∧ State.reset.pow.legal State.reset.modl = true := by
  decide
end

/-! SUPPORT. How a register access is judged and carried out (R5 to R11, R195, R403), said once for all paths. -/

namespace Sys2Proof.Machine
open Sys2Proof

/-! ## Masks -/

/-- A number below a bit that the mask reaches up to sets no bit outside the mask. -/
theorem or_mask_of_lt {v m k : Nat} (hv : v < 2 ^ k) (hm : ∀ i < k, m.testBit i = true) : v ||| m = m := by
  refine Nat.eq_of_testBit_eq fun i => ?_
  rw [Nat.testBit_or]
  by_cases hi : i < k
  · simp [hm i hi]
  · rw [Nat.testBit_lt_two_pow (hv.trans_le (Nat.pow_le_pow_right (by omega) (by omega))), Bool.false_or]

/-- The numbers that fit in the lowest bits. -/
theorem or_lowMask_iff {v k : Nat} : v ||| (2 ^ k - 1) = 2 ^ k - 1 ↔ v < 2 ^ k := by
  constructor
  · intro h
    have hle : v ≤ 2 ^ k - 1 := h ▸ Nat.left_le_or
    have := Nat.two_pow_pos k
    omega
  · exact fun hv => or_mask_of_lt hv fun i hi => by simp [Nat.testBit_two_pow_sub_one, hi]

/-- A word without a one outside the mask. -/
theorem toNat_or_of_and_not (v m : Word) (h : v &&& ~~~m = 0) : v.toNat ||| m.toNat = m.toNat := by
  have hor : v ||| m = m := by
    ext i hi
    have hb := congrArg (fun w : Word => w.getLsbD i) h
    simp only [BitVec.getLsbD_and, BitVec.getLsbD_not, hi, decide_true, Bool.true_and] at hb
    simp only [← BitVec.getLsbD_eq_getElem]
    cases hv : v.getLsbD i <;> cases hm : m.getLsbD i <;> simp_all
  rw [← BitVec.toNat_or, hor]

/-- A word's field [31:0] is the word. -/
@[simp] theorem fld_word (v : Word) : fld v 31 0 = v.toNat := by
  simpa [fld] using Nat.mod_eq_of_lt v.isLt

/-! ## Tables -/

theorem nth_upd_ne {α : Type} (l : List α) {i j : Nat} (h : j ≠ i) (f : α → α) (d : α) :
    nth (upd l i f) j d = nth l j d := by
  simp [nth, upd, List.getD_eq_getElem?_getD, Ne.symm h]

theorem nth_upd_self {α : Type} {l : List α} {i : Nat} (h : i < l.length) (f : α → α) (d : α) :
    nth (upd l i f) i d = f (nth l i d) := by
  simp [nth, upd, List.getD_eq_getElem?_getD, h]

/-! ## Judging a write (R6, R7, R11) -/

theorem RegDef.allows_of_readOnly {d : RegDef} (h : d.flds.any Fld.writable = false) (v : Word) : d.allows v = false := by
  simp [RegDef.allows, h]

/-- An allowed value leaves the reserved bits zero and is in the range of the whole. -/
theorem RegDef.fits_and_whole_of_allows {d : RegDef} {v : Word} (h : d.allows v = true) :
    v.toNat ||| d.fieldMask = d.fieldMask ∧ d.whole v.toNat = true := by
  simp only [RegDef.allows, Bool.and_eq_true, beq_iff_eq] at h
  obtain ⟨⟨⟨⟨-, fits⟩, -⟩, -⟩, whole⟩ := h
  exact ⟨fits, whole⟩

/-- A one in a reserved bit (R11). -/
theorem RegDef.allows_of_reserved {d : RegDef} {v : Word} {i : Nat} (hv : v.getLsbD i = true)
    (hm : d.fieldMask.testBit i = false) : d.allows v = false := by
  refine Bool.eq_false_iff.mpr fun h => ?_
  have hb := congrArg (fun n : Nat => n.testBit i) (RegDef.fits_and_whole_of_allows h).1
  simp [Nat.testBit_or, hm, BitVec.testBit_toNat, hv] at hb

/-! ## The value written (R403) -/

/-- The bits of the read-only fields. -/
def RegDef.roMask (d : RegDef) : Nat := d.flds.foldl (fun m f => if f.writable then m else m ||| f.mask) 0

/-- A bit of the value written: what is read in a read-only field, what is given elsewhere. -/
theorem RegDef.getLsbD_merge (d : RegDef) (v : Word) {i : Nat} (hi : i < 32) :
    (d.merge v).getLsbD i = if d.roMask.testBit i then d.read.getLsbD i else v.getLsbD i := by
  have hm : d.merge v
      = BitVec.ofNat 32 ((v.toNat &&& (0xFFFFFFFF ^^^ d.roMask)) ||| (d.read.toNat &&& d.roMask)) := rfl
  have h1 : Nat.testBit 0xFFFFFFFF i = true := by
    rw [show 0xFFFFFFFF = 2 ^ 32 - 1 from rfl, Nat.testBit_two_pow_sub_one]
    simpa using hi
  rw [hm, BitVec.getLsbD_ofNat]
  cases hr : d.roMask.testBit i <;> simp [Nat.testBit_or, Nat.testBit_and, Nat.testBit_xor, h1, hr, hi, BitVec.testBit_toNat]

/-- With no read-only field the value is written as given. -/
theorem RegDef.merge_of_roMask {d : RegDef} (h : d.roMask = 0) (v : Word) : d.merge v = v := by
  ext i hi
  rw [← BitVec.getLsbD_eq_getElem, d.getLsbD_merge v hi, h]
  simp [BitVec.getLsbD_eq_getElem hi]

/-! ## Settings to be stored (R195) -/

theorem State.pendRegion_contains (s : State) (r : Nat) : (s.pendRegion r).nvs.pend.contains r = true := by
  unfold State.pendRegion
  split
  · assumption
  · simp

/-- A region becoming pending changes the list of pending regions alone. -/
theorem State.pendRegion_eq (s : State) (r : Nat) :
    s.pendRegion r = { s with nvs := { s.nvs with pend := (s.pendRegion r).nvs.pend } } := by
  obtain ⟨l, h⟩ := s.pendRegion_form r
  rw [h]

/-- The value differs from what is read in a Kept bit. -/
def RegDef.changes (d : RegDef) (v : Word) : Bool := ((d.merge v).toNat &&& d.keptMask) != (d.read.toNat &&& d.keptMask)

theorem RegDef.changes_eq_false_iff {d : RegDef} {v : Word} :
    d.changes v = false ↔ ∀ i, d.keptMask.testBit i = true → (d.merge v).getLsbD i = d.read.getLsbD i := by
  simp only [RegDef.changes, bne_eq_false_iff_eq]
  constructor
  · intro h i hi
    have hb := congrArg (fun n : Nat => n.testBit i) h
    simpa [Nat.testBit_and, hi, BitVec.testBit_toNat] using hb
  · intro h
    refine Nat.eq_of_testBit_eq fun i => ?_
    cases hi : d.keptMask.testBit i with
    | false => simp [Nat.testBit_and, hi]
    | true => simp [Nat.testBit_and, hi, BitVec.testBit_toNat, h i hi]

/-- A write of a register whose Kept fields are not in the warm record. -/
theorem RegDef.put_eq (d : RegDef) {a : Nat} (h : homeOf a ≠ 5) (v : Word) (s : State) :
    d.put a v s = if d.changes v then (d.write (d.merge v) s).pendRegion (homeOf a) else d.write (d.merge v) s := by
  have home : ∀ t : State, t.homePend (homeOf a) = t.pendRegion (homeOf a) := fun t => if_neg h
  simp only [RegDef.put, home]
  rfl

/-- A register without Kept fields marks no region. -/
theorem RegDef.put_of_not_kept {d : RegDef} (h : d.keptMask = 0) (a : Nat) (v : Word) (s : State) :
    d.put a v s = d.write (d.merge v) s := by
  simp [RegDef.put, h]

/-! ## An access by its register (R5, R6) -/

theorem State.reg_of_up {s : State} (hup : s.up = true) (hres : s.nvs.rescue = false) (p : Path) (a : Addr) :
    s.reg p a = hubReg p a.toNat s := by
  simp [State.reg, hup, hres]

theorem State.hubReg_of_reg {s : State} {p : Path} {a : Addr} {d : RegDef} (h : s.reg p a = some d) :
    hubReg p a.toNat s = some d := by
  unfold State.reg at h
  split at h
  · cases h
  · exact h

theorem State.hubWrite_of_none {s : State} {p : Path} {a : Addr} (h : s.reg p a = none) (v : Word) :
    s.hubWrite p a v = s := by
  simp only [State.hubWrite, h]

theorem State.hubWrite_of_allowed {s : State} {p : Path} {a : Addr} {d : RegDef} {v : Word} (h : s.reg p a = some d)
    (hv : d.allows v = true) : s.hubWrite p a v = d.sent v (d.put a.toNat v s) := by
  simp only [State.hubWrite, h, hv, if_true]

theorem State.hubWrite_of_disallowed {s : State} {p : Path} {a : Addr} {d : RegDef} {v : Word} (h : s.reg p a = some d)
    (hv : d.allows v = false) : s.hubWrite p a v = d.sent v s := by
  simp [State.hubWrite, h, hv]

/-- An allowed write of a register whose Kept fields are stored in region `r`, other than the warm record: the register's
own effect, and the region pending where a Kept bit changes (R195). -/
theorem State.hubWrite_kept {s : State} {p : Path} {a : Addr} {d : RegDef} {v : Word} (r : Nat) (h : s.reg p a = some d)
    (hv : d.allows v = true) (hsent : ∀ t, d.sent v t = t) (hr : homeOf a.toNat = r) (h5 : r ≠ 5) :
    ∃ l, s.hubWrite p a v
        = { d.write (d.merge v) s with nvs := { (d.write (d.merge v) s).nvs with pend := l } }
      ∧ (d.changes v = true → l.contains r = true)
      ∧ (d.changes v = false → l = (d.write (d.merge v) s).nvs.pend) := by
  rw [State.hubWrite_of_allowed h hv, hsent, RegDef.put_eq d (hr ▸ h5), hr]
  cases d.changes v with
  | false => exact ⟨_, rfl, nofun, fun _ => rfl⟩
  | true => exact ⟨_, State.pendRegion_eq _ r, fun _ => State.pendRegion_contains _ r, nofun⟩

end Sys2Proof.Machine

/-! SUPPORT. Which registers send a bus frame besides (R129, R403). -/

namespace Sys2Proof.Machine
open Sys2Proof

/-! ## What a write sends (R129) -/

/-- A register, where there is one, whose write sends nothing beyond the register itself. -/
def SendsNothing (o : Option RegDef) : Prop := ∀ d ∈ o, ∀ v s, d.sent v s = s

theorem SendsNothing.none : SendsNothing none := fun _ h => nomatch h

theorem SendsNothing.ite {c : Prop} [Decidable c] {x y : Option RegDef} (hx : c → SendsNothing x)
    (hy : ¬ c → SendsNothing y) : SendsNothing (if c then x else y) := by
  split
  · exact hx ‹_›
  · exact hy ‹_›

section
variable (p : Path) (a : Nat) (s : State)

theorem featReg_sendsNothing : SendsNothing (featReg p a s) := by
  unfold featReg
  split <;> rintro _ ⟨⟩ <;> intros <;> rfl

theorem hostReg_sendsNothing : SendsNothing (hostReg p a s) := by
  unfold hostReg
  dsimp only
  (repeat' split) <;> rintro _ ⟨⟩ <;> intros <;> rfl

/-- Outside the proxy window 0x0C80 to 0x0FFF (R134). -/
theorem dbmReg_sendsNothing (h : a < 0x0C80 ∨ 0x1000 ≤ a) : SendsNothing (dbmReg p a s) := by
  unfold dbmReg
  have window : ¬ (0x0C80 ≤ a && a < 0x1000) = true := by simp; omega
  simp only [if_neg window]
  (repeat' with_reducible refine SendsNothing.ite (fun _ => ?_) (fun _ => ?_)) <;>
    rintro _ ⟨⟩ <;> intros <;> rfl

theorem calReg_sendsNothing : SendsNothing (calReg p a s) := by
  unfold calReg
  dsimp only
  repeat' first | with_reducible refine SendsNothing.ite (fun _ => ?_) (fun _ => ?_) | split
  all_goals rintro _ ⟨⟩ <;> intros <;> rfl

theorem trainReg_sendsNothing : SendsNothing (trainReg p a s) := by
  unfold trainReg
  dsimp only
  repeat' first | with_reducible refine SendsNothing.ite (fun _ => ?_) (fun _ => ?_) | split
  all_goals rintro _ ⟨⟩ <;> intros <;> rfl

theorem trimReg_sendsNothing : SendsNothing (trimReg p a s) := by
  unfold trimReg
  dsimp only
  repeat' first | with_reducible refine SendsNothing.ite (fun _ => ?_) (fun _ => ?_) | split
  all_goals rintro _ ⟨⟩ <;> intros <;> rfl

theorem fltReg_sendsNothing : SendsNothing (fltReg p a s) := by
  unfold fltReg
  dsimp only
  repeat' first | with_reducible refine SendsNothing.ite (fun _ => ?_) (fun _ => ?_) | split
  all_goals rintro _ ⟨⟩ <;> intros <;> rfl

theorem evtReg_sendsNothing : SendsNothing (evtReg p a s) := by
  unfold evtReg
  dsimp only
  repeat' first | with_reducible refine SendsNothing.ite (fun _ => ?_) (fun _ => ?_) | split
  all_goals rintro _ ⟨⟩ <;> intros <;> rfl

theorem pwrReg_sendsNothing : SendsNothing (pwrReg p a s) := by
  unfold pwrReg
  dsimp only
  repeat' first | with_reducible refine SendsNothing.ite (fun _ => ?_) (fun _ => ?_) | split
  all_goals rintro _ ⟨⟩ <;> intros <;> rfl

theorem nvsReg_sendsNothing : SendsNothing (nvsReg p a s) := by
  unfold nvsReg
  dsimp only
  repeat' first | with_reducible refine SendsNothing.ite (fun _ => ?_) (fun _ => ?_) | split
  all_goals rintro _ ⟨⟩ <;> intros <;> rfl

theorem twbReg_sendsNothing : SendsNothing (twbReg p a s) := by
  unfold twbReg
  dsimp only
  repeat' first | with_reducible refine SendsNothing.ite (fun _ => ?_) (fun _ => ?_) | split
  all_goals rintro _ ⟨⟩ <;> intros <;> rfl

theorem conReg_sendsNothing : SendsNothing (conReg p a s) := by
  unfold conReg
  dsimp only
  split <;> rintro _ ⟨⟩ <;> intros <;> rfl

theorem clkReg_sendsNothing : SendsNothing (clkReg p a s) := by
  unfold clkReg
  dsimp only
  split <;> rintro _ ⟨⟩ <;> intros <;> rfl

theorem wrnReg_sendsNothing : SendsNothing (wrnReg p a s) := by
  unfold wrnReg
  dsimp only
  repeat' first | with_reducible refine SendsNothing.ite (fun _ => ?_) (fun _ => ?_) | split
  all_goals rintro _ ⟨⟩ <;> intros <;> rfl

theorem hrdReg_sendsNothing : SendsNothing (hrdReg p a s) := by
  unfold hrdReg
  dsimp only
  repeat' first | with_reducible refine SendsNothing.ite (fun _ => ?_) (fun _ => ?_) | split
  all_goals rintro _ ⟨⟩ <;> intros <;> rfl

theorem poolReg_sendsNothing : SendsNothing (poolReg p a s) := by
  unfold poolReg
  refine .ite (fun _ => ?_) fun _ => .none
  rintro _ ⟨⟩
  intros
  rfl

/-- The ZX8-P's registers are all behind the proxy (R135). -/
theorem kpaReg_sendsNothing (h : 0x2000 ≤ a) : SendsNothing (kpaReg p a s) := by
  unfold kpaReg
  rw [if_pos (by simp; omega)]
  exact SendsNothing.none

/-- Only a proxied write, of addresses 0x0C80 to 0x1FFF, sends a bus frame (R129, R403). -/
theorem hubReg_sendsNothing (h : a < 0x0C80 ∨ 0x2000 ≤ a) : SendsNothing (hubReg p a s) := by
  unfold hubReg
  refine .ite (fun _ => .none) fun _ => .ite (fun _ => featReg_sendsNothing p a s) fun _ =>
    .ite (fun _ => hostReg_sendsNothing p a s) fun _ => .ite (fun _ => dbmReg_sendsNothing p a s (by omega)) fun _ =>
    .ite (fun _ => calReg_sendsNothing p a s) fun _ => .ite (fun _ => trainReg_sendsNothing p a s) fun _ =>
    .ite (fun _ => trimReg_sendsNothing p a s) fun _ => .ite (fun _ => fltReg_sendsNothing p a s) fun _ =>
    .ite (fun _ => evtReg_sendsNothing p a s) fun _ => .ite (fun _ => pwrReg_sendsNothing p a s) fun _ =>
    .ite (fun _ => kpaReg_sendsNothing p a s (by omega)) fun _ => .ite (fun _ => nvsReg_sendsNothing p a s) fun _ =>
    .ite (fun _ => twbReg_sendsNothing p a s) fun _ => .ite (fun _ => conReg_sendsNothing p a s) fun _ =>
    .ite (fun _ => clkReg_sendsNothing p a s) fun _ => .ite (fun _ => wrnReg_sendsNothing p a s) fun _ =>
    .ite (fun _ => hrdReg_sendsNothing p a s) fun _ => .ite (fun _ => poolReg_sendsNothing p a s) fun _ => .none
end

end Sys2Proof.Machine

/-! SUPPORT. Register writes on every path (O24). -/

namespace Sys2Proof.Machine
open Sys2Proof

/-! ## A write that is ignored -/

/-- A write of no register changes nothing, and a read of none reads zero (R5). -/
theorem State.access_of_no_reg {s : State} {p : Path} {a : Addr} (h : s.reg p a = none) (v : Word) :
    s.hubWrite p a v = s ∧ s.hubRead p a = 0 ∧ s.afterRead p a = s := by
  simp only [State.hubWrite, State.hubRead, State.afterRead, h, and_self]

/-- No table lists an address past the hub space or off a word boundary. -/
theorem hubReg_of_unlisted (p : Path) (s : State) {a : Nat} (h : 0x4000 ≤ a ∨ a % 4 ≠ 0) : hubReg p a s = none := by
  by_cases ha : a % 4 = 0
  · simp (disch := omega) [hubReg, if_neg]
  · rw [hubReg, if_pos (by simpa using ha)]

theorem State.reg_of_unlisted (s : State) (p : Path) {a : Addr} (h : 0x4000 ≤ a.toNat ∨ a.toNat % 4 ≠ 0) :
    s.reg p a = none := by
  rw [State.reg, hubReg_of_unlisted p s h, ite_self]

/-- A write that is not allowed changes nothing but what sending it leaves (R6, R11, R403). -/
theorem State.hubWrite_of_readOnly_or_reserved {s : State} {p : Path} {a : Addr} {d : RegDef} {v : Word}
    (h : s.reg p a = some d)
    (hv : d.flds.any Fld.writable = false ∨ ∃ i, v.getLsbD i = true ∧ d.fieldMask.testBit i = false) :
    s.hubWrite p a v = d.sent v s := by
  refine State.hubWrite_of_disallowed h ?_
  rcases hv with hro | ⟨i, hi, hm⟩
  · exact RegDef.allows_of_readOnly hro v
  · exact RegDef.allows_of_reserved hi hm

/-- Outside the proxied addresses a write that its register does not allow changes nothing (R5). -/
theorem State.hubWrite_ignored {s : State} {p : Path} {a : Addr} {v : Word} (ha : a.toNat < 0x0C80 ∨ 0x2000 ≤ a.toNat)
    (h : ∀ d, hubReg p a.toNat s = some d → d.allows v = false) : s.hubWrite p a v = s := by
  cases hreg : s.reg p a with
  | none => exact State.hubWrite_of_none hreg v
  | some d =>
    have hub := State.hubReg_of_reg hreg
    rw [State.hubWrite_of_disallowed hreg (h d hub)]
    exact hubReg_sendsNothing p a.toNat s ha d hub v s

/-! ## The registers of the pulse width and of parity (R91, R93) -/

/-- HST_ALERT_W. -/
def hstAlertWReg (s : State) : RegDef :=
  { flds := [Fld.kept' 6 0 (fun w => 8 ≤ w && w ≤ 64)], read := s.host.alertW.setWidth 32,
    write := fun v s => { s with host := { s.host with alertW := v.setWidth 7 } } }

/-- HST_PAR_CTRL. -/
def hstParCtrlReg (s : State) : RegDef :=
  { flds := [Fld.keptAny 0 0, Fld.keptAny 1 1], read := packWord [(0, s.host.parEn.toNat), (1, s.host.parStop.toNat)],
    write := fun v s => { s with host := { s.host with parEn := bitAt v 0, parStop := bitAt v 1 } } }

/-- EVT_SRCn. -/
def evtSrcReg (n : Nat) (s : State) : RegDef :=
  { flds := [Fld.keptAny 0 0, Fld.keptAny 1 1, Fld.keptAny 2 2, Fld.keptAny 3 3, Fld.keptAny 4 4, Fld.keptAny 5 5,
             Fld.ro 15 8, Fld.ro 31 16],
    read := srcWord (nth s.evt.srcs n EvtSrc.fresh),
    write := fun v s => { s with evt := settleHalrt s.evt { s.evt with
      srcs := upd s.evt.srcs n (fun x => { x with cfg := toField v.toNat }) } } }

theorem hubReg_hstAlertWReg (p : Path) (s : State) : hubReg p 0x0108 s = some (hstAlertWReg s) := rfl

theorem hubReg_hstParCtrlReg (p : Path) (s : State) : hubReg p 0x0104 s = some (hstParCtrlReg s) := rfl

theorem hubReg_evtSrc (p : Path) (s : State) {n : Nat} (hn : n < 64) (h : s.evtRegPresent n = true) :
    hubReg p (0x1900 + 4 * n) s = some (evtSrcReg n s) := by
  have idx : (0x1900 + 4 * n - 0x1900) / 4 = n := by omega
  have evt : hubReg p (0x1900 + 4 * n) s = evtReg p (0x1900 + 4 * n) s := by
    simp (disch := omega) [hubReg, if_neg, if_pos]
  rw [evt]
  simp (disch := omega) only [evtReg, if_neg]
  rw [idx, if_neg (by simp; omega), if_pos (by simp [h]; omega)]
  rfl

/-! ## HST_ALERT_W -/

theorem hstAlertWReg_allows (s : State) (v : Word) : (hstAlertWReg s).allows v = decide (8 ≤ v.toNat ∧ v.toNat ≤ 64) := by
  have fits : v.toNat ||| 127 = 127 ↔ v.toNat < 128 := or_lowMask_iff (k := 7)
  have mask : (hstAlertWReg s).fieldMask = 127 := rfl
  have low : fld v 6 0 = v.toNat % 128 := rfl
  rw [Bool.eq_iff_iff]
  simp only [RegDef.allows, mask]
  simp [hstAlertWReg, Fld.kept', Fld.writable, low, fits]
  omega

theorem hstAlertWReg_changes (s : State) (v : Word) :
    (hstAlertWReg s).changes v = false ↔ v.setWidth 7 = s.host.alertW := by
  rw [RegDef.changes_eq_false_iff, RegDef.merge_of_roMask rfl]
  have mask : ∀ i, (hstAlertWReg s).keptMask.testBit i = decide (i < 7) := fun i => Nat.testBit_two_pow_sub_one 7 i
  simp only [mask, decide_eq_true_iff]
  constructor
  · intro h
    ext i hi
    have hb := h i hi
    simpa [hstAlertWReg, hi, show i < 32 by omega] using hb
  · intro h i hi
    simp only [hstAlertWReg, ← h]
    simp [hi, show i < 32 by omega]

/-! ## HST_PAR_CTRL -/

theorem hstParCtrlReg_allows (s : State) {v : Word} (hv : v.toNat < 4) : (hstParCtrlReg s).allows v = true := by
  have fits : v.toNat ||| 3 = 3 := (or_lowMask_iff (k := 2)).mpr hv
  have mask : (hstParCtrlReg s).fieldMask = 3 := rfl
  simp only [RegDef.allows, mask, fits]
  rfl

theorem hstParCtrlReg_of_unchanged {s : State} {v : Word} (h : (hstParCtrlReg s).changes v = false) :
    s.host.parEn = v.getLsbD 0 ∧ s.host.parStop = v.getLsbD 1 := by
  rw [RegDef.changes_eq_false_iff, RegDef.merge_of_roMask rfl] at h
  have mask : (hstParCtrlReg s).keptMask = 3 := rfl
  have h0 := h 0 (by rw [mask]; rfl)
  have h1 := h 1 (by rw [mask]; rfl)
  simp only [hstParCtrlReg] at h0 h1
  rw [h0, h1]
  cases s.host.parEn <;> cases s.host.parStop <;> decide

/-! ## EVT_SRCn -/

theorem evtSrcReg_allows (n : Nat) (s : State) {v : Word} (hv : v.toNat < 64) : (evtSrcReg n s).allows v = true := by
  have mask : (evtSrcReg n s).fieldMask = 0xFFFFFF3F := rfl
  have fits : v.toNat ||| 0xFFFFFF3F = 0xFFFFFF3F := or_mask_of_lt (k := 6) hv (by decide)
  simp only [RegDef.allows, mask, fits]
  rfl

/-- EN and ROUTE are written as given: the read-only counts stand beside them. -/
theorem evtSrcReg_cfg (n : Nat) (s : State) (v : Word) :
    (toField ((evtSrcReg n s).merge v).toNat : BitVec 6) = v.setWidth 6 := by
  ext i hi
  have ro : (evtSrcReg n s).roMask.testBit i = false := by
    have : ∀ j < 6, Nat.testBit 0xFFFFFF00 j = false := by decide
    exact this i hi
  have hb := (evtSrcReg n s).getLsbD_merge v (i := i) (by omega)
  simpa [toField, ro, hi, BitVec.getLsbD_eq_getElem] using hb

/-! ## The three registers written -/

/-- HST_ALERT_W takes 8 to 64 and ignores every other value (R91). -/
theorem State.hubWrite_alertW {s : State} (hup : s.up = true) (hres : s.nvs.rescue = false) (p : Path) (v : Word) :
    ∃ l, s.hubWrite p 0x0108 v
        = { s with
            host := { s.host with alertW := if 8 ≤ v.toNat ∧ v.toNat ≤ 64 then v.setWidth 7 else s.host.alertW }
            nvs := { s.nvs with pend := l } }
      ∧ (if (s.hubWrite p 0x0108 v).host.alertW = s.host.alertW then l = s.nvs.pend else l.contains 3 = true) := by
  have reg : s.reg p 0x0108 = some (hstAlertWReg s) := State.reg_of_up hup hres p 0x0108
  by_cases hv : 8 ≤ v.toNat ∧ v.toNat ≤ 64
  · have allowed : (hstAlertWReg s).allows v = true := by rw [hstAlertWReg_allows, decide_eq_true hv]
    obtain ⟨l, heq, hch, hno⟩ := State.hubWrite_kept 3 reg allowed (fun _ => rfl) rfl (by decide)
    rw [RegDef.merge_of_roMask rfl] at heq hno
    refine ⟨l, by rw [heq, if_pos hv]; rfl, ?_⟩
    rw [heq]
    split
    · exact hno ((hstAlertWReg_changes s v).mpr ‹_›)
    · refine hch (Bool.of_not_eq_false fun h => ?_)
      exact absurd ((hstAlertWReg_changes s v).mp h) ‹_›
  · have ignored : s.hubWrite p 0x0108 v = s :=
      State.hubWrite_of_disallowed reg (by rw [hstAlertWReg_allows, decide_eq_false hv])
    rw [ignored, if_neg hv]
    exact ⟨_, rfl, by rw [if_pos rfl]⟩

/-- HST_PAR_CTRL takes its two bits (R93). -/
theorem State.hubWrite_parCtrl {s : State} (hup : s.up = true) (hres : s.nvs.rescue = false) (p : Path) {v : Word}
    (hv : v.toNat < 4) :
    ∃ l, s.hubWrite p 0x0104 v
        = { s with
            host := { s.host with parEn := v.getLsbD 0, parStop := v.getLsbD 1 }
            nvs := { s.nvs with pend := l } }
      ∧ (s.host.parEn ≠ v.getLsbD 0 ∨ s.host.parStop ≠ v.getLsbD 1 → l.contains 3 = true) := by
  have reg : s.reg p 0x0104 = some (hstParCtrlReg s) := State.reg_of_up hup hres p 0x0104
  obtain ⟨l, heq, hch, -⟩ := State.hubWrite_kept 3 reg (hstParCtrlReg_allows s hv) (fun _ => rfl) rfl (by decide)
  rw [RegDef.merge_of_roMask rfl] at heq
  refine ⟨l, heq, fun moved => hch (Bool.of_not_eq_false fun h => ?_)⟩
  obtain ⟨hen, hstop⟩ := hstParCtrlReg_of_unchanged h
  exact moved.elim (· hen) (· hstop)

/-- EVT_SRCn takes EN and ROUTE; the source's status stands, as do the other sources and the queue (R275). -/
theorem State.hubWrite_evtSrc {s : State} (hup : s.up = true) (hres : s.nvs.rescue = false) (p : Path) (n : Fin 64)
    (hn : s.evtRegPresent n = true) {v : Word} (hv : v.toNat < 64) :
    ∃ l, s.hubWrite p (BitVec.ofNat 16 (0x1900 + 4 * n.val)) v
        = { s with
            evt := settleHalrt s.evt { s.evt with srcs := upd s.evt.srcs n (fun x => { x with cfg := v.setWidth 6 }) }
            nvs := { s.nvs with pend := l } } := by
  have addr : (BitVec.ofNat 16 (0x1900 + 4 * n.val)).toNat = 0x1900 + 4 * n.val := by
    simp only [BitVec.toNat_ofNat]
    omega
  have reg : s.reg p (BitVec.ofNat 16 (0x1900 + 4 * n.val)) = some (evtSrcReg n s) := by
    rw [State.reg_of_up hup hres, addr, hubReg_evtSrc p s n.isLt hn]
  have home : homeOf (BitVec.ofNat 16 (0x1900 + 4 * n.val)).toNat = 3 := by
    rw [addr]
    simp (disch := omega) [homeOf, if_neg]
  obtain ⟨l, heq, -⟩ := State.hubWrite_kept 3 reg (evtSrcReg_allows n s hv) (fun _ => rfl) home (by decide)
  refine ⟨l, heq.trans ?_⟩
  rw [← evtSrcReg_cfg n s v]
  rfl

/-- Settles O24: such a write is judged disallowed, and only a proxied one is sent on all the same; the three named
registers take what their definitions allow. -/
theorem registerWrites : Obligations.RegisterWrites := by
  unfold Obligations.RegisterWrites
  refine ⟨fun p a v s h => ?_, fun p a v s h => ?_, fun p a v s d h hv => ?_, fun p v s hup hres => ?_,
    fun p v s hup hres hv => ?_, fun p v s n hup hres hn hv => ?_⟩
  · obtain ⟨write, read⟩ := State.access_of_no_reg h v
    exact ⟨congrArg _ write, read⟩
  · exact congrArg _ (State.hubWrite_of_none (s.reg_of_unlisted p h) v)
  · have sent := State.hubWrite_of_readOnly_or_reserved h hv
    refine ⟨congrArg _ sent, fun ha => congrArg _ (sent.trans ?_)⟩
    exact hubReg_sendsNothing p a.toNat s ha d (State.hubReg_of_reg h) v s
  · obtain ⟨l, heq, hpend⟩ := State.hubWrite_alertW hup hres p v
    exact ⟨_, rfl, by rw [heq], by rw [heq] at hpend ⊢; exact hpend, by rw [heq]⟩
  · obtain ⟨l, heq, hpend⟩ := State.hubWrite_parCtrl hup hres p hv
    exact ⟨_, rfl, by rw [heq], by rw [heq]; exact hpend⟩
  · obtain ⟨l, heq⟩ := State.hubWrite_evtSrc hup hres p n hn hv
    refine ⟨_, rfl, ?_⟩
    rw [heq]
    refine ⟨fun m hm => nth_upd_ne _ hm _ _, rfl, rfl, fun hlen => ?_⟩
    have entry := nth_upd_self hlen (fun x => { x with cfg := v.setWidth 6 }) EvtSrc.fresh
    exact ⟨congrArg EvtSrc.cfg entry, (congrArg EvtSrc.status entry :)⟩

end Sys2Proof.Machine

/-! SUPPORT. Hoard's registers (O17): what leaves the Hoard unit alone, what a discard does, and HRD_CMD and HRD_EXT_LO. -/

namespace Sys2Proof.Machine
open Sys2Proof

/-! ## What leaves the Hoard unit alone -/

section
variable (s : State)

@[simp] theorem State.raise_hrd (n : Nat) (a : BitVec 24) : (s.raise n a).hrd = s.hrd := by
  obtain ⟨l, e, h⟩ := s.raise_form n a
  rw [h]

@[simp] theorem State.fault_hrd (c i k : Nat) : (s.fault c i k).hrd = s.hrd := by
  obtain ⟨f, h⟩ := s.fault_form c i k
  rw [h]

@[simp] theorem State.sendLost_hrd (x : Sess) : (s.sendLost x).hrd = s.hrd := by
  unfold State.sendLost; dsimp only; (repeat' split) <;> simp

@[simp] theorem State.sendBacklog_hrd (x : Sess) : (s.sendBacklog x).hrd = s.hrd := by
  unfold State.sendBacklog; dsimp only; (repeat' split) <;> simp

@[simp] theorem State.pump_hrd (x : Sess) : (s.pump x).hrd = s.hrd := by
  unfold State.pump; dsimp only; split <;> simp

@[simp] theorem State.conRelease_hrd : s.conRelease.hrd = s.hrd := by
  unfold State.conRelease; split <;> rfl

@[simp] theorem State.respond_hrd (rq : Req) (ls : List Text) (l : Text) (e : Option Ending) :
    (s.respond rq ls l e).hrd = s.hrd := by
  unfold State.respond; dsimp only; split <;> simp

@[simp] theorem State.conAdc_hrd (o r : Nat) : (s.conAdc o r).hrd = s.hrd := by
  unfold State.conAdc State.respondOk State.respondErr; (repeat' split) <;> simp

@[simp] theorem State.conCal_hrd (u o z : Nat) : (s.conCal u o z).hrd = s.hrd := by
  unfold State.conCal State.conHold; dsimp only; (repeat' split) <;> simp

@[simp] theorem State.calRecord_hrd (u k o : Nat) (c : Bool) : (s.calRecord u k o c).hrd = s.hrd := by
  unfold State.calRecord; dsimp only; (repeat' split) <;> simp

@[simp] theorem State.adcEnd_hrd (o r : Nat) : (s.adcEnd o r).hrd = s.hrd := by
  unfold State.adcEnd State.adcFree; split <;> simp

@[simp] theorem State.calAbandon_hrd (u : Nat) : (s.calAbandon u).hrd = s.hrd := by
  unfold State.calAbandon State.swapsBack; (repeat' split) <;> simp

@[simp] theorem State.attemptFail_hrd (t : Nat) : (s.attemptFail t).hrd = s.hrd := by
  simp [State.attemptFail]

@[simp] theorem State.lastFail_hrd (t : Nat) : (s.lastFail t).hrd = s.hrd := by
  unfold State.lastFail State.markUnreach; dsimp only; split <;> simp

@[simp] theorem State.zlbTry_hrd (t : Nat) : (s.zlbTry t).hrd = s.hrd := by
  unfold State.zlbTry State.noAnswer; split <;> simp

@[simp] theorem State.copyCfg_hrd (x : Sub) : (s.copyCfg x).hrd = s.hrd := by
  unfold State.copyCfg
  split
  · rfl
  · refine foldl_kept State.hrd _ (fun t n => ?_) _ s
    dsimp only
    split <;> simp [State.warrenAccess, State.remember, State.zlbLevel]

@[simp] theorem State.calVref_hrd (u : Nat) (rxs : List Nat) (c : Bool) : (s.calVref u rxs c).hrd = s.hrd := by
  unfold State.calVref State.calBegin; (repeat' split) <;> simp

@[simp] theorem State.firstVref_hrd (x : Sub) : (s.firstVref x).hrd = s.hrd := by
  unfold State.firstVref
  split
  · rfl
  · dsimp only
    rw [foldl_kept State.hrd _ (fun t n => State.calVref_hrd t _ _ _)]
    simp

/-- READY_x concerns the host path, not the Hoard unit (R249). -/
@[simp] theorem State.goHost_hrd (x : Sub) : (s.goHost x).hrd = s.hrd := by
  unfold State.goHost State.setRanks; dsimp only; (repeat' split) <;> simp

/-- What the Hoard unit keeps of a release of READY_x: everything but the two holds (R249). -/
@[simp] theorem State.releaseReady_hrd :
    s.releaseReady.hrd = { s.hrd with readyHeldA := false, readyHeldB := false } := by
  unfold State.releaseReady; dsimp only; (repeat' split) <;> simp

end

/-! ## What is left to restore (R243, R248) -/

/-- With no extents to bring back nothing is unfinished. -/
theorem Hrd.unfinished_of_imageMap {h : Hrd} (hm : h.imageMap = []) : h.unfinished = false := by
  simp [Hrd.unfinished, Hrd.done, hm, mapUnits, mapRows]

theorem Hrd.imageMap_of_markerOwed {h : Hrd} (hm : h.markerOwed = true) : h.imageMap = [] := by
  simp [Hrd.imageMap, hm]

theorem Hrd.imageMap_of_newest {h : Hrd} (hn : h.newest.state ≠ 2) : h.imageMap = [] := by
  simp [Hrd.imageMap, hn]

theorem Hrd.imageMap_of_no_hdr {h : Hrd} (hn : h.newest.hdr = none) : h.imageMap = [] := by
  simp [Hrd.imageMap, hn]

/-- An area with the marker of its own header is not a complete image any more (R242). -/
theorem Area.state_marked {a : Area} {d : AreaHdr} (hd : a.hdr = some d) (life : BitVec 40) :
    ({ a with marker := some ⟨d.gen, life⟩ } : Area).state ≠ 2 := by
  simp only [Area.state, hd]
  split
  · decide
  · split
    · decide
    · split <;> simp

/-- A marker moves no area across the border between incomplete and complete (R242). -/
theorem Area.two_le_state_marked (a : Area) (m : Option AreaMark) :
    2 ≤ ({ a with marker := m } : Area).state ↔ 2 ≤ a.state := by
  simp only [Area.state]
  (repeat' split) <;> simp_all

/-- Which image is newest rests on which areas hold an image and on the generations alone (R242). -/
theorem Hrd.newestB_congr {h k : Hrd} (hA : 2 ≤ h.areaA.state ↔ 2 ≤ k.areaA.state)
    (hB : 2 ≤ h.areaB.state ↔ 2 ≤ k.areaB.state) (gA : h.areaA.gen = k.areaA.gen) (gB : h.areaB.gen = k.areaB.gen) :
    h.newestB = k.newestB := by
  rw [Bool.eq_iff_iff]
  simp only [Hrd.newestB, gA, gB, Bool.and_eq_true, Bool.or_eq_true, decide_eq_true_iff]
  omega

/-- A marker on the newest image leaves it the newest (R242). -/
theorem Hrd.newest_marked (h : Hrd) (m : Option AreaMark) :
    (h.setArea h.newestB { h.newest with marker := m }).newest = { h.newest with marker := m } := by
  have same : (h.setArea h.newestB { h.newest with marker := m }).newestB = h.newestB := by
    unfold Hrd.newest Hrd.setArea
    split
    · exact Hrd.newestB_congr Iff.rfl (Area.two_le_state_marked _ m) rfl rfl
    · exact Hrd.newestB_congr (Area.two_le_state_marked _ m) Iff.rfl rfl rfl
  rw [Hrd.newest, same]
  cases hb : h.newestB <;> simp [Hrd.setArea]

/-- The marker page of the newest image is programmed where it has a header (R253). -/
theorem State.consume_newest {s : State} {d : AreaHdr} (h : s.hrd.newest.hdr = some d) :
    s.consume.hrd.newest = { s.hrd.newest with marker := some ⟨d.gen, s.clk.life⟩ } := by
  unfold State.consume
  dsimp only
  split
  next hnone => cases hnone.symm.trans h
  next e he =>
    cases he.symm.trans h
    exact Hrd.newest_marked _ _

theorem State.consume_newest_of_no_hdr {s : State} (h : s.hrd.newest.hdr = none) :
    s.consume.hrd.newest = s.hrd.newest := by
  simp only [State.consume, h]
  rfl

/-- A consumed image is brought back no more (R253). -/
theorem State.consume_imageMap (s : State) : s.consume.hrd.imageMap = [] := by
  cases h : s.hrd.newest.hdr with
  | none => exact Hrd.imageMap_of_no_hdr (by rw [State.consume_newest_of_no_hdr h, h])
  | some d => exact Hrd.imageMap_of_newest (by rw [State.consume_newest h]; exact Area.state_marked h _)

/-! ## The discard (R243) -/

/-- The unit works on a restore. -/
def HrdSt.restores (st : HrdSt) : Bool := st == .restoring || st == .lending

theorem State.fullMarks_st (s : State) : s.fullMarks.hrd.st = s.hrd.st := by
  simp only [State.fullMarks, Hrd.setWmark]

theorem State.fullMarks_areaA (s : State) : s.fullMarks.hrd.areaA = s.hrd.areaA := by
  simp only [State.fullMarks, Hrd.setWmark]

theorem State.fullMarks_areaB (s : State) : s.fullMarks.hrd.areaB = s.hrd.areaB := by
  simp only [State.fullMarks, Hrd.setWmark]

/-- A discard during a restore programs the marker page and goes on to erase (R243, R249). -/
theorem State.discardImage_hrd_of_restores {s : State} (h : s.hrd.st.restores = true) :
    s.discardImage.hrd
      = { s.fullMarks.consume.hrd with st := .erasing, readyHeldA := false, readyHeldB := false } := by
  have hst : (s.fullMarks.hrd.st == .restoring || s.fullMarks.hrd.st == .lending) = true := by
    rw [s.fullMarks_st]
    exact h
  rw [State.discardImage, State.releaseReady_hrd, State.raise_hrd, if_pos hst]

/-- At any other time the marker page is owed (R243, R249). -/
theorem State.discardImage_hrd_of_not_restores {s : State} (h : s.hrd.st.restores = false) :
    s.discardImage.hrd = { s.fullMarks.hrd with markerOwed := true, readyHeldA := false, readyHeldB := false } := by
  have hst : (s.fullMarks.hrd.st == .restoring || s.fullMarks.hrd.st == .lending) = false := by
    rw [s.fullMarks_st]
    exact h
  rw [State.discardImage, State.releaseReady_hrd, State.raise_hrd, if_neg (by simp [hst])]

theorem State.discardImage_holds (s : State) :
    s.discardImage.hrd.readyHeldA = false ∧ s.discardImage.hrd.readyHeldB = false := by
  cases h : s.hrd.st.restores
  · rw [State.discardImage_hrd_of_not_restores h]
    exact ⟨rfl, rfl⟩
  · rw [State.discardImage_hrd_of_restores h]
    exact ⟨rfl, rfl⟩

/-- After a discard no restore is unfinished (R243). -/
theorem State.discardImage_unfinished (s : State) : s.discardImage.hrd.unfinished = false := by
  refine Hrd.unfinished_of_imageMap ?_
  cases h : s.hrd.st.restores
  · rw [State.discardImage_hrd_of_not_restores h]
    exact Hrd.imageMap_of_markerOwed rfl
  · rw [State.discardImage_hrd_of_restores h]
    exact s.fullMarks.consume_imageMap

/-! ## HRD_CMD and HRD_EXT_LO (R255) -/

/-- HRD_CMD. -/
def hrdCmdReg (s : State) : RegDef :=
  { flds := [⟨31, 0, .wo, false, fun v => v == 0x4B0D0001 && s.hrd.unfinished⟩], read := 0,
    write := fun _ s => s.discardImage }

/-- The index of an extent that HRD_MAP_SEL of a path names. -/
def State.extIdx (s : State) (p : Path) : Nat := (s.sel p).hrdMap.toNat

/-- The extent that a path's HRD_EXT_LO with value `v` asks for. -/
def State.extLo (s : State) (p : Path) (v : Word) : Extent := ⟨v, (nth s.hrd.extents (s.extIdx p) ⟨0, 0⟩).hi⟩

/-- HRD_EXT_LO. -/
def hrdExtLoReg (p : Path) (s : State) : RegDef :=
  { flds := [Fld.keptAny 21 0, Fld.keptAny 31 31], read := (nth s.hrd.extents (s.extIdx p) ⟨0, 0⟩).lo,
    whole := fun v => !v.testBit 31 || s.extentOk (s.extIdx p) (s.extLo p (BitVec.ofNat 32 v)),
    write := fun v t => t.setExtent (s.extIdx p) (s.extLo p v) }

theorem hubReg_hrdCmd (p : Path) (s : State) :
    hubReg p 0x3838 s = if s.regOn .hoard then some (hrdCmdReg s) else none := by
  change hrdReg p 0x3838 s = _
  unfold hrdReg
  cases s.regOn .hoard <;> rfl

theorem hubReg_hrdExtLo (p : Path) (s : State) :
    hubReg p 0x3818 s = if s.regOn .hoard then some (hrdExtLoReg p s) else none := by
  change hrdReg p 0x3818 s = _
  unfold hrdReg
  cases s.regOn .hoard <;> rfl

theorem hrdCmdReg_allows (s : State) (v : Word) :
    (hrdCmdReg s).allows v = (v == 0x4B0D0001 && s.hrd.unfinished) := by
  have mask : (hrdCmdReg s).fieldMask = 0xFFFFFFFF := by simp [RegDef.fieldMask, hrdCmdReg, Fld.mask]
  have fits : v.toNat ||| 0xFFFFFFFF = 0xFFFFFFFF := (or_lowMask_iff (k := 32)).mpr v.isLt
  have key : (v.toNat == 0x4B0D0001) = (v == 0x4B0D0001) := by
    rw [Bool.eq_iff_iff]
    simp [← BitVec.toNat_inj]
  have writable : (Access.wo != Access.ro) = true := rfl
  simp only [RegDef.allows, mask, fits]
  simp [hrdCmdReg, Fld.writable, writable, key]

/-- The key discards an unfinished restore, and nothing else is taken (R243). -/
theorem State.hubWrite_hrdCmd {s : State} (hup : s.up = true) (hres : s.nvs.rescue = false)
    (hon : s.regOn .hoard = true) (hun : s.hrd.unfinished = true) (p : Path) :
    s.hubWrite p 0x3838 0x4B0D0001 = s.discardImage := by
  have reg : s.reg p 0x3838 = some (hrdCmdReg s) := by
    rw [State.reg_of_up hup hres]
    exact (hubReg_hrdCmd p s).trans (if_pos hon)
  have allowed : (hrdCmdReg s).allows 0x4B0D0001 = true := by
    rw [hrdCmdReg_allows, hun]
    rfl
  rw [State.hubWrite_of_allowed reg allowed, RegDef.put_of_not_kept rfl]
  rfl

theorem State.hubWrite_hrdCmd_of_ne (s : State) (p : Path) {v : Word} (hv : v ≠ 0x4B0D0001) :
    s.hubWrite p 0x3838 v = s := by
  refine State.hubWrite_ignored (Or.inr (by decide)) fun d hd => ?_
  have hd' := (hubReg_hrdCmd p s).symm.trans hd
  split at hd'
  · cases hd'
    rw [hrdCmdReg_allows, beq_false_of_ne hv, Bool.false_and]
  · cases hd'

theorem hrdExtLoReg_whole (p : Path) (s : State) (v : Word) :
    (hrdExtLoReg p s).whole v.toNat = (!v.getLsbD 31 || s.extentOk (s.extIdx p) (s.extLo p v)) := by
  simp only [hrdExtLoReg, BitVec.testBit_toNat, BitVec.ofNat_toNat, BitVec.setWidth_eq]

theorem hrdExtLoReg_allows (p : Path) (s : State) {v : Word} (hv : v &&& 0x7FC00000 = 0)
    (hok : v.getLsbD 31 = true → s.extentOk (s.extIdx p) (s.extLo p v) = true) :
    (hrdExtLoReg p s).allows v = true := by
  have mask : (hrdExtLoReg p s).fieldMask = 0x803FFFFF := rfl
  have fits : v.toNat ||| 0x803FFFFF = 0x803FFFFF := toNat_or_of_and_not v 0x803FFFFF hv
  have whole : (hrdExtLoReg p s).whole v.toNat = true := by
    rw [hrdExtLoReg_whole]
    cases h : v.getLsbD 31 with
    | false => rfl
    | true => exact hok h
  simp only [RegDef.allows, mask, fits, whole]
  rfl

/-- An admissible word of HRD_EXT_LO is stored and the keep map pending (R195, R237). -/
theorem State.hubWrite_hrdExtLo {s : State} (hup : s.up = true) (hres : s.nvs.rescue = false)
    (hon : s.regOn .hoard = true) (p : Path) {v : Word} (hv : v &&& 0x7FC00000 = 0)
    (hok : v.getLsbD 31 = true → s.extentOk (s.extIdx p) (s.extLo p v) = true) :
    ∃ l, s.hubWrite p 0x3818 v
        = { s with
            hrd := { s.hrd with extents := upd s.hrd.extents (s.extIdx p) (fun _ => s.extLo p v) }
            nvs := { s.nvs with pend := l } }
      ∧ l.contains 6 = true := by
  have reg : s.reg p 0x3818 = some (hrdExtLoReg p s) := by
    rw [State.reg_of_up hup hres]
    exact (hubReg_hrdExtLo p s).trans (if_pos hon)
  obtain ⟨l, heq, hch, hno⟩ :=
    State.hubWrite_kept 6 reg (hrdExtLoReg_allows p s hv hok) (fun _ => rfl) rfl (by decide)
  have stored : (hrdExtLoReg p s).write ((hrdExtLoReg p s).merge v) s = s.setExtent (s.extIdx p) (s.extLo p v) := by
    rw [RegDef.merge_of_roMask rfl]
    rfl
  rw [stored] at heq hno
  refine ⟨l, ?_, ?_⟩
  · rw [heq, State.setExtent, State.pendRegion_eq]
  · cases hc : (hrdExtLoReg p s).changes v with
    | true => exact hch hc
    | false =>
      rw [hno hc]
      exact State.pendRegion_contains _ 6

/-- An extent that is not admissible is not enabled (R237). -/
theorem State.hubWrite_hrdExtLo_of_inadmissible {s : State} {p : Path} {v : Word} (hen : v.getLsbD 31 = true)
    (hok : s.extentOk (s.extIdx p) (s.extLo p v) = false) : s.hubWrite p 0x3818 v = s := by
  refine State.hubWrite_ignored (Or.inr (by decide)) fun d hd => ?_
  have hd' := (hubReg_hrdExtLo p s).symm.trans hd
  split at hd'
  · cases hd'
    refine Bool.eq_false_iff.mpr fun h => ?_
    obtain ⟨-, whole⟩ := RegDef.fits_and_whole_of_allows h
    rw [hrdExtLoReg_whole, hen, hok] at whole
    cases whole
  · cases hd'

/-- Settles O17: the key's effect is `discardImage`, which leaves no extents to bring back, and HRD_EXT_LO stores what
it admits. -/
theorem hoardRegisters : Obligations.HoardRegisters := by
  unfold Obligations.HoardRegisters
  refine ⟨fun p s hup hres hon hun => ?_, fun p v s hv => congrArg _ (s.hubWrite_hrdCmd_of_ne p hv),
    fun p v s hup hres hon hv hok => ?_, fun p v s hen hok => congrArg _ (State.hubWrite_hrdExtLo_of_inadmissible hen hok)⟩
  · obtain ⟨heldA, heldB⟩ := s.discardImage_holds
    refine ⟨s.discardImage, congrArg _ (State.hubWrite_hrdCmd hup hres hon hun p), s.discardImage_unfinished, heldA, heldB,
      fun idle => ?_, fun restoring => ?_⟩
    · rw [State.discardImage_hrd_of_not_restores (by rw [idle]; rfl)]
      exact ⟨rfl, s.fullMarks_areaA, s.fullMarks_areaB⟩
    · rw [State.discardImage_hrd_of_restores (by rw [restoring]; rfl)]
  · obtain ⟨l, heq, hl⟩ := State.hubWrite_hrdExtLo hup hres hon p hv hok
    refine ⟨_, rfl, ?_⟩
    rw [heq]
    exact ⟨rfl, hl, rfl⟩

end Sys2Proof.Machine

/-! SUPPORT. MRST (O19) and the state after POR (O2). -/

namespace Sys2Proof.Machine
open Sys2Proof

/-! ## What MRST latches (R74, R199) -/

/-- The regions of the rings that hold records waiting to be written: 7 the fault ring, 8 the event ring. -/
def Nvs.ringsPend (n : Nvs) : List Nat := (if n.waitF.isEmpty then [] else [7]) ++ (if n.waitE.isEmpty then [] else [8])

/-- MRST latches the pending regions, those of failed commits, and the rings whose waiting records it drops. -/
theorem State.mrst_lost {s : State} (hpd2 : s.pd2 = true) (hwait : s.clk.mrstWait = true) (hcommit : s.nvs.commit = none)
    (hcurl : s.pow.dom ≠ .curl) (hhold : s.pow.dom ≠ .commitHold) :
    s.mrst.pow.lost = s.pow.lost ||| regionMask (s.nvs.pend ++ s.nvs.failedPend ++ s.nvs.ringsPend) := by
  have guard : (!s.pd2 || !s.clk.mrstWait || s.nvs.commit.isSome || s.pow.dom == .curl || s.pow.dom == .commitHold) = false := by
    simp [hpd2, hwait, hcommit, hcurl, hhold]
  have torn : s.tearCommit = s := by simp only [State.tearCommit, hcommit]
  have halt : ∀ t : State, t.hoardHalt.pow = t.pow := fun t => by
    obtain ⟨h, heq⟩ := t.hoardHalt_form
    rw [heq]
  have back : ∀ t : State, t.restoreEnd.pow.lost = t.pow.lost := fun t => by
    unfold State.restoreEnd
    split <;> rfl
  calc s.mrst.pow.lost
      = s.tearCommit.layCopy.dropPending.hoardHalt.restoreEnd.pow.lost := by rw [State.mrst, guard]; rfl
    _ = s.tearCommit.layCopy.dropPending.pow.lost := by rw [back, halt]
    _ = s.pow.lost ||| regionMask (s.nvs.pend ++ s.nvs.failedPend ++ s.nvs.ringsPend) := by rw [torn]; rfl

/-- A running module on which MRST waits, with no region pending and one event record waiting for its ring. -/
def mrstWithRecord : State :=
  { State.reset with
    pow := { State.reset.pow with dom := .run, on := 0x3D, hostPg := true, pfailLow := false }
    clk := { State.reset.clk with mpllLock := true, mrstWait := true }
    feat := { State.reset.feat with phase := .settled }
    nvs := { State.reset.nvs with ready := true, waitE := [⟨0, 1, 0, 0⟩] } }

/-- Refutes O19: the statement has MRST latch the pending and failed regions alone, but it drops the records that wait for
the log rings too and latches their regions (R199), so that bit 8 rises on `mrstWithRecord`, where nothing is pending. -/
theorem not_managementReset : ¬ Obligations.ManagementReset := by
  unfold Obligations.ManagementReset
  rintro ⟨-, -, clears⟩
  obtain ⟨t, step, h⟩ := clears mrstWithRecord (by decide) rfl rfl (by decide) (by decide)
  obtain ⟨-, -, -, -, -, -, -, -, -, -, -, -, -, -, -, -, -, lost, -⟩ := h
  cases step
  have latched : mrstWithRecord.mrst.pow.lost = 0x100 :=
    (State.mrst_lost (by decide) rfl rfl (by decide) (by decide)).trans (by decide)
  have claimed : mrstWithRecord.pow.lost ||| regionMask (mrstWithRecord.nvs.pend ++ mrstWithRecord.nvs.failedPend) = 0 := by
    decide
  exact absurd (latched.symm.trans (lost.trans claimed)) (by decide)

/-! ## The reset state (R12, R400) -/

/-- Settles O2: the blocks stand at the values that `State.reset` names, and the register tables are evaluated entry by
entry. -/
theorem resetState : Obligations.ResetState := by
  unfold Obligations.ResetState
  dsimp only
  refine ⟨rfl, rfl, rfl, rfl, rfl, rfl, rfl, rfl, rfl, rfl, rfl, rfl, rfl, rfl, rfl, rfl, rfl, rfl,
    by decide, ?values, ?sources, ?zeros, rfl⟩
  case values => decide
  case sources => decide
  case zeros => decide

end Sys2Proof.Machine

/-! SUPPORT. The feature lock (O22): the registers of the negotiation, and what a lock write does. -/

namespace Sys2Proof.Machine
open Sys2Proof

/-! ## The registers of the negotiation (R29, R30, R36, R41) -/

/-- FEAT_ACCEPT_LO. -/
def featAcceptLoReg (s : State) : RegDef :=
  { flds := [Fld.any .rwl 15 0], read := s.feat.accept.setWidth 32, locked := s.locked
    write := fun v s => { s with feat := { s.feat with accept := v.setWidth 16 } } }

/-- FEAT_ACCEPT_HI. -/
def featAcceptHiReg (s : State) : RegDef :=
  { flds := [⟨31, 0, .rwl, false, (· == 0)⟩], read := 0, locked := s.locked, write := fun _ s => s }

/-- FEAT_LOCK. -/
def featLockReg (p : Path) (s : State) : RegDef :=
  { flds := [⟨15, 0, .wo, false, fun k => k == 0xA5C3 && s.negotiating && s.feat.accept.getLsbD 0⟩], read := 0
    write := fun _ s => s.lock (pathCode p) }

/-- FEAT_DEADLINE. -/
def featDeadlineReg (s : State) : RegDef :=
  { flds := [⟨8, 0, .rwl, true, fun t => 5 ≤ t && t ≤ 300⟩], read := s.feat.deadline.setWidth 32, locked := s.locked
    write := fun v s => { s with feat := { s.feat with deadline := v.setWidth 9 } }.deadlinePassed }

theorem hubReg_featAcceptLo (p : Path) (s : State) : hubReg p 0x0048 s = some (featAcceptLoReg s) := rfl

theorem hubReg_featAcceptHi (p : Path) (s : State) : hubReg p 0x004C s = some (featAcceptHiReg s) := rfl

theorem hubReg_featLock (p : Path) (s : State) : hubReg p 0x0050 s = some (featLockReg p s) := rfl

theorem hubReg_featDeadline (p : Path) (s : State) : hubReg p 0x0060 s = some (featDeadlineReg s) := rfl

/-- Once its lock has passed, a register with an RWL field takes no value (R6, R7). -/
theorem RegDef.allows_of_locked {d : RegDef} (hl : d.locked = true) (hf : d.flds.any (fun f => f.acc == .rwl) = true)
    (v : Word) : d.allows v = false := by
  simp [RegDef.allows, hl, hf]

/-- A locked set's negotiation registers are ignored (R30). -/
theorem State.hubWrite_of_locked {s : State} (hl : s.locked = true) (p : Path) {a : Addr}
    (ha : a = 0x0048 ∨ a = 0x004C ∨ a = 0x0060) (v : Word) : s.hubWrite p a v = s := by
  rcases ha with rfl | rfl | rfl
  · refine State.hubWrite_ignored (Or.inl (by decide)) fun d hd => ?_
    cases (hubReg_featAcceptLo p s).symm.trans hd
    exact RegDef.allows_of_locked hl rfl v
  · refine State.hubWrite_ignored (Or.inl (by decide)) fun d hd => ?_
    cases (hubReg_featAcceptHi p s).symm.trans hd
    exact RegDef.allows_of_locked hl rfl v
  · refine State.hubWrite_ignored (Or.inl (by decide)) fun d hd => ?_
    cases (hubReg_featDeadline p s).symm.trans hd
    exact RegDef.allows_of_locked hl rfl v

/-! ## FEAT_LOCK -/

/-- While management runs outside rescue mode, a set that is not locked waits for its lock. -/
theorem State.negotiating_eq_not_locked {s : State} (hup : s.up = true) (hres : s.nvs.rescue = false) :
    s.negotiating = !s.locked := by
  simp only [State.up, State.mgmtReady, hres, Bool.and_eq_true] at hup
  obtain ⟨⟨-, phase⟩, -⟩ := hup
  unfold State.negotiating State.locked
  cases hp : s.feat.phase with
  | off => simp [hp] at phase
  | booting => simp [hp] at phase
  | waitHost => rfl
  | counting => rfl
  | locked => rfl
  | settled => rfl

theorem State.not_negotiating_of_locked {s : State} (h : s.locked = true) : s.negotiating = false := by
  have phase : s.feat.phase = .locked ∨ s.feat.phase = .settled := by simpa [State.locked] using h
  rcases phase with hp | hp <;> simp [State.negotiating, hp]

/-- The key, an open negotiation, and BASE in the accepted set (R29). -/
theorem featLockReg_allows (p : Path) (s : State) (v : Word) :
    (featLockReg p s).allows v = (v == 0xA5C3 && s.negotiating && s.feat.accept.getLsbD 0) := by
  have mask : (featLockReg p s).fieldMask = 0xFFFF := by simp [RegDef.fieldMask, featLockReg, Fld.mask]
  have fits : v.toNat ||| 0xFFFF = 0xFFFF ↔ v.toNat < 0x10000 := or_lowMask_iff (k := 16)
  have low : fld v 15 0 = v.toNat % 0x10000 := rfl
  have key : v = 0xA5C3#32 ↔ v.toNat < 0x10000 ∧ v.toNat % 0x10000 = 0xA5C3 := by
    rw [← BitVec.toNat_inj, show (0xA5C3#32).toNat = 0xA5C3 from rfl]
    omega
  have writable : (Access.wo != Access.ro) = true := rfl
  rw [Bool.eq_iff_iff]
  simp only [RegDef.allows, mask]
  simp [featLockReg, Fld.writable, writable, low, fits, key, and_assoc]

/-- A valid lock write makes ACTIVE the offered and accepted bits and BY the path (R29, R30), and lays down the island's
copy of HOARD (R25). -/
theorem State.hubWrite_featLock {s : State} (hup : s.up = true) (hres : s.nvs.rescue = false) (hl : s.locked = false)
    (base : s.feat.accept.getLsbD 0 = true) (p : Path) : s.hubWrite p 0x0050 0xA5C3 = s.lock (pathCode p) := by
  have reg : s.reg p 0x0050 = some (featLockReg p s) := State.reg_of_up hup hres p 0x0050
  have allowed : (featLockReg p s).allows 0xA5C3 = true := by
    rw [featLockReg_allows, State.negotiating_eq_not_locked hup hres, hl, base]
    rfl
  rw [State.hubWrite_of_allowed reg allowed, RegDef.put_of_not_kept rfl]
  rfl

theorem State.hubWrite_featLock_ignored {s : State} {p : Path} {v : Word}
    (h : v ≠ 0xA5C3 ∨ s.locked = true ∨ s.feat.accept.getLsbD 0 = false) : s.hubWrite p 0x0050 v = s := by
  refine State.hubWrite_ignored (Or.inl (by decide)) fun d hd => ?_
  cases (hubReg_featLock p s).symm.trans hd
  rw [featLockReg_allows]
  rcases h with key | lock | base
  · rw [beq_false_of_ne key, Bool.false_and, Bool.false_and]
  · rw [State.not_negotiating_of_locked lock, Bool.and_false, Bool.false_and]
  · rw [base, Bool.and_false]

/-- Settles O22: FEAT_LOCK takes its key while the set is open and BASE accepted, and `State.lock` is all it then does; the
lock closes the RWL registers. -/
theorem featureLock : Obligations.FeatureLock := by
  unfold Obligations.FeatureLock
  intro p v s hup hres
  refine ⟨?_, fun h => congrArg _ (State.hubWrite_featLock_ignored h), fun hl => ⟨?_, fun a ha => ?_⟩⟩
  · rintro rfl hl base
    exact ⟨_, congrArg Host.Outcome.next (State.hubWrite_featLock hup hres hl base p), rfl, rfl, rfl, rfl⟩
  · exact congrArg _ (State.hubWrite_of_locked hl p (Or.inr (Or.inr rfl)) v)
  · exact congrArg _ (State.hubWrite_of_locked hl p ha v)

end Sys2Proof.Machine

/-! SUPPORT. SETTLED (O23): a running ADC calibration is abandoned where CAL_ADC is not active. -/

namespace Sys2Proof.Machine
open Sys2Proof

/-! ## The ADC calibration at SETTLED (R32, R38) -/

/-- SETTLED after a lock: the release of the events and the switches of the functions, in turn (R38). -/
theorem exec_featSettled {s : State} (hup : s.up = true) (hp : s.feat.phase = .locked) :
    exec .featSettled s = .next s.settle.calSwitch.hrxSwitch.packSwitch.hoardSwitch.conSettled := by
  change execFeatSettled s = _
  simp [execFeatSettled, hup, hp]

/-- An ADC calibration began while CAL_ADC was offered, and a set with every other feature was then locked. -/
def lockedMidAdcCal : State :=
  { State.reset with
    pow := { State.reset.pow with dom := .run, on := 0x3D, hostPg := true, pfailLow := false }
    clk := { State.reset.clk with mpllLock := true, hckOk := true }
    feat := { State.reset.feat with phase := .locked, offer := 0xFFFF, accept := 0xF7FF, active := 0xF7FF, lockedBy := 3 }
    nvs := { State.reset.nvs with ready := true } }.adcStart

/-- The state as SETTLED finds it: the calibration holds the readings of the ADC. -/
theorem lockedMidAdcCal_held : lockedMidAdcCal.zxp.held.isSome = true := by decide

/-- CAL_ADC is not active, so that SETTLED abandons the calibration, which frees the readings. -/
theorem lockedMidAdcCal_settled_held :
    lockedMidAdcCal.settle.calSwitch.hrxSwitch.packSwitch.hoardSwitch.conSettled.zxp.held.isSome = false := by decide

/-- Refutes O23: with HOARD and FAULT_WINDOWS active the statement has SETTLED leave the ZX8-P as it was, but without
CAL_ADC a running ADC calibration is abandoned (R32) and its held channels go live again (R171), as on
`lockedMidAdcCal`. -/
theorem not_deadlineAndSettled : ¬ Obligations.DeadlineAndSettled := by
  unfold Obligations.DeadlineAndSettled
  rintro ⟨-, -, -, settles⟩
  have hup : lockedMidAdcCal.up = true := by decide
  have hp : lockedMidAdcCal.feat.phase = .locked := by decide
  obtain ⟨t, step, -, -, -, -, -, -, -, -, keeps, -⟩ := settles lockedMidAdcCal hup hp
  cases (exec_featSettled hup hp).symm.trans step
  obtain ⟨-, zxp⟩ := keeps (by decide) (by decide)
  have live := lockedMidAdcCal_settled_held
  rw [zxp, lockedMidAdcCal_held] at live
  cases live

end Sys2Proof.Machine

/-! SUPPORT. Reads through the hub window, and what passes to the DRAM (O28). -/

namespace Sys2Proof.Machine
open Sys2Proof

/-! ## A slot of a window command (R76, R83, R87) -/

theorem State.discards_of_winOn {s : State} {x : Sub} (h : s.winOn x = true) : s.discards x = false := by
  simp only [State.winOn, Bool.and_eq_true, Bool.not_eq_true'] at h
  exact h.2

theorem State.winSlot_of_samples {s : State} {x : Sub} (f : State → State) (hs : s.samples = true)
    (hd : s.discards x = false) : s.winSlot x f = f (s.hold x) := by
  simp [State.winSlot, hs, hd]

/-- A window command that is sampled and not discarded acts with YCS_n high. -/
theorem State.winSlot_next {s t : State} {x : Sub} {f : State → State} (hs : s.samples = true) (hd : s.discards x = false)
    (h : f (s.hold x) = t) : (.next (s.winSlot x f) : Out) = .next t := by
  rw [State.winSlot_of_samples f hs hd, h]

section
variable (s : State) (x : Sub)

@[simp] theorem State.hold_sub : (s.hold x).sub x = { s.sub x with drive := none } := State.setSub_sub s x _
@[simp] theorem State.hold_host : (s.hold x).host = s.host := State.setSub_host s x _
@[simp] theorem State.hold_dbs : (s.hold x).dbs = s.dbs := State.setSub_dbs s x _
@[simp] theorem State.hold_winOn : (s.hold x).winOn x = s.winOn x := by cases x <;> rfl
@[simp] theorem State.hold_winTakes : (s.hold x).winTakes x = s.winTakes x := by cases x <;> rfl
@[simp] theorem State.hold_winUndefined : (s.hold x).winUndefined x = s.winUndefined x := by cases x <;> rfl
@[simp] theorem State.hold_winStatus : (s.hold x).winStatus x = s.winStatus x := by cases x <;> rfl

end

/-! ## DBC commands (R118) -/

/-- What the change of one buffer leaves, it leaves in every buffer of the table. -/
theorem nth_upd_kept {α β : Type} (g : α → β) {f : α → α} (hg : ∀ d, g (f d) = g d) (l : List α) (i j : Nat) (d : α) :
    g (nth (upd l i f) j d) = g (nth l j d) := by
  by_cases hij : j = i
  · subst hij
    by_cases hj : j < l.length
    · rw [nth_upd_self hj, hg]
    · simp [nth, upd, List.getD_eq_getElem?_getD, hj]
  · rw [nth_upd_ne l hij]

theorem State.setDbs_db_kept {β : Type} (s : State) (x : Sub) (g : Db → β) {f : Db → Db} (hg : ∀ d, g (f d) = g d)
    (n : Nat) : g ((s.setDbs x f).db n) = g (s.db n) := by
  have fold : ∀ (ks : List Nat) (l : List Db),
      g (nth (ks.foldl (fun l k => upd l k f) l) n Db.fresh) = g (nth l n Db.fresh) := by
    intro ks
    induction ks with
    | nil => exact fun _ => rfl
    | cons k ks ih => exact fun l => (ih _).trans (nth_upd_kept g hg l k n _)
  exact fold (subDbs x) s.dbs

/-- A DBC command reaches the buffers alone. -/
theorem State.dbcCmd_form (s : State) (x : Sub) (c : DbcCmd) : s.dbcCmd x c = { s with dbs := (s.dbcCmd x c).dbs } := by
  unfold State.dbcCmd State.dbcAll
  split <;> rfl

theorem State.dbcCmd_db_kept {β : Type} (s : State) (x : Sub) (g : Db → β) {c : DbcCmd} (hg : ∀ d, g (d.obey c) = g d)
    (n : Nat) : g ((s.dbcCmd x c).db n) = g (s.db n) := by
  unfold State.dbcCmd State.dbcAll
  split
  · exact s.setDbs_db_kept x g hg n
  · rfl

/-! ## A byte for the host (R99) -/

/-- The tables of two states agree in every buffer's taps, DBD_CFG and HOLD: what a byte for the host leaves. -/
def State.sameBuffers (s t : State) : Prop :=
  ∀ n, (t.db n).taps = (s.db n).taps ∧ (t.db n).cfg = (s.db n).cfg ∧ (t.db n).hold = (s.db n).hold

/-- A defined byte goes over DBC to the buffers, and to the host. -/
theorem State.winDrive_of_defined {s : State} {x : Sub} (h : s.winUndefined x = false) (b : Byte) :
    ∃ l, s.winDrive x b = { s.setSub x (fun u => { u with hostDq := some b }) with dbs := l }
      ∧ s.sameBuffers (s.winDrive x b) := by
  have drive : s.winDrive x b = ((s.dbcCmd x (.winLo (b.setWidth 4))).dbcCmd x (.winHi ((b >>> 4).setWidth 4))).setSub x
      (fun u => { u with hostDq := some b }) := by
    simp [State.winDrive, h]
  have kept : ∀ {β : Type} (g : Db → β), (∀ nib d, g (d.obey (.winLo nib)) = g d) → (∀ nib d, g (d.obey (.winHi nib)) = g d) →
      ∀ n, g ((s.winDrive x b).db n) = g (s.db n) := by
    intro β g lo hi n
    rw [drive, State.db, State.setSub_dbs]
    exact (State.dbcCmd_db_kept _ x g (hi _) n).trans (State.dbcCmd_db_kept s x g (lo _) n)
  refine ⟨((s.dbcCmd x (.winLo (b.setWidth 4))).dbcCmd x (.winHi ((b >>> 4).setWidth 4))).dbs, ?_, fun n => ⟨?_, ?_, ?_⟩⟩
  · rw [drive, State.dbcCmd_form (s.dbcCmd x _), State.dbcCmd_form s]
    cases x <;> rfl
  all_goals
    refine kept _ (fun _ _ => rfl) (fun nib d => ?_) n
    simp only [Db.obey]
    split <;> rfl

theorem State.winDrive_of_undefined {s : State} {x : Sub} (h : s.winUndefined x = true) (b : Byte) :
    s.winDrive x b = (s.setSub x (fun u => { u with hostDq := some (s.freeVal 8) })).took := by
  simp [State.winDrive, h]

/-! ## WINDOW_READ and WINDOW_STATUS_READ (R98, R99) -/

/-- The byte that MR 0xF0 + i holds. -/
def Win.byteAt (w : Win) (i : Nat) : Byte :=
  if i < 2 then w.addr.extractLsb' (8 * i) 8 else w.read.extractLsb' (8 * (i - 2)) 8

/-- The window after a read of MR 0xF0 + i: with AINC, MR 0xF5 moves the address on and launches a fetch (R98). -/
def Win.afterRead (w : Win) (ainc : Bool) (i : Nat) : Win :=
  if i = 5 ∧ ainc = true then { w with addr := w.addr + 4, rvalid := false, fetch := true } else w

@[simp] theorem State.winDrive_host (s : State) (x : Sub) (b : Byte) : (s.winDrive x b).host = s.host := by
  unfold State.winDrive State.dbcCmd State.dbcAll
  dsimp only
  (repeat' split) <;> simp

theorem State.winRead_of_on {s : State} {x : Sub} (h : s.winOn x = true) (i : Nat) :
    s.winRead x i
      = if i = 5 ∧ s.host.ainc = true then
          (s.winDrive x ((s.sub x).win.byteAt i)).setWin x (fun w => { w with addr := w.addr + 4, rvalid := false, fetch := true })
        else s.winDrive x ((s.sub x).win.byteAt i) := by
  simp only [State.winRead, h, Bool.not_true, Bool.false_eq_true, if_false, State.winDrive_host, Bool.and_eq_true, decide_eq_true_iff]
  rfl

theorem State.winRead_of_off {s : State} {x : Sub} (h : s.winOn x = false) (i : Nat) : s.winRead x i = s.winDrive x 0 := by
  simp [State.winRead, h]

theorem State.winStatusRead_of_off {s : State} {x : Sub} (h : s.winOn x = false) :
    s.winStatusRead x = s.winDrive x 0 := by
  simp [State.winStatusRead, h]

/-- The host has the byte, the window is as after the read, and the buffers alone have changed besides. -/
theorem State.winRead_hold {s : State} {x : Sub} (on : s.winOn x = true) (defd : s.winUndefined x = false) (i : Nat) :
    ∃ l, (s.hold x).winRead x i = { s.setSub x (fun u => { u with
          drive := none, win := u.win.afterRead s.host.ainc i, hostDq := some (u.win.byteAt i) }) with dbs := l }
      ∧ s.sameBuffers ((s.hold x).winRead x i) := by
  obtain ⟨l, drive, same⟩ :=
    State.winDrive_of_defined ((s.hold_winUndefined x).trans defd) ((s.sub x).win.byteAt i)
  refine ⟨l, ?_⟩
  rw [State.winRead_of_on ((s.hold_winOn x).trans on), State.hold_sub, State.hold_host]
  unfold Win.afterRead
  split
  · refine ⟨?_, fun n => ?_⟩
    · rw [drive]
      cases x <;> rfl
    · simpa [State.db, State.setWin] using same n
  · refine ⟨?_, fun n => by simpa [State.db] using same n⟩
    rw [drive]
    cases x <;> rfl

/-- A byte of the status: each flag at its bit, and RESULT on top (R99). -/
theorem statusByte_bits : ∀ (rvalid commits busy granted host stopped : Bool) (result : BitVec 2),
    let b : Byte := BitVec.ofNat 8 (rvalid.toNat + 2 * commits.toNat + 4 * busy.toNat + 8 * granted.toNat + 16 * host.toNat
      + 32 * stopped.toNat + 64 * result.toNat)
    b.getLsbD 0 = rvalid ∧ b.getLsbD 1 = commits ∧ b.getLsbD 2 = busy ∧ b.getLsbD 3 = granted ∧ b.getLsbD 4 = host
      ∧ b.getLsbD 5 = stopped ∧ b.extractLsb' 6 2 = result := by
  decide

theorem State.winStatusRead_hold {s : State} {x : Sub} (on : s.winOn x = true) (defd : s.winUndefined x = false) :
    ∃ l, (s.hold x).winStatusRead x
      = { s.setSub x (fun u => { u with drive := none, hostDq := some (s.winStatus x) }) with dbs := l } := by
  obtain ⟨l, drive, -⟩ := State.winDrive_of_defined ((s.hold_winUndefined x).trans defd) (s.winStatus x)
  refine ⟨l, ?_⟩
  simp only [State.winStatusRead, State.hold_winOn, on, State.hold_winStatus, Bool.not_true, Bool.false_eq_true, if_false]
  rw [drive]
  cases x <;> rfl

/-- Where the window behaves as absent the host reads zero, and the window stands (R33). -/
theorem State.winDrive_hold_zero {s : State} {x : Sub} (defd : s.winUndefined x = false) :
    (((s.hold x).winDrive x 0).sub x).hostDq = some 0 ∧ (((s.hold x).winDrive x 0).sub x).win = (s.sub x).win := by
  obtain ⟨l, drive, -⟩ := State.winDrive_of_defined ((s.hold_winUndefined x).trans defd) 0
  rw [drive]
  cases x <;> exact ⟨rfl, rfl⟩

/-! ## PASS_THROUGH_READ and PASS_WRITE (R100, R102) -/

/-- The drive in the slot: the rank, and the mode register that byte 0 of write staging names (R100, R102). -/
def State.passDrive (s : State) (x : Sub) (kind : CmdKind) (rank : Fin 4) (op : Byte) : YDrive :=
  { kind := kind, ranks := BitVec.ofNat 4 (2 ^ rank.val), ca1 := 0, ca2 := none, cid := 0
    mr := (s.sub x).win.stage.extractLsb' 0 8, op := op, delay := if s.host.latActive then 2 else 1 }

/-- Byte 0 of write staging names one of the registers 0xF0 to 0xF7. -/
def Win.inRange (w : Win) : Bool := decide (0xF0 ≤ w.stage.toNat % 256 ∧ w.stage.toNat % 256 ≤ 0xF7)

theorem Win.outOfRange_eq (w : Win) :
    (decide ((w.stage.setWidth 8 : Byte).toNat < 0xF0) || decide (0xF7 < (w.stage.setWidth 8 : Byte).toNat))
      = !w.inRange := by
  rw [Bool.eq_iff_iff]
  simp [Win.inRange, BitVec.toNat_setWidth, or_comm]

/-- Passed on: the MRR in its slot with the DRAM's byte, its burst opened in the buffers (R102). -/
theorem State.passRead_hold {s : State} {x : Sub} (on : s.winOn x = true) (own : (s.sub x).owner = .host)
    (range : (s.sub x).win.inRange = true) (rank : Fin 4) (data : Byte) :
    ∃ l, (s.hold x).passRead x rank data = { s.setSub x (fun u => { u with
        hostDq := some data, drive := some (s.passDrive x .mrr rank 0) }) with dbs := l } := by
  obtain ⟨l, burst⟩ : ∃ l, (s.hold x).burstFrame x .mrr (BitVec.ofNat 4 (2 ^ rank.val)) = { s.hold x with dbs := l } :=
    ⟨_, State.dbcCmd_form _ x (.rd _)⟩
  refine ⟨l, ?_⟩
  simp only [State.passRead, State.hold_winOn, on, State.hold_sub, own, Win.outOfRange_eq, range, burst, bne_self_eq_false,
    Bool.not_true, Bool.false_eq_true, if_false]
  cases x <;> rfl

/-- A subchannel that is not with the host: what the host samples is a free value (R102). -/
theorem State.passRead_hold_of_owner {s : State} {x : Sub} (on : s.winOn x = true) (own : (s.sub x).owner ≠ .host)
    (rank : Fin 4) (data : Byte) :
    (s.hold x).passRead x rank data
      = { s.setSub x (fun u => { u with drive := none, hostDq := some (s.freeVal 8) }) with free := s.free + 1 } := by
  have other : ((s.sub x).owner != .host) = true := by simpa using own
  simp only [State.passRead, State.hold_winOn, on, State.hold_sub, other, Bool.not_true, Bool.false_eq_true, if_false, if_true]
  cases x <;> rfl

/-- PASS_WRITE is passed on where the window takes it, the subchannel is with the host and byte 0 is in range (R100). -/
theorem State.passMrw_hold (s : State) (x : Sub) (rank : Fin 4) :
    (s.hold x).passMrw x rank
      = if s.winTakes x = true ∧ (s.sub x).owner = .host ∧ (s.sub x).win.inRange = true then
          s.setSub x (fun u => { u with drive := some (s.passDrive x .mrw rank ((s.sub x).win.stage.extractLsb' 8 8)) })
        else s.hold x := by
  have passed : (!s.winTakes x || ((s.sub x).owner != .host || !(s.sub x).win.inRange)) = true
      ↔ ¬ (s.winTakes x = true ∧ (s.sub x).owner = .host ∧ (s.sub x).win.inRange = true) := by
    simp only [Bool.or_eq_true, Bool.not_eq_true', bne_iff_ne, ne_eq, not_and_or, Bool.not_eq_true]
  simp only [State.passMrw, State.hold_winTakes, State.hold_sub, Bool.or_assoc, Win.outOfRange_eq, passed, ite_not]
  split
  · cases x <;> rfl
  · rfl

/-! ## The window's reads (O28) -/

/-- Settles O28: a command in its slot holds YCS_n high and then acts; `State.winDrive` is how a byte reaches the host. -/
theorem windowReads : Obligations.WindowReads := by
  unfold Obligations.WindowReads
  refine ⟨fun x i s hs on defd => ?read, fun x s hs on defd => ?status, fun x i s hs off hd defd => ?absent,
    fun x i s hs on undef still => ?undefined, fun x rank data s hs on own lo hi => ?passed,
    fun x rank data s hs on own => ?notHost, fun x rank s hs on room own lo hi => ?written, fun x rank s hs kept => ?held⟩
  case read =>
    obtain ⟨l, heq, same⟩ := State.winRead_hold on defd i
    rw [heq] at same
    refine ⟨_, State.winSlot_next hs (State.discards_of_winOn on) heq, ?_⟩
    cases x <;> exact ⟨rfl, rfl, rfl, same⟩
  case status =>
    obtain ⟨l, heq⟩ := State.winStatusRead_hold on defd
    obtain ⟨b0, b1, b2, b3, b4, b5, top⟩ := statusByte_bits (s.sub x).win.rvalid (!(s.sub x).win.commits.isEmpty) (s.cmdBusy x)
      ((s.sub x).owner == .granted) ((s.sub x).owner == .host) ((s.sub x).owner == .stopped) (s.sub x).win.result
    refine ⟨_, s.winStatus x, State.winSlot_next hs (State.discards_of_winOn on) heq, ?_, b0, b1, b2, b3, b4, b5, top, rfl⟩
    cases x <;> rfl
  case absent =>
    have off' := (s.hold_winOn x).trans off
    obtain ⟨dq, win⟩ := State.winDrive_hold_zero defd
    exact ⟨_, _, State.winSlot_next hs hd (State.winRead_of_off off' i), State.winSlot_next hs hd (State.winStatusRead_of_off off'),
      dq, win, dq, win⟩
  case undefined =>
    refine ⟨s.freeVal 8, State.winSlot_next hs (State.discards_of_winOn on) ?_⟩
    rw [State.winRead_of_on ((s.hold_winOn x).trans on), State.hold_host, if_neg still,
      State.winDrive_of_undefined ((s.hold_winUndefined x).trans undef)]
    cases x <;> rfl
  case passed =>
    obtain ⟨l, heq⟩ := State.passRead_hold on own (decide_eq_true ⟨lo, hi⟩) rank data
    refine ⟨_, State.winSlot_next hs (State.discards_of_winOn on) heq, ?_⟩
    cases x <;> rfl
  case notHost =>
    exact ⟨s.freeVal 8, State.winSlot_next hs (State.discards_of_winOn on) (State.passRead_hold_of_owner on own rank data)⟩
  case written =>
    have takes : s.winTakes x = true := by simp [State.winTakes, Win.full, on, room]
    refine State.winSlot_next hs (State.discards_of_winOn on) ?_
    rw [State.passMrw_hold, if_pos ⟨takes, own, decide_eq_true ⟨lo, hi⟩⟩]
    cases x <;> rfl
  case held =>
    have held : (s.hold x).passMrw x rank = s.hold x := by
      rw [State.passMrw_hold, if_neg]
      rintro ⟨-, own, range⟩
      obtain ⟨lo, hi⟩ := of_decide_eq_true range
      exact kept.elim (· own) (by omega)
    cases hd : s.discards x with
    | true => exact congrArg Host.Outcome.next (by simp [State.winSlot, hs, hd, State.hold])
    | false => exact State.winSlot_next hs hd held

end Sys2Proof.Machine

/-! SUPPORT. What a report leaves: the blocks of the state that no unlatched event, fault count, bus retry, buffer command or
console answer writes (R129, R256, R277, R323). -/

namespace Sys2Proof.Machine
open Sys2Proof

/-! ## The blocks that reports leave -/

/-- The state with the blocks blanked that a report may write: buffers, bus, calibration, settings memory's RAM state,
faults, events, console and pool. Two states that are equal in this view agree on every other block. -/
def State.still (s : State) : State :=
  { s with
    dbs := [], zlb := Zlb.fresh, cal := Cal.fresh, nvs := Nvs.fresh, flt := Flt.fresh, evt := Evt.fresh
    con := Con.fresh, pool := Pool.fresh }

theorem State.kept_of_still {s t : State} (h : t.still = s.still) :
    t.pending = s.pending ∧ t.modl = s.modl ∧ t.nv = s.nv ∧ t.pow = s.pow ∧ t.clk = s.clk ∧ t.feat = s.feat ∧ t.host = s.host
      ∧ t.subA = s.subA ∧ t.subB = s.subB ∧ t.train = s.train ∧ t.zxp = s.zxp ∧ t.hrd = s.hrd := by
  simp only [State.still, State.mk.injEq] at h
  simp only [h, and_self]

section
variable (s : State)

theorem State.setSub_still (x : Sub) (f : SubSt → SubSt) : (s.setSub x f).still = s.still.setSub x f := by
  cases x <;> rfl

theorem State.setTr_sub (x y : Sub) (f : TrainSub → TrainSub) : (s.setTr x f).sub y = s.sub y := by
  cases x <;> rfl

theorem State.setSub_sub_ne {x y : Sub} (h : y ≠ x) (f : SubSt → SubSt) : (s.setSub x f).sub y = s.sub y := by
  match x, y with
  | .a, .b | .b, .a => rfl
  | .a, .a | .b, .b => exact absurd rfl h

theorem State.setTr_tr_ne {x y : Sub} (h : y ≠ x) (f : TrainSub → TrainSub) : (s.setTr x f).tr y = s.tr y := by
  match x, y with
  | .a, .b | .b, .a => rfl
  | .a, .a | .b, .b => exact absurd rfl h

theorem State.setSub_tr (x y : Sub) (f : SubSt → SubSt) : (s.setSub x f).tr y = s.tr y := by
  cases x <;> rfl

/-! ## Events and faults -/

/-- An event that the island never latches (R224, R245) reaches the event unit alone. -/
@[simp] theorem State.raise_still {n : Nat} (power : n < 24 ∨ 31 < n) (hoard : n < 48 ∨ 55 < n) (a : BitVec 24) :
    (s.raise n a).still = s.still := by
  have unlatched : ¬ s.latches n = true := by
    simp only [State.latches, Bool.or_eq_true, Bool.and_eq_true, decide_eq_true_eq]
    omega
  unfold State.raise
  rw [if_neg unlatched]
  split <;> rfl

/-- Of the island and the ZX8-P, an event reaches the island's latch at most. -/
theorem State.raise_kept (n : Nat) (a : BitVec 24) : ∃ l, (s.raise n a).pow = { s.pow with latched := l }
    ∧ (s.raise n a).zxp = s.zxp ∧ (s.raise n a).nvs = s.nvs := by
  obtain ⟨l, e, h⟩ := s.raise_form n a
  rw [h]
  exact ⟨l, rfl, rfl, rfl⟩

theorem State.raise_if_still (p : Prop) [Decidable p] {n : Nat} (power : n < 24 ∨ 31 < n) (hoard : n < 48 ∨ 55 < n)
    (a : BitVec 24) : (if p then s.raise n a else s).still = s.still := by
  split
  · exact s.raise_still power hoard a
  · rfl

@[simp] theorem State.fault_still (c i k : Nat) : (s.fault c i k).still = s.still := by
  obtain ⟨f, h⟩ := s.fault_form c i k
  rw [h]
  rfl

/-- A record for the fault ring may be dropped, which raises EV39 (R204). -/
@[simp] theorem State.faultRecord_still (r : FaultRec) : (s.faultRecord r).still = s.still := by
  unfold State.faultRecord State.ringDrop
  dsimp only
  split
  · rfl
  · exact State.raise_if_still _ _ (by omega) (by omega) _

@[simp] theorem State.setRepair_still (e : Nat) (r : Repair) : (s.setRepair e r).still = s.still := by
  unfold State.setRepair State.logRepair
  split
  · rfl
  · exact State.faultRecord_still _ _

/-! ## Console -/

@[simp] theorem State.setSes_still (x : Sess) (f : SessSt → SessSt) : (s.setSes x f).still = s.still := by
  cases x <;> rfl

@[simp] theorem State.conRelease_still : s.conRelease.still = s.still := by
  unfold State.conRelease
  split <;> rfl

@[simp] theorem State.sendLost_still (x : Sess) : (s.sendLost x).still = s.still := by
  unfold State.sendLost
  dsimp only
  split
  · rfl
  · split
    · rfl
    · exact (State.raise_still _ (by omega) (by omega) _).trans (s.setSes_still x _)

@[simp] theorem State.sendBacklog_still (x : Sess) : (s.sendBacklog x).still = s.still := by
  unfold State.sendBacklog
  dsimp only
  (repeat' split) <;> simp

@[simp] theorem State.pump_still (x : Sess) : (s.pump x).still = s.still := by
  unfold State.pump
  dsimp only
  split <;> simp

@[simp] theorem State.respond_still (rq : Req) (ls : List Text) (l : Text) (e : Option Ending) :
    (s.respond rq ls l e).still = s.still := by
  have exec : ∀ c : Con, ({ s with con := c } : State).still = s.still := fun _ => rfl
  unfold State.respond
  dsimp only
  split <;> simp [exec]

/-! ## Calibration -/

@[simp] theorem State.conCal_still (u o z : Nat) : (s.conCal u o z).still = s.still := by
  unfold State.conCal State.conHold
  split
  · split
    · rfl
    · dsimp only
      split
      · exact s.respond_still _ _ _ _
      · rfl
  · rfl

@[simp] theorem State.calRecord_still (u k o : Nat) (c : Bool) : (s.calRecord u k o c).still = s.still := by
  exact (State.raise_if_still _ _ (by omega) (by omega) _).trans (State.raise_if_still _ _ (by omega) (by omega) _)

/-- Abandoned work on a unit other than the ADC leaves the ZX8-P's readings too. -/
theorem State.calAbandon_still {u : Nat} (hu : u ≠ 11) : (s.calAbandon u).still = s.still := by
  unfold State.calAbandon State.swapsBack
  rw [if_neg hu]
  split
  · rfl
  · exact (State.conCal_still _ _ _ _).trans (State.calRecord_still _ _ _ _ _)

@[simp] theorem State.calTap_still (u : Nat) (c : Bool) (n : List Nat) (nc : Bool) : (s.calTap u c n nc).still = s.still := by
  unfold State.calTap State.calWait State.calBegin
  (repeat' split) <;> rfl

@[simp] theorem State.calResume_still : s.calResume.still = s.still := by
  unfold State.calResume
  split
  · rfl
  · exact foldl_kept State.still _ (fun t e => t.calTap_still _ _ _ _) _ _

/-! ## Bus and buffers -/

@[simp] theorem State.attemptFail_still (t : Nat) : (s.attemptFail t).still = s.still := by
  exact (State.raise_still _ (by omega) (by omega) _).trans (s.fault_still 3 t 1)

/-- A target that does not answer is lost, and with it the calibration of its unit. -/
theorem State.zlbTry_still {t : Nat} (ht : t < 10) : (s.zlbTry t).still = s.still := by
  have marked : ∀ u : State, (u.markUnreach t).still = u.still := fun u => by
    unfold State.markUnreach
    split
    · rfl
    · exact (State.calAbandon_still _ (by omega)).trans (State.raise_still _ (by omega) (by omega) _)
  have last : ∀ u : State, (u.lastFail t).still = u.still := fun u => (marked _).trans (u.fault_still 3 t 1)
  unfold State.zlbTry State.noAnswer
  split
  · rfl
  · simp [last]

@[simp] theorem State.setDb_still (n : Nat) (f : Db → Db) : (s.setDb n f).still = s.still := rfl

@[simp] theorem State.warrenAccess_still (t o : Nat) (d r : Word) : (s.warrenAccess t o d r).still = s.still := rfl

@[simp] theorem State.dbcAll_still (x : Sub) (f : Db → Db) : (s.dbcAll x f).still = s.still := by
  unfold State.dbcAll
  split <;> rfl

/-- The buffers are given their configuration anew: one that does not answer is retried and reported (R114, R129). -/
@[simp] theorem State.copyCfg_still (x : Sub) : (s.copyCfg x).still = s.still := by
  have each : ∀ n ∈ subDbs x, n < 10 := by cases x <;> decide
  unfold State.copyCfg
  split
  · rfl
  · refine List.foldlRecOn (motive := fun t : State => t.still = s.still) _ _ rfl fun t ht n hn => ?_
    have sent : (t.zlbTry n).still = s.still := (t.zlbTry_still (each n hn)).trans ht
    dsimp only
    split
    · rwa [State.setDb_still, State.warrenAccess_still]
    · exact sent

/-! ## The work of a grant, and the loss of DRAM contents -/

@[simp] theorem State.repairAbandon_still (x : Sub) : (s.repairAbandon x).still = s.still := by
  unfold State.repairAbandon State.repairStop State.setBusy
  cases x <;> (repeat' split) <;> rfl

/-- An abandoned maintenance unit leaves the training of its subchannel, and its buffers are sent a training frame. -/
theorem State.unitAbandon_still (x : Sub) : ∃ f, (s.unitAbandon x).still = (s.setTr x f).still := by
  unfold State.unitAbandon State.trainFrames State.unitRestore
  split
  · refine ⟨fun t => { t with row := (t.row + 1) % s.dieRows x, phase := .done, unit := none }, ?_⟩
    refine (foldl_kept State.still _ (fun t c => t.dbcAll_still x _) _ _).trans ?_
    cases x <;> rfl
  · exact ⟨id, by cases x <;> rfl⟩

theorem State.repairsLost_still (x : Sub) :
    (s.repairsLost x).still = (s.setSub x (fun t => { t with ecsBase := false })).still := by
  unfold State.repairsLost
  refine foldl_kept State.still _ (fun t e => ?_) _ _
  dsimp only
  split <;> simp

/-- What YRST_n low takes with it of the blocks that no report writes: the baselines of the ECS reads and the watermarks. -/
theorem State.yrstLow_still : s.yrstLow.still =
    State.still { s with
      host := { s.host with yrst := false }, subA := { s.subA with ecsBase := false }
      subB := { s.subB with ecsBase := false }, hrd := { s.hrd with wmarkA := 0, wmarkB := 0 } } := by
  have marks : ∀ u : State, u.wmarksLost.still = u.still.wmarksLost := fun _ => rfl
  simp only [State.yrstLow, subs, List.foldl_cons, List.foldl_nil, marks, State.repairsLost_still, State.setSub_still]
  rfl

theorem State.yrstLow_kept :
    s.yrstLow.pow = s.pow ∧ s.yrstLow.clk = s.clk ∧ s.yrstLow.host = { s.host with yrst := false }
      ∧ s.yrstLow.subA = { s.subA with ecsBase := false } ∧ s.yrstLow.subB = { s.subB with ecsBase := false }
      ∧ s.yrstLow.train = s.train ∧ s.yrstLow.zxp = s.zxp := by
  obtain ⟨-, -, -, pow, clk, -, host, subA, subB, train, zxp, -⟩ := State.kept_of_still s.yrstLow_still
  exact ⟨pow, clk, host, subA, subB, train, zxp⟩

end
end Sys2Proof.Machine

/-! SUPPORT. What a restart of PD2, the end of a save, a power-down and a wake leave of the keep-alive island (R67, R72, R207,
R216), and with it host power good (O4). -/

namespace Sys2Proof.Machine
open Sys2Proof

/-! ## PD2 going off and starting (R67, R72) -/

/-- The end of a RESTORE moves the domain state and its domains, nothing else. -/
theorem State.restoreEnd_form (s : State) : ∃ d o p,
    s.restoreEnd = { s with pow := { s.pow with dom := d, on := o, pd2Down := p } }
      ∧ (s.pow.dom ≠ .restore → d = s.pow.dom ∧ o = s.pow.on ∧ p = s.pow.pd2Down) := by
  unfold State.restoreEnd
  split
  case isTrue h => exact ⟨_, _, _, rfl, fun hne => absurd (beq_iff_eq.mp h) hne⟩
  case isFalse => exact ⟨_, _, _, rfl, fun _ => ⟨rfl, rfl, rfl⟩⟩

/-- What clearing PD2 leaves of the island and of the ZX8-P: the island lays down its copy of HOARD and latches the regions
lost, and a RESTORE that ran is over. -/
theorem State.mgmtClear_form (s : State) : ∃ d o p c l,
    s.mgmtClear.pow = { s.pow with dom := d, on := o, pd2Down := p, copy := c, lost := l }
      ∧ s.mgmtClear.zxp = { s.zxp with held := none, convCurrent := false } ∧ s.mgmtClear.modl = s.modl
      ∧ (s.pow.dom ≠ .restore → d = s.pow.dom ∧ o = s.pow.on ∧ p = s.pow.pd2Down) := by
  obtain ⟨v, n, b, q, torn⟩ := s.tearCommit_form
  obtain ⟨h, halted⟩ := s.tearCommit.layCopy.dropPending.hoardHalt_form
  obtain ⟨d, o, p, ended, stays⟩ := s.tearCommit.layCopy.dropPending.hoardHalt.restoreEnd_form
  rw [halted, torn] at ended stays
  have cleared : s.mgmtClear.pow = s.tearCommit.layCopy.dropPending.hoardHalt.restoreEnd.pow
      ∧ s.mgmtClear.zxp = { s.tearCommit.layCopy.dropPending.hoardHalt.restoreEnd.zxp with held := none, convCurrent := false }
      ∧ s.mgmtClear.modl = s.tearCommit.layCopy.dropPending.hoardHalt.restoreEnd.modl := ⟨rfl, rfl, rfl⟩
  rw [halted, torn, ended] at cleared
  obtain ⟨pow, zxp, modl⟩ := cleared
  exact ⟨d, o, p, _, _, pow, zxp, modl, stays⟩

/-- A restart of PD2 outside RESTORE (R72, R79). -/
theorem State.pd2Start_pow {s : State} {cause : BitVec 8} (hc : cause ≠ 0) (hd : s.pow.dom ≠ .restore) :
    ∃ c l, (s.pd2Start cause).pow = Pow.clear { s.pow with copy := c, lost := l } := by
  obtain ⟨d, o, p, c, l, pow, -, -, stays⟩ := s.mgmtClear_form
  obtain ⟨rfl, rfl, rfl⟩ := stays hd
  refine ⟨c, l, ?_⟩
  change (if cause = 0 then s.mgmtClear.pow else s.mgmtClear.pow.clear) = _
  rw [if_neg hc, pow]

/-! ## A save ends short (R246, R247) -/

theorem State.saveEnd_form (s : State) (outcome : BitVec 3) : ∃ h l e,
    s.saveEnd outcome = { s with hrd := h, pow := { s.pow with latched := l }, evt := e } := by
  unfold State.saveEnd
  split
  · obtain ⟨l, e, h⟩ := State.raise_form _ 49 (outcome.setWidth 24)
    exact ⟨_, l, e, h⟩
  · exact ⟨_, _, _, rfl⟩
  · exact ⟨_, _, _, rfl⟩

@[simp] theorem State.sleepSub_pow (s : State) (x : Sub) : (s.sleepSub x).pow = s.pow := by
  unfold State.sleepSub State.setRanks State.issue
  split <;> simp

/-- The ranks go back to sleep under the hold: nothing of the island moves. -/
@[simp] theorem State.saveAsleep_pow (s : State) : s.saveAsleep.pow = s.pow := by
  simp [State.saveAsleep, State.setPhase]

/-! ## Wake (R207, R216, R225) -/

/-- The power of a wake: KDEEP_n is released, the converter stops, the OR carries host bulk, and the domains are switched. -/
def State.waking (s : State) : State :=
  { s with
    pow := { s.pow with keep := .wake, kdeep := false }
    zxp := { s.zxp with convOn := false, orHost := true } }.setDom .wake

/-- The start of a wake, after the save that it stops: PD2 and PD3 come up. -/
def State.wakeStart (s : State) : State := (s.waking.pd2Start 2).pd3Start

/-- Wake stops a save, which may latch an event, and starts PD2; where no save has PD5 up, PD5 starts as well. -/
theorem State.wake_form (s : State) : ∃ (u : State) (l : List Latch), u.pow = { s.pow with latched := l } ∧ u.modl = s.modl
    ∧ (s.wake = u.wakeStart.charger ∨ s.wake = u.wakeStart.pd5Start.charger) := by
  obtain ⟨h, l, e, ended⟩ := s.saveEnd_form 2
  have pow : (s.saveEnd 2).pow = { s.pow with latched := l } := by rw [ended]
  have modl : (s.saveEnd 2).modl = s.modl := by rw [ended]
  cases hk : s.pow.keep == Keep.save with
  | true =>
    refine ⟨(s.saveEnd 2).saveAsleep, l, (State.saveAsleep_pow _).trans pow, by simp, Or.inl ?_⟩
    simp only [State.wake, hk, if_true]
    rfl
  | false =>
    refine ⟨s.saveEnd 2, l, pow, modl, Or.inr ?_⟩
    simp only [State.wake, hk, Bool.false_eq_true, if_false]
    rfl

/-- The island after the start of a wake: KDEEP_n is released, the domains are those of R67, the image stands. -/
theorem State.wakeStart_pow (s : State) : ∃ c l o,
    s.wakeStart.pow = Pow.clear { s.pow with
      keep := .wake, kdeep := false, dom := .wake, pd2Down := false, on := o, copy := c, lost := l }
    ∧ o &&& 0x7D = domMask .wake s.buffers s.modl.hoardFitted := by
  have restores : s.waking.pow.dom ≠ .restore := by simp [State.waking]
  obtain ⟨c, l, pow⟩ := State.pd2Start_pow (cause := 2) (by decide) restores
  exact ⟨c, l, _, pow, on_seven _ _ _ _ _⟩

theorem State.wakeStart_zxp (s : State) : s.wakeStart.zxp.convOn = false ∧ s.wakeStart.zxp.orHost = true := by
  obtain ⟨-, -, -, -, -, -, zxp, -, -⟩ := s.waking.mgmtClear_form
  have start : s.wakeStart.zxp = { s.waking.mgmtClear.zxp with aclk := 8 } := rfl
  rw [start, zxp]
  exact ⟨rfl, rfl⟩

/-- What host power good makes of a Dormouse: a wake, and behind it the charger rearmed (R213). -/
theorem State.wake_chgRearm (s : State) :
    let t := s.wake.chgRearm
    t.pow.keep = .wake ∧ t.pow.dom = .wake ∧ t.pow.hostPg = s.pow.hostPg ∧ t.pow.pfailLow = s.pow.pfailLow
      ∧ t.pow.kdeep = false ∧ t.pow.image = s.pow.image
      ∧ t.pow.on &&& 0x7D = domMask .wake s.buffers s.modl.hoardFitted ∧ t.zxp.convOn = false ∧ t.zxp.orHost = true
      ∧ t.feat = { Feat.fresh with phase := .booting } ∧ t.twb = Twb.fresh ∧ t.con = Con.fresh ∧ t.evt = Evt.fresh
      ∧ t.pool = Pool.fresh := by
  obtain ⟨u, l, upow, umodl, woken⟩ := s.wake_form
  obtain ⟨c, l', o, pow, on⟩ := u.wakeStart_pow
  obtain ⟨conv, orHost⟩ := u.wakeStart_zxp
  have tpow : s.wake.chgRearm.pow = u.wakeStart.pow := by rcases woken with h | h <;> rw [h] <;> rfl
  have tconv : s.wake.chgRearm.zxp.convOn = false := by rcases woken with h | h <;> rw [h] <;> exact conv
  have tor : s.wake.chgRearm.zxp.orHost = true := by rcases woken with h | h <;> rw [h] <;> exact orHost
  have buffers : u.buffers = s.buffers := by simp only [State.buffers, upow, umodl]
  rw [upow] at pow
  rw [buffers, umodl] at on
  dsimp only
  rw [tpow, pow]
  refine ⟨rfl, rfl, rfl, rfl, rfl, rfl, on, tconv, tor, ?_⟩
  rcases woken with h | h <;> rw [h] <;> exact ⟨rfl, rfl, rfl, rfl, rfl⟩

/-! ## Host power good (O4) -/

/-- Settles O4: outside a Dormouse host power good moves the comparators' outputs and the keep state alone; in HOLD and SAVE it
is `State.wake` (R216, R225). -/
theorem hostPowerGood : Obligations.HostPowerGood := by
  unfold Obligations.HostPowerGood
  intro s hoff hpg
  have good : exec .hostPowerGood s = .next s.hostGood := by
    change execHostPowerGood s = _
    simp [execHostPowerGood, hoff, hpg]
  rw [good]
  refine ⟨fun hk => ⟨_, rfl, ?_⟩, fun hk => ⟨_, rfl, ?_⟩⟩
  · rcases hk with hk | hk
    · have counts : s.hostGood = s.hostUp.startDeadline := by simp [State.hostGood, State.hostUp, State.charger, hk]
      rw [counts]
      by_cases waits : s.feat.phase = .waitHost <;>
        simp [State.startDeadline, State.hostUp, State.charger, waits, hk]
    · simp [State.hostGood, State.hostUp, State.charger, hk]
  · have woken : s.hostGood = s.hostUp.wake.chgRearm := by
      rcases hk with hk | hk <;> simp [State.hostGood, State.hostUp, State.charger, hk]
    obtain ⟨keep, dom, hpg, pfail, kdeep, image, on, conv, orHost, feat, twb, con, evt, pool⟩ := s.hostUp.wake_chgRearm
    obtain ⟨pending, modl, -⟩ := s.hostGood_moves
    rw [woken] at pending modl ⊢
    exact ⟨keep, dom, hpg, pfail, kdeep, image, on, conv, orHost, feat, twb, con, evt, pool, pending, modl⟩

end Sys2Proof.Machine

/-! SUPPORT. The ends of a Dormouse, and what only counts in one (O9): the power-down, the start of a save, and the drop of an
image. -/

namespace Sys2Proof.Machine
open Sys2Proof

/-! ## The power-down (R67, R207) -/

/-- Before PD2 goes off, a power-down touches neither the island nor the ZX8-P but for the converter, which stops. -/
theorem State.powerDown_prepared (s : State) :
    (s.conv false).yrstLow.pd3Off.pow = s.pow ∧ (s.conv false).yrstLow.pd3Off.zxp = { s.zxp with convOn := false } := by
  obtain ⟨pow, -, -, -, -, -, zxp⟩ := (s.conv false).yrstLow_kept
  have off : ∀ u : State, u.pd3Off.pow = u.pow ∧ u.pd3Off.zxp = u.zxp := fun _ => ⟨rfl, rfl⟩
  rw [(off _).1, (off _).2, pow, zxp]
  exact ⟨rfl, rfl⟩

/-- The island after a power-down: KEEP_ONLY with PD0 alone, no image, KDEEP_n released, and the fault bits as they were. -/
theorem State.powerDown_pow (s : State) (lastEnd : BitVec 3) : ∃ c l o,
    (s.powerDown lastEnd).pow = { s.pow with
      dom := .keepOnly, keep := if s.pow.hostPg then .normal else .empty, on := o, pd2Down := false, image := false
      kdeep := false, lastEnd := lastEnd, copy := c, lost := l }
    ∧ o &&& 0x7D = 1 := by
  obtain ⟨pow, -⟩ := s.powerDown_prepared
  obtain ⟨d, o, p, c, l, cleared, -, -, -⟩ := (s.conv false).yrstLow.pd3Off.mgmtClear_form
  rw [pow] at cleared
  refine ⟨c, l, _, ?_, on_seven .keepOnly s.buffers s.modl.hoardFitted false o⟩
  unfold State.powerDown
  generalize (s.conv false).yrstLow.pd3Off = u at cleared ⊢
  have off : u.pd2Off.pow = u.mgmtClear.pow := rfl
  simp only [State.setSub_pow, State.setDom, off, cleared]
  rfl

theorem State.powerDown_zxp (s : State) (lastEnd : BitVec 3) :
    (s.powerDown lastEnd).zxp = { s.zxp with convOn := false, held := none, convCurrent := false, aclk := 1 } := by
  obtain ⟨-, zxp⟩ := s.powerDown_prepared
  obtain ⟨-, -, -, -, -, -, cleared, -, -⟩ := (s.conv false).yrstLow.pd3Off.mgmtClear_form
  rw [zxp] at cleared
  unfold State.powerDown
  generalize (s.conv false).yrstLow.pd3Off = u at cleared ⊢
  have off : u.pd2Off.zxp = { u.mgmtClear.zxp with aclk := 1 } := rfl
  simp only [State.setSub_zxp, State.setDom_zxp, off, cleared]

theorem State.powerDown_commit (s : State) (lastEnd : BitVec 3) : (s.powerDown lastEnd).nvs.commit = none := by
  unfold State.powerDown
  simp only [State.setSub_nvs, State.setDom_nvs]
  rfl

/-- A domain fault sets its bit, and its event may be latched (R70). -/
theorem State.domFault_pow (s : State) (i : Nat) : ∃ l, (s.domFault i).pow =
    { s.pow with faults := s.pow.faults ||| BitVec.ofNat 5 (2 ^ i), latched := l } := by
  obtain ⟨l, pow, -⟩ := State.raise_kept { s with pow := { s.pow with faults := s.pow.faults ||| BitVec.ofNat 5 (2 ^ i) } } 30
    ((s.pow.faults ||| BitVec.ofNat 5 (2 ^ i)).setWidth 24 <<< 2)
  exact ⟨l, pow⟩

/-! ## A save begins (R49, R207) -/

/-- The power of a save: KDEEP_n is asserted, the domains are switched, and the save counts from nothing. -/
def State.saving (s : State) : State :=
  { s with
    pow := { s.pow with keep := .save, kdeep := true }
    hrd := { s.hrd with provedA := false, provedB := false, retiredNow := [], pages := 0, saveMs := 0 } }.setDom .save

/-- PD3 that comes up in SAVE serves no host (R86). -/
theorem State.pd3Start_blocked {s : State} (h : s.pow.dom = .save) :
    s.pd3Start.subA.owner = .blocked ∧ s.pd3Start.subB.owner = .blocked := by
  simp [State.pd3Start, h]

/-- After the start of a save PD6 is on besides the domains of RUN, PD2 boots, and the image stands. -/
theorem State.enterSave_begins (s : State) :
    let t := s.enterSave
    t.pow.keep = .save ∧ t.pow.dom = .save ∧ t.pow.kdeep = true ∧ t.pow.image = s.pow.image
      ∧ t.pow.on &&& 0x7D = domMask .save s.buffers s.modl.hoardFitted ∧ t.feat = { Feat.fresh with phase := .booting }
      ∧ t.subA.owner = .blocked ∧ t.subB.owner = .blocked := by
  have restores : s.saving.pow.dom ≠ .restore := by simp [State.saving]
  obtain ⟨c, l, pow⟩ := State.pd2Start_pow (cause := 2) (by decide) restores
  have blocked := State.pd3Start_blocked (s := s.saving.pd2Start 2) (by rw [pow]; rfl)
  have island : s.enterSave.pow = (s.saving.pd2Start 2).pow := rfl
  dsimp only
  rw [island, pow]
  exact ⟨rfl, rfl, rfl, rfl, on_seven _ _ _ _ _, rfl, blocked⟩

/-! ## The image is dropped in WAKE (R39, R227) -/

/-- Keep state WAKE ends in NORMAL and RUN (R67, R207); the calibrations that then start are no other block's concern. -/
theorem State.wakeEnd_still {s : State} (hk : s.pow.keep = .wake) (lastEnd : BitVec 3) : (s.wakeEnd lastEnd).still =
    State.still { s with pow := { s.pow with keep := .normal, dom := .run, lastEnd := lastEnd } } := by
  have wakes : ¬ (s.pow.keep != Keep.wake) = true := by simp [hk]
  unfold State.wakeEnd
  rw [if_neg wakes]
  dsimp only
  split
  · exact State.calResume_still _
  · rfl

/-- What a reset of the DRAMs and the end of a wake make of a dropped image. -/
theorem State.dropImage_wake {s : State} (hk : s.pow.keep = .wake) (cause : BitVec 24) :
    let t := s.dropImage cause
    t.pow.image = false ∧ t.pow.keep = .normal ∧ t.pow.dom = .run ∧ t.pow.lastEnd = 5 ∧ t.host.yrst = false
      ∧ t.host.yrstMs = 1 ∧ t.train = s.train := by
  obtain ⟨l, e, raised⟩ := State.raise_form { s with pow := { s.pow with image := false } } 29 cause
  have ended := State.wakeEnd_still (s := State.raise { s with pow := { s.pow with image := false } } 29 cause)
    (by rw [raised]; exact hk) 5
  obtain ⟨-, -, -, pow, -, -, -, -, -, train, -⟩ := State.kept_of_still ended
  rw [raised] at pow train
  unfold State.dropImage State.yrstPulse
  rw [raised]
  generalize State.wakeEnd _ 5 = u at pow train ⊢
  obtain ⟨lowPow, -, lowHost, -, -, lowTrain, -⟩ := u.yrstLow_kept
  dsimp only
  rw [lowPow, lowHost, lowTrain, pow, train]
  exact ⟨rfl, rfl, rfl, rfl, rfl, rfl, rfl⟩

theorem State.tr_a (s : State) : s.tr .a = s.train.a := rfl
theorem State.tr_b (s : State) : s.tr .b = s.train.b := rfl

/-- Training goes from HELD to INIT, or stays as it was; the island and the host side are left (R142). -/
theorem State.heldInit_kept (s : State) (x : Sub) :
    (s.heldInit x).pow = s.pow ∧ (s.heldInit x).host = s.host
      ∧ ((s.tr x).phase = .held → ((s.heldInit x).tr x).phase = .init) ∧ ∀ y ≠ x, (s.heldInit x).tr y = s.tr y := by
  unfold State.heldInit
  split
  case isTrue h => exact ⟨rfl, rfl, fun held => by simp [held] at h, fun _ _ => rfl⟩
  case isFalse h =>
    refine ⟨by simp [State.setRanks], by simp [State.setRanks], fun _ => ?_, fun y hy => ?_⟩
    · rw [State.setRanks, State.setSub_tr, State.setTr_tr]
    · rw [State.setRanks, State.setSub_tr, State.setTr_tr_ne _ hy]

/-! ## What ends a Dormouse (O9) -/

/-- The ZX8-P with its output of the 20 V floor fallen (R210). -/
def State.belowFloor (s : State) : State := { s with zxp := { s.zxp with above20 := false } }

/-- The ZX8-P with both outputs of its floors fallen (R210). -/
def State.belowBothFloors (s : State) : State := { s with zxp := { s.zxp with above20 := false, above16 := false } }

/-- A floor that is passed in HOLD or SAVE is a power-down with LAST_END 3, which may latch an event (R207, R223). -/
theorem State.bankFloor_powerDown {s : State} (hk : s.pow.keep = .hold ∨ s.pow.keep = .save) :
    ∃ (u : State) (l k : List Latch), u.zxp = { s.zxp with above20 := false } ∧ u.pow = { s.pow with latched := l }
      ∧ s.bankFloor.zxp = (u.powerDown 3).zxp ∧ s.bankFloor.pow = { (u.powerDown 3).pow with latched := k } := by
  rcases hk with hk | hk
  · obtain ⟨k, pow, zxp, -⟩ := (s.belowFloor.powerDown 3).raise_kept 28 2
    have floored : s.bankFloor = (s.belowFloor.powerDown 3).raise 28 2 := by
      simp only [State.bankFloor, hk, State.belowFloor, State.floorEnd]
    rw [floored]
    exact ⟨s.belowFloor, s.pow.latched, k, rfl, rfl, zxp, pow⟩
  · obtain ⟨h, l, e, ended⟩ := s.belowFloor.saveEnd_form 3
    have floored : s.bankFloor = (s.belowFloor.saveEnd 3).powerDown 3 := by
      simp only [State.bankFloor, hk, State.belowFloor]
    have own : ∀ p : Pow, ∃ k, p = { p with latched := k } := fun p => ⟨p.latched, rfl⟩
    obtain ⟨k, latch⟩ := own ((s.belowFloor.saveEnd 3).powerDown 3).pow
    rw [floored]
    exact ⟨s.belowFloor.saveEnd 3, l, k, by rw [ended]; rfl, by rw [ended]; rfl, rfl, latch⟩

/-- Settles O9: the loss of PD4 and the floors end in `State.powerDown`, the span in `State.enterSave`, the deadline in
`State.dropImage`; the rest only counts. -/
theorem dormouseEnds : Obligations.DormouseEnds := by
  unfold Obligations.DormouseEnds
  refine ⟨fun s hk => ⟨_, rfl, ?pd4⟩, fun s hon hk => ⟨s.bankFloor, ?floor, ?floored⟩, fun s hon hh hs => ?above,
    fun s hon hk => ?commit, fun s hon hk => ?commitless, fun s hk hp hc => ?counts,
    fun s hk hp hc => ?span, fun s hr hh hk => ⟨_, rfl, ?energy⟩, fun s hk hi hr hm => ?deadline⟩
  case pd4 =>
    obtain ⟨c, l, o, pow, on⟩ := s.powerDown_pow 4
    have lost : s.pd4Lost = (s.powerDown 4).domFault 2 := by simp [State.pd4Lost, hk]
    obtain ⟨k, fault⟩ := (s.powerDown 4).domFault_pow 2
    rw [lost, fault, pow]
    exact ⟨rfl, rfl, rfl, rfl, rfl, on⟩
  case floor => exact congrArg Host.Outcome.next (if_pos hon)
  case floored =>
    obtain ⟨u, l, k, zxp, upow, tzxp, tpow⟩ := State.bankFloor_powerDown hk
    obtain ⟨c, r, o, pow, on⟩ := u.powerDown_pow 3
    rw [upow] at pow
    rw [tpow, pow, tzxp, u.powerDown_zxp, zxp]
    exact ⟨rfl, rfl, rfl, rfl, rfl, rfl, rfl, on⟩
  case above =>
    refine congrArg Host.Outcome.next ((if_pos hon).trans ?_)
    unfold State.bankFloor
    dsimp only
    split
    · exact absurd ‹_› hh
    · exact absurd ‹_› hs
    · cases s.pow.kdeep <;> rfl
  case commit =>
    obtain ⟨c, l, o, pow, on⟩ := s.belowBothFloors.powerDown_pow (if s.pow.image then 3 else 6)
    obtain ⟨k, tpow, tzxp, tnvs⟩ := (s.belowBothFloors.powerDown (if s.pow.image then 3 else 6)).raise_kept 28 2
    have floored : s.commitFloor = (s.belowBothFloors.powerDown (if s.pow.image then 3 else 6)).raise 28 2 :=
      if_pos (beq_iff_eq.mpr hk)
    refine ⟨_, congrArg Host.Outcome.next ((if_pos hon).trans floored), ?_⟩
    rw [tpow, tzxp, tnvs, pow, State.powerDown_zxp, State.powerDown_commit]
    exact ⟨rfl, rfl, rfl, rfl, rfl, rfl⟩
  case commitless =>
    have stays : s.commitFloor = s.belowBothFloors.conv false := if_neg (fun h => hk (beq_iff_eq.mp h))
    exact congrArg Host.Outcome.next ((if_pos hon).trans stays)
  case counts =>
    change execSpanExpiry s = _
    simp [execSpanExpiry, State.spanExpire, hk, hp, hc]
  case span =>
    refine ⟨State.enterSave { s with pow := { s.pow with usedMs := max s.pow.usedMs (s.pow.span.toNat * 1000) } }, ?_,
      State.enterSave_begins _⟩
    change execSpanExpiry s = _
    simp [execSpanExpiry, State.spanExpire, hk, hp, hc]
  case energy =>
    simp only [Bool.and_eq_true] at hr
    obtain ⟨hon, reached⟩ := hr
    simp [State.energyUpdate, hon, reached, State.energyRead, hh, State.reserveTrigger, hk]
  case deadline =>
    have drops : s.deadlineDiscard = ((s.dropImage 1).heldInit .a).heldInit .b := by
      simp [State.deadlineDiscard, hk, hi, hr, hm]
    obtain ⟨image, keep, dom, lastEnd, yrst, yrstMs, train⟩ := State.dropImage_wake hk 1
    obtain ⟨powA, hostA, initA, otherA⟩ := (s.dropImage 1).heldInit_kept .a
    obtain ⟨powB, hostB, initB, otherB⟩ := ((s.dropImage 1).heldInit .a).heldInit_kept .b
    refine ⟨_, congrArg Host.Outcome.next drops, ?_⟩
    rw [powB, powA, hostB, hostA]
    refine ⟨image, keep, dom, lastEnd, yrst, yrstMs, fun held => ?_, fun held => ?_⟩
    · have heldA : ((s.dropImage 1).tr .a).phase = .held := by rw [State.tr_a, train, held]
      rw [← State.tr_a, otherB .a (by decide), initA heldA]
    · have heldB : (((s.dropImage 1).heldInit .a).tr .b).phase = .held := by
        rw [otherA .b (by decide), State.tr_b, train, held]
      rw [← State.tr_b, initB heldB]

end Sys2Proof.Machine

/-! SUPPORT. The host reset (O20): the window and the grant of a subchannel at HRST, and the latency that its end brings into
effect. -/

namespace Sys2Proof.Machine
open Sys2Proof

/-! ## A subchannel at HRST (R76, R86) -/

/-- With no commit captured, a window is cleared but for RESULT; what else HRST does to it is a report, of an open transfer. -/
theorem State.hrstWin_still {s : State} {x : Sub} (h : (s.sub x).win.commits = []) :
    (s.hrstWin x).still = (s.setWin x (fun w => { Win.fresh with result := w.result })).still := by
  have flushed : (if s.up then s.winFlush x else s) = s := by
    unfold State.winFlush
    rw [h]
    exact ite_self _
  unfold State.hrstWin
  rw [flushed]
  exact State.raise_if_still _ _ (by omega) (by omega) _

/-- The owner of a subchannel that HRST takes from the host (R86). -/
def Owner.afterHrst (o : Owner) : Owner := if o == .blocked then .blocked else .notReady

theorem Owner.afterHrst_eq (o : Owner) : o.afterHrst = if o = .blocked then .blocked else .notReady := by
  cases o <;> rfl

/-- Without an image a subchannel loses its grant and its owner, and its training goes back to WAIT; its window, the other
subchannel, the host side and the clocks are left. -/
theorem State.hrstSub_kept (s : State) (x : Sub) :
    (s.hrstSub x).host = s.host ∧ (s.hrstSub x).clk = s.clk ∧ ((s.hrstSub x).sub x).win = (s.sub x).win
      ∧ ((s.hrstSub x).sub x).owner = (s.sub x).owner.afterHrst ∧ ∀ y ≠ x, (s.hrstSub x).sub y = s.sub y := by
  obtain ⟨f, abandoned⟩ := (s.trimLeave x).unitAbandon_still x
  have freed := (State.repairAbandon_still _ x).trans abandoned
  obtain ⟨-, -, -, -, clk, -, host, subA, subB, -⟩ := State.kept_of_still freed
  have subs : ∀ y, (((s.trimLeave x).unitAbandon x).repairAbandon x).sub y = s.sub y := fun y => by
    cases y
    · exact subA.trans (State.setTr_subA _ _ _)
    · exact subB.trans (State.setTr_subB _ _ _)
  unfold State.hrstSub
  generalize ((s.trimLeave x).unitAbandon x).repairAbandon x = u at clk host subs ⊢
  dsimp only
  refine ⟨?_, ?_, ?_, ?_, fun y hy => ?_⟩
  · rw [State.setTr_host, State.setSub_host, host, State.setTr_host]
    rfl
  · rw [State.setTr_clk, State.setSub_clk, clk, State.setTr_clk]
    rfl
  · rw [State.setTr_sub, State.setSub_sub, subs]
  · rw [State.setTr_sub, State.setSub_sub, subs]
    rfl
  · rw [State.setTr_sub, State.setSub_sub_ne _ hy, subs]

/-! ## What HRST does, in its parts -/

/-- HRST notes its cause, and the windows are cleared. -/
def State.hrstNote (s : State) : State :=
  ((State.raise { s with clk := { s.clk with cause := s.clk.cause ||| 32 } } 2 0).hrstWin .a).hrstWin .b

/-- HRST stops the drives, the buffers' host side and the ALERT record. -/
def State.hrstStop (s : State) : State :=
  let u := (s.setSub .a (fun t => { t with drive := none, hostDq := none })).setSub .b
    (fun t => { t with drive := none, hostDq := none })
  let u := (u.dbcAll .a hostResetFrame).dbcAll .b hostResetFrame
  { u with host := { u.host with cause := 0, merged := false, pulse := none, waitPar := false, waitCrc := false } }

/-- Without an image HRST resets the DRAMs besides. -/
def State.hrstDram (s : State) : State :=
  let u := (s.hrstSub .a).hrstSub .b
  let u := { u with hrd := { u.hrd with readyHeldA := false, readyHeldB := false } }
  if u.host.yrst then u.yrstLow else u

theorem State.hrstDo_eq (s : State) : s.hrstDo =
    if s.hrstNote.hrstStop.pow.image then s.hrstNote.hrstStop else s.hrstNote.hrstStop.hrstDram := by
  unfold State.hrstDo State.hrstDram State.hrstStop State.hrstNote
  rfl

/-- Where no commit is captured, the noting of HRST writes its cause and clears both windows but for RESULT. -/
theorem State.hrstNote_still {s : State} (ha : s.subA.win.commits = []) (hb : s.subB.win.commits = []) :
    s.hrstNote.still = State.still { s with
      clk := { s.clk with cause := s.clk.cause ||| 32 }
      subA := { s.subA with win := { Win.fresh with result := s.subA.win.result } }
      subB := { s.subB with win := { Win.fresh with result := s.subB.win.result } } } := by
  unfold State.hrstNote
  have raised := State.raise_still (n := 2) { s with clk := { s.clk with cause := s.clk.cause ||| 32 } } (by omega) (by omega) 0
  have kept := State.kept_of_still raised
  generalize State.raise { s with clk := { s.clk with cause := s.clk.cause ||| 32 } } 2 0 = u at raised kept ⊢
  obtain ⟨-, -, -, -, -, -, -, subA, subB, -⟩ := kept
  have winA := State.hrstWin_still (s := u) (x := .a) (by rw [State.sub, subA, ha])
  obtain ⟨-, -, -, -, -, -, -, -, subB', -⟩ := State.kept_of_still winA
  have winB := State.hrstWin_still (s := u.hrstWin .a) (x := .b)
    (by rw [State.sub, subB', State.setWin, State.setSub_a, subB, hb])
  rw [winB, State.setWin, State.setSub_still, winA, State.setWin, State.setSub_still, raised]
  rfl

theorem State.hrstStop_still (s : State) : s.hrstStop.still = State.still { s with
    subA := { s.subA with drive := none, hostDq := none }, subB := { s.subB with drive := none, hostDq := none }
    host := { s.host with cause := 0, merged := false, pulse := none, waitPar := false, waitCrc := false } } := by
  unfold State.hrstStop
  dsimp only
  generalize hu : (s.setSub .a _).setSub .b _ = u
  have stopped : ((u.dbcAll .a hostResetFrame).dbcAll .b hostResetFrame).still = u.still :=
    (State.dbcAll_still _ _ _).trans (State.dbcAll_still _ _ _)
  generalize (u.dbcAll .a hostResetFrame).dbcAll .b hostResetFrame = v at stopped ⊢
  subst hu
  simp only [State.still, State.mk.injEq] at stopped
  simp [State.still, stopped]

/-- What the DRAM reset of HRST leaves of the host side, the clocks and the subchannels. -/
theorem State.hrstDram_kept (s : State) :
    s.hrstDram.host = { s.host with yrst := false } ∧ s.hrstDram.clk = s.clk
      ∧ s.hrstDram.subA.win = s.subA.win ∧ s.hrstDram.subA.owner = s.subA.owner.afterHrst
      ∧ s.hrstDram.subB.win = s.subB.win ∧ s.hrstDram.subB.owner = s.subB.owner.afterHrst := by
  obtain ⟨hostA, clkA, winA, ownerA, otherA⟩ := s.hrstSub_kept .a
  obtain ⟨hostB, clkB, winB, ownerB, otherB⟩ := (s.hrstSub .a).hrstSub_kept .b
  have subA := otherB .a (by decide)
  have subB := otherA .b (by decide)
  rw [← subA] at winA ownerA
  rw [subB] at winB ownerB
  rw [hostA] at hostB
  rw [clkA] at clkB
  unfold State.hrstDram
  generalize (s.hrstSub .a).hrstSub .b = u at hostB clkB winA ownerA winB ownerB ⊢
  dsimp only
  split
  case isTrue =>
    obtain ⟨-, clk, host, lowA, lowB, -⟩ := State.yrstLow_kept
      { u with hrd := { u.hrd with readyHeldA := false, readyHeldB := false } }
    rw [host, clk, lowA, lowB]
    exact ⟨by rw [hostB], clkB, winA, ownerA, winB, ownerB⟩
  case isFalse low =>
    have stays : u.host = { u.host with yrst := false } := by
      rw [← Bool.eq_false_iff.mpr low]
    exact ⟨by rw [← hostB]; exact stays, clkB, winA, ownerA, winB, ownerB⟩

/-- Where no commit is captured, HRST leaves these of the clocks, the host side and the subchannels before a DRAM reset. -/
theorem State.hrstStopped {s : State} (ha : s.subA.win.commits = []) (hb : s.subB.win.commits = []) :
    let t := s.hrstNote.hrstStop
    t.clk = { s.clk with cause := s.clk.cause ||| 32 } ∧ t.pow = s.pow ∧ t.host.resetHigh = s.host.resetHigh
      ∧ t.host.yrst = s.host.yrst ∧ t.subA.win = { Win.fresh with result := s.subA.win.result }
      ∧ t.subB.win = { Win.fresh with result := s.subB.win.result } ∧ t.subA.owner = s.subA.owner
      ∧ t.subB.owner = s.subB.owner := by
  obtain ⟨-, -, -, powN, clkN, -, hostN, subAN, subBN, -⟩ := State.kept_of_still (State.hrstNote_still ha hb)
  obtain ⟨-, -, -, pow, clk, -, host, subA, subB, -⟩ := State.kept_of_still s.hrstNote.hrstStop_still
  dsimp only at *
  rw [clk, pow, host, subA, subB, clkN, powN, hostN, subAN, subBN]
  exact ⟨rfl, rfl, rfl, rfl, rfl, rfl, rfl, rfl⟩

/-- HRST empties the ALERT record and stops its pulses, whatever the commits before it have written. -/
theorem State.hrstDo_host (s : State) : ∃ h : HostSt, s.hrstDo.host =
    { h with cause := 0, merged := false, pulse := none, waitPar := false, waitCrc := false } := by
  obtain ⟨-, -, -, -, -, -, host, -⟩ := State.kept_of_still s.hrstNote.hrstStop_still
  rw [State.hrstDo_eq]
  split
  · exact ⟨_, host⟩
  · obtain ⟨dram, -⟩ := s.hrstNote.hrstStop.hrstDram_kept
    rw [dram, host]
    exact ⟨{ s.hrstNote.host with yrst := false }, rfl⟩

/-- RESET_n is low (R76). -/
def State.resetLow (s : State) : State := { s with host := { s.host with resetHigh := false } }

/-! ## The end of HRST (R52, R76, R81) -/

/-- The host side once RESET_n has risen. -/
def State.hrstRisen (s : State) : State :=
  { s with host := { s.host with
      resetHigh := true, latActive := if s.host.latLoad then s.host.latActive else s.host.lat
      yrst := s.host.yrst || (!s.pow.image && s.host.yrstMs == 0) } }

/-- A latency that changes goes to the buffers, which is the bus's work and no other block's. -/
theorem State.hrstEnd_of_pd3 {s : State} (hr : s.host.resetHigh = false) (hp : s.pd3 = true) (hd : s.pow.dom ≠ .curl) :
    s.hrstEnd = if s.hrstRisen.host.latActive == s.host.latActive then s.hrstRisen
      else (s.hrstRisen.copyCfg .a).copyCfg .b := by
  have low : ¬ s.host.resetHigh = true := by simp [hr]
  have on : ¬ (!s.pd3 || s.pow.dom == .curl) = true := by simp [hp, hd]
  exact (if_neg low).trans (if_neg on)

/-! ## The host reset (O20) -/

/-- Settles O20: HRST is `State.hrstNote`, `State.hrstStop` and, without an image, `State.hrstDram`; its end moves the host
side, and a latency that changes goes to the buffers by the bus, which reports at most. -/
theorem hostReset : Obligations.HostReset := by
  unfold Obligations.HostReset
  have acts : ∀ s : State, s.pd3 = true → s.pow.dom ≠ .curl → exec .hrst s = .next s.resetLow.hrstDo := fun s hp hd => by
    have on : (s.pd3 && s.pow.dom != .curl) = true := by simp [hp, hd]
    exact congrArg Host.Outcome.next (if_pos on)
  refine ⟨fun s hp hd => ⟨_, acts s hp hd, ?record⟩, fun s hp hd ha hb => ⟨_, acts s hp hd, ?cleared⟩, fun s hp => ?pin,
    fun s hr hp hd => ⟨_, rfl, ?ends⟩, fun s hr hp => ?rises⟩
  case record =>
    obtain ⟨h, host⟩ := s.resetLow.hrstDo_host
    obtain ⟨pending, modl, -⟩ := s.resetLow.hrstDo_moves
    rw [host]
    exact ⟨rfl, rfl, rfl, rfl, rfl, pending, modl⟩
  case cleared =>
    obtain ⟨clk, pow, reset, yrst, winA, winB, ownerA, ownerB⟩ := State.hrstStopped (s := s.resetLow) ha hb
    have image : s.resetLow.hrstNote.hrstStop.pow.image = s.pow.image := congrArg Pow.image pow
    rw [State.hrstDo_eq, image]
    cases s.pow.image with
    | true =>
      rw [if_pos rfl]
      exact ⟨clk, reset, winA, winB, fun _ => ⟨ownerA, ownerB, yrst⟩, fun h => nomatch h⟩
    | false =>
      rw [if_neg Bool.false_ne_true]
      obtain ⟨host, clk', winA', ownerA', winB', ownerB'⟩ := s.resetLow.hrstNote.hrstStop.hrstDram_kept
      rw [host, clk', winA', winB', ownerA', ownerB', clk, winA, winB, ownerA, ownerB]
      exact ⟨rfl, reset, rfl, rfl, (fun h => nomatch h), fun _ => ⟨rfl, Owner.afterHrst_eq _, Owner.afterHrst_eq _⟩⟩
  case pin =>
    have off : ¬ (s.pd3 && s.pow.dom != .curl) = true := by
      rcases hp with hp | hp <;> simp [hp]
    exact congrArg Host.Outcome.next (if_neg off)
  case ends =>
    have rises : s.hrstEnd.still = s.hrstRisen.still := by
      rw [State.hrstEnd_of_pd3 hr hp hd]
      split
      · rfl
      · exact (State.copyCfg_still _ _).trans (State.copyCfg_still _ _)
    obtain ⟨-, -, nv, pow, -, -, host, subA, subB, -, -, hrd⟩ := State.kept_of_still rises
    refine ⟨host, pow, subA, subB, hrd, nv, fun still => ?_⟩
    have same : (s.hrstRisen.host.latActive == s.host.latActive) = true := by
      rcases still with load | lat
      · simp [State.hrstRisen, load]
      · simp [State.hrstRisen, lat]
    have whole : s.hrstEnd = s.hrstRisen := (State.hrstEnd_of_pd3 hr hp hd).trans (if_pos same)
    rw [whole]
    rfl
  case rises =>
    have low : ¬ s.host.resetHigh = true := by simp [hr]
    have off : (!s.pd3 || s.pow.dom == .curl) = true := by
      rcases hp with hp | hp <;> simp [hp]
    exact congrArg Host.Outcome.next ((if_neg low).trans (if_pos off))

end Sys2Proof.Machine

/-! SUPPORT. One step (O1), and the combination of power domains that every step keeps (O60, R67, R71, R207). -/

namespace Sys2Proof.Machine
open Sys2Proof

/-! ## One step (R78) -/

theorem step_cons (c : Instr) (rest : List Instr) (s : State) :
    step { s with pending := c :: rest } = exec c { s with pending := rest } := rfl

theorem step_of_idle {s : State} (h : s.pending = []) : step s = .next s.tick := by
  simp only [step, h]

/-- Settles O1. -/
theorem stepLaw : Obligations.StepLaw := ⟨step_cons, fun _ => step_of_idle⟩

/-! ## What every command keeps (R67, R71, R207) -/

/-- Every command answers a next state of the same queue and module, and keeps a legal combination of domains. -/
theorem exec_ok (c : Instr) (s : State) : ∃ t, exec c s = .next t ∧ Ok s t :=
  match c with
  | .porRelease st => Mv.e (execPorRelease_mv st s)
  | .vkaLost => execVkaLost_ok s
  | .hostPowerGood => Mv.e (execHostPowerGood_mv s)
  | .bootStart => Mv.e (execBootStart_mv s)
  | .managementReady b => Mv.e (execManagementReady_mv b s)
  | .pfail bankOk => Mv.e (execPfail_mv bankOk s)
  | .curlComplete t => Mv.e (execCurlComplete_mv t s)
  | .commitHoldEnd => Mv.e (execCommitHoldEnd_mv s)
  | .pd2Brownout => Mv.e (execPd2Brownout_mv s)
  | .pd2BrownoutRestart => Mv.e (execPd2BrownoutRestart_mv s)
  | .pd3Brownout => Mv.e (execPd3Brownout_mv s)
  | .pd3BrownoutEnd => Mv.e (execPd3BrownoutEnd_mv s)
  | .pd4Lost => Mv.e (execPd4Lost_mv s)
  | .pd6RailTimeout => Mv.e (execPd6RailTimeout_mv s)
  | .svcAttend => Mv.e (execSvcAttend_mv s)
  | .svcRelease => Mv.e (execSvcRelease_mv s)
  | .plantPresent => Mv.e (execPlantPresent_mv s)
  | .plantAbsent => Mv.e (execPlantAbsent_mv s)
  | .plantOverVoltage => Mv.e (execPlantOverVoltage_mv s)
  | .plantReverse => Mv.e (execPlantReverse_mv s)
  | .bankFloor => Mv.e (execBankFloor_mv s)
  | .commitFloor => Mv.e (execCommitFloor_mv s)
  | .bankArmChange armed => Mv.e (execBankArmChange_mv armed s)
  | .chargerFull => Mv.e (execChargerFull_mv s)
  | .chargerResume => Mv.e (execChargerResume_mv s)
  | .chargerFault => Mv.e (execChargerFault_mv s)
  | .converterFault => Mv.e (execConverterFault_mv s)
  | .orReverseFault => Mv.e (execOrReverseFault_mv s)
  | .thermalChargerPause => Mv.e (execThermalChargerPause_mv s)
  | .adcSlot fine coarse => Mv.e (execAdcSlot_mv fine coarse s)
  | .energyUpdate => Mv.e (execEnergyUpdate_mv s)
  | .spanExpiry => Mv.e (execSpanExpiry_mv s)
  | .nandProgramDone channel lun block ok => Mv.e (execNandProgramDone_mv channel lun block ok s)
  | .hoardSaveComplete => Mv.e (execHoardSaveComplete_mv s)
  | .hoardAreaFull noSpace => Mv.e (execHoardAreaFull_mv noSpace s)
  | .hoardRestoreStart => Mv.e (execHoardRestoreStart_mv s)
  | .hoardRestoreUnit sub corrected uncorrectable => Mv.e (execHoardRestoreUnit_mv sub corrected uncorrectable s)
  | .hoardRestoreComplete => Mv.e (execHoardRestoreComplete_mv s)
  | .hoardSpareEraseStart => Mv.e (execHoardSpareEraseStart_mv s)
  | .hoardSpareClean => Mv.e (execHoardSpareClean_mv s)
  | .hrdDiscard path value => Mv.e (execHrdDiscard_mv path value s)
  | .hrdExtLoWrite path value => Mv.e (execHrdExtLoWrite_mv path value s)
  | .retainDeadlineDiscard => Mv.e (execRetainDeadlineDiscard_mv s)
  | .crystalNoStart st => Mv.e (execCrystalNoStart_mv st s)
  | .crystalStop => Mv.e (execCrystalStop_mv s)
  | .mpllLockLoss => Mv.e (execMpllLockLoss_mv s)
  | .mpllRelock => Mv.e (execMpllRelock_mv s)
  | .mpllRelockTimeout => Mv.e (execMpllRelockTimeout_mv s)
  | .hckLoss => Mv.e (execHckLoss_mv s)
  | .hckReturn mhz => Mv.e (execHckReturn_mv mhz s)
  | .watchdogExpiry => Mv.e (execWatchdogExpiry_mv s)
  | .mrstRequest path value => Mv.e (execMrstRequest_mv path value s)
  | .mrst => Mv.e (execMrst_mv s)
  | .hrst => Mv.e (execHrst_mv s)
  | .hrstEnd => Mv.e (execHrstEnd_mv s)
  | .crstCon path => Mv.e (execCrstCon_mv path s)
  | .crstTwbHost path => Mv.e (execCrstTwbHost_mv path s)
  | .crstTwbLocal path => Mv.e (execCrstTwbLocal_mv path s)
  | .crstEvtQueue path => Mv.e (execCrstEvtQueue_mv path s)
  | .crstSme path => Mv.e (execCrstSme_mv path s)
  | .crstZlb path => Mv.e (execCrstZlb_mv path s)
  | .crstHrd path => Mv.e (execCrstHrd_mv path s)
  | .crstUser path => Mv.e (execCrstUser_mv path s)
  | .crstDb path n answers => Mv.e (execCrstDb_mv path n answers s)
  | .crstZxp path answers => Mv.e (execCrstZxp_mv path answers s)
  | .featLock path value => Mv.e (execFeatLock_mv path value s)
  | .featDeadlineLock => Mv.e (execFeatDeadlineLock_mv s)
  | .featDeadlineWrite path value => Mv.e (execFeatDeadlineWrite_mv path value s)
  | .featSettled => Mv.e (execFeatSettled_mv s)
  | .registerWrite path addr value => Mv.e (execRegisterWrite_mv path addr value s)
  | .hostCommand sub c => Mv.e (execHostCommand_mv sub c s)
  | .alertPulseStart => Mv.e (execAlertPulseStart_mv s)
  | .alertPulseEnd => Mv.e (execAlertPulseEnd_mv s)
  | .stopRelease path value => Mv.e (execStopRelease_mv path value s)
  | .yalert sub => Mv.e (execYalert_mv sub s)
  | .windowAddressWrite sub high op => Mv.e (execWindowAddressWrite_mv sub high op s)
  | .windowStageWrite sub k op => Mv.e (execWindowStageWrite_mv sub k op s)
  | .windowCommit sub op => Mv.e (execWindowCommit_mv sub op s)
  | .windowCommitApplied sub => Mv.e (execWindowCommitApplied_mv sub s)
  | .windowFetchDone sub => Mv.e (execWindowFetchDone_mv sub s)
  | .windowAbort sub op => Mv.e (execWindowAbort_mv sub op s)
  | .windowRead sub k => Mv.e (execWindowRead_mv sub k s)
  | .windowStatusRead sub => Mv.e (execWindowStatusRead_mv sub s)
  | .passThroughRead sub rank data => Mv.e (execPassThroughRead_mv sub rank data s)
  | .resume sub => Mv.e (execResume_mv sub s)
  | .maintGrant sub ecs => Mv.e (execMaintGrant_mv sub ecs s)
  | .lendGrant sub => Mv.e (execLendGrant_mv sub s)
  | .hostCeReport sub => Mv.e (execHostCeReport_mv sub s)
  | .passWrite sub rank => Mv.e (execPassWrite_mv sub rank s)
  | .grantHandback sub => Mv.e (execGrantHandback_mv sub s)
  | .dbcNop sub => Mv.e (execDbcNop_mv sub s)
  | .dbcWr sub rank chk bad => Mv.e (execDbcWr_mv sub rank chk bad s)
  | .dbcRd sub rank => Mv.e (execDbcRd_mv sub rank s)
  | .dbcWinLo sub nib => Mv.e (execDbcWinLo_mv sub nib s)
  | .dbcWinHi sub nib => Mv.e (execDbcWinHi_mv sub nib s)
  | .dbcTrain sub mode => Mv.e (execDbcTrain_mv sub mode s)
  | .dbcSample sub pos drx => Mv.e (execDbcSample_mv sub pos drx s)
  | .dbcTrimApply sub => Mv.e (execDbcTrimApply_mv sub s)
  | .dbcHold sub => Mv.e (execDbcHold_mv sub s)
  | .dbcRelease sub => Mv.e (execDbcRelease_mv sub s)
  | .dbcHostReset sub => Mv.e (execDbcHostReset_mv sub s)
  | .dbcFrameError sub seen first second => Mv.e (execDbcFrameError_mv sub seen first second s)
  | .shadowWindowEnd db n counts flips => Mv.e (execShadowWindowEnd_mv db n counts flips s)
  | .trimStepApply db => Mv.e (execTrimStepApply_mv db s)
  | .dbeReport sub lowHck => Mv.e (execDbeReport_mv sub lowHck s)
  | .dbdTrimStageWrite path value => Mv.e (execDbdTrimStageWrite_mv path value s)
  | .dbTempConversion db temp => Mv.e (execDbTempConversion_mv db temp s)
  | .dbStatusPoll => Mv.e (execDbStatusPoll_mv s)
  | .zlbWrite tgt tag word data => Mv.e (execZlbWrite_mv tgt tag word data s)
  | .zlbRead tgt tag word => Mv.e (execZlbRead_mv tgt tag word s)
  | .zlbFetch tgt => Mv.e (execZlbFetch_mv tgt s)
  | .zlbRefetch tgt => Mv.e (execZlbRefetch_mv tgt s)
  | .zlbRetry tgt write tag word data => Mv.e (execZlbRetry_mv tgt write tag word data s)
  | .zlbFrameDiscard tgt edges header data => Mv.e (execZlbFrameDiscard_mv tgt edges header data s)
  | .zlbFetchTick tgt crcOk => Mv.e (execZlbFetchTick_mv tgt crcOk s)
  | .zlbResponse tgt tag data => Mv.e (execZlbResponse_mv tgt tag data s)
  | .zlbAttemptTimeout tgt tag => Mv.e (execZlbAttemptTimeout_mv tgt tag s)
  | .trainingInit sub => Mv.e (execTrainingInit_mv sub s)
  | .trainingInitDone sub => Mv.e (execTrainingInitDone_mv sub s)
  | .polkaDone sub dies => Mv.e (execPolkaDone_mv sub dies s)
  | .quadrilleStepDone sub failed => Mv.e (execQuadrilleStepDone_mv sub failed s)
  | .reelHEnd sub enough entries => Mv.e (execReelHEnd_mv sub enough entries s)
  | .maintUnitDone sub rank pass changed lane => Mv.e (execMaintUnitDone_mv sub rank pass changed lane s)
  | .repairUnitDone sub pass => Mv.e (execRepairUnitDone_mv sub pass s)
  | .hsettleStart path value => Mv.e (execHsettleStart_mv path value s)
  | .hsettleEnd sub edges entries => Mv.e (execHsettleEnd_mv sub edges entries s)
  | .recSave path => Mv.e (execRecSave_mv path s)
  | .recInvalidate path => Mv.e (execRecInvalidate_mv path s)
  | .hblobDataAccess path write => Mv.e (execHblobDataAccess_mv path write s)
  | .calTap path unit => Mv.e (execCalTap_mv path unit s)
  | .calVref path unit => Mv.e (execCalVref_mv path unit s)
  | .calTapThenVref path unit => Mv.e (execCalTapThenVref_mv path unit s)
  | .calAdc path => Mv.e (execCalAdc_mv path s)
  | .calPeriodExpiry unit => Mv.e (execCalPeriodExpiry_mv unit s)
  | .calTapDone unit c64 c32 c64' c32' => Mv.e (execCalTapDone_mv unit c64 c32 c64' c32' s)
  | .vrefSwap unit rx => Mv.e (execVrefSwap_mv unit rx s)
  | .vrefSwapTimeout unit rx => Mv.e (execVrefSwapTimeout_mv unit rx s)
  | .calVrefDone unit rx shadow lo hi lo' hi' => Mv.e (execCalVrefDone_mv unit rx shadow lo hi lo' hi' s)
  | .calAdcDone => Mv.e (execCalAdcDone_mv s)
  | .calAbandon unit => Mv.e (execCalAbandon_mv unit s)
  | .smeSlot n counts flips room => Mv.e (execSmeSlot_mv n counts flips room s)
  | .trimTick unit => Mv.e (execTrimTick_mv unit s)
  | .caTrimStepApply sub => Mv.e (execCaTrimStepApply_mv sub s)
  | .nvsCommitStart => Mv.e (execNvsCommitStart_mv s)
  | .nvsCommitDone verified => Mv.e (execNvsCommitDone_mv verified s)
  | .nvsPreEraseDone => Mv.e (execNvsPreEraseDone_mv s)
  | .nvsCmdCommit path => Mv.e (execNvsCmdCommit_mv path s)
  | .nvsCmdAbortImage path => Mv.e (execNvsCmdAbortImage_mv path s)
  | .nvsImageStart path value => Mv.e (execNvsImageStart_mv path value s)
  | .nvsImageData path value => Mv.e (execNvsImageData_mv path value s)
  | .nvsImageEnd verified => Mv.e (execNvsImageEnd_mv verified s)
  | .nvsRingScan => Mv.e (execNvsRingScan_mv s)
  | .nvsRingBatch ring => Mv.e (execNvsRingBatch_mv ring s)
  | .lifetimePersist => Mv.e (execLifetimePersist_mv s)
  | .clkLifeLoRead path => Mv.e (execClkLifeLoRead_mv path s)
  | .clkWallHiWrite path value => Mv.e (execClkWallHiWrite_mv path value s)
  | .pwrSpanWrite path value => Mv.e (execPwrSpanWrite_mv path value s)
  | .faultFold => Mv.e (execFaultFold_mv s)
  | .faultBucketBoundary cls => Mv.e (execFaultBucketBoundary_mv cls s)
  | .fltCfgWrite path cls value => Mv.e (execFltCfgWrite_mv path cls value s)
  | .fltClearResource path => Mv.e (execFltClearResource_mv path s)
  | .fltClearClass path => Mv.e (execFltClearClass_mv path s)
  | .fltClearAll path => Mv.e (execFltClearAll_mv path s)
  | .fltRepairNow path => Mv.e (execFltRepairNow_mv path s)
  | .fltForget path entry => Mv.e (execFltForget_mv path entry s)
  | .fltPackTest path => Mv.e (execFltPackTest_mv path s)
  | .packTestDue => Mv.e (execPackTestDue_mv s)
  | .packTestStart => Mv.e (execPackTestStart_mv s)
  | .packTestEnd r => Mv.e (execPackTestEnd_mv r s)
  | .eventArise src arg => Mv.e (execEventArise_mv src arg s)
  | .eventPendingRelease => Mv.e (execEventPendingRelease_mv s)
  | .eventDeliver => Mv.e (execEventDeliver_mv s)
  | .evtStatusClear path high value => Mv.e (execEvtStatusClear_mv path high value s)
  | .evtRaise path value => Mv.e (execEvtRaise_mv path value s)
  | .twbA0SetPointer port addr bytes stop => Mv.e (execTwbA0SetPointer_mv port addr bytes stop s)
  | .twbA0Write port addr bytes stop => Mv.e (execTwbA0Write_mv port addr bytes stop s)
  | .twbA0Read port addr head count stop => Mv.e (execTwbA0Read_mv port addr head count stop s)
  | .twbStagedApply port => Mv.e (execTwbStagedApply_mv port s)
  | .twbA1Read port addr ring => Mv.e (execTwbA1Read_mv port addr ring s)
  | .twbA1SeekSeq port addr ring seq pecOk => Mv.e (execTwbA1SeekSeq_mv port addr ring seq pecOk s)
  | .twbA1SeekOldest port addr ring pecOk => Mv.e (execTwbA1SeekOldest_mv port addr ring pecOk s)
  | .twbA1SeekNext port addr ring pecOk => Mv.e (execTwbA1SeekNext_mv port addr ring pecOk s)
  | .twbA1FillDone port => Mv.e (execTwbA1FillDone_mv port s)
  | .twbA1ReadPhase port addr again stop => Mv.e (execTwbA1ReadPhase_mv port addr again stop s)
  | .twbA1ReadExpiry port => Mv.e (execTwbA1ReadExpiry_mv port s)
  | .twbA2Write port addr bytes stop => Mv.e (execTwbA2Write_mv port addr bytes stop s)
  | .twbA2Read port addr stop => Mv.e (execTwbA2Read_mv port addr stop s)
  | .alertResponse other => Mv.e (execAlertResponse_mv other s)
  | .hostNotifySend outcome => Mv.e (execHostNotifySend_mv outcome s)
  | .twbControllerRetry port outcome data => Mv.e (execTwbControllerRetry_mv port outcome data s)
  | .twbPollDue k outcome data => Mv.e (execTwbPollDue_mv k outcome data s)
  | .twbSclTimeout port => Mv.e (execTwbSclTimeout_mv port s)
  | .conCharacter sess c => Mv.e (execConCharacter_mv sess c s)
  | .conLine sess terminator => Mv.e (execConLine_mv sess terminator s)
  | .conExecute => Mv.e (execConExecute_mv s)
  | .conBreak => Mv.e (execConBreak_mv s)
  | .baudRevert => Mv.e (execBaudRevert_mv s)
  | .unlockIdleEnd sess => Mv.e (execUnlockIdleEnd_mv sess s)
  | .unlockLockoutEnd => Mv.e (execUnlockLockoutEnd_mv s)
  | .conResponseCut sess => Mv.e (execConResponseCut_mv sess s)
  | .conAsyncLine text => Mv.e (execConAsyncLine_mv text s)
  | .help rq words => Mv.e (execHelp_mv rq words s)
  | .id rq => Mv.e (execId_mv rq s)
  | .featureShow rq => Mv.e (execFeatureShow_mv rq s)
  | .featureAccept rq mask => Mv.e (execFeatureAccept_mv rq mask s)
  | .featureLock rq => Mv.e (execFeatureLock_mv rq s)
  | .featureDeadline rq tenths => Mv.e (execFeatureDeadline_mv rq tenths s)
  | .peek rq addr count => Mv.e (execPeek_mv rq addr count s)
  | .poke rq addr value => Mv.e (execPoke_mv rq addr value s)
  | .show rq what => Mv.e (execShow_mv rq what s)
  | .modeMachine rq => Mv.e (execModeMachine_mv rq s)
  | .modeTyped rq => Mv.e (execModeTyped_mv rq s)
  | .baud rq rate => Mv.e (execBaud_mv rq rate s)
  | .serviceUnlock rq code => Mv.e (execServiceUnlock_mv rq code s)
  | .serviceLock rq => Mv.e (execServiceLock_mv rq s)
  | .serviceStatus rq => Mv.e (execServiceStatus_mv rq s)
  | .timeShow rq => Mv.e (execTimeShow_mv rq s)
  | .timeSet rq t => Mv.e (execTimeSet_mv rq t s)
  | .timeClear rq => Mv.e (execTimeClear_mv rq s)
  | .trimShow rq => Mv.e (execTrimShow_mv rq s)
  | .trimPause rq pause => Mv.e (execTrimPause_mv rq pause s)
  | .trainShow rq => Mv.e (execTrainShow_mv rq s)
  | .trainMaint rq sub rank => Mv.e (execTrainMaint_mv rq sub rank s)
  | .trainSave rq save => Mv.e (execTrainSave_mv rq save s)
  | .calShow rq => Mv.e (execCalShow_mv rq s)
  | .calTapVrefCmd rq vref unit => Mv.e (execCalTapVrefCmd_mv rq vref unit s)
  | .calAdcRef rq mv => Mv.e (execCalAdcRef_mv rq mv s)
  | .keepStatus rq => Mv.e (execKeepStatus_mv rq s)
  | .keepSpan rq reserve value => Mv.e (execKeepSpan_mv rq reserve value s)
  | .keepCharge rq cfg => Mv.e (execKeepCharge_mv rq cfg s)
  | .keepPack rq c => Mv.e (execKeepPack_mv rq c s)
  | .hoardStatus rq map => Mv.e (execHoardStatus_mv rq map s)
  | .hoardExtent rq k x => Mv.e (execHoardExtent_mv rq k x s)
  | .hoardLend rq on => Mv.e (execHoardLend_mv rq on s)
  | .hoardDiscard rq => Mv.e (execHoardDiscard_mv rq s)
  | .faultList rq sel => Mv.e (execFaultList_mv rq sel s)
  | .faultCfg rq cls window thresh action => Mv.e (execFaultCfg_mv rq cls window thresh action s)
  | .faultClear rq sel => Mv.e (execFaultClear_mv rq sel s)
  | .faultRepair rq forget n => Mv.e (execFaultRepair_mv rq forget n s)
  | .faultPackTest rq => Mv.e (execFaultPackTest_mv rq s)
  | .eventShow rq n => Mv.e (execEventShow_mv rq n s)
  | .eventEnable rq n on => Mv.e (execEventEnable_mv rq n on s)
  | .eventRoute rq n routes => Mv.e (execEventRoute_mv rq n routes s)
  | .eventClear rq n => Mv.e (execEventClear_mv rq n s)
  | .eventRaiseCmd rq arg => Mv.e (execEventRaiseCmd_mv rq arg s)
  | .log rq ring start count => Mv.e (execLog_mv rq ring start count s)
  | .nvsShow rq => Mv.e (execNvsShow_mv rq s)
  | .nvsCommit rq => Mv.e (execNvsCommit_mv rq s)
  | .nvsImageStartCmd rq kib crc => Mv.e (execNvsImageStartCmd_mv rq kib crc s)
  | .nvsImageDataCmd rq bytes => Mv.e (execNvsImageDataCmd_mv rq bytes s)
  | .nvsImageAbortCmd rq => Mv.e (execNvsImageAbortCmd_mv rq s)
  | .nvsImageStatusCmd rq => Mv.e (execNvsImageStatusCmd_mv rq s)
  | .clockShow rq => Mv.e (execClockShow_mv rq s)
  | .powerDomains rq faults => Mv.e (execPowerDomains_mv rq faults s)
  | .powerClear rq mask => Mv.e (execPowerClear_mv rq mask s)
  | .maintShow rq => Mv.e (execMaintShow_mv rq s)
  | .resetMgmt rq => Mv.e (execResetMgmt_mv rq s)
  | .resetUnit rq u => Mv.e (execResetUnit_mv rq u s)
  | .warrenSend core channel words try_ => Mv.e (execWarrenSend_mv core channel words try_ s)
  | .sendStallEnd core cycles => Mv.e (execSendStallEnd_mv core cycles s)
  | .warrenPop core port => Mv.e (execWarrenPop_mv core port s)
  | .select core mask round timeout => Mv.e (execSelect_mv core mask round timeout s)
  | .selectReturn core timedOut cycles => Mv.e (execSelectReturn_mv core timedOut cycles s)
  | .heartbeat core => Mv.e (execHeartbeat_mv core s)
  | .watchdogService => Mv.e (execWatchdogService_mv s)
  | .coreFault core kind pc => Mv.e (execCoreFault_mv core kind pc s)
  | .userHeartbeatMiss => Mv.e (execUserHeartbeatMiss_mv s)
  | .userCoreStart => Mv.e (execUserCoreStart_mv s)
  | .pd5Lost => Mv.e (execPd5Lost_mv s)
  | .thermalChargerResume => Mv.e (execThermalChargerResume_mv s)
  | .overVoltageResume => Mv.e (execOverVoltageResume_mv s)
  | .plantReverseClear => Mv.e (execPlantReverseClear_mv s)
  | .conOutputSent sess => Mv.e (execConOutputSent_mv sess s)

theorem tick_ok (s : State) : Ok s s.tick := (tick_mv s).ok

/-- A step, whether it takes a command or idles, answers a next state of the same module and keeps a legal combination. -/
theorem step_keeps_legal (s : State) :
    ∃ t, step s = .next t ∧ t.modl = s.modl ∧ (s.pow.legal s.modl = true → t.pow.legal s.modl = true) := by
  cases hq : s.pending with
  | nil =>
    obtain ⟨-, modl, -, legal⟩ := tick_ok s
    exact ⟨s.tick, step_of_idle hq, modl, legal⟩
  | cons c rest =>
    obtain ⟨t, next, -, modl, -, legal⟩ := exec_ok c { s with pending := rest }
    refine ⟨t, ?_, modl, legal⟩
    simpa only [step, hq] using next

/-- Settles O60: each command keeps the combination (`exec_ok`), and so does a KTICK of idle time. -/
theorem legalDomainsKept : Obligations.LegalDomainsKept := by
  unfold Obligations.LegalDomainsKept
  intro s legal
  obtain ⟨t, next, modl, kept⟩ := step_keeps_legal s
  exact ⟨t, next, modl ▸ kept legal, modl⟩

end Sys2Proof.Machine

/-! SUPPORT. POR and the loss of VKA (O3), the start of a boot (O5), and a fixture at a Dormouse (O11): what PD2's start and
its switching off leave beside the keep-alive island. -/

namespace Sys2Proof.Machine
open Sys2Proof

/-! ## POR and the loss of VKA (R57, R67, R78) -/

/-- An event of the ZX8-P that arises while PD2 is off is latched in PD0 (R224). -/
theorem State.raise_of_pd2_off {s : State} (off : s.pd2 = false) {n : Nat} (power : 24 ≤ n ∧ n ≤ 31) (a : BitVec 24) :
    s.raise n a = { s with pow := { s.pow with latched := latchAdd n s.clk.life a s.pow.latched } } := by
  have latches : s.latches n = true := by simp [State.latches, off, power.1, power.2]
  rw [State.raise, if_pos latches]

/-- POR leaves the queue, the module, the settings memory and the NAND; a faulty VBMAX resistor is latched (R213). -/
theorem State.por_form (s : State) (st : Straps) : ∃ l, s.por st = { State.reset with
    pending := s.pending, free := s.free, modl := s.modl, nv := s.nv, pow := { Pow.fresh st with latched := l }
    zxp := Zxp.fresh st, zlb := Zlb.por s.modl.zxpFitted
    hrd := { Hrd.fresh with areaA := s.hrd.areaA, areaB := s.hrd.areaB } } := by
  unfold State.por
  dsimp only
  split
  · exact ⟨_, State.raise_of_pd2_off (by simp [State.pd2, Pow.fresh]) (by decide) 4⟩
  · exact ⟨[], rfl⟩

theorem State.tearCommit_of_none {s : State} (h : s.nvs.commit = none) : s.tearCommit = s := by
  simp only [State.tearCommit, h]

/-- What is torn and halted as VKA goes leaves the module, the straps and the queue; with no commit in flight also the
settings memory. -/
theorem State.tearHalt_kept (s : State) :
    let t := s.tearCommit.hoardHalt
    t.pending = s.pending ∧ t.free = s.free ∧ t.modl = s.modl ∧ (s.nvs.commit = none → t.nv = s.nv) := by
  obtain ⟨v, n, b, q, torn⟩ := s.tearCommit_form
  obtain ⟨h, halted⟩ := s.tearCommit.hoardHalt_form
  dsimp only
  refine ⟨by rw [halted, torn], by rw [halted, torn], by rw [halted, torn], fun none => ?_⟩
  rw [halted, State.tearCommit_of_none none]

/-- Settles O3: POR is `State.por` (`State.por_form`), which the loss of VKA runs on what is torn and halted. -/
theorem powerOnAndOff : Obligations.PowerOnAndOff := by
  unfold Obligations.PowerOnAndOff
  refine ⟨fun st s off => ?por, fun st s off => ?backup, fun s on => ?lost⟩
  case por =>
    obtain ⟨l, por⟩ := s.por_form st
    refine ⟨s.por st, congrArg Host.Outcome.next (if_pos (beq_iff_eq.mpr off)), ?_⟩
    rw [por]
    exact ⟨rfl, rfl, rfl⟩
  case backup =>
    obtain ⟨l, por⟩ := s.por_form st
    refine ⟨s.porBackup st, congrArg Host.Outcome.next (if_pos (beq_iff_eq.mpr off)), ?_⟩
    rw [State.porBackup, por]
    exact ⟨rfl, rfl, rfl⟩
  case lost =>
    obtain ⟨pending, free, modl, nv⟩ := s.tearHalt_kept
    obtain ⟨l, por⟩ := s.tearCommit.hoardHalt.por_form s.pow.straps
    rw [pending, free, modl] at por
    refine ⟨s.vkaLost, congrArg Host.Outcome.next (if_neg fun h => on (beq_iff_eq.mp h)), ?_⟩
    rw [State.vkaLost, por]
    exact ⟨rfl, rfl, rfl, rfl, rfl, nv, rfl⟩

/-! ## PD2's start and its switching off, beside the island (R58, R72) -/

/-- What clearing PD2 leaves of the clocks and the subchannels. -/
theorem State.mgmtClear_left (s : State) :
    s.mgmtClear.clk = { s.clk with wallStage := 0, mrstWait := false }
      ∧ s.mgmtClear.subA = s.subA.keep ∧ s.mgmtClear.subB = s.subB.keep ∧ s.mgmtClear.zlb.targets = s.zlb.targets := by
  obtain ⟨v, n, b, q, torn⟩ := s.tearCommit_form
  obtain ⟨h, halted⟩ := s.tearCommit.layCopy.dropPending.hoardHalt_form
  obtain ⟨d, o, p, ended, -⟩ := s.tearCommit.layCopy.dropPending.hoardHalt.restoreEnd_form
  rw [halted, torn] at ended
  have cleared : s.mgmtClear.clk
        = { s.tearCommit.layCopy.dropPending.hoardHalt.restoreEnd.clk with wallStage := 0, mrstWait := false }
      ∧ s.mgmtClear.subA = s.tearCommit.layCopy.dropPending.hoardHalt.restoreEnd.subA.keep
      ∧ s.mgmtClear.subB = s.tearCommit.layCopy.dropPending.hoardHalt.restoreEnd.subB.keep
      ∧ s.mgmtClear.zlb.targets = s.tearCommit.layCopy.dropPending.hoardHalt.restoreEnd.zlb.targets := ⟨rfl, rfl, rfl, rfl⟩
  rw [halted, torn, ended] at cleared
  exact cleared

/-- A start of PD2 that is no restart has no cause and clears nothing of the island (R72). -/
theorem State.pd2Start_uncaused {s : State} (hd : s.pow.dom ≠ .restore) :
    ∃ c l, (s.pd2Start 0).pow = { s.pow with copy := c, lost := l } := by
  obtain ⟨d, o, p, c, l, pow, -, -, stays⟩ := s.mgmtClear_form
  obtain ⟨rfl, rfl, rfl⟩ := stays hd
  exact ⟨c, l, pow⟩

/-- PD2 starts: the MPLL locks, negotiation boots, the cause is noted, and what PD3 holds of a subchannel stays. -/
theorem State.pd2Start_left (s : State) (cause : BitVec 8) :
    let t := s.pd2Start cause
    t.feat = { Feat.fresh with phase := .booting } ∧ t.clk.mpllLock = true ∧ t.clk.cause = s.clk.cause ||| cause
      ∧ t.subA.owner = s.subA.keep.owner ∧ t.subB.owner = s.subB.keep.owner := by
  obtain ⟨clk, subA, subB, -⟩ := s.mgmtClear_left
  have noted : (s.pd2Start cause).clk.cause = s.mgmtClear.clk.cause ||| cause := rfl
  exact ⟨rfl, rfl, by rw [noted, clk], congrArg SubSt.owner subA, congrArg SubSt.owner subB⟩

/-- PD2 goes off outside RESTORE: the island keeps all but its copy of HOARD and the regions lost. -/
theorem State.pd2Off_pow {s : State} (hd : s.pow.dom ≠ .restore) :
    ∃ c l, s.pd2Off.pow = { s.pow with copy := c, lost := l } := by
  obtain ⟨d, o, p, c, l, pow, -, -, stays⟩ := s.mgmtClear_form
  obtain ⟨rfl, rfl, rfl⟩ := stays hd
  exact ⟨c, l, pow⟩

/-! ## PD3 and PD5 following PD2 (R66, R86, R110) -/

/-- PD3 and PD5 come up behind PD2, and the charger is rearmed. -/
def State.followed (s : State) : State := s.pd3Start.pd5Start.chgRearm

/-- The subchannels serve no host yet, every buffer holds its reset values with its DBPOS pins, and the staged trim steps of
the buffers are gone; the island, the clocks and what PD2 holds stay. -/
theorem State.followed_form (s : State) : ∃ h z x, s.followed = { s with
    subA := { s.subA with owner := if s.pow.dom == .save then .blocked else .notReady }
    subB := { s.subB with owner := if s.pow.dom == .save then .blocked else .notReady }
    host := h, zlb := z, zxp := x
    dbs := (List.range 10).map (fun n => { Db.fresh with pos := nth s.modl.dbPos n 0 }), trim := s.dbsFresh.trim } := ⟨_, _, _, rfl⟩

/-! ## BOOT (R67, R405) -/

/-- Settles O5: the domains of BOOT are set, PD2 starts without a cause, and PD3 and PD5 follow. -/
theorem bootBegins : Obligations.BootBegins := by
  unfold Obligations.BootBegins
  intro s hdom hkeep hpg
  have starts : exec .bootStart s = .next ((s.setDom .boot).pd2Start 0).followed := by
    change execBootStart s = _
    simp [execBootStart, State.bootStart, State.followed, hdom, hkeep, hpg]
  obtain ⟨c, l, island⟩ := State.pd2Start_uncaused (s := s.setDom .boot) (by simp)
  obtain ⟨-, -, cause, -, -⟩ := (s.setDom .boot).pd2Start_left 0
  obtain ⟨pending, modl, -⟩ := (s.setDom .boot).pd2Start_moves 0
  obtain ⟨h, z, x, form⟩ := ((s.setDom .boot).pd2Start 0).followed_form
  refine ⟨_, starts, ?_⟩
  rw [form]
  dsimp only
  rw [island, modl]
  exact ⟨rfl, hkeep, rfl, rfl, on_seven _ _ _ _ _, rfl, rfl, cause.trans BitVec.or_zero, rfl, rfl, rfl, rfl, rfl, rfl, rfl, rfl, rfl, rfl, rfl,
    rfl, rfl, pending⟩

/-! ## A fixture (R67, R86) -/

/-- Settles O11: PD2 starts for the fixture without a cause, and goes off as it leaves. -/
theorem fixture : Obligations.Fixture := by
  unfold Obligations.Fixture
  refine ⟨fun s hd => ?attends, fun s hd => ?asserted, fun s hd => ?leaves, fun s hd => ?released⟩
  case attends =>
    have on : exec .svcAttend s = .next (State.attend { s with pow := { s.pow with svc := true } }) :=
      congrArg Host.Outcome.next (if_pos (beq_iff_eq.mpr hd))
    let u := State.setDom { s with pow := { s.pow with svc := true } } .attended
    obtain ⟨c, l, island⟩ := State.pd2Start_uncaused (s := u) (by simp [u])
    obtain ⟨-, lock, -, ownerA, ownerB⟩ := u.pd2Start_left 0
    have starts : (State.attend { s with pow := { s.pow with svc := true } }) = u.pd2Start 0 := rfl
    refine ⟨_, on, ?_⟩
    rw [starts, island]
    exact ⟨rfl, rfl, rfl, rfl, rfl, on_seven .attended s.buffers s.modl.hoardFitted _ _, rfl, lock, ownerA, ownerB⟩
  case asserted => exact congrArg Host.Outcome.next (if_neg fun h => hd (beq_iff_eq.mp h))
  case leaves =>
    let u : State := { s with pow := { s.pow with svc := false } }
    have off : exec .svcRelease s = .next (u.pd2Off.setDom .dormouse) :=
      congrArg Host.Outcome.next (if_pos (beq_iff_eq.mpr hd))
    obtain ⟨c, l, island⟩ := State.pd2Off_pow (s := u) (by simp [u, hd])
    refine ⟨_, off, ?_⟩
    unfold State.setDom
    dsimp only
    rw [island]
    exact ⟨rfl, rfl, rfl, rfl, rfl, on_seven _ _ _ _ _, rfl, rfl⟩
  case released => exact congrArg Host.Outcome.next (if_neg fun h => hd (beq_iff_eq.mp h))

end Sys2Proof.Machine

/-! SUPPORT. Brownouts and failed rails (O10): what a fall of PD2, PD3, PD5 or the NAND rail leaves, and their ends. -/

namespace Sys2Proof.Machine
open Sys2Proof

/-! ## PD2 falls (R406) -/

/-- The end of a RESTORE leaves PD0 and PD4 on (R67). -/
theorem State.restoreEnd_on (s : State) (h : s.pow.on &&& 0x11 = 0x11) : s.restoreEnd.pow.on &&& 0x11 = 0x11 := by
  unfold State.restoreEnd
  split
  case isTrue =>
    have run : ∀ (b : Bool) (x : BitVec 7), (domMask .run b s.modl.hoardFitted ||| x) &&& 0x11 = 0x11 := by
      cases s.modl.hoardFitted <;> decide
    exact run _ _
  case isFalse => exact h

/-- Clearing PD2 leaves PD0 and PD4 on. -/
theorem State.mgmtClear_on (s : State) (h : s.pow.on &&& 0x11 = 0x11) : s.mgmtClear.pow.on &&& 0x11 = 0x11 := by
  obtain ⟨v, n, b, q, torn⟩ := s.tearCommit_form
  obtain ⟨k, halted⟩ := s.tearCommit.layCopy.dropPending.hoardHalt_form
  refine State.restoreEnd_on s.tearCommit.layCopy.dropPending.hoardHalt ?_
  rw [halted, torn]
  exact h

/-- PD2, PD3, PD5 and PD6 are off, PD0 and PD4 stay on, and the ranks of the DRAMs stand (R406). -/
theorem State.pd2Fall_left (s : State) (d : Dom) :
    (∃ c l o, (s.pd2Fall d).pow = { s.pow with dom := d, pd2Down := true, on := o &&& 0x13, copy := c, lost := l }
      ∧ (s.pow.on &&& 0x11 = 0x11 → o &&& 0x11 = 0x11))
    ∧ (s.pd2Fall d).feat = Feat.fresh ∧ (s.pd2Fall d).clk.mpllLock = false
    ∧ (s.pd2Fall d).subA.ranks = s.subA.ranks ∧ (s.pd2Fall d).subB.ranks = s.subB.ranks := by
  obtain ⟨d', o, p, c, l, pow, -⟩ := s.pd3Off.mgmtClear_form
  obtain ⟨-, subA, subB, -⟩ := s.pd3Off.mgmtClear_left
  have on := s.pd3Off.mgmtClear_on
  have island : (s.pd2Fall d).pow
      = { s.pd3Off.mgmtClear.pow with dom := d, pd2Down := true, on := s.pd3Off.mgmtClear.pow.on &&& 0x13 } := rfl
  rw [pow] at island on
  have ranksA := congrArg SubSt.ranks subA
  have ranksB := congrArg SubSt.ranks subB
  exact ⟨⟨c, l, o, island, on⟩, rfl, rfl, ranksA, ranksB⟩

/-- PD2_BROWNOUT has been set (R70). -/
def State.pd2Faulted (s : State) : State := { s with pow := { s.pow with faults := s.pow.faults ||| 1 } }

/-- A brownout of PD2 is the drop and its event, which may be latched. -/
theorem State.pd2Brownout_form {s : State} (hp : s.pd2 = true) (hc : s.pow.dom ≠ .curl) : ∃ l e,
    s.pd2Brownout = { s.pd2Faulted.pd2Drop with
      pow := { s.pd2Faulted.pd2Drop.pow with latched := l }, evt := e } := by
  have acts : ¬ (!s.pd2 || s.pow.dom == .curl) = true := by simp [hp, hc]
  have drop : s.pd2Brownout
      = s.pd2Faulted.pd2Drop.raise 30 (s.pd2Faulted.pd2Drop.pow.faults.setWidth 24 <<< 2) := if_neg acts
  rw [drop]
  exact State.raise_form _ _ _

theorem State.pd2Drop_wake {s : State} (h : s.pow.dom = .wake) :
    s.pd2Drop = ((s.setRanks .a .held).setRanks .b .held).pd2Fall .wake := by
  simp only [State.pd2Drop, h]

theorem State.pd2Drop_boot {s : State} (h : s.pow.dom = .boot ∨ s.pow.dom = .run ∨ s.pow.dom = .restore) :
    s.pd2Drop = s.hoardHalt.yrstLow.pd2Fall .boot := by
  rcases h with h | h | h <;> simp only [State.pd2Drop, h]

theorem State.pd2Drop_attended {s : State} (h : s.pow.dom = .attended) :
    s.pd2Drop = { s.pd2Off.setDom .dormouse with
      pow := { (s.pd2Off.setDom .dormouse).pow with svc := false } } := by
  simp only [State.pd2Drop, h]

/-- COMMIT_HOLD with PD2 off, before its outcome. -/
def State.commitDropped (s : State) : State := State.setDom (State.pd2Off { s with pow := { s.pow with svc := false } }) .dormouse

theorem State.pd2Drop_commitHold {s : State} (h : s.pow.dom = .commitHold) :
    s.pd2Drop = if s.commitDropped.pow.image then s.commitDropped.enterHold else s.commitDropped.powerDown 6 := by
  unfold State.pd2Drop
  split
  case h_2 => rfl
  all_goals simp_all

theorem State.pd2Drop_save {s : State} (h : s.pow.dom = .save) : s.pd2Drop = (s.saveEnd 3).powerDown 7 := by
  simp only [State.pd2Drop, h]

theorem bits_of_fall (o : BitVec 7) :
    o &&& 0x13 &&& 0x6C = 0 ∧ (o &&& 0x11 = 0x11 → o &&& 0x13 &&& 0x11 = 0x11) := by
  revert o
  decide

/-- A brownout in BOOT, RUN, RESTORE or WAKE. -/
theorem State.pd2Brownout_up {s : State} (hp : s.pd2 = true)
    (hd : s.pow.dom = .boot ∨ s.pow.dom = .run ∨ s.pow.dom = .restore ∨ s.pow.dom = .wake) :
    let t := s.pd2Brownout
    t.pow.dom = (if s.pow.dom = .wake then .wake else .boot) ∧ t.pow.keep = s.pow.keep ∧ t.pow.pd2Down = true
      ∧ t.pow.on &&& 0x6C = 0 ∧ (s.pow.on &&& 0x11 = 0x11 → t.pow.on &&& 0x11 = 0x11)
      ∧ t.pow.faults = s.pow.faults ||| 1 ∧ t.pow.image = s.pow.image
      ∧ (s.pow.dom = .wake → t.subA.ranks = s.subA.ranks.map (fun r => if r == .absent then r else .held)
          ∧ t.subB.ranks = s.subB.ranks.map (fun r => if r == .absent then r else .held))
      ∧ t.feat = Feat.fresh ∧ t.clk.mpllLock = false := by
  obtain ⟨l, e, form⟩ := State.pd2Brownout_form hp (by rcases hd with h | h | h | h <;> simp [h])
  by_cases hw : s.pow.dom = .wake
  · obtain ⟨⟨c, l', o, pow, on⟩, feat, lock, ranksA, ranksB⟩ :=
      ((s.pd2Faulted.setRanks .a .held).setRanks .b .held).pd2Fall_left .wake
    rw [State.pd2Drop_wake (s := s.pd2Faulted) hw, pow] at form
    obtain ⟨none, kept⟩ := bits_of_fall o
    dsimp only
    rw [form, if_pos hw]
    exact ⟨rfl, rfl, rfl, none, fun h => kept (on h), rfl, rfl, fun _ => ⟨ranksA, ranksB⟩, feat, lock⟩
  · have up : s.pow.dom = .boot ∨ s.pow.dom = .run ∨ s.pow.dom = .restore := by
      rcases hd with h | h | h | h
      exacts [.inl h, .inr (.inl h), .inr (.inr h), absurd h hw]
    obtain ⟨h, halted⟩ := s.pd2Faulted.hoardHalt_form
    obtain ⟨low, -⟩ := s.pd2Faulted.hoardHalt.yrstLow_kept
    obtain ⟨⟨c, l', o, pow, on⟩, feat, lock, -⟩ := s.pd2Faulted.hoardHalt.yrstLow.pd2Fall_left .boot
    have same : s.pd2Faulted.hoardHalt.yrstLow.pow = s.pd2Faulted.pow := by rw [low, halted]
    rw [same] at pow on
    rw [State.pd2Drop_boot (s := s.pd2Faulted) up, pow] at form
    obtain ⟨none, kept⟩ := bits_of_fall o
    dsimp only
    rw [form, if_neg hw]
    exact ⟨rfl, rfl, rfl, none, fun h => kept (on h), rfl, rfl, fun h => absurd h hw, feat, lock⟩

/-- A brownout under a fixture leaves the Dormouse (R67). -/
theorem State.pd2Brownout_attended {s : State} (hp : s.pd2 = true) (hd : s.pow.dom = .attended) :
    let t := s.pd2Brownout
    t.pow.dom = .dormouse ∧ t.pow.svc = false ∧ t.pow.keep = s.pow.keep ∧ t.pow.faults = s.pow.faults ||| 1
      ∧ t.pow.on &&& 0x7D = 0x11 ∧ t.feat = Feat.fresh := by
  obtain ⟨l, e, form⟩ := State.pd2Brownout_form hp (by simp [hd])
  obtain ⟨c, l', island⟩ := State.pd2Off_pow (s := s.pd2Faulted) (by simp [State.pd2Faulted, hd])
  rw [State.pd2Drop_attended (s := s.pd2Faulted) hd] at form
  dsimp only
  rw [form]
  unfold State.setDom
  dsimp only
  rw [island]
  exact ⟨rfl, rfl, rfl, rfl, on_seven _ _ _ _ _, rfl⟩

/-- COMMIT_HOLD as PD2 falls: DORMOUSE's domains, no fixture, the rest of the island as it was. -/
theorem State.commitDropped_pow {s : State} (hd : s.pow.dom = .commitHold) : ∃ c l o,
    s.commitDropped.pow = { s.pow with
      dom := .dormouse, on := o, pd2Down := false, svc := false, copy := c, lost := l } ∧ o &&& 0x7D = 0x11 := by
  obtain ⟨c, l, island⟩ := State.pd2Off_pow (s := { s with pow := { s.pow with svc := false } }) (by simp [hd])
  refine ⟨c, l, _, ?_, on_seven .dormouse s.buffers s.modl.hoardFitted false s.pow.on⟩
  unfold State.commitDropped State.setDom
  rw [island]
  rfl

/-- HOLD as it is entered, before what already stands acts on it (R207). -/
def State.holding (s : State) : State :=
  { s.pd2Off.setDom .dormouse with
    pow := { (s.pd2Off.setDom .dormouse).pow with keep := .hold, usedMs := 0, kdeep := false } }

theorem State.holding_pow {s : State} (hd : s.pow.dom ≠ .restore) : ∃ c l o, s.holding.pow = { s.pow with
    dom := .dormouse, on := o, pd2Down := false, keep := .hold, usedMs := 0, kdeep := false, copy := c, lost := l }
    ∧ o &&& 0x7D = 0x11 := by
  obtain ⟨c, l, island⟩ := State.pd2Off_pow hd
  refine ⟨c, l, _, ?_, on_seven .dormouse s.buffers s.modl.hoardFitted false s.pow.on⟩
  unfold State.holding State.setDom
  rw [island]
  rfl

/-- An image that nothing ends at once is held (R207). -/
theorem State.enterHold_of_quiet {s : State} (hd : s.pow.dom ≠ .restore) (hpg : s.pow.hostPg = false)
    (hf : s.zxp.above20 = true) (hr : s.atReserve = false) (hs : s.pow.svc = false) : s.enterHold = s.holding := by
  obtain ⟨c, l, o, pow, -⟩ := State.holding_pow hd
  obtain ⟨-, -, -, -, -, -, zxp, -⟩ := s.mgmtClear_form
  have bank : s.holding.zxp.above20 = true := by
    have off : s.holding.zxp = { s.mgmtClear.zxp with aclk := 1 } := rfl
    rw [off, zxp, hf]
  have reserve : s.holding.atReserve = false := by
    rw [State.atReserve, pow]
    exact hr
  have entered : s.enterHold = if s.holding.pow.hostPg then s.holding.wake else if s.holding.floorTripped then s.holding.floorEnd
      else if s.holding.pow.copy && s.holding.atReserve then s.holding.reserveTrigger
      else if s.holding.pow.svc then s.holding.attend else s.holding := rfl
  have svc : s.holding.pow.svc = false := by rw [pow, hs]
  have host : s.holding.pow.hostPg = false := by rw [pow, hpg]
  simp only [entered, host, State.floorTripped, bank, reserve, svc, Bool.not_true, Bool.and_false, Bool.false_eq_true, if_false]

/-- A brownout in COMMIT_HOLD tears the commit and leaves its image in HOLD (R207, R406). -/
theorem State.pd2Brownout_commitHold {s : State} (hp : s.pd2 = true) (hd : s.pow.dom = .commitHold)
    (hi : s.pow.image = true) (hpg : s.pow.hostPg = false) (hf : s.zxp.above20 = true) (hr : s.atReserve = false) :
    let t := s.pd2Brownout
    t.pow.dom = .dormouse ∧ t.pow.keep = .hold ∧ t.pow.kdeep = false ∧ t.pow.image = true ∧ t.nvs.commit = none
      ∧ t.pow.on &&& 0x7D = 0x11 ∧ t.pow.faults = s.pow.faults ||| 1 := by
  obtain ⟨l, e, form⟩ := State.pd2Brownout_form hp (by simp [hd])
  obtain ⟨c, l', o, dropped, -⟩ := State.commitDropped_pow (s := s.pd2Faulted) hd
  obtain ⟨-, -, -, -, -, -, zxp, -⟩ := State.mgmtClear_form { s.pd2Faulted with pow := { s.pd2Faulted.pow with svc := false } }
  have image : s.pd2Faulted.commitDropped.pow.image = true := by rw [dropped]; exact hi
  have bank : s.pd2Faulted.commitDropped.zxp.above20 = true := by
    have off : s.pd2Faulted.commitDropped.zxp = { (State.mgmtClear
      { s.pd2Faulted with pow := { s.pd2Faulted.pow with svc := false } }).zxp with aclk := 1 } := rfl
    rw [off, zxp]
    exact hf
  have held := State.enterHold_of_quiet (s := s.pd2Faulted.commitDropped) (by rw [dropped]; simp) (by rw [dropped]; exact hpg)
    bank (by rw [State.atReserve, dropped]; exact hr) (by rw [dropped])
  obtain ⟨c', l'', o', pow, on⟩ := State.holding_pow (s := s.pd2Faulted.commitDropped) (by rw [dropped]; simp)
  rw [dropped] at pow
  rw [State.pd2Drop_commitHold (s := s.pd2Faulted) hd, if_pos image, held, pow] at form
  dsimp only
  rw [form]
  exact ⟨rfl, rfl, rfl, hi, rfl, on, rfl⟩

/-- A brownout in SAVE, or in COMMIT_HOLD without an image, leaves PD0 alone on (R207, R247, R406). -/
theorem State.pd2Brownout_down {s : State} (hp : s.pd2 = true)
    (hd : s.pow.dom = .save ∨ (s.pow.dom = .commitHold ∧ s.pow.image = false)) :
    let t := s.pd2Brownout
    t.pow.dom = .keepOnly ∧ t.pow.keep = (if s.pow.hostPg then .normal else .empty) ∧ t.pow.image = false
      ∧ t.pow.lastEnd = (if s.pow.dom = .save then 7 else 6) ∧ t.pow.on &&& 0x7D = 1
      ∧ t.pow.faults = s.pow.faults ||| 1 := by
  obtain ⟨l, e, form⟩ := State.pd2Brownout_form hp (by rcases hd with h | ⟨h, -⟩ <;> simp [h])
  rcases hd with hd | ⟨hd, hi⟩
  · obtain ⟨h, l', e', ended⟩ := s.pd2Faulted.saveEnd_form 3
    obtain ⟨c, l'', o, pow, on⟩ := (s.pd2Faulted.saveEnd 3).powerDown_pow 7
    have island : (s.pd2Faulted.saveEnd 3).pow = { s.pd2Faulted.pow with latched := l' } := by rw [ended]
    rw [island] at pow
    rw [State.pd2Drop_save (s := s.pd2Faulted) hd, pow] at form
    dsimp only
    rw [form, if_pos hd]
    exact ⟨rfl, rfl, rfl, rfl, on, rfl⟩
  · obtain ⟨c, l', o, dropped, -⟩ := State.commitDropped_pow (s := s.pd2Faulted) hd
    obtain ⟨c', l'', o', pow, on⟩ := s.pd2Faulted.commitDropped.powerDown_pow 6
    have image : ¬ s.pd2Faulted.commitDropped.pow.image = true := by rw [dropped]; simp [State.pd2Faulted, hi]
    rw [dropped] at pow
    rw [State.pd2Drop_commitHold (s := s.pd2Faulted) hd, if_neg image, pow] at form
    dsimp only
    rw [form, if_neg (show ¬ s.pow.dom = .save by simp [hd])]
    exact ⟨rfl, rfl, rfl, rfl, on, rfl⟩

/-- PD2 restarts with its cause, in the domains of its state (R72, R406). -/
theorem State.pd2Again_of_down {s : State} (h : s.pow.pd2Down = true) :
    s.pd2Again = ((s.setDom s.pow.dom).pd2Start 16).followed := if_neg (by simp [h])

/-! ## PD3 falls (R71) -/

@[simp] theorem State.repairStop_still (s : State) (x : Sub) : (s.repairStop x).still = s.still := by
  unfold State.repairStop State.setBusy
  cases x <;> (repeat' split) <;> rfl

/-- A subchannel at a PD3 brownout is BLOCKED; the other, the host side, the island and Hoard are left. -/
theorem State.pd3Block_kept (s : State) (x : Sub) :
    (s.pd3Block x).pow = s.pow ∧ (s.pd3Block x).host = s.host ∧ (s.pd3Block x).hrd = s.hrd
      ∧ ((s.pd3Block x).sub x).owner = .blocked ∧ ∀ y ≠ x, (s.pd3Block x).sub y = s.sub y := by
  obtain ⟨f, abandoned⟩ := (s.trimLeave x).unitAbandon_still x
  have freed := (State.repairStop_still _ x).trans abandoned
  obtain ⟨-, -, -, pow, -, -, host, subA, subB, -, -, hrd⟩ := State.kept_of_still freed
  have subs : ∀ y, (((s.trimLeave x).unitAbandon x).repairStop x).sub y = s.sub y := fun y => by
    cases y
    · exact subA.trans (State.setTr_subA _ _ _)
    · exact subB.trans (State.setTr_subB _ _ _)
  rw [State.setTr_pow] at pow
  rw [State.setTr_host] at host
  rw [State.setTr_hrd] at hrd
  unfold State.pd3Block
  generalize ((s.trimLeave x).unitAbandon x).repairStop x = u at pow host hrd subs ⊢
  dsimp only
  refine ⟨?_, ?_, ?_, ?_, fun y hy => ?_⟩
  · rw [State.setSub_pow, State.setTr_pow, pow]
    rfl
  · rw [State.setSub_host, State.setTr_host, host]
    rfl
  · rw [State.setSub_hrd, State.setTr_hrd, hrd]
    rfl
  · rw [State.setSub_sub]
  · rw [State.setSub_sub_ne _ hy, State.setTr_sub, subs]

/-- PD3 has fallen, before its fault bit: a Resume that it stops is HELD again (R71). -/
def State.pd3Fallen (s : State) : State :=
  let u := (s.pd3Block .a).pd3Block .b
  let u := { u with
    host := { u.host with pd3Fault := true, resume := none }
    hrd := { u.hrd with st := if u.hrd.st == HrdSt.restoring || u.hrd.st == HrdSt.lending then .idle else u.hrd.st } }
  if s.host.resume.isSome then (u.setPhase .a .held).setPhase .b .held else u

theorem State.pd3Fallen_kept (s : State) :
    s.pd3Fallen.pow = s.pow ∧ s.pd3Fallen.host = { s.host with pd3Fault := true, resume := none }
      ∧ s.pd3Fallen.hrd.st = (if s.hrd.st == HrdSt.restoring || s.hrd.st == HrdSt.lending then .idle else s.hrd.st)
      ∧ s.pd3Fallen.subA.owner = .blocked ∧ s.pd3Fallen.subB.owner = .blocked := by
  obtain ⟨powA, hostA, hrdA, ownerA, -⟩ := s.pd3Block_kept .a
  obtain ⟨powB, hostB, hrdB, ownerB, otherB⟩ := (s.pd3Block .a).pd3Block_kept .b
  have blockedA := congrArg SubSt.owner (otherB .a (by decide))
  rw [ownerA] at blockedA
  rw [powA] at powB
  rw [hostA] at hostB
  rw [hrdA] at hrdB
  unfold State.pd3Fallen
  generalize (s.pd3Block .a).pd3Block .b = u at powB hostB hrdB ownerB blockedA ⊢
  have host := congrArg (fun h : HostSt => { h with pd3Fault := true, resume := none }) hostB
  have st := congrArg (fun h : Hrd => if h.st == HrdSt.restoring || h.st == HrdSt.lending then HrdSt.idle else h.st) hrdB
  split <;> exact ⟨powB, host, st, blockedA, ownerB⟩

/-- A domain fault sets its bit, and its event is latched or reaches the event unit (R70). -/
theorem State.domFault_form (s : State) (i : Nat) : ∃ l e, s.domFault i = { s with
    pow := { s.pow with faults := s.pow.faults ||| BitVec.ofNat 5 (2 ^ i), latched := l }, evt := e } :=
  State.raise_form { s with pow := { s.pow with faults := s.pow.faults ||| BitVec.ofNat 5 (2 ^ i) } } 30 _

/-- A brownout of PD3 stops both subchannels, a Resume and a restore, and switches no domain. -/
theorem State.pd3Brownout_on {s : State} (hp : s.pd3 = true) (hl : s.pow.pfailLow = false) (hf : s.host.pd3Fault = false) :
    let t := s.pd3Brownout
    t.subA.owner = .blocked ∧ t.subB.owner = .blocked ∧ t.host.pd3Fault = true ∧ t.host.resume = none
      ∧ t.hrd.st ≠ .restoring ∧ t.hrd.st ≠ .lending ∧ t.pow.dom = s.pow.dom ∧ t.pow.on = s.pow.on
      ∧ t.pow.image = s.pow.image ∧ t.pow.faults = s.pow.faults ||| 2 := by
  obtain ⟨pow, host, st, ownerA, ownerB⟩ := s.pd3Fallen_kept
  obtain ⟨l, e, fault⟩ := s.pd3Fallen.domFault_form 1
  have acts : s.pd3Brownout = s.pd3Fallen.domFault 1 := if_neg (by simp [hp, hl, hf])
  have idle : s.pd3Fallen.hrd.st ≠ .restoring ∧ s.pd3Fallen.hrd.st ≠ .lending := by
    rw [st]
    cases s.hrd.st <;> decide
  dsimp only
  rw [acts, fault]
  dsimp only
  rw [host, pow]
  exact ⟨ownerA, ownerB, rfl, rfl, idle.1, idle.2, rfl, rfl, rfl, rfl⟩

theorem State.pd3Brownout_off {s : State} (h : s.pd3 = false ∨ s.pow.pfailLow = true ∨ s.host.pd3Fault = true) :
    s.pd3Brownout = s := if_pos (by rcases h with h | h | h <;> simp [h])

/-! ## PD3 comes back (R71) -/

/-- VDDIO_H is valid again: both subchannels wait for the host. -/
def State.pd3Valid (s : State) : State :=
  let s := { s with host := { s.host with pd3Fault := false } }
  (s.setSub .a (fun t => { t with owner := .notReady })).setSub .b (fun t => { t with owner := .notReady })

theorem State.pd3Valid_eq (s : State) : s.pd3Valid = { s with
    host := { s.host with pd3Fault := false }
    subA := { s.subA with owner := .notReady }, subB := { s.subB with owner := .notReady } } := rfl

/-- The settings pending, and whether W9 is in rescue mode. -/
def State.settings (s : State) : List Nat × Bool := (s.nvs.pend, s.nvs.rescue)

theorem State.faultRecord_settings (s : State) (r : FaultRec) : (s.faultRecord r).settings = s.settings := by
  unfold State.faultRecord State.ringDrop
  dsimp only
  split
  · rfl
  · split
    · obtain ⟨-, -, -, nvs⟩ := State.raise_kept { s.handOff with
        nvs := { s.handOff.nvs with dropping := s.handOff.nvs.dropping.set 0 true, dropF := satAdd s.handOff.nvs.dropF 1 } }
        39 (BitVec.ofNat 24 (7 + 0))
      rw [State.settings, nvs]
      rfl
    · rfl

/-- A repair that is to be applied anew may be recorded, which marks no settings (R267, R271). -/
theorem State.repairsLost_settings (s : State) (x : Sub) : (s.repairsLost x).settings = s.settings := by
  have pends : ∀ (u : State) (e : Nat) (r : Repair), (u.setRepair e r).settings = u.settings := fun u e r => by
    unfold State.setRepair State.logRepair
    split
    · rfl
    · exact State.faultRecord_settings _ _
  unfold State.repairsLost
  refine (foldl_kept State.settings _ (fun u e => ?_) _ _).trans (by cases x <;> rfl)
  dsimp only
  split
  · exact pends _ _ _
  · rfl

theorem State.yrstPulse_settings (s : State) : s.yrstPulse.settings = s.settings := by
  have timed : ∀ (u : State) (h : HostSt), ({ u.wmarksLost with host := h } : State).settings = u.settings := fun _ _ => rfl
  unfold State.yrstPulse State.yrstLow
  rw [timed]
  exact foldl_kept State.settings _ State.repairsLost_settings _ _

/-- The trained values of a subchannel and of its buffers are dropped; nothing else is. -/
theorem State.discardWork_form (s : State) (x : Sub) : ∃ t d, s.discardWork x = { s with train := t, dbs := d } := by
  unfold State.discardWork
  refine List.foldlRecOn (motive := fun u : State => ∃ t d, u = { s with train := t, dbs := d }) _ _ ?_ fun u hu n _ => ?_
  · cases x <;> exact ⟨_, _, rfl⟩
  · obtain ⟨t, d, rfl⟩ := hu
    exact ⟨_, _, rfl⟩

/-- Replayed values go to training, the buffers and the limits of live trim (R144). -/
theorem State.replay_form (s : State) (r : WarmRec) : ∃ t d m, s.replay r = { s with train := t, dbs := d, trim := m } := by
  unfold State.replay
  refine List.foldlRecOn (motive := fun u : State => ∃ t d m, u = { s with train := t, dbs := d, trim := m }) _ _ ?_
    fun u hu n _ => ?_
  · exact ⟨_, _, _, rfl⟩
  · obtain ⟨t, d, m, rfl⟩ := hu
    dsimp only
    split
    · exact ⟨_, _, _, rfl⟩
    · exact ⟨_, _, _, rfl⟩

/-- The warm path without an image: training waits for the host (R142). -/
theorem State.warmStart_form {s : State} (h : s.pow.image = false) (hottest : Int) : ∃ t d m,
    s.warmStart hottest = { s with train := t, dbs := d, trim := m } ∧ t.a.phase = .wait ∧ t.b.phase = .wait := by
  have ends : ∀ u : State, (∃ t d m, u = { s with train := t, dbs := d, trim := m }) →
      ∃ t d m, (u.setPhase .a .wait).setPhase .b .wait = { s with train := t, dbs := d, trim := m }
        ∧ t.a.phase = .wait ∧ t.b.phase = .wait := fun u hu => by
    obtain ⟨t, d, m, rfl⟩ := hu
    exact ⟨_, _, _, rfl, rfl, rfl⟩
  unfold State.warmStart
  simp only [h, Bool.false_eq_true, if_false]
  refine ends _ ?_
  split
  · split
    · obtain ⟨t, d, m, replayed⟩ := State.replay_form _ _
      exact ⟨t, d, m, replayed⟩
    · exact ⟨_, _, _, rfl⟩
  · exact ⟨_, _, _, rfl⟩

/-- Without an image the end of the brownout resets the DRAMs and takes the warm path, its device time counted anew. -/
def State.pd3Reset (s : State) : State :=
  let u := { s.yrstPulse with hrd := { s.yrstPulse.hrd with readyHeldA := false, readyHeldB := false } }
  (((u.discardWork .a).discardWork .b).setPhase .a .off).setPhase .b .off

theorem State.pd3Reset_form (s : State) : ∃ t d, s.pd3Reset = { s.yrstPulse with
    train := t, dbs := d, hrd := { s.yrstPulse.hrd with readyHeldA := false, readyHeldB := false } } := by
  unfold State.pd3Reset
  generalize s.yrstPulse = u
  obtain ⟨t, d, h⟩ := State.discardWork_form { u with hrd := { u.hrd with readyHeldA := false, readyHeldB := false } } .a
  dsimp only
  rw [h]
  obtain ⟨t', d', h'⟩ := State.discardWork_form
    { u with train := t, dbs := d, hrd := { u.hrd with readyHeldA := false, readyHeldB := false } } .b
  rw [h']
  exact ⟨_, _, rfl⟩

/-- The warm path begins once management is ready, outside rescue mode. -/
def State.pd3Warm (s : State) : State :=
  if !s.mgmtReady || s.nvs.rescue then s else
  { s with train := { s.train with devMs := 0 } }.warmStart (wholeDeg s.free ((s.hotNow).getD 0))

theorem State.pd3Back_eq (s : State) : s.pd3Back =
    if !s.host.pd3Fault then s else if s.pd3Valid.pow.image then s.pd3Valid else s.pd3Valid.pd3Reset.pd3Warm := by
  unfold State.pd3Back State.pd3Warm State.pd3Reset State.pd3Valid
  dsimp only

/-- The warm path is training's, the buffers' and live trim's. -/
theorem State.pd3Warm_form {s : State} (h : s.pow.image = false) : ∃ t d m,
    s.pd3Warm = { s with train := t, dbs := d, trim := m }
      ∧ (s.mgmtReady = true → s.nvs.rescue = false → t.a.phase = .wait ∧ t.b.phase = .wait) := by
  unfold State.pd3Warm
  split
  case isTrue boots =>
    refine ⟨_, _, _, rfl, fun ready alive => ?_⟩
    simp [ready, alive] at boots
  case isFalse =>
    obtain ⟨t, d, m, warm, phases⟩ := State.warmStart_form (s := { s with train := { s.train with devMs := 0 } }) h
      (wholeDeg s.free ((s.hotNow).getD 0))
    exact ⟨t, d, m, warm, fun _ _ => phases⟩

/-- What the end of a PD3 brownout leaves where no image is held. -/
theorem State.pd3Back_warm {s : State} (hf : s.host.pd3Fault = true) (hi : s.pow.image = false) :
    let t := s.pd3Back
    t.host.pd3Fault = false ∧ t.host.yrst = false ∧ t.host.yrstMs = 1
      ∧ t.subA.owner = .notReady ∧ t.subB.owner = .notReady ∧ t.hrd.wmarkA = 0 ∧ t.hrd.wmarkB = 0
      ∧ t.pow.dom = s.pow.dom ∧ t.feat = s.feat ∧ t.nvs.pend = s.nvs.pend
      ∧ (s.mgmtReady = true → s.nvs.rescue = false → t.train.a.phase = .wait ∧ t.train.b.phase = .wait) := by
  obtain ⟨tr, d, reset⟩ := s.pd3Valid.pd3Reset_form
  obtain ⟨-, -, -, pow, -, feat, host, subA, subB, -, -, hrd⟩ := State.kept_of_still s.pd3Valid.yrstLow_still
  have settings := s.pd3Valid.yrstPulse_settings
  have pulse : s.pd3Valid.yrstPulse = { s.pd3Valid.yrstLow with host := { s.pd3Valid.yrstLow.host with yrstMs := 1 } } := rfl
  rw [pulse] at reset settings
  generalize s.pd3Valid.yrstLow = w at reset settings pow feat host subA subB hrd
  have pend : w.nvs.pend = s.nvs.pend := (Prod.mk.inj settings).1
  have rescue : w.nvs.rescue = s.nvs.rescue := (Prod.mk.inj settings).2
  have image : s.pd3Valid.pd3Reset.pow.image = false := by rw [reset, pow]; exact hi
  have ready : s.pd3Valid.pd3Reset.mgmtReady = s.mgmtReady := by
    simp only [State.mgmtReady, State.pd2, reset, pow, feat, rescue]
    rfl
  obtain ⟨t, d', m, warm, phases⟩ := State.pd3Warm_form image
  have acts : s.pd3Back = s.pd3Valid.pd3Reset.pd3Warm := by
    have valid : ¬ s.pd3Valid.pow.image = true := by simp [State.pd3Valid_eq, hi]
    rw [State.pd3Back_eq, if_neg (by simp [hf]), if_neg valid]
  rw [ready, reset] at phases
  dsimp only
  rw [acts, warm, reset]
  dsimp only
  rw [host, subA, subB, hrd, pow, feat]
  exact ⟨rfl, rfl, rfl, rfl, rfl, rfl, rfl, rfl, rfl, pend, fun up alive => phases up (rescue.trans alive)⟩

theorem State.pd3Back_of_image {s : State} (hf : s.host.pd3Fault = true) (hi : s.pow.image = true) : s.pd3Back = s.pd3Valid := by
  have valid : s.pd3Valid.pow.image = true := by rw [State.pd3Valid_eq]; exact hi
  rw [State.pd3Back_eq, if_neg (by simp [hf]), if_pos valid]

/-! ## PD5 is lost, and the NAND rail fails (R70) -/

/-- The buffers as their supply goes: gone from the bus with what they held (R66, R70). -/
def State.buffersGone (s : State) : State :=
  { s.pd5Start with
    train := { s.pd5Start.train with dbGens := List.replicate 10 [], dbRefs := List.replicate 10 [] }
    host := { s.pd5Start.host with pd5Fault := true } }

theorem State.pd5Lost_on {s : State} (hp : (s.pow.on.getLsbD 5 && s.pd3) = true) (hl : s.pow.pfailLow = false) :
    let t := s.pd5Lost
    t.dbs = (List.range 10).map (fun n => { Db.fresh with pos := nth s.modl.dbPos n 0 })
      ∧ t.zlb.targets = List.replicate 10 ZTarget.fresh ++ s.zlb.targets.drop 10
      ∧ t.pow.on = s.pow.on ∧ t.pow.dom = s.pow.dom ∧ t.pow.faults = s.pow.faults ||| 8 := by
  simp only [Bool.and_eq_true] at hp
  have acts : s.pd5Lost = s.buffersGone.domFault 3 := if_neg (by simp [hp, hl])
  obtain ⟨l, e, fault⟩ := s.buffersGone.domFault_form 3
  dsimp only
  rw [acts, fault]
  exact ⟨rfl, rfl, rfl, rfl, rfl⟩

theorem State.pd5Lost_off {s : State} (h : (s.pow.on.getLsbD 5 && s.pd3) = false ∨ s.pow.pfailLow = true) : s.pd5Lost = s := by
  refine if_pos ?_
  rcases h with h | h
  · cases h5 : s.pow.on.getLsbD 5 <;> simp_all
  · simp [h]

/-- The NAND rail's fault acts by domain state: boot offers no HOARD, a save is held, other work stops. -/
theorem State.pd6Fail_form {s : State} (h : s.pow.on.getLsbD 6 = true) : ∃ l e u,
    u = { s with pow := { s.pow with faults := s.pow.faults ||| 16, latched := l }, evt := e }
      ∧ (s.pow.dom = .boot → s.pd6Fail = { u with pow := { u.pow with on := u.pow.on &&& 0x3F } })
      ∧ (s.pow.dom = .save → s.pd6Fail = u.saveHeld.raise 49 4)
      ∧ (s.pow.dom ≠ .boot → s.pow.dom ≠ .save → s.pd6Fail = u.hoardHalt.restoreEnd) := by
  obtain ⟨l, e, fault⟩ := s.domFault_form 4
  have dom : (s.domFault 4).pow.dom = s.pow.dom := by rw [fault]
  refine ⟨l, e, s.domFault 4, fault, ?_⟩
  unfold State.pd6Fail
  rw [if_neg (by simp [h])]
  dsimp only
  split <;> simp_all

/-- A save that waits for the rail is held, and nothing of the island moves (R247). -/
theorem State.saveHeld_kept (s : State) :
    s.saveHeld.pow = s.pow ∧ s.saveHeld.hrd.st = .held ∧ s.saveHeld.hrd.lastOutcome = 4 := by
  refine ⟨?_, rfl, rfl⟩
  exact (State.sleepSub_pow _ .b).trans (State.sleepSub_pow _ .a)

/-- What the fault of the NAND rail leaves. -/
theorem State.pd6Fail_on {s : State} (h : s.pow.on.getLsbD 6 = true) :
    let t := s.pd6Fail
    t.pow.faults = s.pow.faults ||| 16
      ∧ (s.pow.dom = .boot → t.pow.dom = .boot ∧ t.pow.on = s.pow.on &&& 0x3F)
      ∧ (s.pow.dom = .save → t.pow.dom = .save ∧ t.hrd.st = .held ∧ t.hrd.lastOutcome = 4)
      ∧ (s.pow.dom = .restore → t.pow.dom = .run ∧ t.pow.on &&& 0x7D = domMask .run s.buffers s.modl.hoardFitted) := by
  obtain ⟨l, e, u, hu, boot, save, other⟩ := State.pd6Fail_form h
  by_cases hb : s.pow.dom = .boot
  · rw [boot hb, hu]
    exact ⟨rfl, fun _ => ⟨hb, rfl⟩, fun hs => by simp [hb] at hs, fun hr => by simp [hb] at hr⟩
  by_cases hs : s.pow.dom = .save
  · obtain ⟨pow, st, outcome⟩ := u.saveHeld_kept
    obtain ⟨l', e', raised⟩ := u.saveHeld.raise_form 49 4
    rw [save hs, raised]
    dsimp only
    rw [pow, hu]
    exact ⟨rfl, fun hb' => absurd hb' hb, fun _ => ⟨hs, hu ▸ st, hu ▸ outcome⟩, fun hr => by simp [hs] at hr⟩
  · obtain ⟨k, halted⟩ := u.hoardHalt_form
    obtain ⟨d, o, p, ended, -⟩ := u.hoardHalt.restoreEnd_form
    refine ⟨?_, fun hb' => absurd hb' hb, fun hs' => absurd hs' hs, fun hr => ?_⟩
    · rw [other hb hs, ended, halted, hu]
    · have run : u.hoardHalt.restoreEnd = u.hoardHalt.setDom .run := if_pos (by rw [halted, hu]; simp [hr])
      rw [other hb hs, run, halted, hu]
      exact ⟨rfl, on_seven .run s.buffers s.modl.hoardFitted false s.pow.on⟩

/-! ## The faults of the domains (O10) -/

/-- Settles O10: each row is one of the falls, restarts and losses above, and in every other state it does nothing. -/
theorem brownouts : Obligations.Brownouts := by
  unfold Obligations.Brownouts
  refine ⟨fun s hp hd => ⟨_, rfl, State.pd2Brownout_up hp hd⟩, fun s hp hd => ⟨_, rfl, State.pd2Brownout_attended hp hd⟩,
    fun s hp hd hi hpg hf hr => ⟨_, rfl, State.pd2Brownout_commitHold hp hd hi hpg hf hr⟩,
    fun s hp hd => ⟨_, rfl, State.pd2Brownout_down hp hd⟩, fun s h => congrArg Host.Outcome.next (if_pos ?pd2Off),
    fun s hdown hd => ⟨_, congrArg Host.Outcome.next (State.pd2Again_of_down hdown), ?restart⟩,
    fun s h => congrArg Host.Outcome.next (if_pos (by simp [h])),
    fun s hp hl hf => ⟨_, rfl, State.pd3Brownout_on hp hl hf⟩, fun s h => congrArg Host.Outcome.next (State.pd3Brownout_off h),
    fun s hf hi => congrArg Host.Outcome.next (State.pd3Back_of_image hf hi), fun s hf hi => ⟨_, rfl, State.pd3Back_warm hf hi⟩,
    fun s h => congrArg Host.Outcome.next (if_pos (by simp [h])),
    fun s hp hl => ⟨_, rfl, State.pd5Lost_on hp hl⟩, fun s h => congrArg Host.Outcome.next (State.pd5Lost_off h),
    fun s h => ⟨_, rfl, State.pd6Fail_on h⟩, fun s h => congrArg Host.Outcome.next (if_pos (by simp only [h, Bool.not_false]))⟩
  case pd2Off => rcases h with h | h <;> simp [h]
  case restart =>
    have restores : (s.setDom s.pow.dom).pow.dom ≠ .restore := by rcases hd with h | h | h <;> simp [h]
    obtain ⟨c, l, island⟩ := State.pd2Start_pow (cause := 16) (by decide) restores
    obtain ⟨-, -, cause, -, -⟩ := (s.setDom s.pow.dom).pd2Start_left 16
    obtain ⟨h, z, x, form⟩ := ((s.setDom s.pow.dom).pd2Start 16).followed_form
    rw [form]
    dsimp only
    rw [island]
    exact ⟨rfl, rfl, rfl, on_seven _ _ _ _ _, cause, rfl, rfl, rfl⟩

end Sys2Proof.Machine

/-! SUPPORT. The log rings and the time registers (O47): in rescue mode the window of a subchannel reaches no CLK_ register
(R202). -/

namespace Sys2Proof.Machine
open Sys2Proof

/-- Management up in rescue mode, the lifetime counter past its low word. -/
def rescueLate : State :=
  { Wit.run with
    feat := { Wit.run.feat with phase := .booting }
    nvs := { Wit.run.nvs with rescue := true }
    clk := { Wit.run.clk with life := 0x0100000000 } }

/-- In rescue mode a subchannel's window reaches no register (R202). -/
theorem State.reg_hubA_of_rescue {s : State} (h : s.nvs.rescue = true) (a : Addr) : s.reg .hubA a = none := by
  simp [State.reg, h, rescueOpen]

/-- The read of CLK_LIFE_LO that nothing answers latches nothing. -/
theorem clkLifeLoRead_of_rescue {s : State} (h : s.nvs.rescue = true) : exec (.clkLifeLoRead .hubA) s = .next s := by
  change Host.Outcome.next (s.afterRead .hubA 0x2C14) = _
  simp only [State.afterRead, State.reg_hubA_of_rescue h]

/-- Refutes O47: in rescue mode management is up, but a subchannel's window reaches no CLK_ register, so a read of
CLK_LIFE_LO from there leaves the latch of the high bits as it was. -/
theorem not_ringsAndTime : ¬ Obligations.RingsAndTime := by
  unfold Obligations.RingsAndTime
  rintro ⟨-, -, -, -, -, latch, -⟩
  obtain ⟨t, ht, hsel, -⟩ := latch .hubA rescueLate (by decide) (by decide)
  rw [clkLifeLoRead_of_rescue (by decide)] at ht
  cases ht
  exact absurd hsel (by decide)

end Sys2Proof.Machine

/-! SUPPORT. The Warren (O59): what a core and a channel show after a change, a core fault, the tuples of the user core, and
the port that a SELECT returns. -/

namespace Sys2Proof.Machine
open Sys2Proof

/-! ## Cores and channels after a change -/

theorem Wrn.core_setCore_self {w : Wrn} {n : Nat} (h : n < w.cores.length) (f : Core → Core) :
    (w.setCore n f).core n = f (w.core n) := nth_upd_self h f _

theorem Wrn.core_setCore_ne (w : Wrn) {n m : Nat} (h : m ≠ n) (f : Core → Core) : (w.setCore n f).core m = w.core m :=
  nth_upd_ne _ h f _

theorem Wrn.chan_setChan_self {w : Wrn} {n : Nat} (h : n < w.chans.length) (f : Chan → Chan) :
    (w.setChan n f).chan n = f (w.chan n) := nth_upd_self h f _

theorem Wrn.chan_setChan_ne (w : Wrn) {n m : Nat} (h : m ≠ n) (f : Chan → Chan) : (w.setChan n f).chan m = w.chan m :=
  nth_upd_ne _ h f _

@[simp] theorem Wrn.length_setCore (w : Wrn) (n : Nat) (f : Core → Core) : (w.setCore n f).cores.length = w.cores.length := by
  simp [Wrn.setCore, upd]

@[simp] theorem Wrn.length_setChan (w : Wrn) (n : Nat) (f : Chan → Chan) : (w.setChan n f).cores.length = w.cores.length :=
  rfl

/-! ## Core faults (R365) -/

/-- A wait cut short adds its cycles to the counters of its stall or its SELECT and moves nothing else. -/
theorem Wrn.waitCut_form (w : Wrn) (core v : Nat) : ∃ cs hs, w.waitCut core v = { w with cores := cs, chans := hs }
    ∧ cs.length = w.cores.length ∧ ((w.core core).st = .running → hs = w.chans) ∧ (∀ m, (nth hs m Chan.fresh).q = (w.chan m).q)
    ∧ ∀ m, m ≠ core → nth cs m Core.fresh = w.core m := by
  unfold Wrn.waitCut
  dsimp only
  split
  · rename_i x hst hstall
    refine ⟨_, _, rfl, w.length_setCore _ _, fun h => ?_, fun m => ?_, fun m hm => w.core_setCore_ne hm _⟩
    · rw [h] at hst
      cases hst
    · exact nth_upd_kept Chan.q (f := fun c => { c with stall := satAdd c.stall v }) (fun _ => rfl) w.chans x.1 m Chan.fresh
  · exact ⟨_, _, rfl, w.length_setCore _ _, fun _ => rfl, fun _ => rfl, fun m hm => w.core_setCore_ne hm _⟩
  · exact ⟨_, _, rfl, rfl, fun _ => rfl, fun _ => rfl, fun _ _ => rfl⟩

/-- WRN_FAULT of a core, a kind and an address. -/
def faultWord (core kind : Nat) (pc : BitVec 15) : Word := packWord [(0, core), (4, kind), (7, 1), (8, pc.toNat)]

theorem faultWord_fields {core kind : Nat} (hc : core < 12) (hk : kind < 8) (pc : BitVec 15) :
    (faultWord core kind pc).extractLsb' 0 8 = BitVec.ofNat 8 (128 + 16 * kind + core)
      ∧ (faultWord core kind pc).extractLsb' 8 15 = pc := by
  have := pc.isLt
  constructor <;> refine BitVec.eq_of_toNat_eq ?_ <;>
    simp [faultWord, packWord, BitVec.extractLsb'_toNat, Nat.shiftRight_eq_div_pow] <;> omega

/-- What a core fault does (R365), the address apart: the core stops and is recorded, W1 to W10 force the watchdog. -/
def Stops (s t : State) (core kind : Nat) : Prop :=
  (t.wrn.core core).st = .stopped ∧ (t.wrn.core core).stall = none
    ∧ t.wrn.fault.extractLsb' 0 8 = BitVec.ofNat 8 (128 + 16 * kind + core)
    ∧ t.wrn.wdogForced = (s.wrn.wdogForced || decide (1 ≤ core ∧ core ≤ 10))
    ∧ ((s.wrn.core core).st = .running → t.wrn.chans = s.wrn.chans) ∧ (∀ m, (t.wrn.chan m).q = (s.wrn.chan m).q)
    ∧ (∀ m, m ≠ core → t.wrn.core m = s.wrn.core m) ∧ (core ≠ 11 → t.evt = s.evt)
    ∧ t = { s with wrn := t.wrn, evt := t.evt, free := t.free }

/-- The Warren after a core fault. -/
def Wrn.faulted (w : Wrn) (core kind v : Nat) (pc : BitVec 15) : Wrn :=
  { (w.waitCut core v).setCore core (fun c => { c with st := .stopped, stall := none }) with
    fault := faultWord core kind pc
    wdogForced := ((w.waitCut core v).setCore core (fun c => { c with st := .stopped, stall := none })).wdogForced
      || (core != 0 && core != 11) }

/-- The state after a core fault whose event is still to be raised. -/
def State.faulted (s : State) (core kind : Nat) (pc : BitVec 15) : State :=
  { s with wrn := s.wrn.faulted core kind (s.freeVal 32).toNat pc, free := s.free + 1 }

/-- An event that the island never latches (R224, R245) alters the event unit alone. -/
theorem State.raise_unlatched (s : State) {n : Nat} (power : n < 24 ∨ 31 < n) (hoard : n < 48 ∨ 55 < n) (a : BitVec 24) :
    ∃ e, s.raise n a = { s with evt := e } := by
  have unlatched : ¬ s.latches n = true := by
    simp only [State.latches, Bool.or_eq_true, Bool.and_eq_true, decide_eq_true_eq]
    omega
  unfold State.raise
  rw [if_neg unlatched]
  split
  · exact ⟨_, rfl⟩
  · exact ⟨s.evt, rfl⟩

/-- A core fault is the Warren's, with the event of W11 (R365). -/
theorem State.coreFault_form {s : State} {core : Nat} (h : (s.wrn.core core).live = true) (kind : Nat) (pc : BitVec 15) :
    ∃ e, s.coreFault core kind pc
        = { s with wrn := s.wrn.faulted core kind (s.freeVal 32).toNat pc, evt := e, free := s.free + 1 }
      ∧ (core ≠ 11 → e = s.evt) := by
  unfold State.coreFault
  rw [if_neg (by simp [h])]
  dsimp only
  split
  case isTrue user =>
    obtain ⟨e, raised⟩ := State.raise_unlatched (n := 62) (s.faulted core kind pc) (by omega) (by omega) 0
    exact ⟨e, raised, fun other => absurd user other⟩
  case isFalse => exact ⟨s.evt, rfl, fun _ => rfl⟩

theorem State.coreFault_stops {s : State} {core : Nat} (h : (s.wrn.core core).live = true) (hl : s.wrn.cores.length = 12)
    (hc : core < 12) {kind : Nat} (hk : kind < 8) (pc : BitVec 15) :
    Stops s (s.coreFault core kind pc) core kind ∧ (s.coreFault core kind pc).wrn.fault.extractLsb' 8 15 = pc := by
  obtain ⟨e, eq, other⟩ := State.coreFault_form h kind pc
  obtain ⟨cs, hs, cut, length, chans, queues, cores⟩ := s.wrn.waitCut_form core (s.freeVal 32).toNat
  obtain ⟨record, address⟩ := faultWord_fields hc hk pc
  have stopped : (nth (upd cs core fun c => { c with st := .stopped, stall := none }) core Core.fresh)
      = { nth cs core Core.fresh with st := .stopped, stall := none } := nth_upd_self (by omega) _ _
  rw [eq, Wrn.faulted, cut]
  refine ⟨⟨congrArg Core.st stopped, congrArg Core.stall stopped, record, ?_, chans, queues,
    fun m hm => (nth_upd_ne cs hm _ _).trans (cores m hm), other, rfl⟩, address⟩
  refine congrArg (s.wrn.wdogForced || ·) ?_
  rw [Bool.eq_iff_iff]
  simp
  omega

theorem State.misuse_stops {s : State} {core : Nat} (h : (s.wrn.core core).live = true) (hl : s.wrn.cores.length = 12)
    (hc : core < 12) {kind : Nat} (hk : kind < 8) : Stops s (s.misuse core kind) core kind := by
  obtain ⟨st, stall, record, wdog, chans, queues, cores, evt, whole⟩ :=
    (State.coreFault_stops h hl hc hk (s.freeVal 15)).1
  refine ⟨st, stall, record, wdog, chans, queues, cores, evt, ?_⟩
  unfold State.misuse State.took
  rw [whole]

/-- A fault of a core whose own registers the running instruction has written before. -/
theorem Stops.of_setCore {s t : State} {core kind : Nat} {f : Core → Core} (hf : ∀ c, (f c).st = c.st)
    (h : Stops (s.setWrn (fun w => w.setCore core f)) t core kind) : Stops s t core kind := by
  obtain ⟨st, stall, record, wdog, chans, queues, cores, evt, whole⟩ := h
  refine ⟨st, stall, record, wdog, fun run => chans ?_, queues, fun m hm => (cores m hm).trans (Wrn.core_setCore_ne _ hm f),
    evt, whole⟩
  exact (nth_upd_kept Core.st hf s.wrn.cores core core Core.fresh).trans run

theorem Core.live_of_running {c : Core} (h : c.st = .running) : c.live = true := by
  simp [Core.live, h]

/-! ## Tuples of the user core (R367) -/

@[simp] theorem State.asyncTo_still (s : State) (l : Text) (x : Sess) : (s.asyncTo l x).still = s.still := by
  unfold State.asyncTo
  split
  · rfl
  · rw [State.pump_still, State.setSes_still]

@[simp] theorem State.asyncLine_still (s : State) (l : Text) : (s.asyncLine l).still = s.still := by
  unfold State.asyncLine
  split
  · rfl
  · rw [State.asyncTo_still, State.asyncTo_still, State.asyncTo_still]

/-- A tuple of the user core reaches the console or the event unit, never the Warren. -/
theorem State.userTuple_wrn (s : State) (ch : Nat) (ws : List Word) : (s.userTuple ch ws).wrn = s.wrn := by
  have still : (s.userTuple ch ws).still = s.still := by
    unfold State.userTuple
    split
    · exact s.asyncLine_still _
    · split
      · exact s.raise_still (by omega) (by omega) _
      · rfl
  have wrn : (s.userTuple ch ws).still.wrn = s.still.wrn := congrArg State.wrn still
  exact wrn

theorem State.userTuple_of_lt (s : State) {ch : Nat} (h : ch < 62) (ws : List Word) : s.userTuple ch ws = s := by
  unfold State.userTuple
  rw [if_neg (by omega), if_neg (by omega)]

theorem Wrn.feeder_lt {w : Wrn} {core port ch : Nat} (h : w.feeder core port = some ch) : ch < 64 :=
  List.mem_range.mp (List.mem_of_find?_eq_some h)

/-! ## The port that a SELECT returns (R361) -/

/-- A masked port of a core that holds a tuple. -/
def Wrn.ready (w : Wrn) (core p : Nat) : Bool := (w.core core).selMask.getLsbD p && w.portFull core p

/-- The better of a port found before and another: the other one only for a higher priority. -/
def Wrn.better (w : Wrn) (core : Nat) (b : Option Nat) (p : Nat) : Option Nat :=
  match b with
  | none => some p
  | some q => if w.portPrio core q < w.portPrio core p then some p else some q

theorem Wrn.choose_eq (w : Wrn) (core : Nat) : w.choose core =
    if (w.core core).selRound then
      ((List.range 8).map (fun k => ((w.core core).rp.toNat + k) % 8)).find? (w.ready core)
    else ((List.range 8).filter (w.ready core)).foldl (w.better core) none := rfl

/-- No ready port: nothing is chosen. -/
theorem Wrn.choose_eq_none {w : Wrn} {core : Nat} (h : ∀ p < 8, w.ready core p = false) : w.choose core = none := by
  rw [Wrn.choose_eq]
  split
  · rw [List.find?_eq_none]
    intro p hp
    obtain ⟨k, -, rfl⟩ := List.mem_map.mp hp
    simp [h _ (Nat.mod_lt _ (by omega))]
  · rw [List.filter_eq_nil_iff.mpr fun p hp => by simp [h p (List.mem_range.mp hp)]]
    rfl

/-- In round mode the ready port that comes first from RP on is chosen. -/
theorem Wrn.choose_round {w : Wrn} {core p : Nat} (hround : (w.core core).selRound = true) (hp : p < 8)
    (ready : w.ready core p = true)
    (first : ∀ r < 8, w.ready core r = true →
      (p + 8 - (w.core core).rp.toNat) % 8 ≤ (r + 8 - (w.core core).rp.toNat) % 8) : w.choose core = some p := by
  have hrp := (w.core core).rp.isLt
  rw [Wrn.choose_eq, if_pos hround, List.find?_map]
  generalize (w.core core).rp.toNat = rp at *
  have found : (List.range 8).find? (w.ready core ∘ fun k => (rp + k) % 8) = some ((p + 8 - rp) % 8) := by
    rw [List.find?_range_eq_some]
    have at_ : (rp + (p + 8 - rp) % 8) % 8 = p := by omega
    refine ⟨by simpa [at_] using ready, List.mem_range.mpr (Nat.mod_lt _ (by omega)), fun j hj => ?_⟩
    have before := first ((rp + j) % 8) (Nat.mod_lt _ (by omega))
    simp only [Function.comp_apply, Bool.not_eq_true']
    by_contra h
    have := before (by simpa using h)
    omega
  rw [found, Option.map_some]
  exact congrArg some (by omega)

/-- No later port is better than the one of the highest priority. -/
theorem Wrn.foldl_better_of_best {w : Wrn} {core p : Nat} {l : List Nat}
    (h : ∀ r ∈ l, w.portPrio core r ≤ w.portPrio core p) : l.foldl (w.better core) (some p) = some p := by
  refine List.foldlRecOn (motive := fun b => b = some p) l _ rfl fun b hb r hr => ?_
  rw [hb]
  exact if_neg (Nat.not_lt.mpr (h r hr))

/-- The first port of the highest priority is found in a rising list. -/
theorem Wrn.foldl_better {w : Wrn} {core p : Nat} {l : List Nat} (hp : p ∈ l) (sorted : l.Pairwise (· < ·))
    (best : ∀ r ∈ l, w.portPrio core r < w.portPrio core p ∨ (w.portPrio core r = w.portPrio core p ∧ p ≤ r)) :
    ∀ b : Option Nat, (∀ q ∈ b, w.portPrio core q < w.portPrio core p) → l.foldl (w.better core) b = some p := by
  induction l with
  | nil => exact absurd hp List.not_mem_nil
  | cons x xs ih =>
    intro b hb
    obtain ⟨below, rest⟩ := List.pairwise_cons.mp sorted
    rw [List.foldl_cons]
    rcases List.mem_cons.mp hp with rfl | hxs
    · have taken : w.better core b p = some p := by
        cases b with
        | none => rfl
        | some q => exact if_pos (hb q rfl)
      rw [taken]
      refine Wrn.foldl_better_of_best fun r hr => ?_
      have := best r (List.mem_cons_of_mem _ hr)
      omega
    · refine ih hxs rest (fun r hr => best r (List.mem_cons_of_mem _ hr)) _ fun q hq => ?_
      have worse : w.portPrio core x < w.portPrio core p := by
        have := best x List.mem_cons_self
        have := below p hxs
        omega
      cases b with
      | none =>
        cases hq
        exact worse
      | some y =>
        simp only [Wrn.better] at hq
        split at hq <;> cases hq
        · exact worse
        · exact hb _ rfl

/-- In priority mode the lowest of the ready ports of the highest priority is chosen. -/
theorem Wrn.choose_priority {w : Wrn} {core p : Nat} (hround : (w.core core).selRound = false) (hp : p < 8)
    (ready : w.ready core p = true)
    (best : ∀ r < 8, w.ready core r = true →
      w.portPrio core r < w.portPrio core p ∨ (w.portPrio core r = w.portPrio core p ∧ p ≤ r)) :
    w.choose core = some p := by
  rw [Wrn.choose_eq, if_neg (by simp [hround])]
  refine Wrn.foldl_better (List.mem_filter.mpr ⟨List.mem_range.mpr hp, ready⟩)
    (List.pairwise_lt_range.filter _) (fun r hr => ?_) none nofun
  obtain ⟨hr8, hready⟩ := List.mem_filter.mp hr
  exact best r (List.mem_range.mp hr8) hready

/-- A SELECT returns a result, RP and its wait. -/
def State.selectFin (s : State) (core cycles : Nat) (r : BitVec 4) (rp : BitVec 3) : State :=
  s.setWrn (fun w => w.setCore core (fun c =>
    { c with st := .running, selResult := r, rp := rp, swait := satAdd c.swait cycles }))

section
variable {s : State} {core cycles : Nat} {out : Bool}

theorem State.selectEnd_of_choose {p : Nat} (sel : (s.wrn.core core).st = .select) (h : s.wrn.choose core = some p) :
    s.selectEnd core out cycles = s.selectFin core cycles (BitVec.ofNat 4 p)
      (if (s.wrn.core core).selRound then BitVec.ofNat 3 (p + 1) else (s.wrn.core core).rp) := by
  unfold State.selectEnd
  dsimp only
  rw [if_neg (by simp [sel]), h]
  rfl

theorem State.selectEnd_of_none (sel : (s.wrn.core core).st = .select) (h : s.wrn.choose core = none) :
    s.selectEnd core out cycles =
      if out && (s.wrn.core core).selTmo != 0 then s.selectFin core cycles 0xF (s.wrn.core core).rp else s := by
  unfold State.selectEnd
  dsimp only
  rw [if_neg (by simp [sel]), h]
  rfl

end

/-! ## Sends (R359) -/

theorem Chan.push_eq (c : Chan) (ws : List Word) : c.push ws =
    { c with q := c.q ++ [ws], count := satAdd c.count 1, high := BitVec.ofNat 5 (max c.high.toNat (c.q.length + 1)) } := by
  simp [Chan.push]

/-- The words of a send as they stand in SEND_W. -/
def Core.loaded (c : Core) (ws : List Word) : Core := { c with sendW := (ws ++ c.sendW.drop ws.length).take 4 }

/-- The state once SEND_W is written. -/
def State.sendLoaded (s : State) (core : Nat) (ws : List Word) : State :=
  s.setWrn (fun w => w.setCore core (fun c => c.loaded ws))

/-- The channel is enabled, comes from the core, and takes this kind of send. -/
def State.owns (s : State) (core ch : Nat) (try_ : Bool) : Prop :=
  (nth s.wrn.routes ch (0 : Word)).getLsbD 31 = true
    ∧ (nth s.wrn.routes ch (0 : Word)).extractLsb' 0 4 = BitVec.ofNat 4 core
    ∧ (try_ = true ∨ (nth s.wrn.routes ch (0 : Word)).getLsbD 14 = true)

theorem State.owns_iff {s : State} {core : Nat} (hc : core < 12) (ch : Nat) (try_ : Bool) : s.owns core ch try_ ↔
    (!routeEn (nth s.wrn.routes ch 0) || routeSrc (nth s.wrn.routes ch 0) != core
      || (!try_ && !routeBlock (nth s.wrn.routes ch 0))) = false := by
  unfold State.owns
  generalize nth s.wrn.routes ch (0 : Word) = r
  have source : r.extractLsb' 0 4 = BitVec.ofNat 4 core ↔ routeSrc r = core := by
    rw [← BitVec.toNat_inj]
    simp [BitVec.extractLsb'_toNat, routeSrc, fld]
    omega
  rw [source]
  cases try_ <;> simp [routeEn, routeBlock, bitAt, and_assoc]

section
variable {s : State} {core ch : Nat} {ws : List Word} {try_ : Bool}

/-- A send into room: the tuple is appended, and a try send notes its success. -/
def State.sendRoom (s : State) (core ch : Nat) (ws : List Word) (try_ : Bool) : State :=
  let u := s.setWrn (fun w => w.setChan ch (fun c => c.push ws))
  if try_ then u.setWrn (fun w => w.setCore core (fun c => { c with sendOk := true })) else u

/-- A send into a full channel: a try send fails and is counted, a blocking send stalls its core. -/
def State.sendFull (s : State) (core ch : Nat) (ws : List Word) (try_ : Bool) : State :=
  if try_ then s.setWrn (fun w =>
    (w.setChan ch (fun c => { c with tryfail := satAdd c.tryfail 1 })).setCore core (fun c => { c with sendOk := false }))
  else s.setWrn (fun w => w.setCore core (fun c => { c with st := .sendStall, stall := some (ch, ws) }))

theorem State.wrnSend_of_running (run : (s.wrn.core core).st = .running) : s.wrnSend core ch ws try_ =
    if !routeEn (nth s.wrn.routes ch 0) || routeSrc (nth s.wrn.routes ch 0) != core
        || (!try_ && !routeBlock (nth s.wrn.routes ch 0)) then (s.sendLoaded core ws).misuse core 3
    else if (s.wrn.chan ch).q.length < 16 then (s.sendLoaded core ws).sendRoom core ch ws try_
    else (s.sendLoaded core ws).sendFull core ch ws try_ := by
  unfold State.wrnSend
  dsimp only
  rw [if_neg (by simp [run])]
  cases try_ <;> rfl

theorem State.wrnSend_of_owns (run : (s.wrn.core core).st = .running) (hc : core < 12) (h : s.owns core ch try_) :
    s.wrnSend core ch ws try_ = if (s.wrn.chan ch).q.length < 16 then (s.sendLoaded core ws).sendRoom core ch ws try_
      else (s.sendLoaded core ws).sendFull core ch ws try_ := by
  rw [State.owns_iff hc] at h
  rw [State.wrnSend_of_running run, if_neg (Bool.eq_false_iff.mp h)]

theorem State.wrnSend_of_not_owns (run : (s.wrn.core core).st = .running) (hc : core < 12) (h : ¬ s.owns core ch try_) :
    s.wrnSend core ch ws try_ = (s.sendLoaded core ws).misuse core 3 := by
  rw [State.owns_iff hc, Bool.not_eq_false] at h
  rw [State.wrnSend_of_running run, if_pos h]

end

/-- The ports that the statement of SELECT calls ready are those of `Wrn.ready`. -/
theorem Wrn.ready_iff {w : Wrn} {core p : Nat} :
    w.ready core p = true ↔ (w.core core).selMask.getLsbD p = true ∧ w.portFull core p = true := Bool.and_eq_true_iff

/-- A core's row acts while management runs. -/
theorem next_of_up {s t u : State} (hup : s.up = true) (h : u = t) :
    (Host.Outcome.next (if s.up then u else s) : Out) = .next t := by
  rw [if_pos hup, h]

/-! ## The Warren (O59) -/

/-- Settles O59: a send is judged by `State.owns`, a fault of a core is `Stops`, a SELECT returns `Wrn.choose`; the other
rows change one core or one channel. -/
theorem warren : Obligations.Warren := by
  unfold Obligations.Warren
  refine ⟨fun core ch ws try_ s hup run hl hn => ⟨fun own room => ?sent, fun own full => ?full, fun own => ?misuse⟩,
    fun core cycles ch ws s hup hstall hl hn => ⟨fun room => ?unstalled, fun full => ?stalled⟩,
    fun core port s hup run hl hn => ⟨fun ch ws q hf hq => ?popped, fun dry => ?unfed⟩,
    fun core mask round tmo s hup run hl => ⟨fun hwait => ?waits, fun hm ht => ?never⟩,
    fun core out cycles s hup sel hl => ⟨fun p hp best => ?returns, fun empty => ⟨fun hout ht => ?timeout, fun wait => ?still⟩⟩,
    fun core s hup run => ?beats, fun s hup => ⟨fun live unforced heard => ?serviced, fun n hn live silent => ?unheard⟩,
    fun core kind pc s hup hl => ⟨fun live => ?faults, fun dead => ?dead⟩, fun s hup hl live => ?missed,
    fun s hup hl => ⟨fun on fitted held => ?starts, fun off => ?held⟩⟩
  case sent =>
    have loaded := Wrn.core_setCore_self (w := s.wrn) (n := core) (by omega) (fun c => c.loaded ws)
    have there : core < (s.sendLoaded core ws).wrn.cores.length := (Wrn.length_setCore s.wrn _ _).symm ▸ by omega
    have pushed := Wrn.chan_setChan_self (w := s.wrn) (n := ch) (by omega) (fun c => c.push ws)
    rw [Chan.push_eq] at pushed
    refine ⟨_, next_of_up hup ((State.wrnSend_of_owns run core.isLt own).trans (if_pos room)), ?_⟩
    cases try_ with
    | false => exact ⟨pushed, fun m hm => s.wrn.chan_setChan_ne hm _, loaded, fun m hm => s.wrn.core_setCore_ne hm _, rfl⟩
    | true =>
      refine ⟨pushed, fun m hm => s.wrn.chan_setChan_ne hm _, ?_, fun m hm => ?_, rfl⟩
      · exact (Wrn.core_setCore_self there _).trans (congrArg (fun c : Core => { c with sendOk := true }) loaded)
      · exact (Wrn.core_setCore_ne _ hm _).trans (s.wrn.core_setCore_ne hm _)
  case full =>
    have loaded := Wrn.core_setCore_self (w := s.wrn) (n := core) (by omega) (fun c => c.loaded ws)
    have there : core < (s.sendLoaded core ws).wrn.cores.length := (Wrn.length_setCore s.wrn _ _).symm ▸ by omega
    refine ⟨_, next_of_up hup ((State.wrnSend_of_owns run core.isLt own).trans (if_neg (Nat.not_lt.mpr full))), ?_⟩
    cases try_ with
    | false =>
      refine ⟨fun _ => ⟨?_, rfl⟩, nofun, fun _ _ => rfl, fun m hm => ?_, rfl⟩
      · exact (Wrn.core_setCore_self there _).trans
          (congrArg (fun c : Core => { c with st := .sendStall, stall := some (ch.val, ws) }) loaded)
      · exact (Wrn.core_setCore_ne _ hm _).trans (s.wrn.core_setCore_ne hm _)
    | true =>
      refine ⟨nofun, fun _ => ⟨?_, ?_⟩, fun m hm => s.wrn.chan_setChan_ne hm _, fun m hm => ?_, rfl⟩
      · exact (Wrn.core_setCore_self there _).trans
          (congrArg (fun c : Core => { c with sendOk := false }) loaded)
      · exact Wrn.chan_setChan_self (w := s.wrn) (by omega) _
      · exact (Wrn.core_setCore_ne _ hm _).trans (s.wrn.core_setCore_ne hm _)
  case misuse =>
    have live : ((s.sendLoaded core ws).wrn.core core).live = true := by
      refine Core.live_of_running (Eq.trans ?_ run)
      exact nth_upd_kept Core.st (f := fun c => c.loaded ws) (fun _ => rfl) _ _ _ _
    refine ⟨_, next_of_up hup (State.wrnSend_of_not_owns run core.isLt own), ?_⟩
    exact Stops.of_setCore (f := fun c => c.loaded ws) (fun _ => rfl)
      (State.misuse_stops live ((Wrn.length_setCore s.wrn _ _).trans hl) core.isLt (by omega))
  case unstalled =>
    have pushed := Wrn.chan_setChan_self (w := s.wrn) (n := ch) (by omega)
      (fun c => { c.push ws with stall := satAdd c.stall cycles })
    have stalls : s.stallEnd core cycles = s.setWrn (fun w => w.unstall core ch ws cycles) := by
      simp only [State.stallEnd, hstall, if_pos room]
    refine ⟨_, next_of_up hup stalls, congrArg Chan.q pushed, congrArg Chan.stall pushed, congrArg Chan.count pushed, ?_,
      fun m hm => s.wrn.chan_setChan_ne hm _, fun m hm => Wrn.core_setCore_ne _ hm _, rfl⟩
    exact Wrn.core_setCore_self (by simpa using by omega) _
  case stalled =>
    refine next_of_up hup ?_
    simp only [State.stallEnd, hstall, if_neg (Nat.not_lt.mpr full)]
  case popped =>
    have pops : s.wrnPop core port
        = (s.setWrn (fun w => w.setChan ch (fun c => { c with q := q }))).userTuple ch ws := by
      simp only [State.wrnPop, run, hf, hq, bne_self_eq_false, Bool.false_eq_true, if_false]
    have lt := Wrn.feeder_lt hf
    refine ⟨_, next_of_up hup pops, ?_⟩
    rw [State.userTuple_wrn]
    refine ⟨Wrn.chan_setChan_self (by omega) _, fun m hm => s.wrn.chan_setChan_ne hm _, rfl, fun sys => ?_⟩
    rw [State.userTuple_of_lt _ sys]
    rfl
  case unfed =>
    have faults : s.wrnPop core port = s.misuse core 4 := by
      rcases dry with feedless | ⟨ch, hf, hq⟩
      · simp only [State.wrnPop, run, feedless, bne_self_eq_false, Bool.false_eq_true, if_false]
      · simp only [State.wrnPop, run, hf, hq, bne_self_eq_false, Bool.false_eq_true, if_false]
    exact ⟨_, next_of_up hup faults, State.misuse_stops (Core.live_of_running run) hl core.isLt (by omega)⟩
  case waits =>
    have selects : s.wrnSelect core mask round tmo = s.setWrn (fun w => w.setCore core
        (fun c => { c with st := .select, selMask := mask, selRound := round, selTmo := tmo })) := by
      have some_ : ¬ (mask = 0 && tmo = 0) = true := by
        simp only [Bool.and_eq_true, decide_eq_true_eq]
        exact fun h => hwait.elim (· h.1) (· h.2)
      unfold State.wrnSelect
      rw [if_neg (by simp [run]), if_neg some_]
    exact ⟨_, next_of_up hup selects, Wrn.core_setCore_self (by omega) _, fun m hm => Wrn.core_setCore_ne _ hm _, rfl, rfl⟩
  case never =>
    have faults : s.wrnSelect core mask round tmo
        = (s.setWrn (fun w => w.setCore core (fun c => { c with selTmo := tmo }))).misuse core 5 := by
      unfold State.wrnSelect
      rw [if_neg (by simp [run]), if_pos (by simp [hm, ht])]
    have live : ((s.setWrn (fun w => w.setCore core (fun c => { c with selTmo := tmo }))).wrn.core core).live = true := by
      refine Core.live_of_running (Eq.trans ?_ run)
      exact nth_upd_kept Core.st (f := fun c => { c with selTmo := tmo }) (fun _ => rfl) _ _ _ _
    refine ⟨_, next_of_up hup faults, ?_⟩
    exact Stops.of_setCore (f := fun c => { c with selTmo := tmo }) (fun _ => rfl)
      (State.misuse_stops live ((Wrn.length_setCore s.wrn _ _).trans hl) core.isLt (by omega))
  case returns =>
    obtain ⟨hp8, masked, fullp⟩ := hp
    have ready := Wrn.ready_iff.mpr ⟨masked, fullp⟩
    have chosen : s.wrn.choose core = some p := by
      cases hr : (s.wrn.core core).selRound with
      | true =>
        rw [if_pos hr] at best
        exact Wrn.choose_round hr hp8 ready fun r hr h => best r ⟨hr, Wrn.ready_iff.mp h⟩
      | false =>
        rw [if_neg (by simp [hr])] at best
        exact Wrn.choose_priority hr hp8 ready fun r hr h => best r ⟨hr, Wrn.ready_iff.mp h⟩
    exact ⟨_, next_of_up hup (State.selectEnd_of_choose sel chosen), Wrn.core_setCore_self (by omega) _,
      fun m hm => Wrn.core_setCore_ne _ hm _, rfl, rfl⟩
  case timeout =>
    have chosen := Wrn.choose_eq_none (fun p hp => Bool.eq_false_iff.mpr fun h => empty p ⟨hp, Wrn.ready_iff.mp h⟩)
    have ends : s.selectEnd core out cycles = s.selectFin core cycles 0xF (s.wrn.core core).rp := by
      rw [State.selectEnd_of_none sel chosen, if_pos (by simpa [hout] using ht)]
    exact ⟨_, next_of_up hup ends, Wrn.core_setCore_self (by omega) _, rfl⟩
  case still =>
    have chosen := Wrn.choose_eq_none (fun p hp => Bool.eq_false_iff.mpr fun h => empty p ⟨hp, Wrn.ready_iff.mp h⟩)
    refine next_of_up hup ?_
    rw [State.selectEnd_of_none sel chosen, if_neg]
    rcases wait with wait | wait <;> simp [wait]
  case beats =>
    refine next_of_up hup ?_
    unfold State.beat
    rw [if_neg (by simp [run])]
    rfl
  case serviced =>
    have all : (List.range 11).all (fun n => !(s.wrn.core n).live || s.wrn.alive.getLsbD n) = true := by
      simp only [List.all_eq_true, List.mem_range, Bool.or_eq_true, Bool.not_eq_true']
      exact fun n hn => (Bool.eq_false_or_eq_true _).symm.imp id (heard n hn)
    refine next_of_up hup ?_
    unfold State.wdogService
    rw [if_neg (by simp only [unforced, live, all]; decide)]
    rfl
  case unheard =>
    have notAll : (List.range 11).all (fun n => !(s.wrn.core n).live || s.wrn.alive.getLsbD n) = false := by
      simp only [List.all_eq_false, List.mem_range]
      exact ⟨n, hn, by simp [live, silent]⟩
    refine next_of_up hup ?_
    unfold State.wdogService
    rw [if_pos (by simp [notAll])]
  case faults => exact ⟨_, next_of_up hup rfl, State.coreFault_stops live hl core.isLt kind.isLt pc⟩
  case dead =>
    refine next_of_up hup ?_
    unfold State.coreFault
    rw [if_pos (by simp [dead])]
  case missed => exact ⟨_, next_of_up hup rfl, State.misuse_stops live hl (by omega) (by omega)⟩
  case starts =>
    have starts : s.userStart = s.setWrn (fun w => w.setCore 11 (fun c => { c with st := .running })) := by
      unfold State.userStart
      rw [if_pos (by simp [State.userOn, on, fitted, held])]
    exact ⟨_, next_of_up hup starts, Wrn.core_setCore_self (by omega) _, fun m hm => Wrn.core_setCore_ne _ hm _, rfl⟩
  case held =>
    have stays : ¬ (s.userOn && (s.wrn.core 11).st == .held) = true := by
      simp only [State.userOn, Bool.and_eq_true, beq_iff_eq]
      rintro ⟨⟨on, fitted⟩, held⟩
      rcases off with off | off | off
      · simp [on] at off
      · exact absurd (off.symm.trans fitted) (by decide)
      · exact off held
    exact next_of_up hup (if_neg stays)

end Sys2Proof.Machine

/-! SUPPORT. Commits of the settings memory (O45): what a console answer leaves, what a commit's snapshot does not read, and
the slots after an erase, a program and a pre-erase. -/

namespace Sys2Proof.Machine
open Sys2Proof

/-! ## What a console answer leaves (R323, R326) -/

/-- The state with console, event unit and pool blanked: an answer of the console leaves the rest. -/
def State.aside (s : State) : State := { s with con := Con.fresh, evt := Evt.fresh, pool := Pool.fresh }

section
variable (s : State)

@[simp] theorem State.setSes_aside (x : Sess) (f : SessSt → SessSt) : (s.setSes x f).aside = s.aside := by
  cases x <;> rfl

theorem State.raise_aside {n : Nat} (power : n < 24 ∨ 31 < n) (hoard : n < 48 ∨ 55 < n) (a : BitVec 24) :
    (s.raise n a).aside = s.aside := by
  obtain ⟨e, raised⟩ := s.raise_unlatched power hoard a
  rw [raised]
  rfl

@[simp] theorem State.sendLost_aside (x : Sess) : (s.sendLost x).aside = s.aside := by
  unfold State.sendLost
  dsimp only
  split
  · rfl
  · split
    · rfl
    · exact (State.raise_aside _ (by omega) (by omega) _).trans (s.setSes_aside x _)

@[simp] theorem State.sendBacklog_aside (x : Sess) : (s.sendBacklog x).aside = s.aside := by
  unfold State.sendBacklog
  dsimp only
  split
  · rfl
  · split
    · rfl
    · exact s.setSes_aside x _

@[simp] theorem State.pump_aside (x : Sess) : (s.pump x).aside = s.aside := by
  unfold State.pump
  dsimp only
  split
  · exact s.setSes_aside x _
  · rw [State.sendBacklog_aside, State.sendLost_aside, State.setSes_aside]

@[simp] theorem State.conRelease_aside : s.conRelease.aside = s.aside := by
  unfold State.conRelease
  split <;> rfl

@[simp] theorem State.respond_aside (rq : Req) (ls : List Text) (l : Text) (e : Option Ending) :
    (s.respond rq ls l e).aside = s.aside := by
  have idle : ∀ c : Con, ({ s with con := c } : State).aside = s.aside := fun _ => rfl
  unfold State.respond
  dsimp only
  cases rq.nn <;> simp [idle]

/-- A commit that ends under a waiting `nvs commit` moves the console alone (R346). -/
@[simp] theorem State.conCommit_aside (r : Nat) (l : Option Text) (w : Text) : (s.conCommit r l w).aside = s.aside := by
  have answers : ∀ rq got err, (s.conCommits rq got err).aside = s.aside := fun rq got err => by
    unfold State.conCommits State.respondOk
    split <;> exact s.respond_aside _ _ _ _
  unfold State.conCommit State.conHold
  split
  · split
    · rfl
    · dsimp only
      split
      · exact answers _ _ _
      · rfl
  · rfl

end

theorem State.kept_of_aside {s t : State} (h : t.aside = s.aside) :
    t.nv = s.nv ∧ t.nvs = s.nvs ∧ t.modl = s.modl ∧ t.pow = s.pow ∧ t.clk = s.clk ∧ t.feat = s.feat := by
  simp only [State.aside, State.mk.injEq] at h
  simp only [h, and_self]

/-! ## What the registers do not read -/

/-- The state with the slots of regions 3 to 6, the erase counts, the bus commands and the pool of another. -/
def State.reslot (s u : State) : State :=
  { s with
    nv := { s.nv with settings := u.nv.settings, cal := u.nv.cal, warm := u.nv.warm, keep := u.nv.keep }
    nvs := { s.nvs with wear := u.nvs.wear, bus := u.nvs.bus }
    pool := u.pool }

section
variable (p : Path) (a : Nat) (s u : State)

theorem dbmReg_reslot : dbmReg p a (s.reslot u) = dbmReg p a s := by
  unfold dbmReg
  generalize a - 0x0C80 = o
  rfl

theorem kpaReg_reslot : kpaReg p a (s.reslot u) = kpaReg p a s := by
  have proxy : ∀ o, proxied p 10 o (zxpLocal o (s.reslot u)) (s.reslot u) = proxied p 10 o (zxpLocal o s) s := fun _ => rfl
  have offers : ∀ f, (s.reslot u).offers f = s.offers f := fun _ => rfl
  have regOn : ∀ f, (s.reslot u).regOn f = s.regOn f := fun _ => rfl
  have modl : (s.reslot u).modl = s.modl := rfl
  unfold kpaReg
  simp only [proxy, offers, regOn, modl]

/-- Outside the NVS_ registers and DBG_POOL no register reads the slots, their wear, the bus commands or the pool. -/
theorem hubReg_reslot (h : a < 0x2000 ∨ (0x2400 ≤ a ∧ a < 0x3C00)) : hubReg p a (s.reslot u) = hubReg p a s := by
  have feat : featReg p a (s.reslot u) = featReg p a s := rfl
  have host : hostReg p a (s.reslot u) = hostReg p a s := rfl
  have cal : calReg p a (s.reslot u) = calReg p a s := rfl
  have train : trainReg p a (s.reslot u) = trainReg p a s := rfl
  have trim : trimReg p a (s.reslot u) = trimReg p a s := rfl
  have flt : fltReg p a (s.reslot u) = fltReg p a s := rfl
  have evt : evtReg p a (s.reslot u) = evtReg p a s := rfl
  have pwr : pwrReg p a (s.reslot u) = pwrReg p a s := rfl
  have twb : twbReg p a (s.reslot u) = twbReg p a s := rfl
  have con : conReg p a (s.reslot u) = conReg p a s := rfl
  have clk : clkReg p a (s.reslot u) = clkReg p a s := rfl
  have wrn : wrnReg p a (s.reslot u) = wrnReg p a s := rfl
  have hrd : hrdReg p a (s.reslot u) = hrdReg p a s := rfl
  unfold hubReg
  rcases h with low | ⟨high, top⟩
  · simp only [feat, host, dbmReg_reslot, cal, train, trim, flt, evt, pwr, kpaReg_reslot, low, if_true]
  · simp only [feat, host, dbmReg_reslot, cal, train, trim, flt, evt, pwr, kpaReg_reslot, twb, con, clk, wrn, hrd,
      Nat.not_lt.mpr high, top, if_true, if_false]

end

/-- A commit's snapshot does not read what its erase and its buffers alter, the slot in use apart (R192). -/
theorem State.snapshot_reslot {s u : State} (h : (s.reslot u).storedSet = s.storedSet) (r : Nat) :
    (s.reslot u).snapshot r = s.snapshot r := by
  have keys : ∀ k ∈ entryKeys, k.1 < 0x2000 ∨ (0x2400 ≤ k.1 ∧ k.1 < 0x3C00) := by decide
  have unit : ∀ n, (s.reslot u).atUnit n = (s.atUnit n).reslot u := fun n => by
    unfold State.atUnit
    split <;> rfl
  have body : (s.reslot u).setBody = s.setBody := by
    unfold State.setBody
    rw [h]
    refine congrArg (SetBody.mk _ _ _) (List.filterMap_congr fun k hk => ?_)
    unfold State.entryNow
    rw [unit, hubReg_reslot _ _ _ _ (keys k hk)]
  have hot : ∀ l, hottest (s.reslot u) l = hottest s l := fun l => by
    induction l with
    | nil => rfl
    | cons n r ih =>
      rw [hottest, hottest, ih]
      rfl
  have warm : (s.reslot u).warmBody = s.warmBody := by
    unfold State.warmBody State.hotNow
    simp only [hot]
    rfl
  unfold State.snapshot
  rw [body, warm]
  rfl

/-! ## Slots after an erase and a program (R192) -/

/-- One slot of a region. -/
def State.slotAt (s : State) (r : Nat) (b : Bool) : Option SlotInfo := if b then (s.slots r).2 else (s.slots r).1

theorem State.slots_congr {s t : State} (nv : t.nv = s.nv) (modl : t.modl = s.modl) : t.slots = s.slots := by
  funext r
  unfold State.slots State.infoOf State.hdrOk State.bind
  rw [nv, modl]

theorem State.slotAt_congr {s t : State} {r : Nat} (h : t.slots r = s.slots r) (b : Bool) : t.slotAt r b = s.slotAt r b := by
  rw [State.slotAt, State.slotAt, h]

theorem State.slotAt_wipeSlot (s : State) {r : Nat} (lo : 2 ≤ r) (hi : r ≤ 6) (b raw : Bool) :
    (s.wipeSlot r b raw).slotAt r b = none ∧ (s.wipeSlot r b raw).slotAt r (!b) = s.slotAt r (!b)
      ∧ (s.wipeSlot r b raw).slotFull r b = raw := by
  have region : r = 2 ∨ r = 3 ∨ r = 4 ∨ r = 5 ∨ r = 6 := by omega
  rcases region with rfl | rfl | rfl | rfl | rfl <;> cases b <;> exact ⟨rfl, rfl, rfl⟩

theorem State.slots_wipeSlot_ne (s : State) {r m : Nat} (h : m ≠ r) (b raw : Bool) :
    (s.wipeSlot r b raw).slots m = s.slots m := by
  unfold State.wipeSlot
  split <;> unfold State.slots <;> split <;> simp_all [State.infoOf, State.hdrOk, State.bind]

/-- The last wipe of a slot says whether it is erased. -/
theorem State.wipeSlot_wipeSlot (s : State) (r : Nat) (b x y : Bool) :
    (s.wipeSlot r b x).wipeSlot r b y = s.wipeSlot r b y := by
  have twice : ∀ {β : Type} (l : Slots β), (l.wipe b x).wipe b y = l.wipe b y := fun l => by cases b <;> rfl
  unfold State.wipeSlot
  split <;> simp only [twice]

theorem State.wipeSlot_nv_congr {s t : State} (h : t.nv = s.nv) (r : Nat) (b raw : Bool) :
    (t.wipeSlot r b raw).nv = (s.wipeSlot r b raw).nv := by
  unfold State.wipeSlot
  rw [h]

theorem State.addErase_form (s : State) (r : Nat) (b : Bool) :
    ∃ w, s.addErase r b = { s with nvs := { s.nvs with wear := w } } := by
  unfold State.addErase
  split
  · exact ⟨s.nvs.wear, rfl⟩
  · exact ⟨_, rfl⟩

theorem State.eraseSlot_form (s : State) (r : Nat) (b : Bool) : ∃ w l, s.eraseSlot r b =
    { s with nv := (s.wipeSlot r b false).nv, nvs := { s.nvs with wear := w, bus := l } } := by
  obtain ⟨w, h⟩ := s.addErase_form r b
  unfold State.eraseSlot
  rw [h]
  exact ⟨w, _, rfl⟩

/-! ## The start of a commit (R192) -/

theorem State.wipeSlot_reslot (s : State) {r : Nat} (lo : 3 ≤ r) (hi : r ≤ 6) (b raw : Bool) :
    s.wipeSlot r b raw = s.reslot (s.wipeSlot r b raw) := by
  have region : r = 3 ∨ r = 4 ∨ r = 5 ∨ r = 6 := by omega
  rcases region with rfl | rfl | rfl | rfl <;> rfl

/-- The slot not in use may be wiped: the settings in force stand in the other one. -/
theorem State.storedSet_wipeSlot (s : State) (r : Nat) (raw : Bool) :
    (s.wipeSlot r (!s.slotUse r) raw).storedSet = s.storedSet := by
  by_cases h : r = 3
  · subst h
    have use : s.slotUse 3 = nth s.nvs.inUse 1 false := rfl
    rw [use]
    unfold State.storedSet State.wipeSlot
    dsimp only
    cases nth s.nvs.inUse 1 false <;> rfl
  · unfold State.storedSet State.wipeSlot
    split <;> simp_all

/-- What a commit does before its first program: it erases a target that is not erased, and takes the buffer of a core
whose working set it stores. -/
def State.commitClear (s : State) (r : Nat) : State :=
  let u := if s.slotFull r (!s.slotUse r) then s.eraseSlot r (!s.slotUse r) else s
  if r = 4 || r = 5 || r = 6 then u.handOff else u

theorem State.commitClear_form (s : State) {r : Nat} (lo : 3 ≤ r) (hi : r ≤ 6) : ∃ w l,
    s.commitClear r = { s with
      nv := if s.slotFull r (!s.slotUse r) then (s.wipeSlot r (!s.slotUse r) false).nv else s.nv
      nvs := { s.nvs with wear := w, bus := l }
      pool := if r = 3 then s.pool else s.pool.brief .core } := by
  have hand : ∀ u : State, (if r = 4 || r = 5 || r = 6 then u.handOff else u)
      = { u with pool := if r = 3 then u.pool else u.pool.brief .core } := fun u => by
    by_cases h : r = 3
    · subst h
      rfl
    · rw [if_pos (by simp; omega), if_neg h]
      rfl
  unfold State.commitClear
  dsimp only
  rw [hand]
  split
  · obtain ⟨w, l, erased⟩ := s.eraseSlot_form r (!s.slotUse r)
    rw [erased]
    exact ⟨w, l, rfl⟩
  · exact ⟨s.nvs.wear, s.nvs.bus, rfl⟩

theorem State.commitClear_snapshot (s : State) {r : Nat} (lo : 3 ≤ r) (hi : r ≤ 6) :
    (s.commitClear r).snapshot r = s.snapshot r := by
  obtain ⟨w, l, form⟩ := s.commitClear_form lo hi
  have wiped := s.wipeSlot_reslot lo hi (!s.slotUse r) false
  have whole : s.commitClear r = s.reslot (s.commitClear r) := by
    rw [form]
    split
    · rw [wiped]
      rfl
    · rfl
  have stored : (s.commitClear r).storedSet = s.storedSet := by
    rw [form]
    split
    · exact s.storedSet_wipeSlot r false
    · rfl
  rw [whole] at stored ⊢
  exact State.snapshot_reslot stored r

/-- The first page program of a commit, once its target is erased; `full`: an erase went before it. -/
def State.commitProgram (s : State) (r : Nat) (t full : Bool) : State :=
  let c : Commit := ⟨r, t, s.snapshot r, false, s.free⟩
  let s := ((s.wipeSlot r t true).startSpace r).nvsIssue ((if full then nvsErase s.nv r t else []) ++ c.programs)
  let n := s.nvs
  { s with free := s.free + 2,
           nvs := { n with commit := some c, pend := n.pend.filter (· != r), failedPend := n.failedPend.filter (· != r),
                           lifted := n.lifted.filter (· != r),
                           throttled := n.throttled &&& ~~~(BitVec.ofNat 9 (2 ^ r)) } }

theorem State.commitBegin_form (s : State) {r : Nat} (lo : 3 ≤ r) (hi : r ≤ 6) : ∃ w l, s.commitBegin r =
    { s with
      nv := (s.wipeSlot r (!s.slotUse r) true).nv
      pool := if r = 3 then s.pool else s.pool.brief .core
      free := s.free + 2
      nvs := { s.nvs with
        wear := w, bus := l, spacing := upd s.nvs.spacing (r - 2) (fun _ => 10000)
        commit := some ⟨r, !s.slotUse r, s.snapshot r, false, s.free⟩, pend := s.nvs.pend.filter (· != r)
        failedPend := s.nvs.failedPend.filter (· != r), lifted := s.nvs.lifted.filter (· != r)
        throttled := s.nvs.throttled &&& ~~~(BitVec.ofNat 9 (2 ^ r)) } } := by
  obtain ⟨w, l, form⟩ := s.commitClear_form lo hi
  have snap := s.commitClear_snapshot lo hi
  have nv : ((s.commitClear r).wipeSlot r (!s.slotUse r) true).nv = (s.wipeSlot r (!s.slotUse r) true).nv := by
    rw [← s.wipeSlot_wipeSlot r _ false true]
    cases full : s.slotFull r (!s.slotUse r) with
    | true => exact State.wipeSlot_nv_congr (by rw [form, full]; rfl) r _ true
    | false =>
      rw [s.wipeSlot_wipeSlot]
      exact State.wipeSlot_nv_congr (by rw [form, full]; rfl) r _ true
  have eq : s.commitBegin r = (s.commitClear r).commitProgram r (!s.slotUse r) (s.slotFull r (!s.slotUse r)) := rfl
  rw [eq, State.commitProgram]
  have own : (s.commitClear r).wipeSlot r (!s.slotUse r) true
      = { s.commitClear r with nv := (s.wipeSlot r (!s.slotUse r) true).nv } := by
    rw [← nv]
    rfl
  rw [own, snap, form]
  exact ⟨_, _, rfl⟩

theorem getLsbD_setBit (m : BitVec 9) {r : Nat} (h : r < 9) : (m ||| BitVec.ofNat 9 (2 ^ r)).getLsbD r = true := by
  rw [BitVec.getLsbD_or, BitVec.getLsbD_ofNat, Nat.testBit_two_pow_self, decide_eq_true h]
  simp

theorem getLsbD_clearBit (m : BitVec 9) (r : Nat) : (m &&& ~~~(BitVec.ofNat 9 (2 ^ r))).getLsbD r = false := by
  by_cases h : r < 9
  · rw [BitVec.getLsbD_and, BitVec.getLsbD_not, BitVec.getLsbD_ofNat, Nat.testBit_two_pow_self, decide_eq_true h]
    simp
  · exact BitVec.getLsbD_of_ge _ _ (by omega)

/-- A throttled region is noted, with an event where it was not before (R197). -/
theorem State.throttle_form (s : State) {r : Nat} (h : r < 9) : ∃ m e,
    s.throttle r = { s with nvs := { s.nvs with throttled := m }, evt := e } ∧ m.getLsbD r = true := by
  unfold State.throttle
  split
  case isTrue on => exact ⟨s.nvs.throttled, s.evt, rfl, on⟩
  case isFalse =>
    obtain ⟨e, raised⟩ := State.raise_unlatched (n := 35)
      { s with nvs := { s.nvs with throttled := s.nvs.throttled ||| BitVec.ofNat 9 (2 ^ r) } } (by omega) (by omega)
      (BitVec.ofNat 24 r)
    exact ⟨_, e, raised, getLsbD_setBit _ h⟩

/-- A region within its wear is not held back. -/
theorem State.budget_of_wearOk {s : State} {r : Nat} (h : s.wearOk r = true) : s.budget r = s :=
  if_neg (by simp [h])

/-- A region past its wear is throttled, which moves nothing else but events, console and pool. -/
theorem State.budget_of_worn {s : State} {r : Nat} (hr : r < 9) (opened : s.regionOpen r = true) (h : s.wearOk r = false) :
    ∃ m, m.getLsbD r = true ∧ (s.budget r).nvs = { s.nvs with throttled := m } ∧ (s.budget r).nv = s.nv
      ∧ (s.budget r).clk = s.clk := by
  obtain ⟨m, e, form, bit⟩ := s.throttle_form hr
  obtain ⟨nv, nvs, -, -, clk, -⟩ := State.kept_of_aside ((s.throttle r).conCommit_aside r none (tx "budget"))
  have worn : s.budget r = (s.throttle r).conCommit r none (tx "budget") := if_pos (by simp [opened, h])
  rw [worn, nv, nvs, clk, form]
  exact ⟨m, bit, rfl, rfl, rfl⟩

section
variable {s : State} {r : Nat}

theorem State.commitStart_of_wearOk (free : s.w9Free = true) (hp : s.nvs.pend = [r]) (wear : s.wearOk r = true) :
    s.commitStart = if s.regionOpen r && s.wearOk r && s.spaceOk r then
      (if (s.pool.claim .w9).2 then State.commitBegin { s with pool := (s.pool.claim .w9).1 } r
        else { s with pool := (s.pool.claim .w9).1 }) else s := by
  have within : s.nvs.pend.foldl State.budget s = s := by
    rw [hp]
    exact State.budget_of_wearOk wear
  unfold State.commitStart
  rw [if_neg (by simp [free])]
  dsimp only
  rw [within, hp, List.find?_singleton]
  cases s.regionOpen r && s.wearOk r && s.spaceOk r <;> rfl

theorem State.commitStart_of_worn (free : s.w9Free = true) (hp : s.nvs.pend = [r]) (hr : r < 9)
    (opened : s.regionOpen r = true) (wear : s.wearOk r = false) : s.commitStart = s.budget r := by
  obtain ⟨m, -, nvs, nv, clk⟩ := State.budget_of_worn hr opened wear
  have after : s.nvs.pend.foldl State.budget s = s.budget r := by
    rw [hp]
    rfl
  have still : (s.budget r).wearOk r = false := by
    rw [← wear]
    unfold State.wearOk State.wear State.wearLimit
    rw [nvs, nv, clk]
  have none_ : (s.budget r).nvs.pend.find? (fun r' => (s.budget r).regionOpen r' && (s.budget r).wearOk r'
      && (s.budget r).spaceOk r') = none := by
    rw [nvs, hp, List.find?_eq_none]
    intro x hx
    rw [List.mem_singleton.mp hx, still]
    simp
  unfold State.commitStart
  rw [if_neg (by simp [free])]
  dsimp only
  rw [after, none_]

end

/-! ## The end of a commit (R192 to R194) -/

theorem State.eraseSlot_nv (s : State) (r : Nat) (b : Bool) : (s.eraseSlot r b).nv = (s.wipeSlot r b false).nv := by
  obtain ⟨w, l, form⟩ := s.eraseSlot_form r b
  rw [form]

/-- The header that a commit writes is a valid one (R188). -/
theorem State.hdrOk_mkHdr {s : State} {r g len : Nat} (lo : 3 ≤ r) (hi : r ≤ 6) (some_ : 1 ≤ len)
    (fits : len ≤ (regionAt r false).2 - 32) (small : g < 2 ^ 32) (gen : genOk g = true) (e : Nat) (crc : Word) :
    s.hdrOk r (mkHdr r g len e (if r = 4 || r = 5 then s.bind else 0) crc) = true := by
  have size : (regionAt r false).2 < 2 ^ 32 ∧ (BitVec.ofNat 8 r).toNat = r := by
    have region : r = 3 ∨ r = 4 ∨ r = 5 ∨ r = 6 := by omega
    rcases region with rfl | rfl | rfl | rfl <;> decide
  have length : (BitVec.ofNat 32 len).toNat = len := by
    rw [BitVec.toNat_ofNat]
    exact Nat.mod_eq_of_lt (by omega)
  have number : (BitVec.ofNat 32 g).toNat = g := by
    rw [BitVec.toNat_ofNat]
    exact Nat.mod_eq_of_lt small
  have sound : (mkHdr r g len e (if r = 4 || r = 5 then s.bind else 0) crc).sound r = true := by
    unfold SlotHdr.sound mkHdr SlotHdr.bytes
    simp [length, number, size.2, gen, some_, fits]
  unfold State.hdrOk
  rw [sound]
  by_cases h : r = 4 ∨ r = 5 <;> simp [mkHdr, h]
  omega

/-- The body of a region, as its header in the target slot shows it. -/
theorem State.infoOf_headed {β : Type} {s : State} {c : Commit} (lo : 3 ≤ c.region) (hi : c.region ≤ 6) (some_ : 1 ≤ c.sum.2)
    (fits : c.sum.2 ≤ (regionAt c.region false).2 - 32) (gen : genOk (s.nextGen c.region).toNat = true) (b : β) :
    (s.infoOf c.region (some (s.headed c b))).map (fun i => (i.gen, i.ok)) = some (s.nextGen c.region, true) := by
  have ok := State.hdrOk_mkHdr (s := s) lo hi some_ fits (s.nextGen c.region).isLt gen
    (if c.target then (s.wear c.region).2 else (s.wear c.region).1) c.sum.1
  unfold State.infoOf State.headed
  rw [Option.filter_some, if_pos ok]
  simp [mkHdr, SlotHdr.bodyOk]

/-- What a commit stores where the body is one of its region. -/
theorem State.slots_commitStore (s : State) {c : Commit}
    (h : c.region = (match c.snap with | .settings _ => 3 | .cal _ => 4 | .warm _ => 5 | .keep _ => 6)) :
    (∃ β, ∃ b : β, (s.commitStore c).slotAt c.region c.target = s.infoOf c.region (some (s.headed c b)))
      ∧ (s.commitStore c).slotAt c.region (!c.target) = s.slotAt c.region (!c.target)
      ∧ ∀ m, m ≠ c.region → (s.commitStore c).slots m = s.slots m := by
  obtain ⟨r, target, snap, second, free⟩ := c
  cases snap with | _ b =>
    cases h
    refine ⟨⟨_, b, ?_⟩, ?_, fun m hm => ?_⟩
    · cases target <;> rfl
    · cases target <;> rfl
    · unfold State.slots State.commitStore
      split <;> simp_all [State.infoOf, State.hdrOk, State.bind]

/-- The state once a good commit has been noted, stored and let go of its buffer. -/
def State.commitPut (s : State) (c : Commit) : State := ((s.recStored c).commitStore c).commitFree

theorem State.commitPut_kept (s : State) (c : Commit) : (s.commitPut c).nv = (s.commitStore c).nv
    ∧ (s.commitPut c).modl = s.modl ∧ (s.commitPut c).nvs = { s.nvs with commit := none } := by
  obtain ⟨r, target, snap, second, free⟩ := c
  cases snap <;> exact ⟨rfl, rfl, rfl⟩

/-- After a commit the other slot's pre-erase begins. -/
def State.commitErases (s : State) : Bool := !s.nv.fram && !s.w9Ends

/-- What follows the last program of a good commit: the target is in use, and the other slot's pre-erase begins. -/
def State.commitClose (s : State) (c : Commit) (erase : Bool) (ops : List NvsOp) : State :=
  let s := s.nvsIssue ops
  let n := s.nvs
  let s := { s with nvs := { n with inUse := n.inUse.set (c.region - 2) c.target, defaults := n.defaults.set (c.region - 2) false,
                                    lost := n.lost &&& ~~~(BitVec.ofNat 9 (2 ^ c.region)),
                                    preErase := if erase then some (c.region, !c.target) else n.preErase } }
  if erase then (s.addErase c.region (!c.target)).wipeSlot c.region (!c.target) true else s

theorem State.commitClose_form (s : State) (c : Commit) (erase : Bool) (ops : List NvsOp) : ∃ w l,
    s.commitClose c erase ops = { s with
      nv := if erase then (s.wipeSlot c.region (!c.target) true).nv else s.nv
      nvs := { s.nvs with
        wear := w, bus := l, inUse := s.nvs.inUse.set (c.region - 2) c.target
        defaults := s.nvs.defaults.set (c.region - 2) false
        lost := s.nvs.lost &&& ~~~(BitVec.ofNat 9 (2 ^ c.region))
        preErase := if erase then some (c.region, !c.target) else s.nvs.preErase } } := by
  unfold State.commitClose
  dsimp only
  cases erase with
  | false => exact ⟨_, _, rfl⟩
  | true =>
    rw [if_pos rfl]
    generalize hu : ({ s.nvsIssue ops with nvs := _ } : State) = u
    obtain ⟨w, erased⟩ := u.addErase_form c.region (!c.target)
    rw [erased, ← hu]
    exact ⟨w, _, rfl⟩

/-- A good commit: what it writes of the settings memory and of W9's state. -/
theorem State.commitGood_kept (s : State) (c : Commit) : ∃ w l,
    (s.commitGood c).nv = (if s.commitErases then ((s.commitStore c).wipeSlot c.region (!c.target) true).nv
      else (s.commitStore c).nv)
    ∧ (s.commitGood c).modl = s.modl
    ∧ (s.commitGood c).nvs = { s.nvs with
        commit := none, wear := w, bus := l, inUse := s.nvs.inUse.set (c.region - 2) c.target
        defaults := s.nvs.defaults.set (c.region - 2) false
        lost := s.nvs.lost &&& ~~~(BitVec.ofNat 9 (2 ^ c.region))
        preErase := if s.commitErases then some (c.region, !c.target) else s.nvs.preErase } := by
  obtain ⟨putNv, putModl, putNvs⟩ := s.commitPut_kept c
  obtain ⟨w, l, closed⟩ := (s.commitPut c).commitClose_form c s.commitErases (s.commitOps c s.commitErases)
  have eq : s.commitGood c = ((s.commitPut c).commitClose c s.commitErases (s.commitOps c s.commitErases)).conCommit c.region
      (some (commitLine c.region (s.nextGen c.region) c.target)) [] := rfl
  obtain ⟨nv, nvs, modl, -⟩ := State.kept_of_aside (State.conCommit_aside
    ((s.commitPut c).commitClose c s.commitErases (s.commitOps c s.commitErases)) c.region
    (some (commitLine c.region (s.nextGen c.region) c.target)) [])
  rw [eq, nv, nvs, modl, closed]
  refine ⟨w, l, ?_, putModl, ?_⟩
  · dsimp only
    rw [State.wipeSlot_nv_congr putNv, putNv]
  · dsimp only
    rw [putNvs]

/-- A commit has failed twice: its target is erased, its region waits for the next MRST (R194). -/
def State.commitGivesUp (s : State) (c : Commit) : State :=
  let s := (s.eraseSlot c.region c.target).commitFree
  { s with nvs := { s.nvs with errWrite := satAdd s.nvs.errWrite 1,
                               failedPend := s.nvs.failedPend.filter (· != c.region) ++ [c.region] } }

theorem State.commitBad_kept (s : State) (c : Commit) : ∃ w l,
    (s.commitBad c).nv = (s.wipeSlot c.region c.target false).nv ∧ (s.commitBad c).modl = s.modl
    ∧ (s.commitBad c).nvs = { s.nvs with
        commit := none, wear := w, bus := l, errWrite := satAdd s.nvs.errWrite 1
        failedPend := s.nvs.failedPend.filter (· != c.region) ++ [c.region] } := by
  obtain ⟨w, l, erased⟩ := s.eraseSlot_form c.region c.target
  have eq : s.commitBad c = ((s.commitGivesUp c).raise 33 (BitVec.ofNat 24 c.region)).conCommit c.region none (tx "write") :=
    rfl
  obtain ⟨nv, nvs, modl, -⟩ := State.kept_of_aside
    ((State.conCommit_aside ((s.commitGivesUp c).raise 33 (BitVec.ofNat 24 c.region)) c.region none (tx "write")).trans
      (State.raise_aside _ (by omega) (by omega) _))
  rw [eq, nv, nvs, modl, State.commitGivesUp, erased]
  exact ⟨w, l, rfl, rfl, rfl⟩

/-- A first failure: the target is erased and the commit tried again (R194). -/
theorem State.commitEnd_first {s : State} {c : Commit} (hc : s.nvs.commit = some c) (first : c.second = false) : ∃ w l,
    s.commitEnd false = { s with
      nv := (s.wipeSlot c.region c.target true).nv
      nvs := { s.nvs with commit := some { c with second := true }, wear := w, bus := l } } := by
  obtain ⟨w, l, erased⟩ := s.eraseSlot_form c.region c.target
  have again : ((s.eraseSlot c.region c.target).wipeSlot c.region c.target true).nv
      = (s.wipeSlot c.region c.target true).nv := by
    rw [← s.wipeSlot_wipeSlot c.region c.target false true]
    exact State.wipeSlot_nv_congr (s.eraseSlot_nv _ _) _ _ _
  have own : (s.eraseSlot c.region c.target).wipeSlot c.region c.target true
      = { s.eraseSlot c.region c.target with nv := (s.wipeSlot c.region c.target true).nv } := by
    rw [← again]
    rfl
  have open_ : s.commitEnd false = { ((s.eraseSlot c.region c.target).wipeSlot c.region c.target true).nvsIssue
      (nvsErase ((s.eraseSlot c.region c.target).wipeSlot c.region c.target true).nv c.region c.target ++ c.programs) with
      nvs := { (((s.eraseSlot c.region c.target).wipeSlot c.region c.target true).nvsIssue
        (nvsErase ((s.eraseSlot c.region c.target).wipeSlot c.region c.target true).nv c.region c.target
          ++ c.programs)).nvs with commit := some { c with second := true } } } := by
    simp only [State.commitEnd, hc, first, Bool.false_and, Bool.false_eq_true, if_false]
  rw [open_, own, erased]
  exact ⟨w, _, rfl⟩

/-- The slots after a good commit: the target holds the new generation, the other one is wiped where its pre-erase begins. -/
theorem State.commitGood_slots {s : State} {c : Commit} (lo : 3 ≤ c.region) (hi : c.region ≤ 6)
    (home : c.region = (match c.snap with | .settings _ => 3 | .cal _ => 4 | .warm _ => 5 | .keep _ => 6))
    (some_ : 1 ≤ c.sum.2) (fits : c.sum.2 ≤ (regionAt c.region false).2 - 32)
    (gen : genOk (s.nextGen c.region).toNat = true) :
    ((s.commitGood c).slotAt c.region c.target).map (fun i => (i.gen, i.ok)) = some (s.nextGen c.region, true)
      ∧ (s.commitGood c).slotAt c.region (!c.target) = (if s.commitErases then none else s.slotAt c.region (!c.target))
      ∧ ∀ m, m ≠ c.region → (s.commitGood c).slots m = s.slots m := by
  obtain ⟨w, l, nv, modl, -⟩ := s.commitGood_kept c
  obtain ⟨⟨β, b, stored⟩, other, rest⟩ := s.slots_commitStore home
  have headed := State.infoOf_headed lo hi some_ fits gen b
  cases erase : s.commitErases with
  | false =>
    rw [erase, if_neg Bool.false_ne_true] at nv
    have slots := State.slots_congr (s := s.commitStore c) nv modl
    refine ⟨?_, (State.slotAt_congr (congrFun slots _) _).trans other, fun m hm => (congrFun slots m).trans (rest m hm)⟩
    rw [State.slotAt_congr (congrFun slots _), stored]
    exact headed
  | true =>
    rw [erase, if_pos rfl] at nv
    have slots := State.slots_congr (s := (s.commitStore c).wipeSlot c.region (!c.target) true) nv modl
    obtain ⟨wiped, kept, -⟩ := (s.commitStore c).slotAt_wipeSlot (by omega) hi (!c.target) true
    rw [Bool.not_not] at kept
    refine ⟨?_, (State.slotAt_congr (congrFun slots _) _).trans wiped, fun m hm => (congrFun slots m).trans
      (((s.commitStore c).slots_wipeSlot_ne hm _ _).trans (rest m hm))⟩
    rw [State.slotAt_congr (congrFun slots _), kept, stored]
    exact headed

/-- A good commit of the settings puts their body into the target. -/
theorem State.commitGood_settings {s : State} {c : Commit} {b : SetBody}
    (home : c.region = (match c.snap with | .settings _ => 3 | .cal _ => 4 | .warm _ => 5 | .keep _ => 6))
    (hb : c.snap = .settings b) :
    (if c.target then (s.commitGood c).nv.settings.b else (s.commitGood c).nv.settings.a).map (·.body) = some b := by
  obtain ⟨w, l, nv, -⟩ := s.commitGood_kept c
  obtain ⟨r, target, snap, second, free⟩ := c
  cases hb
  cases home
  rw [nv]
  cases s.commitErases <;> cases target <;> rfl

/-! ## NVS_CMD (R196) -/

/-- NVS_CMD as it stands where it is open. -/
def nvsCmdReg : RegDef :=
  { flds := [⟨31, 0, .wo, false, fun x => x == 0x9E570001 || x == 0x9E570002⟩], read := 0
    write := fun x s => if x = 0x9E570001 then s.cmdCommit else s.imgFail 5 }

theorem State.put_commit {s : State} (hup : s.up = true) (hres : s.nvs.rescue = false)
    (hreg : s.regOn .settingsWrite = true) (p : Path) : s.put p 0x2010 0x9E570001 = s.cmdCommit := by
  have reg : s.reg p 0x2010 = some nvsCmdReg := by
    rw [State.reg_of_up hup hres]
    change nvsReg p 0x2010 s = some nvsCmdReg
    simp [nvsReg, hreg, nvsCmdReg]
  have allowed : nvsCmdReg.allows (BitVec.ofNat 32 0x9E570001) = true := by decide
  rw [State.put, State.hubWrite_of_allowed reg allowed, RegDef.put_of_not_kept rfl, RegDef.merge_of_roMask rfl]
  rfl

/-! ## Commits (O45) -/

/-- Settles O45: the start of a commit is `State.commitBegin_form`, its good end `State.commitGood_slots`; a failure erases the
target alone, and NVS_CMD is `State.cmdCommit`. -/
theorem commits : Obligations.Commits := by
  unfold Obligations.Commits
  refine ⟨fun r s lo hi free hp opened => ⟨fun wear space claim => ?starts, fun wear space => ?spaced, fun wear => ?worn⟩,
    fun c s hc hp lo hi hl home some_ fits gen => ?good, fun c s hc first lo hi => ?again, fun c s hc second lo hi => ?bad,
    fun s => ⟨fun none_ => ?idle, fun r b lo hi hp => ?preErased⟩, fun p s hup hres hreg => ?explicit,
    fun s hup => ⟨_, congrArg Host.Outcome.next (if_pos hup), s.pendRegion_contains 3, s.pendRegion_eq 3⟩⟩
  case starts =>
    obtain ⟨w, l, begun⟩ := State.commitBegin_form { s with pool := (s.pool.claim .w9).1 } lo hi
    have snap : State.snapshot { s with pool := (s.pool.claim .w9).1 } r = s.snapshot r :=
      State.snapshot_reslot (s := s) (u := { s with pool := (s.pool.claim .w9).1 }) rfl r
    have starts : s.commitStart = State.commitBegin { s with pool := (s.pool.claim .w9).1 } r := by
      rw [State.commitStart_of_wearOk free hp wear, if_pos (by simp [opened, wear, space]), if_pos claim]
    rw [snap] at begun
    obtain ⟨target, other, -⟩ := s.slotAt_wipeSlot (by omega) hi (!s.slotUse r) true
    rw [Bool.not_not] at other
    refine ⟨_, congrArg Host.Outcome.next (starts.trans begun), rfl, ?_, target, other, fun hl => ?_,
      getLsbD_clearBit _ _, fun m hm => s.slots_wipeSlot_ne hm _ _, rfl, rfl⟩
    · simp [hp]
    · exact nth_upd_self (show r - 2 < s.nvs.spacing.length by omega) _ _
  case spaced =>
    refine congrArg Host.Outcome.next ?_
    rw [State.commitStart_of_wearOk free hp wear, if_neg (by simp [space])]
  case worn =>
    obtain ⟨m, bit, nvs, nv, -⟩ := State.budget_of_worn (by omega) opened wear
    refine ⟨_, congrArg Host.Outcome.next (State.commitStart_of_worn free hp (by omega) opened wear), ?_⟩
    have idle : s.nvs.commit = none := by
      simp only [State.w9Free, Bool.and_eq_true, Option.isNone_iff_eq_none] at free
      obtain ⟨⟨⟨⟨-, idle⟩, -⟩, -⟩, -⟩ := free
      exact idle
    rw [nvs, nv]
    exact ⟨bit, hp, idle, rfl⟩
  case good =>
    obtain ⟨w, l, nv, modl, nvs⟩ := s.commitGood_kept c
    obtain ⟨target, other, rest⟩ := State.commitGood_slots lo hi home some_ fits gen
    have ended : s.commitEnd true = s.commitGood c := by
      simp only [State.commitEnd, hc, gen, Bool.and_self, if_true]
    have pre : (s.commitGood c).nvs.preErase = if s.commitErases then some (c.region, !c.target) else none := by
      rw [nvs, hp]
    have use : ∀ m, (s.commitGood c).slotUse m = nth (s.nvs.inUse.set (c.region - 2) c.target) (m - 2) false := fun m => by
      rw [State.slotUse, nvs]
    refine ⟨_, congrArg Host.Outcome.next ended, by rw [nvs], ?_, by rw [nvs]; exact getLsbD_clearBit _ _, target, ?_,
      fun nor fr => ?_, fun fram => ?_, fun m hm => ⟨rest m hm, fun hne => ?_⟩, fun b hb => ?_⟩
    · rw [use]
      simp [nth, hl, show c.region - 2 < 5 by omega]
    · rw [pre]
      refine other.trans ?_
      cases s.commitErases <;> rfl
    · rw [pre, if_pos (by simp [State.commitErases, nor, fr])]
    · rw [pre, if_neg (by simp [State.commitErases, fram])]
    · rw [use]
      simp [nth, State.slotUse, List.getElem?_set_ne (Ne.symm hne)]
    · exact State.commitGood_settings home hb
  case again =>
    obtain ⟨w, l, ended⟩ := State.commitEnd_first hc first
    obtain ⟨target, other, -⟩ := s.slotAt_wipeSlot (by omega) hi c.target true
    exact ⟨_, congrArg Host.Outcome.next ended, rfl, target, other, fun m hm => s.slots_wipeSlot_ne hm _ _, rfl⟩
  case bad =>
    obtain ⟨w, l, nv, modl, nvs⟩ := s.commitBad_kept c
    have ended : s.commitEnd false = s.commitBad c := by
      simp only [State.commitEnd, hc, second, Bool.false_and, Bool.false_eq_true, if_false, if_true]
    obtain ⟨target, other, -⟩ := s.slotAt_wipeSlot (by omega) hi c.target false
    have slots := State.slots_congr (s := s.wipeSlot c.region c.target false) nv modl
    refine ⟨_, congrArg Host.Outcome.next ended, ?_⟩
    rw [nvs]
    exact ⟨rfl, (State.slotAt_congr (congrFun slots _) _).trans target, (State.slotAt_congr (congrFun slots _) _).trans other,
      rfl, by simp, rfl, fun m hm => (congrFun slots m).trans (s.slots_wipeSlot_ne hm _ _)⟩
  case idle =>
    refine congrArg Host.Outcome.next ?_
    simp only [State.preEraseEnd, none_]
  case preErased =>
    have ended : s.preEraseEnd = { s.wipeSlot r b false with nvs := { s.nvs with preErase := none } } := by
      simp only [State.preEraseEnd, hp]
      rfl
    obtain ⟨target, other, full⟩ := s.slotAt_wipeSlot lo hi b false
    exact ⟨_, congrArg Host.Outcome.next ended, target, full, other, fun m hm => s.slots_wipeSlot_ne hm _ _, rfl⟩
  case explicit =>
    refine congrArg Host.Outcome.next ((State.put_commit hup hres hreg p).trans ?_)
    unfold State.cmdCommit
    dsimp only
    rw [hres, Bool.or_false]

end Sys2Proof.Machine

/-! SUPPORT. The unit resets (O21): a reset of one unit drops the requests outstanding at it, and so makes room for one that
waited for a tag or for credit. -/

namespace Sys2Proof.Machine
open Sys2Proof

/-- Two reads of buffer 0 under tag 3: the first is outstanding, the second waits for the tag (R130). -/
def tagTaken : State :=
  { Wit.bus with
    zlb := { Wit.bus.zlb with
      out := [⟨0, 3, false, 0, 0, 0⟩]
      waiting := [⟨0, 3, false, 1, 0, 0⟩] } }

/-- A state whose local bus has a request outstanding at a target. -/
def Out.hasOut (o : Out) (t : Nat) : Bool :=
  match o with
  | .next s => s.zlb.out.any (fun q => q.tgt == t)
  | _ => false

/-- CLK_CRST.DB 0 drops the request outstanding, and the one that waited for its tag goes out to buffer 0. -/
theorem tagTaken_crstDb_hasOut : Out.hasOut (exec (.crstDb .hubA 0 true) tagTaken) 0 = true := by decide +kernel

/-- Refutes O21: after CLK_CRST.DB a request is outstanding at the unit again, where one waited for the tag or the credit that
the reset freed. -/
theorem not_unitResets : ¬ Obligations.UnitResets := by
  unfold Obligations.UnitResets
  intro h
  obtain ⟨-, -, -, -, -, -, -, -, buffer, -⟩ := h .hubA tagTaken (by decide) (by decide)
  obtain ⟨t, ht, -, -, -, -, -, none_⟩ := buffer 0 (by decide)
  have out := tagTaken_crstDb_hasOut
  rw [ht] at out
  obtain ⟨q, hq, at_⟩ := List.any_eq_true.mp out
  exact none_ q hq (beq_iff_eq.mp at_)

end Sys2Proof.Machine

/-! SUPPORT. Management ready (O6): what discovery, the loads and the reports of a boot leave of the settings memory's state,
the island, negotiation, the population and the Warren. -/

namespace Sys2Proof.Machine
open Sys2Proof

/-! ## What boot fixes -/

/-- What boot fixes of a state: rescue and readiness of W9, the population, domain state and host power, the phase of
negotiation, and what the image gives the Warren. -/
structure BootView where
  ready : Bool
  rescue : Bool
  cfgA : Byte
  cfgB : Byte
  dom : Dom
  hostPg : Bool
  phase : FeatPhase
  routes : List Word
  locked : Bool
  version : BitVec 16
  coreMask : BitVec 12

/-- What boot has fixed so far. -/
def State.bootView (s : State) : BootView :=
  ⟨s.nvs.ready, s.nvs.rescue, s.host.cfgA, s.host.cfgB, s.pow.dom, s.pow.hostPg, s.feat.phase, s.wrn.routes, s.wrn.locked,
    s.wrn.version, s.wrn.coreMask⟩

section
variable (s : State)

/-! ## Events, faults and the console -/

@[simp] theorem State.raise_bootView (n : Nat) (a : BitVec 24) : (s.raise n a).bootView = s.bootView := by
  obtain ⟨l, e, h⟩ := s.raise_form n a
  rw [h]
  rfl

theorem State.raise_if_bootView (p : Prop) [Decidable p] (n : Nat) (a : BitVec 24) :
    (if p then s.raise n a else s).bootView = s.bootView := by
  split
  · exact s.raise_bootView n a
  · rfl

@[simp] theorem State.fault_bootView (c i k : Nat) : (s.fault c i k).bootView = s.bootView := by
  obtain ⟨f, h⟩ := s.fault_form c i k
  rw [h]
  rfl

theorem State.bootView_of_aside {s t : State} (h : t.aside = s.aside) : t.bootView = s.bootView := by
  have view : t.aside.bootView = s.aside.bootView := congrArg State.bootView h
  exact view

@[simp] theorem State.respond_bootView (rq : Req) (ls : List Text) (l : Text) (e : Option Ending) :
    (s.respond rq ls l e).bootView = s.bootView := State.bootView_of_aside (s.respond_aside rq ls l e)

/-! ## Calibration -/

@[simp] theorem State.conCal_bootView (u o z : Nat) : (s.conCal u o z).bootView = s.bootView := by
  unfold State.conCal State.conHold
  split
  · split
    · rfl
    · dsimp only
      split
      · exact s.respond_bootView _ _ _ _
      · rfl
  · rfl

@[simp] theorem State.conAdc_bootView (o r : Nat) : (s.conAdc o r).bootView = s.bootView := by
  unfold State.conAdc State.respondOk State.respondErr
  split
  · dsimp only
    split
    · exact s.respond_bootView _ _ _ _
    · split <;> exact s.respond_bootView _ _ _ _
  · rfl

@[simp] theorem State.calRecord_bootView (u k o : Nat) (c : Bool) : (s.calRecord u k o c).bootView = s.bootView :=
  (State.raise_if_bootView _ _ _ _).trans (State.raise_if_bootView _ _ _ _)

@[simp] theorem State.calAbandon_bootView (u : Nat) : (s.calAbandon u).bootView = s.bootView := by
  unfold State.calAbandon
  split
  · unfold State.adcEnd
    split
    · rfl
    · exact (State.conAdc_bootView _ _ _).trans (State.calRecord_bootView _ _ _ _ _)
  · split
    · rfl
    · exact (State.conCal_bootView _ _ _ _).trans (State.calRecord_bootView _ _ _ _ _)

@[simp] theorem State.calTap_bootView (u : Nat) (c : Bool) (n : List Nat) (nc : Bool) :
    (s.calTap u c n nc).bootView = s.bootView := by
  unfold State.calTap State.calWait State.calBegin
  (repeat' split) <;> rfl

/-! ## Bus and buffers -/

/-- A target that answers no attempt is reported and marked (R131). -/
@[simp] theorem State.noAnswer_bootView (t : Nat) : (s.noAnswer t).bootView = s.bootView := by
  have attempt : ∀ u : State, (u.attemptFail t).bootView = u.bootView := fun u =>
    (State.raise_bootView _ _ _).trans (u.fault_bootView 3 t 1)
  have marked : ∀ u : State, (u.markUnreach t).bootView = u.bootView := fun u => by
    unfold State.markUnreach
    split
    · rfl
    · exact (State.calAbandon_bootView _ _).trans (State.raise_bootView _ _ _)
  have last : ∀ u : State, (u.lastFail t).bootView = u.bootView := fun u => (marked _).trans (u.fault_bootView 3 t 1)
  unfold State.noAnswer
  rw [last, attempt, attempt, attempt]

@[simp] theorem State.zlbTry_bootView (t : Nat) : (s.zlbTry t).bootView = s.bootView := by
  unfold State.zlbTry
  split
  · rfl
  · exact s.noAnswer_bootView t

/-- The buffers are given their configuration anew (R114). -/
@[simp] theorem State.copyCfg_bootView (x : Sub) : (s.copyCfg x).bootView = s.bootView := by
  unfold State.copyCfg
  split
  · rfl
  · refine foldl_kept State.bootView _ (fun t n => ?_) _ _
    dsimp only
    split
    · exact (State.zlbTry_bootView t n)
    · exact State.zlbTry_bootView t n

@[simp] theorem State.attributeOne_bootView (n : Nat) : (s.attributeOne n).bootView = s.bootView := by
  have counted : ∀ (u : State) (z : Zlb), ({ u with zlb := z } : State).bootView = u.bootView := fun _ _ => rfl
  unfold State.attributeOne
  dsimp only
  split
  · exact s.zlbTry_bootView n
  · rw [counted]
    split
    · rw [State.fault_bootView, State.fault_bootView]
      exact s.zlbTry_bootView n
    · exact s.zlbTry_bootView n

/-! ## Training and Hoard -/

theorem State.setTr_bootView (x : Sub) (f : TrainSub → TrainSub) : (s.setTr x f).bootView = s.bootView := by
  cases x <;> rfl

/-- The warm record is replayed into training and the buffers (R146). -/
theorem State.replay_bootView (r : WarmRec) : (s.replay r).bootView = s.bootView := by
  unfold State.replay
  refine (foldl_kept State.bootView _ (fun t n => ?_) _ _).trans rfl
  dsimp only
  split <;> rfl

theorem State.pendRegion_bootView (r : Nat) : (s.pendRegion r).bootView = s.bootView := by
  rw [s.pendRegion_eq r]
  rfl

end

/-! ## Registers with Kept fields (R189) -/

/-- A register, where there is one with a Kept field, whose write and whose frame leave what boot has fixed, while
negotiation waits for its host. -/
def KeepsBoot (o : Option RegDef) : Prop :=
  ∀ d ∈ o, d.flds.any (·.kept) = true → ∀ v s, (d.sent v s).bootView = s.bootView
    ∧ (s.feat.phase = .waitHost → (d.write v s).bootView = s.bootView)

theorem KeepsBoot.none : KeepsBoot none := fun _ h => nomatch h

theorem KeepsBoot.plain {d : RegDef} (h : d.flds.any (·.kept) = false) : KeepsBoot (some d) := fun _ hd kept =>
  absurd (Option.some.inj hd ▸ kept) (by rw [h]; exact Bool.false_ne_true)

theorem KeepsBoot.kept {d : RegDef} (hs : ∀ v s, d.sent v s = s)
    (hw : ∀ v s, s.feat.phase = .waitHost → (d.write v s).bootView = s.bootView) : KeepsBoot (some d) := fun _ hd _ v s => by
  cases hd
  exact ⟨congrArg State.bootView (hs v s), hw v s⟩

theorem KeepsBoot.ite {c : Prop} [Decidable c] {x y : Option RegDef} (hx : KeepsBoot x) (hy : KeepsBoot y) :
    KeepsBoot (if c then x else y) := by
  split <;> assumption

section
variable (p : Path) (a : Nat) (s : State)

theorem featReg_keepsBoot : KeepsBoot (featReg p a s) := by
  have deadline : ∀ (t : State) (f : Feat), f.phase = .waitHost → t.feat.phase = .waitHost →
      (State.deadlinePassed { t with feat := f }).bootView = t.bootView := fun t f hf ht => by
    have open_ : ¬ (f.phase == .counting && f.deadline.toNat * 100 ≤ f.elapsed) = true := by simp [hf]
    unfold State.deadlinePassed
    rw [if_neg open_]
    simp only [State.bootView, hf, ht]
  unfold featReg
  split
  any_goals exact .plain rfl
  any_goals exact .none
  exact .kept (fun _ _ => rfl) fun v t ht => deadline t _ ht ht

theorem hostReg_keepsBoot : KeepsBoot (hostReg p a s) := by
  unfold hostReg
  dsimp only
  split
  any_goals exact .plain rfl
  any_goals exact .none
  any_goals exact .kept (fun _ _ => rfl) fun _ _ _ => rfl
  exact .ite (.plain rfl) .none

theorem calReg_keepsBoot : KeepsBoot (calReg p a s) := by
  unfold calReg
  extract_lets
  repeat' refine KeepsBoot.ite ?_ ?_
  any_goals exact .plain rfl
  any_goals exact .none
  all_goals exact .kept (fun _ _ => rfl) fun _ _ _ => rfl

theorem trainReg_keepsBoot : KeepsBoot (trainReg p a s) := by
  unfold trainReg
  extract_lets
  repeat' refine KeepsBoot.ite ?_ ?_
  any_goals exact .plain rfl
  any_goals exact .none
  all_goals exact .kept (fun _ _ => rfl) fun _ _ _ => rfl

theorem trimReg_keepsBoot : KeepsBoot (trimReg p a s) := by
  unfold trimReg
  extract_lets
  repeat' refine KeepsBoot.ite ?_ ?_
  any_goals exact .plain rfl
  any_goals exact .none
  all_goals exact .kept (fun _ _ => rfl) fun _ _ _ => rfl

theorem State.writeCfg_bootView (c : Nat) (v : Word) : (s.writeCfg c v).bootView = s.bootView := by
  unfold State.writeCfg
  dsimp only
  split
  · refine (foldl_kept State.bootView _ (fun t i => ?_) _ _).trans rfl
    rfl
  · rfl

theorem fltReg_keepsBoot : KeepsBoot (fltReg p a s) := by
  unfold fltReg
  extract_lets
  repeat' refine KeepsBoot.ite ?_ ?_
  any_goals exact .plain rfl
  any_goals exact .none
  · exact .kept (fun _ _ => rfl) fun v t _ => t.writeCfg_bootView _ v
  · exact .kept (fun _ _ => rfl) fun _ _ _ => rfl

theorem State.withEvt_bootView (e : Evt) : ({ s with evt := e } : State).bootView = s.bootView := rfl

theorem evtReg_keepsBoot : KeepsBoot (evtReg p a s) := by
  unfold evtReg
  dsimp only
  generalize (a - 0x1900) / 4 = n
  repeat' refine KeepsBoot.ite ?_ ?_
  any_goals exact .plain rfl
  any_goals exact .none
  exact .kept (fun _ _ => rfl) fun _ t _ => t.withEvt_bootView _

theorem pwrReg_keepsBoot : KeepsBoot (pwrReg p a s) := by
  unfold pwrReg
  extract_lets
  repeat' refine KeepsBoot.ite ?_ ?_
  any_goals exact .plain rfl
  any_goals exact .none
  split
  any_goals exact .plain rfl
  any_goals exact .none
  all_goals exact .kept (fun _ _ => rfl) fun _ _ _ => rfl

theorem State.baudApply_bootView : s.baudApply.bootView = s.bootView := by
  unfold State.baudApply
  split <;> rfl

theorem conReg_keepsBoot : KeepsBoot (conReg p a s) := by
  unfold conReg
  dsimp only
  split
  any_goals exact .plain rfl
  any_goals exact .none
  exact .kept (fun _ _ => rfl) fun v t _ => (State.baudApply_bootView _).trans rfl

theorem clkReg_keepsBoot : KeepsBoot (clkReg p a s) := by
  unfold clkReg
  dsimp only
  split
  any_goals exact .plain rfl
  exact .none

theorem nvsReg_keepsBoot : KeepsBoot (nvsReg p a s) := by
  unfold nvsReg
  extract_lets
  repeat' refine KeepsBoot.ite ?_ ?_
  any_goals exact .plain rfl
  exact .none

theorem wrnReg_keepsBoot : KeepsBoot (wrnReg p a s) := by
  unfold wrnReg
  dsimp only
  refine KeepsBoot.ite (.ite .none (.plain rfl)) (KeepsBoot.ite (.plain rfl) ?_)
  split
  any_goals exact .plain rfl
  exact .none

theorem poolReg_keepsBoot : KeepsBoot (poolReg p a s) := by
  unfold poolReg
  exact .ite (.plain rfl) .none

theorem State.setPort_bootView (q : Port) (f : TwbPort → TwbPort) : (s.setPort q f).bootView = s.bootView := by
  cases q <;> rfl

theorem State.setPoll_bootView (k : Nat) (f : PollSt → PollSt) : (s.setPoll k f).bootView = s.bootView := rfl

theorem twbReg_keepsBoot : KeepsBoot (twbReg p a s) := by
  unfold twbReg
  dsimp only
  refine KeepsBoot.ite ?_ (KeepsBoot.ite ?_ ?_)
  · exact .kept (fun _ _ => rfl) fun _ t _ => t.setPoll_bootView _ _
  · exact .plain rfl
  split
  any_goals exact .plain rfl
  any_goals exact .none
  · exact .kept (fun _ _ => rfl) fun _ t _ => t.setPort_bootView _ _
  · exact .ite (.plain rfl) .none
  · exact .kept (fun _ _ => rfl) fun _ _ _ => rfl
  · exact .kept (fun _ _ => rfl) fun _ t _ => t.setPort_bootView _ _

theorem State.setExtent_bootView (i : Nat) (e : Extent) : (s.setExtent i e).bootView = s.bootView :=
  (State.pendRegion_bootView _ _).trans rfl

theorem hrdReg_keepsBoot : KeepsBoot (hrdReg p a s) := by
  unfold hrdReg
  extract_lets
  refine KeepsBoot.ite .none ?_
  split
  any_goals exact .plain rfl
  any_goals exact .none
  · exact .kept (fun _ _ => rfl) fun _ _ _ => rfl
  · exact .kept (fun _ _ => rfl) fun _ t _ => t.setExtent_bootView _ _
  · exact .kept (fun _ _ => rfl) fun _ t _ => t.setExtent_bootView _ _

/-! ## The registers of the targets (R106, R131) -/

/-- A register behind the proxy: the frame is remembered by its target, and a target that is not reached keeps nothing. -/
theorem proxied_keepsBoot {o : Option RegDef} (h : KeepsBoot o) (t off : Nat) : KeepsBoot (proxied p t off o s) := by
  unfold proxied
  dsimp only
  refine KeepsBoot.ite (.plain rfl) fun d hd kept v u => ?_
  cases hd
  cases o with
  | none => exact absurd kept Bool.false_ne_true
  | some r => exact ⟨rfl, (h r rfl kept v u).2⟩

theorem zxpLocal_keepsBoot (o : Nat) : KeepsBoot (zxpLocal o s) := by
  unfold zxpLocal
  extract_lets
  refine KeepsBoot.ite ?_ (KeepsBoot.ite ?_ ?_)
  · exact .kept (fun _ _ => rfl) fun _ _ _ => rfl
  · exact .plain rfl
  split
  any_goals exact .plain rfl
  any_goals exact .none
  all_goals exact .kept (fun _ _ => rfl) fun _ _ _ => rfl

theorem dbReg_keepsBoot (n o : Nat) : KeepsBoot (dbReg n o s) := by
  unfold dbReg
  extract_lets
  repeat' refine KeepsBoot.ite ?_ ?_
  any_goals exact .plain rfl
  any_goals exact .none
  · exact .kept (fun _ _ => rfl) fun _ _ _ => rfl
  · exact .kept (fun _ _ => rfl) fun _ _ _ => rfl

theorem dbmReg_keepsBoot : KeepsBoot (dbmReg p a s) := by
  unfold dbmReg
  dsimp only
  generalize a - 0x0C80 = o
  have target := proxied_keepsBoot p s (dbReg_keepsBoot s (s.sel p).dbm.toNat o) (s.sel p).dbm.toNat o
  generalize proxied p _ _ _ s = r at target ⊢
  repeat' refine KeepsBoot.ite ?_ ?_
  any_goals exact .plain rfl
  any_goals exact .none
  exact target

theorem kpaReg_keepsBoot : KeepsBoot (kpaReg p a s) := by
  unfold kpaReg
  dsimp only
  generalize a - 0x1D00 = o
  have target := proxied_keepsBoot p s (zxpLocal_keepsBoot s o) 10 o
  generalize proxied p _ _ _ s = r at target ⊢
  exact .ite .none (.ite .none (.ite .none target))

theorem hubReg_keepsBoot : KeepsBoot (hubReg p a s) := by
  unfold hubReg
  exact .ite .none <| .ite (featReg_keepsBoot p a s) <| .ite (hostReg_keepsBoot p a s) <| .ite (dbmReg_keepsBoot p a s) <|
    .ite (calReg_keepsBoot p a s) <| .ite (trainReg_keepsBoot p a s) <| .ite (trimReg_keepsBoot p a s) <|
    .ite (fltReg_keepsBoot p a s) <| .ite (evtReg_keepsBoot p a s) <| .ite (pwrReg_keepsBoot p a s) <|
    .ite (kpaReg_keepsBoot p a s) <| .ite (nvsReg_keepsBoot p a s) <| .ite (twbReg_keepsBoot p a s) <|
    .ite (conReg_keepsBoot p a s) <| .ite (clkReg_keepsBoot p a s) <| .ite (wrnReg_keepsBoot p a s) <|
    .ite (hrdReg_keepsBoot p a s) <| .ite (poolReg_keepsBoot p a s) .none

end

end Sys2Proof.Machine

/-! SUPPORT. Management ready (O6): the parts of a boot in their order, and what each leaves of what boot fixes. -/

namespace Sys2Proof.Machine
open Sys2Proof

/-! ## What boot brings -/

/-- The factory body's population stands, and negotiation waits for its host (R78, R186). -/
def BootView.offered (v : BootView) (f : Factory) : BootView := { v with cfgA := f.cfgA, cfgB := f.cfgB, phase := .waitHost }

/-- The image gives the Warren routes, version and core mask, and locks the routes (R356). -/
def BootView.image (v : BootView) (f : FwBody) : BootView :=
  { v with routes := f.routes, locked := true, version := f.version, coreMask := f.cores }

/-- BOOT ends in RUN (R67). -/
def BootView.run (v : BootView) : BootView := { v with dom := if v.dom = .boot then .run else v.dom }

/-- Negotiation counts once its host's power is good. -/
def BootView.counts (v : BootView) : BootView := { v with phase := if v.hostPg then .counting else .waitHost }

/-! ## The loads (R189) -/

/-- A register with bits in its mask of Kept fields has a Kept field. -/
theorem RegDef.any_kept_of_keptMask {d : RegDef} (h : d.keptMask ≠ 0) : d.flds.any (·.kept) = true := by
  have masked : ∀ (l : List Fld) (m : Nat), l.foldl (fun m f => if f.kept then m ||| f.mask else m) m ≠ m →
      l.any (·.kept) = true := by
    intro l
    induction l with
    | nil => exact fun _ h => absurd rfl h
    | cons f l ih =>
      intro m h
      cases hk : f.kept with
      | true => simp [hk]
      | false => simp only [List.foldl_cons, hk, Bool.false_eq_true, if_false] at h; simp [hk, ih m h]
  exact masked _ _ h

section
variable (s : State)

theorem State.atUnit_bootView (n : Nat) : (s.atUnit n).bootView = s.bootView := by
  unfold State.atUnit
  split <;> rfl

/-- A stored entry reaches nothing that boot has fixed, while negotiation waits for its host. -/
theorem State.loadEntry_bootView (e : SetEntry) (wait : s.feat.phase = .waitHost) :
    (s.loadEntry e).bootView = s.bootView := by
  have at_ := s.atUnit_bootView e.unit
  have wait' : (s.atUnit e.unit).feat.phase = .waitHost := (congrArg BootView.phase at_).trans wait
  have kept := hubReg_keepsBoot .warren e.addr.toNat (s.atUnit e.unit)
  unfold State.loadEntry
  split
  · rfl
  · dsimp only
    split
    · next d hd =>
      split
      · next ok =>
        simp only [Bool.and_eq_true, bne_iff_ne] at ok
        have writes := kept d hd (RegDef.any_kept_of_keptMask ok.1)
        exact ((writes _ _).1.trans ((writes _ _).2 wait')).trans at_
      · exact at_
    · exact at_

theorem State.loadEntries_bootView (es : List SetEntry) : ∀ s : State, s.feat.phase = .waitHost →
    (es.foldl State.loadEntry s).bootView = s.bootView := by
  induction es with
  | nil => exact fun _ _ => rfl
  | cons e es ih =>
    intro s wait
    have one := s.loadEntry_bootView e wait
    exact (ih _ ((congrArg BootView.phase one).trans wait)).trans one

theorem State.loadSettings_bootView (es : List SetEntry) (wait : s.feat.phase = .waitHost) :
    (s.loadSettings es).bootView = s.bootView :=
  (show (s.loadSettings es).bootView = (es.foldl State.loadEntry s).bootView from rfl).trans
    (State.loadEntries_bootView es s wait)

theorem State.loadSet_bootView (wait : s.feat.phase = .waitHost) : s.loadSet.bootView = s.bootView := by
  unfold State.loadSet
  dsimp only
  split
  · split
    · rfl
    · refine (State.loadSettings_bootView _ _ ?_).trans rfl
      exact wait
  · rfl

theorem State.loadCal_bootView : s.loadCal.bootView = s.bootView := rfl

theorem State.loadKeep_bootView : s.loadKeep.bootView = s.bootView := by
  have pended : ∀ (c : Prop) [Decidable c] (t : State), (if c then t else t.pendRegion 6).bootView = t.bootView :=
    fun c _ t => by
    split
    · rfl
    · exact t.pendRegion_bootView 6
  unfold State.loadKeep
  split
  · rfl
  · exact (pended _ _).trans rfl

/-- The image's routes, version and core mask stand in the Warren, locked (R356). -/
theorem State.loadFw_bootView (f : FwBody) : (s.loadFw f).bootView
    = s.bootView.image f := rfl

theorem State.bootStore_bootView (f : FwBody) (wait : s.feat.phase = .waitHost) : (s.bootStore f).bootView
    = s.bootView.image f := by
  have loads : s.loadSet.loadCal.loadKeep.bootView = s.bootView :=
    (State.loadKeep_bootView _).trans ((State.loadCal_bootView _).trans (s.loadSet_bootView wait))
  exact (State.loadFw_bootView s.loadSet.loadCal.loadKeep f).trans (congrArg (BootView.image · f) loads)

/-! ## The offer (R78, R186) -/

theorem State.loadFactory_bootView :
    s.loadFactory.bootView = { s.bootView with cfgA := s.nv.factory.cfgA, cfgB := s.nv.factory.cfgB } := by
  unfold State.loadFactory
  refine (foldl_kept State.bootView _ (fun t x => ?_) _ _).trans rfl
  cases x <;> rfl

theorem State.loadLife_bootView : s.loadLife.bootView = s.bootView := by
  unfold State.loadLife
  split
  · rfl
  · dsimp only
    split <;> rfl

theorem State.discover_bootView (b : BootReport) : (s.discover b).bootView = s.bootView := rfl

theorem State.bootOffer_bootView (b : BootReport) : (s.bootOffer b).bootView
    = s.bootView.offered s.nv.factory := by
  have offered : ∀ (t : State) (o : BitVec 16),
      ({ t with feat := { t.feat with phase := .waitHost, offer := o } } : State).bootView
        = { t.bootView with phase := .waitHost } := fun _ _ => rfl
  unfold State.bootOffer
  rw [offered, State.discover_bootView, State.loadLife_bootView, State.loadFactory_bootView]
  rfl

/-! ## Reports and parts -/

theorem State.bootReports_bootView : s.bootReports.bootView = s.bootView := by
  have failed : ∀ (t : State) (e : Nat × Nat), ((List.range e.2).foldl (fun s _ =>
      (s.fault 4 e.1 1).raise 32 (BitVec.ofNat 24 e.1)) t).bootView = t.bootView := fun t e =>
    foldl_kept State.bootView _ (fun u _ => (State.raise_bootView _ _ _).trans (u.fault_bootView 4 _ 1)) _ t
  unfold State.bootReports
  refine (foldl_kept State.bootView _ (fun t r => ?_) _ _).trans (foldl_kept State.bootView _ failed _ s)
  exact t.raise_if_bootView _ _ _

theorem State.discoveryReports_bootView : s.discoveryReports.bootView = s.bootView := by
  have marked := foldl_kept State.bootView State.noAnswer State.noAnswer_bootView s.silent s
  unfold State.discoveryReports
  split
  · rfl
  · next =>
    have missing := (State.raise_bootView (s.silent.foldl State.noAnswer s) 13
      (BitVec.ofNat 24 (s.silent.foldl (fun a n => a + 2 ^ n) 0))).trans marked
    split
    · exact missing
    · exact (State.raise_bootView _ _ _).trans missing

theorem State.firstCounts_bootView : s.firstCounts.bootView = s.bootView := by
  unfold State.firstCounts
  refine foldl_kept State.bootView _ (fun t n => ?_) _ _
  split
  · exact t.attributeOne_bootView n
  · rfl

theorem State.loadHost_bootView : s.loadHost.bootView = s.bootView := by
  unfold State.loadHost
  rw [State.copyCfg_bootView, State.copyCfg_bootView]
  split <;> rfl

theorem State.noteRecord_bootView (ids : List Byte) : (s.noteRecord ids).bootView = s.bootView := by
  unfold State.noteRecord
  dsimp only
  split <;> rfl

theorem State.warmStart_bootView (hottest : Int) : (s.warmStart hottest).bootView = s.bootView := by
  unfold State.warmStart State.setPhase
  dsimp only
  rw [State.setTr_bootView, State.setTr_bootView]
  split
  · split
    · exact (State.replay_bootView _ _).trans rfl
    · rfl
  · rfl

theorem State.bootParts_bootView (b : BootReport) : (s.bootParts b).bootView = s.bootView := by
  have reported : s.bootReports.discoveryReports.firstCounts.bootView = s.bootView := by
    rw [State.firstCounts_bootView, State.discoveryReports_bootView, State.bootReports_bootView]
  have recorded : ∀ t : State, ((if t.pd3 then t.loadHost else t).noteRecord b.dieIds).bootView = t.bootView := fun t => by
    rw [State.noteRecord_bootView]
    split
    · exact t.loadHost_bootView
    · rfl
  have started : ∀ (c : Bool) (t : State), (if c then t.warmStart b.hottest else t).bootView = t.bootView := fun c t => by
    cases c
    · rfl
    · exact t.warmStart_bootView b.hottest
  exact (started _ _).trans ((recorded _).trans reported)

theorem State.unless_raise_bootView (p : Prop) [Decidable p] (n : Nat) (a : BitVec 24) :
    (if p then s else s.raise n a).bootView = s.bootView := by
  split
  · rfl
  · exact s.raise_bootView n a

theorem State.islandReports_bootView (first : Bool) : (s.islandReports first).bootView = s.bootView := by
  unfold State.islandReports
  extract_lets t1 t2 t3 lost n p t4 t5
  have h1 : t1.bootView = s.bootView := State.raise_if_bootView _ _ _ _
  have h2 : t2.bootView = t1.bootView := State.unless_raise_bootView _ _ _ _
  have h3 : t3.bootView = t2.bootView := State.raise_if_bootView _ _ _ _
  have h4 : t4.bootView = t3.bootView := rfl
  have h5 : t5.bootView = t4.bootView := State.unless_raise_bootView _ _ _ _
  rw [← h1, ← h2, ← h3, ← h4, ← h5]
  split
  · exact State.raise_bootView _ _ _
  · rfl

theorem State.bootLogs_bootView (first : Bool) : (s.bootLogs first).bootView = s.bootView :=
  (show (s.bootLogs first).bootView = (s.islandReports first).bootView from rfl).trans (s.islandReports_bootView first)

/-! ## The end of a boot (R67, R170) -/

theorem State.bootRun_bootView :
    s.bootRun.bootView = s.bootView.run := by
  unfold State.bootRun
  split
  · next h => exact congrArg (fun d => { s.bootView with dom := d }) (if_pos (beq_iff_eq.mp h)).symm
  · next h => exact congrArg (fun d => { s.bootView with dom := d }) (if_neg (fun e => h (beq_iff_eq.mpr e))).symm

theorem State.bootCal_bootView : s.bootCal.bootView = s.bootView := by
  unfold State.bootCal
  split
  · exact foldl_kept State.bootView _ (fun t u => t.calTap_bootView _ _ _ _) _ _
  · split
    · exact foldl_kept State.bootView (fun t u => t.calWait u false [] false) (fun _ _ => rfl) _ _
    · rfl

theorem State.startDeadline_bootView (wait : s.feat.phase = .waitHost) :
    s.startDeadline.bootView = s.bootView.counts := by
  unfold State.startDeadline
  cases h : s.pow.hostPg <;> simp [State.bootView, BootView.counts, h, wait]

/-- Boot with good firmware: what it leaves (R78). -/
theorem State.bootDone_bootView (b : BootReport) (f : FwBody) :
    (s.bootDone b f).bootView = ((s.bootView.offered s.nv.factory).image f).run.counts := by
  have offered := s.bootOffer_bootView b
  have stored := (s.bootOffer b).bootStore_bootView f (congrArg BootView.phase offered)
  have ran : ((((s.bootOffer b).bootStore f).bootParts b).bootLogs s.clk.lifeLoad).bootRun.bootCal.bootView
      = ((s.bootView.offered s.nv.factory).image f).run := by
    rw [State.bootCal_bootView, State.bootRun_bootView, State.bootLogs_bootView, State.bootParts_bootView, stored, offered]
  have waits := congrArg BootView.phase ran
  exact (State.startDeadline_bootView _ waits).trans (congrArg BootView.counts ran)

end

end Sys2Proof.Machine

/-! SUPPORT. Management ready (O6): the boot read, rescue mode, and the obligation. -/

namespace Sys2Proof.Machine
open Sys2Proof

section
variable (s : State)

/-! ## The boot read (R190) -/

/-- Nothing but W9's state moves, and not its rescue mode. -/
def W9Only (s t : State) : Prop := t = { s with nvs := t.nvs } ∧ t.nvs.rescue = s.nvs.rescue

theorem W9Only.trans {s t u : State} (h : W9Only s t) (k : W9Only t u) : W9Only s u := by
  obtain ⟨ht, rt⟩ := h
  obtain ⟨hu, ru⟩ := k
  refine ⟨hu.trans ?_, ru.trans rt⟩
  rw [ht]

theorem State.noteRegion_w9Only (r : Nat) (c : Option Bool) (bad : Nat) : W9Only s (s.noteRegion r c bad) := ⟨rfl, rfl⟩

theorem State.nvsIssue_w9Only (ops : List NvsOp) : W9Only s (s.nvsIssue ops) := ⟨rfl, rfl⟩

theorem State.readWear_w9Only : W9Only s s.readWear := by
  unfold State.readWear
  split <;> exact ⟨rfl, rfl⟩

/-- The boot read moves W9's state alone, which is then ready. -/
theorem State.bootRead_w9Only : W9Only s s.bootRead ∧ s.bootRead.nvs.ready = true := by
  refine ⟨?_, rfl⟩
  unfold State.bootRead
  extract_lets pick s1 s2 s3 s4 s5 s6
  have regions : W9Only s s5 := (s.noteRegion_w9Only _ _ _).trans <| (s1.noteRegion_w9Only _ _ _).trans <|
    (s2.noteRegion_w9Only _ _ _).trans <| (s3.noteRegion_w9Only _ _ _).trans (s4.noteRegion_w9Only _ _ _)
  have issued : W9Only s s6 := regions.trans (s5.readWear_w9Only.trans (State.nvsIssue_w9Only _ _))
  exact issued.trans ⟨rfl, rfl⟩

/-- The state that boot's choices are made in: the memory is read, and the part serves. -/
def State.served : State := { s.bootRead with nvs := { s.bootRead.nvs with partOk := true } }

theorem State.served_form : ∃ n, s.served = { s with nvs := n } ∧ n.ready = true ∧ n.rescue = s.nvs.rescue := by
  obtain ⟨⟨only, rescue⟩, ready⟩ := s.bootRead_w9Only
  exact ⟨{ s.bootRead.nvs with partOk := true },
    congrArg (fun t : State => { t with nvs := { s.bootRead.nvs with partOk := true } }) only, ready, rescue⟩

theorem State.served_nv : s.served.nv = s.nv := by
  obtain ⟨n, h, -, -⟩ := s.served_form
  rw [h]

theorem State.served_fwSlot : s.served.fwSlot = s.fwSlot := by
  obtain ⟨n, h, -, -⟩ := s.served_form
  rw [h]
  rfl

theorem State.served_fwBody (k : Bool) : s.served.fwBody k = s.fwBody k := by
  obtain ⟨n, h, -, -⟩ := s.served_form
  rw [h]
  rfl

theorem State.served_bootView : s.served.bootView = { s.bootView with ready := true } := by
  obtain ⟨n, h, ready, rescue⟩ := s.served_form
  rw [h]
  simp only [State.bootView, ready, rescue]

/-! ## Which end a boot takes (R78, R202, R356) -/

variable {s}

theorem State.bootEnd_of_not_runs (b : BootReport) (h : s.bootRuns = false) : s.bootEnd b = s := by
  unfold State.bootEnd
  rw [if_pos (by rw [h]; rfl)]

theorem State.bootEnd_of_refused (b : BootReport) (runs : s.bootRuns = true)
    (h : s.nv.kind = 0 ∨ s.nv.boot.ok = false ∨ s.nv.factoryOk = false) : s.bootEnd b = s.rescuePart.promptAll := by
  unfold State.bootEnd
  rw [if_neg (by rw [runs]; exact Bool.false_ne_true), if_pos (by simpa [or_assoc] using h)]

theorem State.bootEnd_of_serves (b : BootReport) (runs : s.bootRuns = true) (part : s.nv.kind ≠ 0) (boot : s.nv.boot.ok = true)
    (factory : s.nv.factoryOk = true) : s.bootEnd b = (match s.fwSlot with
      | none => (s.served.bootReports.rescue true).promptAll
      | some k => match s.fwBody k with
        | none => (s.served.bootReports.rescue true).promptAll
        | some f => if f.boots && b.imageOk then (s.served.bootDone b f).promptAll
          else { s.served with wrn := { s.served.wrn with wdogForced := true } }) := by
  have slot := s.served_fwSlot
  have body := s.served_fwBody
  unfold State.served at slot body
  unfold State.bootEnd
  rw [if_neg (by rw [runs]; exact Bool.false_ne_true), if_neg (by simp [part, boot, factory])]
  dsimp only
  rw [slot]
  cases s.fwSlot with
  | none => rfl
  | some k => dsimp only; rw [body]; rfl

/-- What a boot with good firmware fixes. -/
theorem State.bootEnd_bootView (b : BootReport) {f : FwBody} (ends : s.bootEnd b = (s.served.bootDone b f).promptAll) :
    (s.bootEnd b).bootView
      = ((({ s.bootView with ready := true } : BootView).offered s.nv.factory).image f).run.counts := by
  have prompted : ∀ t : State, t.promptAll.bootView = t.bootView := fun _ => rfl
  rw [ends, prompted, State.bootDone_bootView, s.served_bootView, s.served_nv]

/-! ## Rescue mode (R202) -/

variable (s)

theorem State.bootRun_form : ∃ p, s.bootRun = { s with pow := p }
    ∧ p.dom = if s.pow.dom = .boot then .run else s.pow.dom := by
  unfold State.bootRun
  split
  · next h => exact ⟨_, rfl, (if_pos (beq_iff_eq.mp h)).symm⟩
  · next h => exact ⟨s.pow, rfl, (if_neg (fun e => h (beq_iff_eq.mpr e))).symm⟩

/-- Rescue mode of a part, boot block or factory slot that does not serve: W9's state says why, and fault counts and events
are all else that moves before BOOT ends in RUN. -/
theorem State.rescuePart_form : ∃ n f e, s.rescuePart = State.bootRun { s with nvs := n, flt := f, evt := e }
    ∧ n.ready = true ∧ n.rescue = true ∧ n.partOk = (s.nv.kind != 0)
    ∧ n.bootBad = (s.nv.kind != 0 && !s.nv.boot.ok)
    ∧ n.factoryBad = (s.nv.kind != 0 && s.nv.boot.ok && !s.nv.factoryOk) := by
  unfold State.rescuePart
  extract_lets partOk t1 t2 w t3
  have read : W9Only s t2 := by
    have issued : W9Only s t1 := s.nvsIssue_w9Only _
    unfold t2
    split
    · exact issued.trans t1.readWear_w9Only
    · exact issued
  obtain ⟨only, -⟩ := read
  have noted : ∃ n f e, t3 = { s with nvs := n, flt := f, evt := e } := by
    unfold t3
    split
    · obtain ⟨f, hf⟩ := ({ t2 with nvs := { t2.nvs with errRead := satAdd t2.nvs.errRead 1 } } : State).fault_form 4 1 1
      rw [hf]
      obtain ⟨e, he⟩ := ({ t2 with nvs := { t2.nvs with errRead := satAdd t2.nvs.errRead 1 }, flt := f } : State).raise_unlatched
        (n := 32) (by omega) (by omega) 1
      exact ⟨_, f, e, he.trans (by rw [only])⟩
    · exact ⟨t2.nvs, s.flt, s.evt, only⟩
  obtain ⟨n, f, e, h⟩ := noted
  rw [h]
  exact ⟨_, f, e, rfl, rfl, rfl, rfl, rfl, rfl⟩

end

/-- Settles O6: the boot read touches W9 alone, discovery, the loads and the reports touch nothing that boot has fixed
(`BootView`), and the steps that fix it are the factory body, the image, the end of BOOT and the start of the deadline. -/
theorem managementReady : Obligations.ManagementReady := by
  unfold Obligations.ManagementReady
  refine ⟨fun b s k f runs part boot factory slot body => ⟨fun good => ?ready, fun bad => ?refused⟩,
    fun b s runs part boot factory slot => ?noSlot, fun b s runs fails => ?rescued, fun b s idle => ?idle⟩
  case ready =>
    have ends : s.bootEnd b = (s.served.bootDone b f).promptAll := by
      rw [State.bootEnd_of_serves b runs part boot factory, slot]
      dsimp only
      rw [body]
      exact if_pos good
    obtain ⟨pending, modl, -⟩ := s.bootEnd_moves b
    have view := State.bootEnd_bootView b ends
    have awake : s.nvs.rescue = false := Bool.eq_false_iff.mpr fun rescue => by simp [State.bootRuns, rescue] at runs
    have next : exec (.managementReady b) s = .next (s.bootEnd b) := rfl
    generalize s.bootEnd b = t at ends pending modl view next
    exact ⟨t, next, ends, congrArg BootView.ready view, (congrArg BootView.rescue view).trans awake,
      congrArg BootView.phase view, congrArg BootView.dom view, congrArg BootView.cfgA view, congrArg BootView.cfgB view,
      congrArg BootView.routes view, congrArg BootView.locked view, congrArg BootView.version view,
      congrArg BootView.coreMask view, modl, pending⟩
  case refused =>
    rw [show exec (.managementReady b) s = .next (s.bootEnd b) from rfl,
      State.bootEnd_of_serves b runs part boot factory, slot]
    dsimp only
    rw [body]
    exact congrArg Host.Outcome.next (if_neg (by rw [bad]; exact Bool.false_ne_true))
  case noSlot =>
    rw [show exec (.managementReady b) s = .next (s.bootEnd b) from rfl,
      State.bootEnd_of_serves b runs part boot factory, slot]
    rfl
  case rescued =>
    obtain ⟨n, fl, e, part, ready, rescue, partOk, bootBad, factoryBad⟩ := s.rescuePart_form
    obtain ⟨p, run, dom⟩ := State.bootRun_form { s with nvs := n, flt := fl, evt := e }
    refine ⟨_, congrArg Host.Outcome.next (State.bootEnd_of_refused b runs fails), ?_⟩
    rw [part, run]
    exact ⟨ready, rescue, partOk, bootBad, factoryBad, dom, rfl, rfl, rfl, rfl⟩
  case idle =>
    exact congrArg Host.Outcome.next (State.bootEnd_of_not_runs b idle)

end Sys2Proof.Machine

/-! SUPPORT. ALERT_n (O25): what a report from the buffers leaves, and what a write of HST_ALERT_CAUSE releases. -/

namespace Sys2Proof.Machine
open Sys2Proof

/-! ## What a report from the buffers leaves (R115, R121) -/

/-- The counters of the reports on DBE_x_n. -/
structure DbeCounts where
  crcA : BitVec 16
  crcB : BitVec 16
  dbcA : BitVec 16
  dbcB : BitVec 16

/-- The counters of reports, and W9's RAM state: what the reading of a buffer's counters leaves besides what
`State.still` shows. -/
def State.tallies (s : State) : DbeCounts × Nvs := (⟨s.zlb.crcA, s.zlb.crcB, s.zlb.dbcA, s.zlb.dbcB⟩, s.nvs)

section
variable (s : State)

@[simp] theorem State.raise_tallies (n : Nat) (a : BitVec 24) : (s.raise n a).tallies = s.tallies := by
  obtain ⟨l, e, h⟩ := s.raise_form n a
  rw [h]
  rfl

@[simp] theorem State.fault_tallies (c i k : Nat) : (s.fault c i k).tallies = s.tallies := by
  obtain ⟨f, h⟩ := s.fault_form c i k
  rw [h]
  rfl

theorem State.tallies_of_aside {s t : State} (h : t.aside = s.aside) : t.tallies = s.tallies := by
  have view : t.aside.tallies = s.aside.tallies := congrArg State.tallies h
  exact view

@[simp] theorem State.conCal_tallies (u o z : Nat) : (s.conCal u o z).tallies = s.tallies := by
  unfold State.conCal State.conHold
  split
  · split
    · rfl
    · dsimp only
      split
      · exact State.tallies_of_aside (s.respond_aside _ _ _ _)
      · rfl
  · rfl

@[simp] theorem State.calRecord_tallies (u k o : Nat) (c : Bool) : (s.calRecord u k o c).tallies = s.tallies := by
  have raised : ∀ (u : State) (p : Prop) [Decidable p] (n : Nat) (a : BitVec 24),
      (if p then u.raise n a else u).tallies = u.tallies := fun u p _ n a => by
    split
    · exact u.raise_tallies n a
    · rfl
  exact (raised _ _ _ _).trans (raised _ _ _ _)

/-- A buffer's calibration is abandoned; unit 11 is the ADC of the ZX8-P. -/
theorem State.calAbandon_tallies {u : Nat} (hu : u ≠ 11) : (s.calAbandon u).tallies = s.tallies := by
  unfold State.calAbandon
  rw [if_neg hu]
  split
  · rfl
  · exact (State.conCal_tallies _ _ _ _).trans (State.calRecord_tallies _ _ _ _ _)

theorem State.zlbTry_tallies {t : Nat} (ht : t < 10) : (s.zlbTry t).tallies = s.tallies := by
  have attempt : ∀ u : State, (u.attemptFail t).tallies = u.tallies := fun u =>
    (State.raise_tallies _ _ _).trans (u.fault_tallies 3 t 1)
  have marked : ∀ u : State, (u.markUnreach t).tallies = u.tallies := fun u => by
    unfold State.markUnreach
    split
    · rfl
    · exact (State.calAbandon_tallies _ (by omega)).trans (State.raise_tallies _ _ _)
  have last : ∀ u : State, (u.lastFail t).tallies = u.tallies := fun u => (marked _).trans (u.fault_tallies 3 t 1)
  unfold State.zlbTry State.noAnswer
  split
  · rfl
  · rw [last, attempt, attempt, attempt]

/-- The reading of a buffer's counters is an access to it, and fault counts. -/
theorem State.attributeOne_still {n : Nat} (hn : n < 10) : (s.attributeOne n).still = s.still := by
  have noted : ∀ (u : State) (z : Zlb), ({ u with zlb := z } : State).still = u.still := fun _ _ => rfl
  unfold State.attributeOne
  dsimp only
  split
  · exact s.zlbTry_still hn
  · rw [noted]
    split <;> simp only [State.fault_still, State.warrenAccess_still, s.zlbTry_still hn]

theorem State.attributeOne_tallies {n : Nat} (hn : n < 10) : (s.attributeOne n).tallies = s.tallies := by
  have noted : ∀ (u : State) (l : List (Option (BitVec 16 × BitVec 16))),
      ({ u with zlb := { u.zlb with lastCrc := l } } : State).tallies = u.tallies := fun _ _ => rfl
  have read : ∀ (u : State) (d r : Word), (u.warrenAccess n 0x010 d r).tallies = u.tallies := fun _ _ _ => rfl
  unfold State.attributeOne
  dsimp only
  split
  · exact s.zlbTry_tallies hn
  · refine (noted _ _).trans ?_
    split <;> simp only [State.fault_tallies, read, s.zlbTry_tallies hn]

theorem State.attributeAll_kept (x : Sub) : ((subDbs x).foldl State.attributeOne s).still = s.still
    ∧ ((subDbs x).foldl State.attributeOne s).tallies = s.tallies := by
  have each : ∀ n ∈ subDbs x, n < 10 := by cases x <;> decide
  refine List.foldlRecOn (motive := fun t : State => t.still = s.still ∧ t.tallies = s.tallies) _ _ ⟨rfl, rfl⟩
    fun t ⟨still, tallies⟩ n hn => ?_
  exact ⟨(t.attributeOne_still (each n hn)).trans still, (t.attributeOne_tallies (each n hn)).trans tallies⟩

/-- A report on DBE_x_n waits for WCLK, or is an event and a reading of the buffers (R63, R115, R120). -/
theorem State.report_dbe_kept (x : Sub) (frame : Bool) : ∃ rs,
    (s.report (.dbe x frame)).still = State.still { s with host := { s.host with reports := rs } }
      ∧ (s.report (.dbe x frame)).tallies = s.tallies := by
  have taken : (s.reportTaken (.dbe x frame)).still = s.still ∧ (s.reportTaken (.dbe x frame)).tallies = s.tallies := by
    have raised : (s.raise (if frame then 9 else 8) (BitVec.ofNat 24 (subNo x))).still = s.still :=
      s.raise_still (by cases frame <;> decide) (by cases frame <;> decide) _
    have read : ∀ u : State, (if u.up then (subDbs x).foldl State.attributeOne u else u).still = u.still
        ∧ (if u.up then (subDbs x).foldl State.attributeOne u else u).tallies = u.tallies := fun u => by
      split
      · exact u.attributeAll_kept x
      · exact ⟨rfl, rfl⟩
    obtain ⟨stays, counts⟩ := read (s.raise (if frame then 9 else 8) (BitVec.ofNat 24 (subNo x)))
    exact ⟨stays.trans raised, counts.trans (s.raise_tallies _ _)⟩
  unfold State.report
  split
  · exact ⟨s.host.reports, taken⟩
  · split
    · exact ⟨_, rfl, rfl⟩
    · exact ⟨s.host.reports, rfl, rfl⟩

/-- A trigger moves the two waiting pulses and MERGED alone (R92). -/
theorem State.alertTrigger_form (k : Pulse) : ∃ p c m, s.alertTrigger k
    = { s with host := { s.host with waitPar := p, waitCrc := c, merged := m } } := by
  unfold State.alertTrigger
  split
  · exact ⟨_, _, _, rfl⟩
  · cases k <;> dsimp only <;> split <;> exact ⟨_, _, _, rfl⟩

end

/-! ## DBE_REPORT (R91, R115, R121) -/

/-- A report counted: a low period of 5 HCK or more as a frame error, a shorter one as a CRC mismatch (R121). -/
def DbeCounts.count (k : DbeCounts) (low : Nat) (x : Sub) : DbeCounts :=
  { crcA := if low < 5 ∧ x = .a then satAdd k.crcA 1 else k.crcA
    crcB := if low < 5 ∧ x = .b then satAdd k.crcB 1 else k.crcB
    dbcA := if 5 ≤ low ∧ x = .a then satAdd k.dbcA 1 else k.dbcA
    dbcB := if 5 ≤ low ∧ x = .b then satAdd k.dbcB 1 else k.dbcB }

/-- What a report leaves before it crosses to WCLK: the buffers go on to their next pulse, the report is counted, and its
cause bit is set. -/
def State.dbeNoted (s : State) (x : Sub) (low : Nat) : State :=
  let k := s.tallies.1.count low x
  { s.setDbs x (fun d => { d with dbe := d.dbeNext, dbeNext := none }) with
    zlb := { s.zlb with crcA := k.crcA, crcB := k.crcB, dbcA := k.dbcA, dbcB := k.dbcB }
    host := { s.host with cause := s.host.cause ||| BitVec.ofNat 4 (2 ^ (2 + subNo x)) } }

theorem State.dbeEnd_eq (s : State) (x : Sub) (low : Nat) :
    s.dbeEnd x low = ((s.dbeNoted x low).report (.dbe x (decide (5 ≤ low)))).alertTrigger .crc := by
  unfold State.dbeEnd State.dbeNoted DbeCounts.count State.tallies State.setCause
  by_cases long : 5 ≤ low
  · have short : ¬ low < 5 := by omega
    cases x <;> simp [long, short]
  · have short : low < 5 := by omega
    cases x <;> simp [long, short]

/-- The report is counted, its cause bit is set, and a pulse is asked for. -/
theorem State.dbeEnd_kept (s : State) (x : Sub) (low : Nat) : ∃ p c m rs,
    (s.dbeEnd x low).still = State.still { s with host := { s.host with
        cause := s.host.cause ||| BitVec.ofNat 4 (2 ^ (2 + subNo x)), waitPar := p, waitCrc := c, merged := m, reports := rs } }
      ∧ (s.dbeEnd x low).tallies = (s.tallies.1.count low x, s.nvs) := by
  obtain ⟨rs, still, tallies⟩ := (s.dbeNoted x low).report_dbe_kept x (decide (5 ≤ low))
  rw [State.dbeEnd_eq]
  generalize (s.dbeNoted x low).report (.dbe x (decide (5 ≤ low))) = u at still tallies
  obtain ⟨p, c, m, asked⟩ := u.alertTrigger_form .crc
  rw [asked]
  refine ⟨p, c, m, rs, ?_, tallies⟩
  exact congrArg (fun t : State => { t with host := { t.host with waitPar := p, waitCrc := c, merged := m } }) still

/-! ## STOP_RELEASE (R86, R93) -/

/-- HST_ALERT_CAUSE. -/
def hstAlertCauseReg (s : State) : RegDef :=
  { flds := [Fld.any .w1c 6 0], read := s.alertCause, write := fun v s => s.clearCause v }

/-- The release bit of subchannel A clears no cause. -/
theorem State.hubWrite_stopA {s : State} (hup : s.up = true) (hres : s.nvs.rescue = false) (p : Path) :
    s.hubWrite p 0x010C 0x10 = s.stopFree .a := by
  have reg : s.reg p 0x010C = some (hstAlertCauseReg s) := State.reg_of_up hup hres p _
  have mask : (hstAlertCauseReg s).fieldMask = 127 := rfl
  have allowed : (hstAlertCauseReg s).allows 0x10 = true := by
    simp only [RegDef.allows, mask]
    rfl
  have merged : (hstAlertCauseReg s).merge 0x10 = 0x10 := RegDef.merge_of_roMask rfl _
  rw [State.hubWrite_of_allowed reg allowed, RegDef.put_of_not_kept rfl, merged]
  have causes : s.host.cause &&& 15#4 = s.host.cause := BitVec.and_allOnes
  change s.clearCause 0x10 = _
  simp [State.clearCause, bitAt, causes]

/-- `State.setRanks` with its test as a proposition. -/
theorem State.setRanks_eq (s : State) (x : Sub) (st : RankSt) :
    s.setRanks x st = s.setSub x (fun u => { u with ranks := u.ranks.map (fun r => if r = .absent then r else st) }) := by
  simp only [State.setRanks, beq_iff_eq]

/-- The subchannel is back with its host, awake, after SRX on every rank (R86). -/
theorem State.stopFree_of_stopped {s : State} {x : Sub} (own : (s.sub x).owner = .stopped) :
    s.stopFree x = s.setSub x (fun u => { u with
      owner := .host, gen := [(genDrive .srx (s.rankMask x), 1)], drive := some (genDrive .srx (s.rankMask x))
      ranks := u.ranks.map (fun r => if r = .absent then r else .active) }) := by
  simp only [State.stopFree, own, State.setRanks_eq, beq_self_eq_true, if_true]
  cases x <;> rfl

/-- Settles O25: a report is counted and noted (`State.dbeNoted`) before it crosses to WCLK, where an event and a reading of the
buffers leave the rest; the release bit of subchannel A is `State.stopFree`. -/
theorem alertPin : Obligations.AlertPin := by
  unfold Obligations.AlertPin
  refine ⟨fun s high wait => ?parity, fun s high no wait => ?crc, fun s => rfl, fun x s up own => ?yalert,
    fun x s own => ?yalertNot, fun x low s up on => ?dbe, fun p s up res own => ?release⟩
  case parity => exact congrArg Host.Outcome.next (by simp [high, wait])
  case crc => exact congrArg Host.Outcome.next (by simp [high, no, wait])
  case yalert =>
    obtain ⟨l, e, raised⟩ := (s.setSub x (fun t => { t with yalertCount := satAdd t.yalertCount 1 })).raise_form 5
      (BitVec.ofNat 24 (subNo x))
    have next : exec (.yalert x) s = .next _ := congrArg Host.Outcome.next ((if_pos (by simp [up, own])).trans raised)
    refine ⟨_, next, ?_, ?_, fun y other => ?_⟩
    · cases x <;> rfl
    · cases x <;> rfl
    · exact s.setSub_sub_ne other _
  case yalertNot => exact congrArg Host.Outcome.next (if_neg (by simp [own]))
  case dbe =>
    obtain ⟨p, c, m, rs, still, tallies⟩ := s.dbeEnd_kept x low
    obtain ⟨-, -, nv, -, clk, feat, host, subA, subB, -⟩ := State.kept_of_still still
    have next : exec (.dbeReport x low) s = .next (s.dbeEnd x low) := congrArg Host.Outcome.next (if_pos (by simp [up, on]))
    generalize s.dbeEnd x low = t at next tallies nv clk feat host subA subB
    have counts {β : Type} (g : DbeCounts → β) := congrArg (fun v => g (Prod.fst v)) tallies
    exact ⟨t, next, by rw [host], counts DbeCounts.crcA, counts DbeCounts.crcB, counts DbeCounts.dbcA, counts DbeCounts.dbcB,
      subA, subB, nv, congrArg Prod.snd tallies, feat, clk⟩
  case release =>
    exact ⟨_, congrArg Host.Outcome.next ((State.hubWrite_stopA up res p).trans (State.stopFree_of_stopped own)), rfl, rfl⟩
end Sys2Proof.Machine

/-! SUPPORT. The hub window (O27): a fetch from the ZX8-P while its ADC is calibrated. -/

namespace Sys2Proof.Machine
open Sys2Proof

/-- A fetch of KPA_STATUS is in flight in window A, and the ZX8-P, whose ADC is being calibrated, has stopped answering. -/
def fetchMidAdcCal : State :=
  { State.reset with
    pow := { State.reset.pow with dom := .run, on := 0x3D, hostPg := true, pfailLow := false }
    clk := { State.reset.clk with mpllLock := true, hckOk := true }
    feat := { State.reset.feat with phase := .settled, offer := 0xFFFF, accept := 0xFFFF, active := 0xFFFF, lockedBy := 3 }
    nvs := { State.reset.nvs with ready := true }
    subA := { SubSt.fresh with owner := .host, win := { Win.fresh with addr := 0x1D00, fetch := true } } }.adcStart.tgtAnswers
      10 false

/-- The calibration holds the readings of the ADC (R171). -/
theorem fetchMidAdcCal_held : fetchMidAdcCal.zxp.held.isSome = true := by decide

/-- The fetch finds no answer, which abandons the calibration (R131, R172), and the readings go live. -/
theorem fetchMidAdcCal_winFetch_held : (fetchMidAdcCal.winFetch .a).zxp.held.isSome = false := by decide

/-- Refutes O27: the statement has WINDOW_FETCH_DONE leave the ZX8-P as it was, but a fetch from a ZX8-P that answers no
attempt makes it unreachable and abandons a running calibration of its ADC, whose held channels go live again (R131, R171,
R172), as on `fetchMidAdcCal`. -/
theorem not_windowMoves : ¬ Obligations.WindowMoves := by
  unfold Obligations.WindowMoves
  rintro ⟨-, -, -, -, -, -, -, -, fetches⟩
  obtain ⟨t, step, -, kept⟩ := fetches .a fetchMidAdcCal (by decide) (by decide)
  have fetched : exec (.windowFetchDone .a) fetchMidAdcCal = .next (fetchMidAdcCal.winFetch .a) := rfl
  cases fetched.symm.trans step
  have live := fetchMidAdcCal_winFetch_held
  rw [congrArg State.zxp kept, fetchMidAdcCal_held] at live
  cases live

end Sys2Proof.Machine

/-! SUPPORT. The grants (O29): a handback where the table of the buffers lacks their entries. -/

namespace Sys2Proof.Machine
open Sys2Proof

/-- Subchannel A is granted, and every target of the local bus answers, but the table of the buffers holds no entry. -/
def grantedNoBufferTable : State :=
  { State.reset with
    subA := { SubSt.fresh with owner := .granted, grant := some ⟨false, [], 0, 5, false⟩ }
    zlb := { State.reset.zlb with targets := List.replicate 11 { ZTarget.fresh with alive := true } }
    dbs := [] }

/-- The shadow's WL and RL are not 0, what a buffer without an entry reads. -/
theorem grantedNoBufferTable_handback_cfg :
    ((grantedNoBufferTable.handback .a).db 0).cfg ≠ grantedNoBufferTable.bufCfg .a := by decide

/-- Refutes O29: the statement has every buffer that answers hold CRC_EN, WL and RL after a handback, in every state; it does
not ask, as other statements do, that the table of the buffers has its ten entries, and a buffer without an entry takes no
value, as on `grantedNoBufferTable`. -/
theorem not_resumeAndGrants : ¬ Obligations.ResumeAndGrants := by
  unfold Obligations.ResumeAndGrants
  rintro ⟨-, -, -, -, -, handback, -⟩
  obtain ⟨t, step, -, -, -, -, -, -, -, -, -, cfg, -⟩ := handback .a _ grantedNoBufferTable rfl
  have handed : exec (.grantHandback .a) grantedNoBufferTable = .next (grantedNoBufferTable.handback .a) := rfl
  cases handed.symm.trans step
  exact grantedNoBufferTable_handback_cfg (cfg (by decide) 0 (by decide) (by decide))

end Sys2Proof.Machine

/-! SUPPORT. Host commands (O26): what a sampled command does by its class, and what a parity error leaves. -/

namespace Sys2Proof.Machine
open Sys2Proof

/-! ## A sampled command (R83, R87) -/

/-- A command other than DES, with a rank selected and not discarded. -/
theorem HostCycle.live {s : State} {x : Sub} {c : HostCycle} (hk : c.kind ≠ .des) (hc : c.cs ≠ 0) (hd : s.discards x = false) :
    (c.kind == .des || c.cs = 0 || s.discards x) = false := by
  rw [beq_eq_false_iff_ne.mpr hk, decide_eq_false hc, hd]
  rfl

theorem State.hostCommand_of_unchecked {s : State} {x : Sub} {c : HostCycle} (hs : s.samples = true) (hk : c.kind ≠ .des)
    (hc : c.cs ≠ 0) (hd : s.discards x = false) (hp : s.host.parEn = false) : s.hostCommand x c = s.obey x c := by
  simp only [State.hostCommand, hs, HostCycle.live hk hc hd, hp, Bool.not_true, Bool.false_eq_true, Bool.false_and,
    Bool.or_self, if_false]

theorem State.hostCommand_of_no_command {s : State} {x : Sub} {c : HostCycle} (hs : s.samples = true)
    (h : s.discards x = true ∨ c.kind = .des ∨ c.cs = 0) : s.hostCommand x c = s.hold x := by
  have idle : (c.kind == .des || c.cs = 0 || s.discards x) = true := by
    simp only [Bool.or_eq_true, beq_iff_eq, decide_eq_true_eq]
    tauto
  simp only [State.hostCommand, hs, idle, Bool.not_true, Bool.false_eq_true, if_false, if_true]

/-- A parity error in the first cycle of a command without a second blocks it (R89). -/
theorem State.hostCommand_of_parityBad {s : State} {x : Sub} {c : HostCycle} (hs : s.samples = true) (hk : c.kind ≠ .des)
    (hc : c.cs ≠ 0) (hd : s.discards x = false) (hp : s.host.parEn = true) (bad : parityBad c.ca1 c.par1 = true)
    (single : c.second = none) : s.hostCommand x c = (s.hold x).parityError x := by
  have second : secondBad c = false := by rw [secondBad, single]; rfl
  simp only [State.hostCommand, hs, HostCycle.live hk hc hd, hp, bad, second, Bool.not_true, Bool.and_self, Bool.and_false,
    Bool.false_and, Bool.or_false, Bool.false_eq_true, if_false, if_true]

/-! ## A passed and a dropped command (R80, R82, R87, R119) -/

/-- The DBC frame of a command reaches the buffers alone, and only a write, a read and an MRR have one. -/
theorem State.burstFrame_form (s : State) (x : Sub) (k : CmdKind) (cs : BitVec 4) :
    s.burstFrame x k cs = { s with dbs := (s.burstFrame x k cs).dbs }
      ∧ (k ≠ .wr → k ≠ .wrp → k ≠ .rd → k ≠ .mrr → (s.burstFrame x k cs).dbs = s.dbs) := by
  cases k
  case wr | wrp => exact ⟨s.dbcCmd_form x _, fun h h' => by contradiction⟩
  case rd | mrr => exact ⟨s.dbcCmd_form x _, fun _ _ h h' => by contradiction⟩
  all_goals exact ⟨rfl, fun _ _ _ _ => rfl⟩

/-- A passed command other than an MRW: the subchannel drives it, and the buffers open its burst. -/
theorem State.pass_of_not_mrw {s : State} {x : Sub} {c : HostCycle} (h : c.kind ≠ .mrw) :
    s.pass x c = { s.setSub x (fun u => { u with
        drive := some (s.redrive c c.kind c.mr c.op), ranks := passRanks c.kind c.cs u.ranks
        hostDq := if c.kind = .mrr then some c.data else u.hostDq }) with
      dbs := (s.burstFrame x c.kind c.cs).dbs } := by
  obtain ⟨burst, -⟩ := s.burstFrame_form x c.kind c.cs
  unfold State.pass
  rw [burst]
  cases x <;> simp [h, State.redrive, State.cidOut, State.latency, State.fnOn, State.settled, State.offers]

/-! ## Window commands leave the drive and the counts (R83, R95) -/

/-- YCS_n and the count of dropped commands of a subchannel are the same. -/
def SameDrive (x : Sub) (s t : State) : Prop :=
  (t.sub x).drive = (s.sub x).drive ∧ (t.sub x).dropCount = (s.sub x).dropCount

section
variable (s : State) (x : Sub)

theorem State.setWin_sameDrive (f : Win → Win) : SameDrive x s (s.setWin x f) := by cases x <;> exact ⟨rfl, rfl⟩

theorem State.setWin_if_sameDrive (p : Prop) [Decidable p] (f : Win → Win) : SameDrive x s (if p then s.setWin x f else s) := by
  split
  · exact s.setWin_sameDrive x f
  · exact ⟨rfl, rfl⟩

theorem State.winDrive_sameDrive (b : Byte) : SameDrive x s (s.winDrive x b) := by
  cases defd : s.winUndefined x with
  | true =>
    rw [State.winDrive_of_undefined defd]
    cases x <;> exact ⟨rfl, rfl⟩
  | false =>
    obtain ⟨l, drive, -⟩ := State.winDrive_of_defined defd b
    rw [drive]
    cases x <;> exact ⟨rfl, rfl⟩

/-- An MRW to the window other than a command of MR 0xF6 changes the window alone. -/
theorem State.winMrw_sameDrive {c : HostCycle} (h : c.mr ≠ 0xF6) : SameDrive x s (s.winMrw x c) := by
  unfold State.winMrw State.winAddress State.winStage State.winCommit State.winAbort
  split
  case h_7 command => exact absurd (BitVec.eq_of_toNat_eq command) h
  all_goals exact s.setWin_if_sameDrive x _ _

/-- An MRR of the window other than a pass-through read brings a byte. -/
theorem State.winMrr_sameDrive {c : HostCycle} (h : c.mr ≠ 0xF6) : SameDrive x s (s.winMrr x c) := by
  unfold State.winMrr
  split
  case h_1 command => exact absurd (BitVec.eq_of_toNat_eq command) h
  case h_2 =>
    unfold State.winStatusRead
    split <;> exact s.winDrive_sameDrive x _
  case h_3 =>
    cases on : s.winOn x with
    | false =>
      rw [State.winRead_of_off on]
      exact s.winDrive_sameDrive x 0
    | true =>
      rw [State.winRead_of_on on]
      obtain ⟨drive, drops⟩ := s.winDrive_sameDrive x ((s.sub x).win.byteAt (c.mr.toNat - 0xF0))
      obtain ⟨drive', drops'⟩ := State.setWin_if_sameDrive (s.winDrive x ((s.sub x).win.byteAt (c.mr.toNat - 0xF0))) x
        (c.mr.toNat - 0xF0 = 5 ∧ s.host.ainc = true) (fun w => { w with addr := w.addr + 4, rvalid := false, fetch := true })
      exact ⟨drive'.trans drive, drops'.trans drops⟩

/-! ## A parity error (R86, R90, R93) -/

/-- The report of a parity error waits for WCLK, or is a fault count and an event (R63, R90). -/
theorem State.report_parity_form : ∃ rs f e,
    s.report (.parity x) = { s with host := { s.host with reports := rs }, flt := f, evt := e } := by
  unfold State.report State.reportTaken
  split
  · obtain ⟨f, counted⟩ := s.fault_form 2 (subNo x) 1
    obtain ⟨e, raised⟩ := ({ s with flt := f } : State).raise_unlatched (n := 0) (by decide) (by decide)
      (BitVec.ofNat 24 (subNo x))
    exact ⟨s.host.reports, f, e, by
      dsimp only
      rw [counted, raised]⟩
  · split
    · exact ⟨_, s.flt, s.evt, rfl⟩
    · exact ⟨s.host.reports, s.flt, s.evt, rfl⟩

/-- A stopped subchannel: PREab and SRE on every rank, no pulse waits, and ALERT_n is held low (R93). -/
theorem State.parityStop_form : ∃ e, s.parityStop x = { s.setSub x (fun u => { u with
      owner := .stopped, ranks := u.ranks.map (fun r => if r = .absent then r else .selfRefresh)
      gen := [(genDrive .preAb (s.rankMask x), 1), (genDrive .sre (s.rankMask x), 1)]
      drive := some (genDrive .sre (s.rankMask x)) }) with
    host := { s.host with waitPar := false, waitCrc := false }, trim := (s.trimLeave x).trim, evt := e } := by
  have left : s.trimLeave x = { s with trim := (s.trimLeave x).trim } := rfl
  unfold State.parityStop
  rw [State.setRanks_eq, left]
  generalize (s.trimLeave x).trim = m
  obtain ⟨e, raised⟩ := State.raise_unlatched _ (n := 1) (by decide) (by decide) (BitVec.ofNat 24 (subNo x))
  refine ⟨e, raised.trans ?_⟩
  cases x <;> rfl

end

theorem State.alertTrigger_waitPar {s : State} (free : s.alertHeld = false) : (s.alertTrigger .parity).host.waitPar = true := by
  simp only [State.alertTrigger, free, Bool.false_eq_true, if_false]
  split
  case isTrue waits => exact waits
  case isFalse => rfl

/-- The subchannel of a command that a parity error has blocked: YCS_n high, one error counted, the cause bit set, and the
report on its way (R89, R90). -/
def State.parityNoted (s : State) (x : Sub) (rs : List Report) (f : Flt) (e : Evt) : State :=
  { s.setSub x (fun u => { u with drive := none, parCount := satAdd u.parCount 1 }) with
    host := { s.host with cause := s.host.cause ||| BitVec.ofNat 4 (2 ^ subNo x), reports := rs }, flt := f, evt := e }

theorem State.parityError_hold (s : State) (x : Sub) : ∃ rs f e, (s.hold x).parityError x
    = if s.host.parStop = true ∧ (s.sub x).owner = .host then (s.parityNoted x rs f e).parityStop x
      else (s.parityNoted x rs f e).alertTrigger .parity := by
  obtain ⟨rs, f, e, reported⟩ := (((s.hold x).setSub x (fun u => { u with parCount := satAdd u.parCount 1 })).setCause
    (subNo x)).report_parity_form x
  refine ⟨rs, f, e, ?_⟩
  simp only [State.parityError, reported, Bool.and_eq_true, beq_iff_eq]
  cases x <;> rfl

/-! ## Host commands (O26) -/

/-- Settles O26: a command that is sampled and not discarded acts by its class (`State.obey`), and one with a parity error is
blocked and reported (`State.parityError_hold`). -/
theorem hostCommands : Obligations.HostCommands := by
  unfold Obligations.HostCommands
  refine ⟨fun x c s hs hk hc hd hp out own kind => ?passed, fun x c s hs hk hc hd hp out own => ?dropped,
    fun x c s hs idle => ?idle, fun x c s win hs hp hd hc mr => ?window, fun x c s hs hk hc hd hp bad single => ?parity,
    fun x c s low => ?reset⟩
  case passed =>
    obtain ⟨-, still⟩ := s.burstFrame_form x c.kind c.cs
    have obeys : s.obey x c = s.pass x c := by simp [State.obey, out, own]
    have next := (State.hostCommand_of_unchecked hs hk hc hd hp).trans (obeys.trans (State.pass_of_not_mrw kind))
    refine ⟨_, congrArg Host.Outcome.next next, ?_, ?_, fun wr wrp rd mrr => still wr wrp rd mrr⟩
    · cases x <;> rfl
    · cases x <;> rfl
  case dropped =>
    have obeys : s.obey x c = s.drop x := by simp [State.obey, out, own]
    obtain ⟨l, e, raised⟩ := State.raise_form _ 4 (BitVec.ofNat 24 (subNo x))
    have next := (State.hostCommand_of_unchecked hs hk hc hd hp).trans (obeys.trans raised)
    refine ⟨_, congrArg Host.Outcome.next next, ?_, ?_⟩
    · cases x <;> rfl
    · cases x <;> rfl
  case idle => exact congrArg Host.Outcome.next (State.hostCommand_of_no_command hs idle)
  case window =>
    have kinds : c.kind = .mrw ∨ c.kind = .mrr := by
      simp only [isWindow, Bool.and_eq_true, Bool.or_eq_true, beq_iff_eq] at win
      exact win.1.1
    have hk : c.kind ≠ .des := by rintro des; simp [des] at kinds
    obtain ⟨t, obeys, drive, drops⟩ : ∃ t, s.obey x c = t ∧ SameDrive x (s.hold x) t := by
      obtain mrw | mrr := kinds
      · exact ⟨_, by simp [State.obey, win, mrw], (s.hold x).winMrw_sameDrive x mr⟩
      · exact ⟨_, by simp [State.obey, win, mrr], (s.hold x).winMrr_sameDrive x mr⟩
    have next := (State.hostCommand_of_unchecked hs hk hc hd hp).trans obeys
    rw [State.hold_sub] at drive drops
    exact ⟨t, congrArg Host.Outcome.next next, drive, drops⟩
  case parity =>
    obtain ⟨rs, f, e, blocked⟩ := s.parityError_hold x
    have next : exec (.hostCommand x c) s = .next _ :=
      congrArg Host.Outcome.next ((State.hostCommand_of_parityBad hs hk hc hd hp bad single).trans blocked)
    by_cases stop : s.host.parStop = true ∧ (s.sub x).owner = .host
    · obtain ⟨e', stopped⟩ := (s.parityNoted x rs f e).parityStop_form x
      rw [if_pos stop, stopped] at next
      refine ⟨_, next, ?_⟩
      rw [if_pos stop]
      cases x <;> refine ⟨rfl, rfl, rfl, rfl, rfl, ⟨rfl, rfl, ?_, rfl, rfl, rfl⟩, rfl, rfl, rfl, rfl⟩ <;>
        simp [State.alertLow, State.alertHeld]
    · obtain ⟨p, q, m, asked⟩ := (s.parityNoted x rs f e).alertTrigger_form .parity
      have waits := State.alertTrigger_waitPar (s := s.parityNoted x rs f e)
      rw [asked] at waits
      rw [if_neg stop, asked] at next
      refine ⟨_, next, ?_⟩
      rw [if_neg stop]
      cases x <;> exact ⟨rfl, rfl, rfl, rfl, rfl, ⟨rfl, rfl, rfl, waits⟩, rfl, rfl, rfl, rfl⟩
  case reset =>
    have asleep : s.samples = false := by simp [State.samples, low]
    exact congrArg Host.Outcome.next (by simp [State.hostCommand, asleep])

end Sys2Proof.Machine

/-! SUPPORT. What ends a Polka (O38): the end of training on a subchannel, the end of a Resume, and a Polka that fails. -/

namespace Sys2Proof.Machine
open Sys2Proof

/-! ## The end of training (R86, R142) -/

/-- The fitted ranks are active. -/
def SubSt.awake (u : SubSt) : SubSt := { u with ranks := u.ranks.map (fun r => if r = .absent then r else .active) }

/-- A NOT_READY subchannel with its host (R86). -/
def SubSt.toHost (u : SubSt) : SubSt := if u.owner = .notReady then { u.awake with owner := .host } else u

theorem SubSt.toHost_of_notReady {u : SubSt} (own : u.owner = .notReady) : u.toHost = { u.awake with owner := .host } :=
  if_pos own

theorem SubSt.toHost_of_ne {u : SubSt} (own : u.owner ≠ .notReady) : u.toHost = u := if_neg own

theorem SubSt.awake_awake (u : SubSt) : u.awake.awake = u.awake := by
  have twice : (fun r : RankSt => if r = .absent then r else .active) ∘ (fun r => if r = .absent then r else .active)
      = fun r => if r = .absent then r else .active := by
    funext r
    cases r <;> rfl
  simp only [SubSt.awake, List.map_map, twice]

theorem SubSt.awake_toHost {u : SubSt} (own : u.owner = .notReady) : u.awake.toHost = { u.awake with owner := .host } := by
  rw [SubSt.toHost_of_notReady (u := u.awake) own, SubSt.awake_awake]

theorem SubSt.toHost_win (u : SubSt) : u.toHost.win = u.win := by
  unfold SubSt.toHost
  split <;> rfl

/-- READY_x of a subchannel is held back by a restore (R249). -/
def Hrd.readyHeld (h : Hrd) : Sub → Bool
  | .a => h.readyHeldA
  | .b => h.readyHeldB

section
variable (s : State)

theorem State.restoreHolds_of_still {s t : State} (h : t.still = s.still) : t.restoreHolds = s.restoreHolds := by
  have view : t.still.restoreHolds = s.still.restoreHolds := congrArg State.restoreHolds h
  exact view

@[simp] theorem State.trainFrames_still (x : Sub) (cs : List (BitVec 2)) : (s.trainFrames x cs).still = s.still :=
  foldl_kept State.still _ (fun t _ => t.dbcAll_still x _) _ _

@[simp] theorem State.calVref_still (u : Nat) (rxs : List Nat) (c : Bool) : (s.calVref u rxs c).still = s.still := by
  unfold State.calVref State.calBegin
  (repeat' split) <;> rfl

/-- The first READY_x starts calibrations, and is noted (R170). -/
theorem State.firstVref_still (x : Sub) :
    ∃ v, (s.firstVref x).still = (s.setTr x (fun t => { t with vrefDone := v })).still := by
  unfold State.firstVref
  split
  · exact ⟨(s.tr x).vrefDone, by cases x <;> rfl⟩
  · exact ⟨true, (foldl_kept State.still _ (fun t _ => t.calVref_still _ _ _) _ _).trans (State.calVref_still _ _ _ _)⟩

theorem State.setSub_congr {x : Sub} {f g : SubSt → SubSt} (h : f (s.sub x) = g (s.sub x)) : s.setSub x f = s.setSub x g := by
  cases x
  · exact congrArg (fun u => { s with subA := u }) h
  · exact congrArg (fun u => { s with subB := u }) h

/-- Training of a subchannel changed, and an event latched. -/
def State.trained (x : Sub) (f : TrainSub → TrainSub) (l : List Latch) : State :=
  { s.setTr x f with pow := { s.pow with latched := l } }

theorem State.trained_still (x : Sub) (f : TrainSub → TrainSub) (l : List Latch) :
    (s.trained x f l).still = s.still.trained x f l := by
  cases x <;> rfl

/-- TRM_TIME is noted, the first READY_x starts calibrations, and EV54 may be latched (R86, R170, R245). -/
theorem State.readyNoted_form (x : Sub) {f : TrainSub → TrainSub} (hf : ∀ t, (f t).phase = t.phase) (p : Bool) :
    ∃ l g, (if p then State.raise ((s.setTr x f).firstVref x) 54 0 else (s.setTr x f).firstVref x).still
        = (s.trained x g l).still
      ∧ ∀ t, (g t).phase = t.phase := by
  obtain ⟨v, noted⟩ := (s.setTr x f).firstVref_still x
  have latched : ∃ l, (if p then State.raise ((s.setTr x f).firstVref x) 54 0 else (s.setTr x f).firstVref x).still
      = State.trained ((s.setTr x f).firstVref x).still x id l := by
    split
    · obtain ⟨l, e, raised⟩ := ((s.setTr x f).firstVref x).raise_form 54 0
      exact ⟨l, by rw [raised]; cases x <;> rfl⟩
    · exact ⟨((s.setTr x f).firstVref x).pow.latched, by cases x <;> rfl⟩
  obtain ⟨l, latched⟩ := latched
  refine ⟨l, fun t => { f t with vrefDone := v }, ?_, hf⟩
  rw [latched, noted]
  cases x <;> rfl

/-- A subchannel goes to its host, if it is NOT_READY (R86). -/
theorem State.goHost_form (x : Sub) : ∃ l f, (s.goHost x).still = ((s.setSub x SubSt.toHost).trained x f l).still
    ∧ ∀ t, (f t).phase = t.phase := by
  by_cases own : (s.sub x).owner = .notReady
  case pos =>
    have ready : ((((s.setRanks x .active).copyCfg x).setDbs x (fun d => { d with hold := false })).setSub x
        (fun t => { t with owner := .host })).still = (s.setSub x SubSt.toHost).still := by
      have buffers : ∀ u : State, (u.setDbs x (fun d => { d with hold := false })).still = u.still := fun _ => rfl
      have host : s.setSub x SubSt.toHost = s.setSub x (fun u => { u.awake with owner := .host }) :=
        s.setSub_congr (SubSt.toHost_of_notReady own)
      rw [host, State.setSub_still, buffers, State.copyCfg_still, State.setRanks_eq, ← State.setSub_still]
      cases x <;> rfl
    unfold State.goHost
    rw [if_neg (by simp [own])]
    dsimp only
    generalize State.setSub _ x _ = u at ready ⊢
    obtain ⟨l, f, noted, phase⟩ := u.readyNoted_form x (f := fun t =>
      { t with ready := BitVec.ofNat 16 (min u.train.devMs 65535), reelDone := true }) (fun _ => rfl) _
    refine ⟨l, f, noted.trans ?_, phase⟩
    rw [State.trained_still, ready, ← State.trained_still]
  case neg =>
    have stays : s.goHost x = s := if_pos (by simpa using own)
    have same : s.setSub x SubSt.toHost = s.setSub x id := s.setSub_congr (SubSt.toHost_of_ne own)
    rw [stays, same]
    exact ⟨s.pow.latched, id, by cases x <;> rfl, fun _ => rfl⟩

/-- Training of a subchannel is over: DONE, its ranks awake and EV16, and READY_x, or its hold by a restore (R142, R249). -/
theorem State.trainDone_form (x : Sub) : ∃ l f g h,
    (s.trainDone x).still = State.still { (s.setSub x g).trained x f l with hrd := h } ∧ (∀ t, (f t).phase = .done)
      ∧ (s.restoreHolds = true ∧ g = SubSt.awake ∧ h.readyHeld x = true
        ∨ s.restoreHolds = false ∧ g = (fun u => u.awake.toHost) ∧ h = s.hrd) := by
  have done : ∀ n, ((((s.setPhase x .done).setRanks x .active).trainFrames x [0]).raise 16 n).still
      = ((s.setSub x SubSt.awake).setTr x (fun t => { t with phase := .done })).still := fun n => by
    rw [State.raise_still _ (by decide) (by decide), State.trainFrames_still, State.setRanks_eq]
    cases x <;> rfl
  unfold State.trainDone
  dsimp only
  specialize done (BitVec.ofNat 24
    (subNo x + 2 * (((s.setPhase x .done).setRanks x .active).trainFrames x [0]).train.path.toNat))
  generalize State.raise _ 16 _ = u at done ⊢
  have holds : u.restoreHolds = s.restoreHolds := by
    rw [State.restoreHolds_of_still done]
    cases x <;> rfl
  split
  case isTrue restore =>
    refine ⟨s.pow.latched, fun t => { t with phase := .done }, SubSt.awake,
      match x with
      | .a => { s.hrd with readyHeldA := true }
      | .b => { s.hrd with readyHeldB := true }, ?_, fun _ => rfl, Or.inl ⟨holds.symm.trans restore, rfl, ?_⟩⟩
    · cases x
      · exact (congrArg (fun v : State => { v with hrd := { v.hrd with readyHeldA := true } }) done :)
      · exact (congrArg (fun v : State => { v with hrd := { v.hrd with readyHeldB := true } }) done :)
    · cases x <;> rfl
  case isFalse host =>
    obtain ⟨l, f, gone, phase⟩ := u.goHost_form x
    refine ⟨l, fun t => f { t with phase := .done }, fun v => v.awake.toHost, s.hrd, gone.trans ?_, fun t => phase _,
      Or.inr ⟨holds.symm.trans (Bool.eq_false_iff.mpr host), rfl, rfl⟩⟩
    rw [State.trained_still, State.setSub_still, done]
    cases x <;> rfl

theorem State.trainDone_kept (x : Sub) : (∃ l, (s.trainDone x).pow = { s.pow with latched := l })
    ∧ (s.trainDone x).host = s.host ∧ (s.trainDone x).nv = s.nv ∧ (s.trainDone x).train.path = s.train.path
    ∧ (s.trainDone x).train.pairs = s.train.pairs ∧ ((s.trainDone x).tr x).phase = .done
    ∧ (∀ y, y ≠ x → (s.trainDone x).sub y = s.sub y ∧ (s.trainDone x).tr y = s.tr y)
    ∧ ∀ y, ((s.trainDone x).sub y).win = (s.sub y).win := by
  obtain ⟨l, f, g, h, form, phase, why⟩ := s.trainDone_form x
  have wins : ∀ u, (g u).win = u.win := by
    obtain ⟨-, rfl, -⟩ | ⟨-, rfl, -⟩ := why
    · exact fun _ => rfl
    · exact fun u => u.awake.toHost_win
  generalize s.trainDone x = t at form
  have tr : ∀ y, t.tr y = (State.trained (s.setSub x g) x f l).tr y :=
    fun y => (congrArg (fun u => u.tr y) form :)
  have sub : ∀ y, t.sub y = (State.trained (s.setSub x g) x f l).sub y :=
    fun y => (congrArg (fun u => u.sub y) form :)
  obtain ⟨-, -, nv, pow, -, -, host, -, -, train, -⟩ := State.kept_of_still form
  refine ⟨⟨l, ?_⟩, ?_, ?_, ?_, ?_, ?_, fun y other => ⟨?_, ?_⟩, fun y => ?_⟩
  · rw [pow]; cases x <;> rfl
  · rw [host]; cases x <;> rfl
  · rw [nv]; cases x <;> rfl
  · rw [train]; cases x <;> rfl
  · rw [train]; cases x <;> rfl
  · rw [tr]; cases x <;> exact phase _
  · rw [sub]; exact ((State.setTr_sub _ x y f).trans (State.setSub_sub_ne _ other g) :)
  · rw [tr]; exact ((State.setTr_tr_ne _ other f).trans (State.setSub_tr _ x y g) :)
  · rw [sub]
    match x, y with
    | .a, .a | .b, .b => exact wins _
    | .a, .b | .b, .a => rfl

/-- With no restore to come first the host takes over (R86). -/
theorem State.trainDone_sub_host {s : State} (free : s.restoreHolds = false) (x : Sub) :
    (s.trainDone x).sub x = (s.sub x).awake.toHost := by
  obtain ⟨l, f, g, h, form, -, ⟨held, -⟩ | ⟨-, rfl, -⟩⟩ := s.trainDone_form x
  · exact absurd held (by simp [free])
  · refine (congrArg (fun u => u.sub x) form :).trans ?_
    cases x <;> rfl

/-- A restore that comes first holds the subchannel back (R249). -/
theorem State.trainDone_held {s : State} (held : s.restoreHolds = true) (x : Sub) :
    (s.trainDone x).sub x = (s.sub x).awake ∧ (s.trainDone x).hrd.readyHeld x = true := by
  obtain ⟨l, f, g, h, form, -, ⟨-, rfl, ready⟩ | ⟨free, -⟩⟩ := s.trainDone_form x
  · refine ⟨(congrArg (fun u => u.sub x) form :).trans ?_, (congrArg (fun u => u.hrd.readyHeld x) form :).trans ready⟩
    cases x <;> rfl
  · exact absurd held (by simp [free])
end

/-! ## The end of a Resume (R67, R103, R207) -/

/-- Keep state WAKE ends in NORMAL and RUN, with its LAST_END (R67, R207). -/
def Pow.woken (p : Pow) (lastEnd : BitVec 3) : Pow :=
  if p.keep = .wake then { p with keep := .normal, dom := .run, lastEnd := lastEnd } else p

theorem Pow.woken_image (p : Pow) (e : BitVec 3) : (p.woken e).image = p.image := by
  unfold Pow.woken
  split <;> rfl

theorem Pow.woken_of_wake {p : Pow} (wake : p.keep = .wake) (e : BitVec 3) :
    (p.woken e).keep = .normal ∧ (p.woken e).dom = .run ∧ (p.woken e).lastEnd = e := by
  rw [Pow.woken, if_pos wake]
  exact ⟨rfl, rfl, rfl⟩

theorem State.wakeEnd_woken (s : State) (e : BitVec 3) :
    (s.wakeEnd e).still = State.still { s with pow := s.pow.woken e } := by
  by_cases wake : s.pow.keep = .wake
  · rw [State.wakeEnd_still wake, Pow.woken, if_pos wake]
  · have stays : s.wakeEnd e = s := if_pos (by simpa using wake)
    rw [stays, Pow.woken, if_neg wake]

/-- What a Resume leaves that ends with result `r` on window `w` (R103). -/
def State.resumed (s : State) (w : Sub) (r : BitVec 2) : State :=
  State.setWin { s with
    host := { s.host with resume := none }
    pow := if r = 1 then Pow.woken { s.pow with image := false } 1 else { s.pow with image := false } } w
    (fun v => { v with result := r })

theorem State.resumeEnd_still {s : State} {w : Sub} (running : s.host.resume = some w) (r : BitVec 2) :
    (s.resumeEnd r).still = (s.resumed w r).still := by
  unfold State.resumeEnd
  rw [running]
  dsimp only
  rw [State.raise_still _ (by decide) (by decide), State.setWin, State.setSub_still]
  split
  case isTrue passed => rw [State.wakeEnd_woken, ← State.setSub_still, State.resumed, if_pos passed, State.setWin]
  case isFalse failed => rw [← State.setSub_still, State.resumed, if_neg failed, State.setWin]

/-- The dropped image: WAKE ends with LAST_END 5, and the DRAMs are reset (R151, R227). -/
theorem State.dropImage_kept (s : State) (cause : BitVec 24) : (∃ l, (s.dropImage cause).pow =
      Pow.woken { s.pow with image := false, latched := l } 5)
    ∧ (s.dropImage cause).host = { s.host with yrst := false, yrstMs := 1 } ∧ (s.dropImage cause).train = s.train
    ∧ ∀ y, ((s.dropImage cause).sub y).win = (s.sub y).win := by
  obtain ⟨l, e, raised⟩ := State.raise_form { s with pow := { s.pow with image := false } } 29 cause
  have ended := State.wakeEnd_woken (State.raise { s with pow := { s.pow with image := false } } 29 cause) 5
  obtain ⟨-, -, -, pow, -, -, host, subA, subB, train, -⟩ := State.kept_of_still ended
  rw [raised] at pow host subA subB train
  unfold State.dropImage State.yrstPulse
  rw [raised]
  generalize State.wakeEnd _ 5 = u at pow host subA subB train ⊢
  obtain ⟨lowPow, -, lowHost, lowA, lowB, lowTrain, -⟩ := u.yrstLow_kept
  refine ⟨⟨l, ?_⟩, ?_, ?_, fun y => ?_⟩
  · dsimp only
    rw [lowPow, pow]
  · dsimp only
    rw [lowHost, host]
  · dsimp only
    rw [lowTrain, train]
  · cases y <;> simp only [State.sub, lowA, lowB, subA, subB]

/-- Training is over on both subchannels. -/
theorem State.bothDone_kept (s : State) : (∃ l, (subs.foldl State.trainDone s).pow = { s.pow with latched := l })
    ∧ (subs.foldl State.trainDone s).host = s.host ∧ (subs.foldl State.trainDone s).train.path = s.train.path
    ∧ (∀ y, ((subs.foldl State.trainDone s).tr y).phase = .done)
    ∧ ∀ y, ((subs.foldl State.trainDone s).sub y).win = (s.sub y).win := by
  have both : subs.foldl State.trainDone s = (s.trainDone .a).trainDone .b := rfl
  obtain ⟨⟨l, powA⟩, hostA, -, pathA, -, doneA, -, winA⟩ := s.trainDone_kept .a
  rw [both]
  generalize s.trainDone .a = u at *
  obtain ⟨⟨m, powB⟩, hostB, -, pathB, -, doneB, others, winB⟩ := u.trainDone_kept .b
  refine ⟨⟨m, by rw [powB, powA]⟩, hostB.trans hostA, pathB.trans pathA, fun y => ?_, fun y => (winB y).trans (winA y)⟩
  cases y
  · rw [(others .a (by decide)).2]
    exact doneA
  · exact doneB

/-! ## The working record is discarded (R142) -/

/-- Entries of a table that an operation on some of them clears. -/
theorem nth_foldl_upd_clear {α β : Type} (g : α → β) {f : α → α} {v : β} (hf : ∀ d, g (f d) = v) (ks : List Nat) (n : Nat)
    (d : α) (l : List α) : g (nth (ks.foldl (fun l k => upd l k f) l) n d)
      = if n ∈ ks ∧ n < l.length then v else g (nth l n d) := by
  induction ks generalizing l with
  | nil => simp
  | cons k ks ih =>
    have length : (upd l k f).length = l.length := List.length_modify ..
    rw [List.foldl_cons, ih, length]
    by_cases at_k : n = k
    · subst at_k
      by_cases present : n < l.length
      · simp [present, nth_upd_self present, hf]
      · simp [nth, upd, List.getD_eq_getElem?_getD, present]
    · simp [at_k, nth_upd_ne l at_k]

theorem mem_subDbs {n : Nat} {x : Sub} (small : n < 10) (own : (if n < 5 then Sub.a else .b) = x) : n ∈ subDbs x := by
  subst own
  split <;> simp only [subDbs, List.mem_cons, List.not_mem_nil, or_false] <;> omega

/-- Training of a subchannel with the values of a reset. -/
def TrainSub.discarded (t : TrainSub) : TrainSub := { t with replayed := false, gens := [], ca := caReset, caRef := caReset }

/-- Buffer `n` loses its taps, and the generations of its receivers. -/
def State.forgetDb (s : State) (n : Nat) : State :=
  { s.setDb n (fun b => { b with taps := [] }) with
    train := { s.train with dbGens := upd s.train.dbGens n (fun _ => []), dbRefs := upd s.train.dbRefs n (fun _ => []) } }

theorem State.forgetDbs_eq (ks : List Nat) (s : State) : ∃ g r, ks.foldl State.forgetDb s =
    { s with
      dbs := ks.foldl (fun l n => upd l n (fun b => { b with taps := [] })) s.dbs
      train := { s.train with dbGens := g, dbRefs := r } } := by
  induction ks generalizing s with
  | nil => exact ⟨s.train.dbGens, s.train.dbRefs, rfl⟩
  | cons k ks ih =>
    obtain ⟨g, r, eq⟩ := ih (s.forgetDb k)
    exact ⟨g, r, eq⟩

theorem State.discardWork_eq (s : State) (x : Sub) : ∃ g r, s.discardWork x =
    { s with
      dbs := (subDbs x).foldl (fun l n => upd l n (fun b => { b with taps := [] })) s.dbs
      train := { (s.setTr x TrainSub.discarded).train with dbGens := g, dbRefs := r } } := by
  have forgets : s.discardWork x = (subDbs x).foldl State.forgetDb (s.setTr x TrainSub.discarded) := rfl
  obtain ⟨g, r, eq⟩ := State.forgetDbs_eq (subDbs x) (s.setTr x TrainSub.discarded)
  refine ⟨g, r, forgets.trans (eq.trans ?_)⟩
  cases x <;> rfl

theorem State.discardWork_kept (s : State) (x : Sub) : (s.discardWork x).nv = s.nv ∧ (s.discardWork x).host = s.host
    ∧ (s.discardWork x).pow = s.pow ∧ (s.discardWork x).subA = s.subA ∧ (s.discardWork x).subB = s.subB
    ∧ (s.discardWork x).train.path = s.train.path ∧ (s.discardWork x).train.coldCause = s.train.coldCause
    ∧ (s.discardWork x).train.pairs = s.train.pairs ∧ (s.discardWork x).tr x = (s.tr x).discarded
    ∧ ∀ y, y ≠ x → (s.discardWork x).tr y = s.tr y := by
  obtain ⟨g, r, eq⟩ := s.discardWork_eq x
  rw [eq]
  refine ⟨rfl, rfl, rfl, rfl, rfl, ?_, ?_, ?_, ?_, fun y other => ?_⟩
  · cases x <;> rfl
  · cases x <;> rfl
  · cases x <;> rfl
  · cases x <;> rfl
  · refine Eq.trans ?_ (s.setTr_tr_ne other TrainSub.discarded)
    cases y <;> rfl

theorem State.discardWork_taps (s : State) {x : Sub} {n : Nat} (own : n ∈ subDbs x) :
    ((s.discardWork x).db n).taps = if n < s.dbs.length then [] else (s.db n).taps := by
  have fold := nth_foldl_upd_clear Db.taps (f := fun d => { d with taps := [] }) (fun _ => rfl) (subDbs x) n Db.fresh s.dbs
  obtain ⟨g, r, eq⟩ := s.discardWork_eq x
  rw [eq]
  simp only [own, true_and] at fold
  exact fold

/-- TRAIN frames leave the taps (R118). -/
theorem State.trainFrames_taps (s : State) (x : Sub) (cs : List (BitVec 2)) (n : Nat) :
    ((s.trainFrames x cs).db n).taps = (s.db n).taps :=
  foldl_kept (fun t => (t.db n).taps) _ (fun t _ => t.dbcCmd_db_kept x Db.taps (fun _ => rfl) n) _ _

/-- A subchannel that failed Polka in a Resume trains cold from INIT (R151). -/
def State.coldAgain (s : State) (y : Sub) : State :=
  (((s.discardWork y).setPhase y .init).setRanks y .active).setTr y (fun t => { t with
    rankFail := 0, want := 0, reelDone := false, skip := false })

theorem State.coldAgain_kept (s : State) (y : Sub) : (s.coldAgain y).host = s.host ∧ (s.coldAgain y).pow = s.pow
    ∧ (s.coldAgain y).train.path = s.train.path ∧ (s.coldAgain y).train.coldCause = s.train.coldCause
    ∧ ((s.coldAgain y).tr y).phase = .init ∧ (∀ z, z ≠ y → (s.coldAgain y).tr z = s.tr z)
    ∧ ∀ z, ((s.coldAgain y).sub z).win = (s.sub z).win := by
  obtain ⟨-, host, pow, subA, subB, path, cause, -, -, others⟩ := s.discardWork_kept y
  have wins : ∀ z, ((s.discardWork y).sub z).win = (s.sub z).win := fun z => by
    cases z
    · exact congrArg SubSt.win subA
    · exact congrArg SubSt.win subB
  unfold State.coldAgain
  generalize s.discardWork y = u at *
  refine ⟨Eq.trans ?_ host, Eq.trans ?_ pow, Eq.trans ?_ path, Eq.trans ?_ cause, ?_, fun z other => ?_, fun z => ?_⟩
  · cases y <;> rfl
  · cases y <;> rfl
  · cases y <;> rfl
  · cases y <;> rfl
  · cases y <;> rfl
  · rw [← others z other]
    match y, z with
    | .a, .b | .b, .a => rfl
    | .a, .a | .b, .b => exact absurd rfl other
  · rw [← wins z]
    cases y <;> cases z <;> rfl

theorem State.bothCold_kept (s : State) : (subs.foldl State.coldAgain s).host = s.host
    ∧ (subs.foldl State.coldAgain s).pow = s.pow ∧ (subs.foldl State.coldAgain s).train.path = s.train.path
    ∧ (subs.foldl State.coldAgain s).train.coldCause = s.train.coldCause
    ∧ (∀ y, ((subs.foldl State.coldAgain s).tr y).phase = .init)
    ∧ ∀ y, ((subs.foldl State.coldAgain s).sub y).win = (s.sub y).win := by
  have both : subs.foldl State.coldAgain s = (s.coldAgain .a).coldAgain .b := rfl
  obtain ⟨hostA, powA, pathA, causeA, initA, -, winA⟩ := s.coldAgain_kept .a
  rw [both]
  generalize s.coldAgain .a = u at *
  obtain ⟨hostB, powB, pathB, causeB, initB, others, winB⟩ := u.coldAgain_kept .b
  refine ⟨hostB.trans hostA, powB.trans powA, pathB.trans pathA, causeB.trans causeA, fun y => ?_,
    fun y => (winB y).trans (winA y)⟩
  cases y
  · rw [others .a (by decide)]
    exact initA
  · exact initB

/-! ## The end of Polka (R150) -/

/-- The pairs that Polka repeated are counted (R150). -/
def State.judged (s : State) (x : Sub) (dies : List PolkaDie) : State :=
  { s with train := { s.train with pairs := satAdd s.train.pairs (s.polkaJudge x dies).2 } }

theorem State.judged_form (s : State) (x : Sub) (dies : List PolkaDie) : ∃ t, s.judged x dies = { s with train := t }
    ∧ t.pairs = satAdd s.train.pairs (s.polkaJudge x dies).2 ∧ t.path = s.train.path ∧ t.a = s.train.a ∧ t.b = s.train.b :=
  ⟨_, rfl, rfl, rfl, rfl, rfl⟩

section
variable {s : State} {x : Sub} {dies : List PolkaDie}

theorem exec_polkaDone (up : s.up = true) (dom : s.pow.dom ≠ .save) (phase : (s.tr x).phase = .polka)
    (trains : s.trains = true) : exec (.polkaDone x dies) s = .next
      (if (s.polkaJudge x dies).1 = 0 then (s.judged x dies).polkaPass x
        else if s.host.resume.isSome then (s.judged x dies).polkaFailResume x (s.polkaJudge x dies).1
        else (s.judged x dies).polkaFail x (s.polkaJudge x dies).1) := by
  have saves : ¬ (s.pow.dom == .save) = true := by simpa using dom
  have judges : ¬ ((s.tr x).phase != .polka || !s.trains) = true := by simp [phase, trains]
  change execPolkaDone x dies s = _
  unfold execPolkaDone State.polkaDone
  rw [if_neg (by simp [up]), if_neg saves, if_neg judges]
  rfl

/-- What Polka leaves that passes with no Resume running, before training ends (R142). -/
def State.warmed (s : State) : State :=
  (s.setPath (if s.train.path.toNat = 2 || s.train.path.toNat = 4 || s.train.path.toNat = 5
    then s.train.path.toNat else 1)).publish true

theorem State.polkaPass_boot (s : State) (x : Sub) (alone : s.host.resume = none) :
    s.polkaPass x = s.warmed.trainDone x := by
  rw [State.polkaPass, alone]
  rfl

/-- PATH stands at 2, 4 and 5, and becomes 1 otherwise (R142). -/
theorem State.warmed_path (s : State) : s.warmed.train.path =
    if s.train.path = 2 ∨ s.train.path = 4 ∨ s.train.path = 5 then s.train.path else 1 := by
  have path : s.warmed.train.path = BitVec.ofNat 3 (if s.train.path.toNat = 2 || s.train.path.toNat = 4
      || s.train.path.toNat = 5 then s.train.path.toNat else 1) := rfl
  have codes : ∀ p : BitVec 3, BitVec.ofNat 3 (if p.toNat = 2 || p.toNat = 4 || p.toNat = 5 then p.toNat else 1)
      = if p = 2 ∨ p = 4 ∨ p = 5 then p else 1 := by decide
  rw [path, codes]

/-- A restore to come, the subchannels and their training stand as before. -/
theorem State.warmed_kept (s : State) : s.warmed.restoreHolds = s.restoreHolds ∧ (∀ y, s.warmed.sub y = s.sub y)
    ∧ (∀ y, s.warmed.tr y = s.tr y) ∧ s.warmed.pow = s.pow ∧ s.warmed.nv = s.nv ∧ s.warmed.train.pairs = s.train.pairs :=
  ⟨rfl, fun y => by cases y <;> rfl, fun y => by cases y <;> rfl, rfl, rfl, rfl⟩

/-- Polka passes while a Resume runs (R103). -/
def State.resumePassed (s : State) (x : Sub) : State := ((s.setPath 3).publish true).setPhase x .done

/-- The other subchannel has not passed yet. -/
theorem State.polkaPass_waits {s : State} {x y : Sub} (running : s.host.resume.isSome = true)
    (waits : ((s.resumePassed x).tr y).phase ≠ .done) : s.polkaPass x = s.resumePassed x := by
  have one : ¬ ((s.resumePassed x).train.a.phase == .done && (s.resumePassed x).train.b.phase == .done) = true := by
    simp only [Bool.and_eq_true, beq_iff_eq]
    rintro ⟨a, b⟩
    cases y
    · exact waits a
    · exact waits b
  unfold State.polkaPass
  rw [if_pos running]
  exact if_neg one

/-- Both subchannels have passed. -/
theorem State.polkaPass_ends {s : State} {x : Sub} (running : s.host.resume.isSome = true)
    (passed : ∀ y, ((s.resumePassed x).tr y).phase = .done) :
    s.polkaPass x = subs.foldl State.trainDone ((s.resumePassed x).resumeEnd 1) := by
  have both : ((s.resumePassed x).train.a.phase == .done && (s.resumePassed x).train.b.phase == .done) = true := by
    simp only [Bool.and_eq_true, beq_iff_eq]
    exact ⟨passed .a, passed .b⟩
  unfold State.polkaPass
  rw [if_pos running]
  exact if_pos both
end

/-- Training starts cold with path `p`, after a Polka that failed (R140, R142, R151). -/
def State.cold (s : State) (p : Nat) : State :=
  ({ s with train := { s.train with coldCause := 7 } }.setPath p).publish false

/-- Reel starts with the working record discarded (R142). -/
def State.reelAgain (s : State) (x : Sub) : State :=
  ((s.discardWork x).setPhase x .reel).trainFrames x (trainCodes .reel)

theorem State.reelAgain_kept (s : State) (x : Sub) : (s.reelAgain x).nv = s.nv ∧ (s.reelAgain x).subA = s.subA
    ∧ (s.reelAgain x).subB = s.subB ∧ (s.reelAgain x).train.path = s.train.path
    ∧ (s.reelAgain x).train.coldCause = s.train.coldCause ∧ (s.reelAgain x).train.pairs = s.train.pairs
    ∧ (s.reelAgain x).tr x = { (s.tr x).discarded with phase := .reel } := by
  obtain ⟨nv, -, -, subA, subB, path, cause, pairs, tr, -⟩ := s.discardWork_kept x
  unfold State.reelAgain
  generalize s.discardWork x = u at nv subA subB path cause pairs tr ⊢
  have frames := State.kept_of_still ((u.setPhase x .reel).trainFrames_still x (trainCodes .reel))
  generalize (u.setPhase x .reel).trainFrames x _ = t at frames ⊢
  obtain ⟨-, -, tnv, -, -, -, -, tA, tB, train, -⟩ := frames
  rw [tnv, tA, tB, train, ← tr]
  refine ⟨Eq.trans ?_ nv, Eq.trans ?_ subA, Eq.trans ?_ subB, Eq.trans ?_ path, Eq.trans ?_ cause, Eq.trans ?_ pairs, ?_⟩
  case refine_7 =>
    cases x
    · exact congrArg Train.a train
    · exact congrArg Train.b train
  all_goals cases x <;> rfl

theorem State.reelAgain_taps (s : State) {x : Sub} {n : Nat} (own : n ∈ subDbs x) :
    ((s.reelAgain x).db n).taps = if n < s.dbs.length then [] else (s.db n).taps := by
  have phase : ∀ u : State, ((u.setPhase x .reel).db n).taps = (u.db n).taps := fun u => by cases x <;> rfl
  exact (State.trainFrames_taps _ x _ n).trans ((phase _).trans (s.discardWork_taps own))

/-- Polka fails on a boot: REEL with PATH 4 and COLD_CAUSE 7 (R142). -/
theorem State.polkaFail_kept (s : State) (x : Sub) (check : Nat) : ((s.polkaFail x check).tr x).phase = .reel
    ∧ (s.polkaFail x check).train.path = 4 ∧ (s.polkaFail x check).train.coldCause = 7
    ∧ ((s.polkaFail x check).tr x).replayed = false ∧ ((s.polkaFail x check).tr x).ca = caReset
    ∧ (∀ n, n ∈ subDbs x → ((s.polkaFail x check).db n).taps = if n < s.dbs.length then [] else (s.db n).taps)
    ∧ (s.polkaFail x check).subA = s.subA ∧ (s.polkaFail x check).subB = s.subB
    ∧ (s.polkaFail x check).train.pairs = s.train.pairs ∧ (s.polkaFail x check).nv = s.nv := by
  obtain ⟨l, e, raised⟩ := s.raise_form 18 (BitVec.ofNat 24 (subNo x + 2 * check))
  have steps : s.polkaFail x check = ((s.raise 18 (BitVec.ofNat 24 (subNo x + 2 * check))).cold 4).reelAgain x := rfl
  rw [steps, raised]
  generalize entry : State.cold _ 4 = v
  obtain ⟨nv, subA, subB, path, cause, pairs, tr⟩ := v.reelAgain_kept x
  have taps : ∀ n, n ∈ subDbs x → _ := fun n own => v.reelAgain_taps own
  rw [nv, subA, subB, path, cause, pairs, tr]
  subst entry
  exact ⟨rfl, rfl, rfl, rfl, rfl, taps, rfl, rfl, rfl, rfl⟩

/-- Polka fails in a Resume on window `w` (R103, R151). -/
theorem State.polkaFailResume_kept {s : State} {w : Sub} (running : s.host.resume = some w) (x : Sub) (check : Nat) :
    let t := s.polkaFailResume x check
    t.host.resume = none ∧ t.host.yrst = false ∧ t.host.yrstMs = 1 ∧ t.train.path = 5 ∧ t.train.coldCause = 7
      ∧ (∀ y, (t.tr y).phase = .init) ∧ (t.sub w).win.result = 2
      ∧ ∃ l, t.pow = Pow.woken { s.pow with image := false, latched := l } 5 := by
  obtain ⟨k, e, raised⟩ := s.raise_form 18 (BitVec.ofNat 24 (subNo x + 2 * check))
  have steps : s.polkaFailResume x check = subs.foldl State.coldAgain
      ((((s.raise 18 (BitVec.ofNat 24 (subNo x + 2 * check))).resumeEnd 2).dropImage 2).cold 5) := rfl
  have ended := State.resumeEnd_still (s := s.raise 18 (BitVec.ofNat 24 (subNo x + 2 * check))) (w := w)
    (by rw [raised]; exact running) 2
  have result : (((s.raise 18 (BitVec.ofNat 24 (subNo x + 2 * check))).resumeEnd 2).sub w).win.result = 2 :=
    (congrArg (fun u => (u.sub w).win.result) ended :).trans (by cases w <;> rfl)
  obtain ⟨-, -, -, endPow, -, -, endHost, -⟩ := State.kept_of_still ended
  dsimp only
  rw [steps]
  generalize State.resumeEnd _ 2 = u at endPow endHost result ⊢
  obtain ⟨⟨l, dropPow⟩, dropHost, -, dropWin⟩ := u.dropImage_kept 2
  generalize u.dropImage 2 = v at dropPow dropHost dropWin ⊢
  obtain ⟨host, pow, path, cause, init, win⟩ := (v.cold 5).bothCold_kept
  rw [host, pow, path, cause, win]
  have cold : (v.cold 5).host = v.host ∧ (v.cold 5).pow = v.pow ∧ (v.cold 5).sub w = v.sub w :=
    ⟨rfl, rfl, by cases w <;> rfl⟩
  obtain ⟨coldHost, coldPow, coldSub⟩ := cold
  rw [coldHost, coldPow, coldSub, dropHost, dropPow, dropWin, endHost, endPow, raised]
  refine ⟨by cases w <;> rfl, rfl, rfl, rfl, rfl, init, result, l, ?_⟩
  cases w <;> rfl

theorem State.resumePassed_kept (s : State) (x : Sub) : (s.resumePassed x).host = s.host ∧ (s.resumePassed x).pow = s.pow
    ∧ (s.resumePassed x).train.path = 3 ∧ ((s.resumePassed x).tr x).phase = .done
    ∧ ∀ y, y ≠ x → (s.resumePassed x).tr y = s.tr y := by
  refine ⟨?_, ?_, ?_, ?_, fun y other => (State.setTr_tr_ne _ other _).trans ?_⟩
  · cases x <;> rfl
  · cases x <;> rfl
  · cases x <;> rfl
  · cases x <;> rfl
  · cases y <;> rfl

/-- There are two subchannels. -/
theorem Sub.eq_of_ne {x y z : Sub} (hz : z ≠ x) (hy : y ≠ x) : z = y := by
  cases x <;> cases y <;> cases z <;> trivial

/-- With both subchannels passed the Resume on window `w` ends with RESULT 1 (R103). -/
theorem State.resumePassed_ends {s : State} {w : Sub} (running : s.host.resume = some w) :
    let t := subs.foldl State.trainDone (s.resumeEnd 1)
    t.host.resume = none ∧ (t.sub w).win.result = 1 ∧ t.train.path = s.train.path ∧ (∀ y, (t.tr y).phase = .done)
      ∧ ∃ l, t.pow = { Pow.woken { s.pow with image := false } 1 with latched := l } := by
  have ended := State.resumeEnd_still running 1
  have result : ((s.resumeEnd 1).sub w).win.result = 1 :=
    (congrArg (fun u => (u.sub w).win.result) ended :).trans (by cases w <;> rfl)
  obtain ⟨-, -, -, endPow, -, -, endHost, -, -, endTrain, -⟩ := State.kept_of_still ended
  dsimp only
  generalize s.resumeEnd 1 = u at endPow endHost endTrain result ⊢
  obtain ⟨⟨l, pow⟩, host, path, done, win⟩ := u.bothDone_kept
  rw [pow, host, path, win, endPow, endHost, endTrain]
  refine ⟨by cases w <;> rfl, result, by cases w <;> rfl, done, l, ?_⟩
  cases w <;> rfl

/-- Polka passes in a Resume on window `w`, which goes on while the other subchannel has not passed (R103). -/
theorem State.polkaPass_resumed {s : State} {w : Sub} (running : s.host.resume = some w) (x : Sub) :
    let t := s.polkaPass x
    (t.tr x).phase = .done ∧ t.train.path = 3
      ∧ (∀ y, y ≠ x → (s.tr y).phase ≠ .done → t.host.resume = some w ∧ t.pow = s.pow ∧ t.tr y = s.tr y)
      ∧ ∀ y, y ≠ x → (s.tr y).phase = .done → t.host.resume = none ∧ t.pow.image = false ∧ (t.sub w).win.result = 1
        ∧ (s.pow.keep = .wake → t.pow.keep = .normal ∧ t.pow.dom = .run ∧ t.pow.lastEnd = 1) := by
  have runs : s.host.resume.isSome = true := by rw [running]; rfl
  obtain ⟨host, pow, path, done, others⟩ := s.resumePassed_kept x
  dsimp only
  by_cases passed : ∀ y, ((s.resumePassed x).tr y).phase = .done
  case pos =>
    rw [State.polkaPass_ends runs passed]
    obtain ⟨resume, result, ended, dones, l, woken⟩ :=
      State.resumePassed_ends (s := s.resumePassed x) (w := w) (by rw [host]; exact running)
    refine ⟨dones x, ended.trans path, fun y other waits => ?_, fun y other _ => ⟨resume, ?_, result, fun wake => ?_⟩⟩
    · exact absurd (others y other ▸ passed y) waits
    · rw [woken]
      exact Pow.woken_image _ 1
    · rw [woken, pow]
      exact Pow.woken_of_wake (p := { s.pow with image := false }) wake 1
  case neg =>
    obtain ⟨_, unpassed⟩ := not_forall.mp passed
    rw [State.polkaPass_waits runs unpassed]
    refine ⟨done, path, fun y other _ => ⟨?_, pow, others y other⟩, fun y other finished => absurd (fun z => ?_) passed⟩
    · rw [host]
      exact running
    · by_cases self : z = x
      · exact self ▸ done
      · rw [others z self, Sub.eq_of_ne self other]
        exact finished

/-- Settles O38: each way that Polka ends, from what ends training (`State.trainDone_kept`), a Resume
(`State.resumeEnd_still`) and a boot or a Resume that fails (`State.polkaFail_kept`, `State.polkaFailResume_kept`). -/
theorem polkaEnds : Obligations.PolkaEnds := by
  unfold Obligations.PolkaEnds
  intro x dies s up dom phase trains
  have run := exec_polkaDone (dies := dies) up dom phase trains
  obtain ⟨train, judged, judgedPairs, judgedPath, judgedA, judgedB⟩ := s.judged_form x dies
  rw [judged] at run
  have judgedTr : ∀ y, State.tr { s with train := train } y = s.tr y := fun y => by cases y; exacts [judgedA, judgedB]
  rw [← judgedPairs]
  refine ⟨fun pass alone free own => ?_, fun pass alone held => ?_, fun w pass running => ?_, fun fail alone => ?_,
    fun w fail running => ?_⟩
  case refine_1 =>
    rw [if_pos pass, State.polkaPass_boot { s with train := train } x alone] at run
    refine ⟨_, run, ?_⟩
    obtain ⟨restore, sub, tr, warmPow, warmNv, warmPairs⟩ := State.warmed_kept { s with train := train }
    have path := State.warmed_path { s with train := train }
    generalize State.warmed _ = u at restore sub tr warmPow warmNv warmPairs path ⊢
    obtain ⟨⟨l, pow⟩, -, nv, donePath, pairs, done, others, -⟩ := u.trainDone_kept x
    have host := State.trainDone_sub_host (restore.trans free) x
    rw [sub, SubSt.awake_toHost (u := State.sub { s with train := train } x) own] at host
    rw [host, nv, donePath, pairs, pow, path, warmPow, warmNv, warmPairs, ← judgedPath]
    exact ⟨done, rfl, rfl, rfl, rfl, fun y other => ⟨(others y other).1.trans (sub y),
      (others y other).2.trans ((tr y).trans (judgedTr y))⟩, rfl, rfl⟩
  case refine_2 =>
    rw [if_pos pass, State.polkaPass_boot { s with train := train } x alone] at run
    refine ⟨_, run, ?_⟩
    obtain ⟨restore, sub, -⟩ := State.warmed_kept { s with train := train }
    generalize State.warmed _ = u at restore sub ⊢
    obtain ⟨-, -, -, -, -, done, -⟩ := u.trainDone_kept x
    obtain ⟨asleep, ready⟩ := State.trainDone_held (restore.trans held) x
    refine ⟨done, ?_, ?_⟩
    · rw [asleep, sub]
      rfl
    · cases x
      · exact ready
      · exact ready
  case refine_3 =>
    rw [if_pos pass] at run
    obtain ⟨done, path, waits, ends⟩ := State.polkaPass_resumed (s := { s with train := train }) running x
    simp only [judgedTr] at waits ends
    exact ⟨_, run, done, path, waits, ends⟩
  case refine_4 =>
    rw [if_neg fail, if_neg (by simp [alone])] at run
    obtain ⟨reel, path, cause, replayed, ca, taps, subA, subB, pairs, nv⟩ :=
      State.polkaFail_kept { s with train := train } x (s.polkaJudge x dies).1
    exact ⟨_, run, reel, path, cause, replayed, ca, fun n small own => taps n (mem_subDbs small own), subA, subB, pairs, nv⟩
  case refine_5 =>
    rw [if_neg fail, if_pos (by simp [running])] at run
    obtain ⟨resume, yrst, yrstMs, path, cause, init, result, l, pow⟩ :=
      State.polkaFailResume_kept (s := { s with train := train }) running x (s.polkaJudge x dies).1
    refine ⟨_, run, resume, ?_, yrst, yrstMs, path, cause, init .a, init .b, result, fun wake => ?_⟩
    · rw [pow, Pow.woken_image]
    · rw [pow]
      exact Pow.woken_of_wake (p := { s.pow with image := false, latched := l }) wake 5

end Sys2Proof.Machine

/-! SUPPORT. DBC frames in the buffers of a subchannel (O31). -/

namespace Sys2Proof.Machine
open Sys2Proof

/-! ## The buffers of one subchannel (R111, R118) -/

theorem mem_subDbs_iff {n : Nat} {x : Sub} : n ∈ subDbs x ↔ n < 10 ∧ (if n < 5 then Sub.a else .b) = x := by
  refine ⟨fun h => ?_, fun h => mem_subDbs h.1 h.2⟩
  have each : ∀ m ∈ subDbs x, m < 10 ∧ (if m < 5 then Sub.a else .b) = x := by cases x <;> decide
  exact each n h

theorem subDbs_nodup (x : Sub) : (subDbs x).Nodup := by cases x <;> decide

/-- Entries of a table that are each changed once. -/
theorem nth_foldl_upd {α : Type} (f : Nat → α → α) (n : Nat) (d : α) {ks : List Nat} (once : ks.Nodup) (l : List α) :
    nth (ks.foldl (fun l k => upd l k (f k)) l) n d
      = if n ∈ ks ∧ n < l.length then f n (nth l n d) else nth l n d := by
  induction ks generalizing l with
  | nil => simp
  | cons k ks ih =>
    obtain ⟨fresh, once⟩ := List.nodup_cons.mp once
    have length : (upd l k (f k)).length = l.length := List.length_modify ..
    rw [List.foldl_cons, ih once, length]
    by_cases at_k : n = k
    · subst at_k
      by_cases present : n < l.length
      · simp [fresh, present, nth_upd_self present]
      · simp [fresh, present, nth, upd, List.getD_eq_getElem?_getD]
    · simp [at_k, nth_upd_ne l at_k]

/-- Every buffer of a subchannel that the table holds does `f`; nothing else changes. -/
def State.EachDb (x : Sub) (f : Nat → Db → Db) (s t : State) : Prop :=
  t = { s with dbs := t.dbs }
    ∧ ∀ n, t.db n = if n < s.dbs.length ∧ n < 10 ∧ (if n < 5 then Sub.a else .b) = x then f n (s.db n) else s.db n

theorem State.eachDb_foldl (s : State) (x : Sub) (f : Nat → Db → Db) :
    s.EachDb x f { s with dbs := (subDbs x).foldl (fun l n => upd l n (f n)) s.dbs } := by
  refine ⟨rfl, fun n => ?_⟩
  refine (nth_foldl_upd f n Db.fresh (subDbs_nodup x) s.dbs).trans ?_
  simp only [mem_subDbs_iff, and_comm]
  rfl

theorem State.EachDb.congr {x : Sub} {f g : Nat → Db → Db} {s t : State} (h : s.EachDb x f t)
    (same : ∀ n d, f n d = g n d) : s.EachDb x g t := by
  have eq : f = g := funext fun n => funext (same n)
  exact eq ▸ h

/-- A DBC command that the buffers hear, in each of them (R118). -/
theorem State.dbcCmd_eachDb {s : State} (on : s.dbcOn = true) (x : Sub) (c : DbcCmd) :
    s.EachDb x (fun _ d => d.obey c) (s.dbcCmd x c) := by
  have heard : s.dbcCmd x c = s.setDbs x (·.obey c) := by simp [State.dbcCmd, State.dbcAll, on]
  rw [heard]
  exact s.eachDb_foldl x _

/-- A DBC command whose meaning in one buffer is `f`. -/
theorem State.dbcCmd_next {s : State} (on : s.dbcOn = true) (x : Sub) (c : DbcCmd) {f : Nat → Db → Db}
    (means : ∀ n d, d.obey c = f n d) : ∃ t, (.next (s.dbcCmd x c) : Out) = .next t ∧ s.EachDb x f t :=
  ⟨_, rfl, (s.dbcCmd_eachDb on x c).congr means⟩

theorem upd_id {α : Type} (l : List α) (i : Nat) : upd l i (fun d => d) = l := List.modify_id i l

theorem State.dbcCmd_nop (s : State) (x : Sub) : s.dbcCmd x .nop = s := by
  unfold State.dbcCmd State.dbcAll State.setDbs
  split
  · have fold : ∀ ks : List Nat, ks.foldl (fun l n => upd l n (fun d : Db => d.obey .nop)) s.dbs = s.dbs := fun ks => by
      induction ks with
      | nil => rfl
      | cons k ks ih => exact (congrArg (fun l => ks.foldl _ l) (upd_id s.dbs k)).trans ih
    rw [fold]
  · rfl

/-! ## WR with write CRC (R113, R114, R121) -/

theorem mod_four_eq_testBits (b : Nat) : b % 4 = (b.testBit 0).toNat + 2 * (b.testBit 1).toNat := by
  simp only [Nat.toNat_testBit]
  omega

@[simp] theorem satAdd_zero {n : Nat} (c : BitVec n) : satAdd c 0 = c := by
  simp [satAdd, c.isLt]

/-- A WR frame in a buffer of which nibble `i` fails its CRC where `miss i`. -/
def wrMissed (rank : BitVec 2) (chk miss0 miss1 : Bool) (d : Db) : Db :=
  if d.hold then d else { d with
    burst := some ⟨true, rank, chk, BitVec.ofBool miss1 ++ BitVec.ofBool miss0⟩
    crc0 := if miss0 then satAdd d.crc0 1 else d.crc0, crc1 := if miss1 then satAdd d.crc1 1 else d.crc1
    dbe := if (miss0 ∨ miss1) ∧ d.dbe = none then some false else d.dbe
    dbeNext := if (miss0 ∨ miss1) ∧ d.dbe ≠ none then some (d.dbeNext == some true) else d.dbeNext }

theorem wrFrame_eq_wrMissed (rank : BitVec 2) (chk : Bool) (bad : Nat) (d : Db) : wrFrame rank chk bad d
    = wrMissed rank chk (chk && bitAt d.cfg 15 && bad.testBit 0) (chk && bitAt d.cfg 15 && bad.testBit 1) d := by
  have count : (if (chk && bitAt d.cfg 15) = true then bad % 4 else 0)
      = (chk && bitAt d.cfg 15 && bad.testBit 0).toNat + 2 * (chk && bitAt d.cfg 15 && bad.testBit 1).toNat := by
    rw [mod_four_eq_testBits]
    cases chk && bitAt d.cfg 15 <;> rfl
  unfold wrFrame
  dsimp only
  rw [count]
  generalize (chk && bitAt d.cfg 15 && bad.testBit 0) = miss0
  generalize (chk && bitAt d.cfg 15 && bad.testBit 1) = miss1
  unfold wrMissed
  split
  · rfl
  · cases d.dbe <;> cases miss0 <;> cases miss1 <;> simp [dbePull]

/-- Settles O31: a frame that DBC carries does its command's part in each buffer of the subchannel (`State.dbcCmd_next`), and
WR what the nibbles with a bad CRC call for (`wrFrame_eq_wrMissed`). -/
theorem dbcFrames : Obligations.DbcFrames := by
  unfold Obligations.DbcFrames
  intro each x s on
  refine ⟨?nop, fun rank chk bad => ?wr, fun rank => ?rd, fun nib => ?winLo, fun nib => ?winHi, fun mode => ?train, ?hold,
    ?release, ?hostReset⟩
  case nop => exact congrArg Host.Outcome.next (s.dbcCmd_nop x)
  case wr =>
    have heard : exec (.dbcWr x rank chk bad) s = .next { s with dbs := (subDbs x).foldl (fun l n =>
        upd l n (wrFrame (BitVec.ofNat 2 rank) chk (bad.toNat >>> (2 * (n % 5))))) s.dbs } :=
      congrArg Host.Outcome.next (if_pos on)
    have judged : ∀ (n : Nat) (d : Db), wrFrame (BitVec.ofNat 2 rank) chk (bad.toNat >>> (2 * (n % 5))) d
        = wrMissed (BitVec.ofNat 2 rank) chk (chk && bitAt d.cfg 15 && bad.getLsbD (2 * (n % 5) + 0))
            (chk && bitAt d.cfg 15 && bad.getLsbD (2 * (n % 5) + 1)) d := fun n d => by
      rw [wrFrame_eq_wrMissed, Nat.testBit_shiftRight, Nat.testBit_shiftRight, BitVec.testBit_toNat, BitVec.testBit_toNat]
    exact ⟨_, heard, (s.eachDb_foldl x _).congr judged⟩
  case rd => exact State.dbcCmd_next on x _ fun _ _ => rfl
  case winLo => exact State.dbcCmd_next on x _ fun _ _ => rfl
  case winHi =>
    have means : ∀ d : Db, d.obey (.winHi nib) = { d with dqOut := d.nibble.elim d.dqOut (fun lo => some (nib ++ lo)) } := by
      rintro ⟨⟩
      dsimp only [Db.obey]
      split <;> rfl
    exact State.dbcCmd_next on x _ fun _ d => means d
  case train => exact State.dbcCmd_next on x _ fun _ _ => rfl
  case hold => exact State.dbcCmd_next on x _ fun _ _ => rfl
  case release => exact State.dbcCmd_next on x _ fun _ _ => rfl
  case hostReset => exact State.dbcCmd_next on x _ fun _ _ => rfl

end Sys2Proof.Machine

/-! SUPPORT. SAMPLE, trim steps and frame errors in the buffers (O32). -/

namespace Sys2Proof.Machine
open Sys2Proof

/-! ## One buffer, and those of its subchannel that a condition picks -/

theorem upd_upd {α : Type} (l : List α) (i : Nat) (f g : α → α) : upd (upd l i f) i g = upd l i (fun d => g (f d)) :=
  List.modify_modify_eq f g i l

theorem State.setDb_db_self {s : State} {n : Nat} (h : n < s.dbs.length) (f : Db → Db) :
    (s.setDb n f).db n = f (s.db n) := nth_upd_self h f _

theorem State.setDb_db_ne (s : State) {n m : Nat} (h : m ≠ n) (f : Db → Db) : (s.setDb n f).db m = s.db m :=
  nth_upd_ne s.dbs h f _

theorem State.EachDb.guarded {x : Sub} {s t : State} {C : Nat → Db → Prop} [∀ n d, Decidable (C n d)]
    {f : Nat → Db → Db} (h : s.EachDb x (fun n d => if C n d then f n d else d) t) (n : Nat) :
    t.db n = if n < s.dbs.length ∧ n < 10 ∧ (if n < 5 then Sub.a else .b) = x ∧ C n (s.db n)
      then f n (s.db n) else s.db n := by
  obtain ⟨-, each⟩ := h
  rw [each n, ← ite_and]
  simp only [and_assoc]

/-! ## SAMPLE (R122) -/

theorem sampleFrame_obeyed (pos : Fin 5) (drx : Bool) (d : Db) : d.obey (.sample (BitVec.ofNat 3 pos) drx) =
    if d.pos.toNat % 5 = pos.val ∧ d.streaming = false ∧ d.train = 0
    then { d with streaming := true, window := some (BitVec.ofNat 4 (pos.val + if drx then 8 else 0)) } else d := by
  have code : (BitVec.ofNat 3 pos.val).toNat = pos.val := by rw [BitVec.toNat_ofNat]; omega
  have path : 8 * drx.toNat = if drx then 8 else 0 := by cases drx <;> rfl
  simp only [Db.obey, code, sampleFrame, path]
  by_cases here : d.pos.toNat % 5 = pos.val
  · simp only [here]
    cases busy : d.streaming <;> by_cases trains : d.train = 0 <;> simp [trains]
  · rw [if_neg (fun h => here h.symm), if_neg (fun h => here h.1)]

/-! ## The end of a shadow window (R122, R176) -/

/-- A result that the SME takes changes live trim alone. -/
theorem State.smeResult_form (s : State) (u path mode n : Nat) (counts : List EyeCount) :
    ∃ t, s.smeResult u path mode n counts = { s with trim := t } := by
  unfold State.smeResult
  refine List.foldlRecOn (motive := fun r : State => ∃ t, r = { s with trim := t }) _ _ ⟨_, rfl⟩ ?_
  rintro _ ⟨t, rfl⟩ c -
  unfold State.trimDecide
  dsimp only
  split
  · exact ⟨t, rfl⟩
  · exact ⟨_, rfl⟩

theorem State.dbrResult_form (s : State) (n path mode : Nat) (rx : List Bool) (room : Bool) :
    ∃ t, s.dbrResult n path mode rx room = { s with trim := t } := by
  unfold State.dbrResult
  split
  · exact ⟨_, rfl⟩
  · split
    · exact ⟨_, rfl⟩
    · exact s.smeResult_form _ _ _ _ _

theorem exec_shadowWindowEnd {s : State} {n : Fin 10} (on : s.dbcOn = true) (streams : (s.db n).streaming = true)
    (uis : Nat) (counts : List EyeCount) (flips : List (Fin 157)) :
    ∃ t, exec (.shadowWindowEnd n uis counts flips) s = .next { s.windowClose n uis counts with trim := t } := by
  change ∃ t, execShadowWindowEnd n uis counts flips s = _
  unfold execShadowWindowEnd
  rw [if_neg (by simp [on, streams])]
  dsimp only
  generalize (if ((s.db n).window.any (·.getLsbD 3)) = true then 3 + 2 * fld (s.db n).shadow 2 1 else 0) = path
  split
  · obtain ⟨t, result⟩ := (s.windowClose n uis counts).dbrResult_form n path _ _ true
    exact ⟨t, congrArg Host.Outcome.next result⟩
  · exact ⟨s.trim, rfl⟩

/-! ## A trim step (R123, R147, R178) -/

theorem find?_sput_self {β : Type} (m : List (Nat × β)) (k : Nat) (v : β) :
    (sput m k v).find? (fun e => e.1 == k) = some (k, v) := by
  induction m with
  | nil => simp [sput]
  | cons e m ih =>
    obtain ⟨j, w⟩ := e
    unfold sput
    split
    · simp
    · split
      · simp
      · rename_i other
        rw [List.find?_cons_of_neg (by simpa using Ne.symm other)]
        exact ih

theorem find?_sput_ne {β : Type} (m : List (Nat × β)) {j k : Nat} (h : j ≠ k) (v : β) :
    (sput m k v).find? (fun e => e.1 == j) = m.find? (fun e => e.1 == j) := by
  have skip : ¬ (k == j) = true := by simpa using Ne.symm h
  induction m with
  | nil => simp [sput, Ne.symm h]
  | cons e m ih =>
    obtain ⟨i, w⟩ := e
    unfold sput
    split
    · exact List.find?_cons_of_neg skip
    · split
      · next at_k =>
        subst at_k
        simp [skip]
      · rw [List.find?_cons, List.find?_cons, ih]

theorem tapOf_sput_self (taps : List (Nat × TapSt)) (gens : List (Nat × Nat)) (path entry : Nat) (t : TapSt) :
    tapOf (sput taps (path * 16 + entry) t) gens path entry = t := by
  unfold tapOf
  rw [find?_sput_self]

theorem tapOf_sput_ne (taps : List (Nat × TapSt)) (gens : List (Nat × Nat)) {path entry k : Nat} (h : path * 16 + entry ≠ k)
    (t : TapSt) : tapOf (sput taps k t) gens path entry = tapOf taps gens path entry := by
  unfold tapOf
  rw [find?_sput_ne taps h]

/-- The record comes to be owed: what training notes of it, and the region that is to be stored (R147). -/
def State.RecOnly (s t : State) : Prop :=
  t = { s with
    trim := t.trim, nvs := { s.nvs with pend := t.nvs.pend }
    train := { s.train with
      drifted := t.train.drifted, recPending := t.train.recPending, recSource := t.train.recSource
      recInvalid := t.train.recInvalid } }

theorem State.RecOnly.trans {s t u : State} (h : s.RecOnly t) (k : t.RecOnly u) : s.RecOnly u := by
  refine Eq.trans k ?_
  rw [h]

theorem State.RecOnly.dbs {s t : State} (h : s.RecOnly t) : t.dbs = s.dbs := by rw [h]
theorem State.RecOnly.dbGens {s t : State} (h : s.RecOnly t) : t.train.dbGens = s.train.dbGens := by rw [h]
theorem State.RecOnly.dbRefs {s t : State} (h : s.RecOnly t) : t.train.dbRefs = s.train.dbRefs := by rw [h]

theorem State.recStore_recOnly (s : State) (source : Nat) : s.RecOnly (s.recStore source) := by
  unfold State.recStore
  obtain ⟨l, owed⟩ := State.pendRegion_form
    { s with train := { s.train with recPending := true, recSource := source, recInvalid := false } } 5
  rw [owed]
  rfl

theorem State.drift_recOnly (s : State) (u path entry : Nat) (now : TapSt) : s.RecOnly (s.drift u path entry now) := by
  unfold State.drift State.driftCheck
  split
  · split
    · exact State.RecOnly.trans (t := { s with train := { s.train with drifted := true } }) rfl (State.recStore_recOnly _ _)
    · rfl
  · rfl

theorem State.countStep_recOnly (s : State) (u : Nat) : s.RecOnly (s.countStep u) := by
  unfold State.countStep
  dsimp only
  split <;> rfl

/-- A step taken is counted, and the drift it makes may leave the record owed (R147, R178). -/
theorem State.stepTaken_recOnly (s : State) (u : Nat) : s.RecOnly (s.stepTaken u) := by
  unfold State.stepTaken
  split
  · rfl
  · next step _ =>
    let popped : State := { s with trim := { s.trim with placed := upd s.trim.placed u (fun _ => none) } }
    have placed : s.RecOnly popped := rfl
    exact (placed.trans (popped.drift_recOnly u _ _ _)).trans (State.countStep_recOnly _ u)

theorem exec_trimStepApply {s : State} {n : Fin 10} (on : s.dbcOn = true) (armed : (s.db n).stageArmed = true)
    (pend : (s.db n).stagePend = true) :
    exec (.trimStepApply n) s = .next ((s.applyStage n).stepTaken (n + 2)) := by
  change execTrimStepApply n s = _
  simp [execTrimStepApply, on, State.dbApply, armed, pend]

/-- The entry that a buffer's staging names (R123). -/
def Db.stagePath (d : Db) : Nat := d.stage.toNat % 16
def Db.stageEntry (d : Db) : Nat := d.stage.toNat / 16 % 16

/-- The value that the staged step gives its entry. -/
def State.stagedTap (s : State) (n : Nat) : TapSt :=
  (s.dbTap n (s.db n).stagePath (s.db n).stageEntry).step ((s.db n).stage.getLsbD 8) ((s.db n).stage.getLsbD 9)

/-- Buffer `d` once its staged step has given the entry its value. -/
def Db.stepped (d : Db) (t : TapSt) : Db :=
  { d with taps := sput d.taps (d.stagePath * 16 + d.stageEntry) t, stagePend := false, stageArmed := false }

/-- An armed step: its entry has the new value, nothing is staged any more, and the entry's reference stands. -/
theorem State.applyStage_form {s : State} {n : Nat} (armed : (s.db n).stageArmed = true) (pend : (s.db n).stagePend = true) :
    ∃ refs, s.applyStage n = { s with
      dbs := upd s.dbs n (fun d => { d with
        taps := sput d.taps ((s.db n).stagePath * 16 + (s.db n).stageEntry) (s.stagedTap n), stagePend := false
        stageArmed := false })
      train := { s.train with dbRefs := refs } } := by
  unfold State.applyStage
  rw [if_neg (by simp [armed, pend])]
  let refs := upd s.train.dbRefs n (fun l => sput l ((s.db n).stagePath * 16 + (s.db n).stageEntry)
    (s.dbRef n (s.db n).stagePath (s.db n).stageEntry))
  exact ⟨refs, congrArg (fun l => ({ s with dbs := l, train := { s.train with dbRefs := refs } } : State))
    (upd_upd s.dbs n _ _)⟩

/-! ## A frame error (R120, R121) -/

theorem frameErr_eq (d : Db) : frameErr d = { d with
    dbcErr := satAdd d.dbcErr 1, dbe := some (d.dbe.getD true)
    dbeNext := if d.dbe = none then d.dbeNext else some true } := by
  cases pulse : d.dbe <;> simp [frameErr, dbePull, pulse]

theorem dbcHear_bad {first second : BitVec 5} (start : first.getLsbD 4 = true) (bad : frameOk first second = false) (d : Db) :
    dbcHear [first, second, 0] d = frameErr d := by
  have none : dbcDecode first second = none := by simpa [frameOk] using bad
  simp only [dbcHear, start, none, if_true]

theorem upd_if {α : Type} (c : Bool) (f : α → α) (l : List α) (n : Nat) :
    (if c = true then upd l n f else l) = upd l n (fun d => if c = true then f d else d) := by
  cases c
  · exact (upd_id l n).symm
  · rfl

/-! ## DBD_TRIM_STAGE (R123, R129) -/

/-- Buffer `n` stages the step that a value of DBD_TRIM_STAGE names. -/
def State.stageStep (s : State) (n : Nat) (v : Word) : State :=
  s.setDb n (fun d => { d with stage := v.setWidth 10, stagePend := true, stageArmed := false })

/-- DBD_TRIM_STAGE of buffer `n`. -/
def dbdTrimStageReg (n : Nat) (s : State) : RegDef :=
  { flds := [Fld.rng 9 0 (stageOk (s.db n) (s.dbTap n)), Fld.ro 31 31],
    read := packWord [(0, (s.db n).stage.toNat), (31, (s.db n).stagePend.toNat)],
    write := fun v s => s.stageStep n v }

theorem hubReg_dbdTrimStage {s : State} (fitted : s.regOn .dbPresent = true) (p : Path)
    (reached : s.reaches (s.sel p).dbm.toNat = true) : ∃ (f : State → State) (z : Word → State → Zlb), hubReg p 0x0CA4 s
      = some { dbdTrimStageReg (s.sel p).dbm.toNat s with onRead := f, sent := fun v s => { s with zlb := z v s } } := by
  have proxy : hubReg p 0x0CA4 s = proxied p (s.sel p).dbm.toNat 0x24 (some (dbdTrimStageReg (s.sel p).dbm.toNat s)) s := by
    change dbmReg p 0x0CA4 s = _
    simp [dbmReg, fitted]
    rfl
  rw [proxy]
  unfold proxied
  rw [if_neg (by simp [reached])]
  exact ⟨_, _, rfl⟩

/-- A value is staged where its reserved bits are zero and its step stays inside the codes. -/
theorem dbdTrimStageReg_allows (n : Nat) (s : State) (v : Word) : (dbdTrimStageReg n s).allows v
    = ((v.toNat ||| 0x800003FF) == 0x800003FF && stageOk (s.db n) (s.dbTap n) (v.toNat % 1024)) := by
  have mask : (dbdTrimStageReg n s).fieldMask = 0x800003FF := by
    simp [RegDef.fieldMask, dbdTrimStageReg, Fld.mask, Fld.rng, Fld.ro, Fld.any]
  have low : fld v 9 0 = v.toNat % 1024 := rfl
  simp only [RegDef.allows, mask]
  simp [dbdTrimStageReg, Fld.rng, Fld.ro, Fld.any, Fld.writable, low, show (Access.rw != Access.ro) = true from rfl]

/-- The read-only bit that a write takes from the register is none of the step's. -/
theorem dbdTrimStageReg_write (n : Nat) (s t : State) (v : Word) :
    (dbdTrimStageReg n s).write ((dbdTrimStageReg n s).merge v) t = t.stageStep n v := by
  have ro : (dbdTrimStageReg n s).roMask = 2 ^ 31 := by
    simp [RegDef.roMask, dbdTrimStageReg, Fld.writable, Fld.mask, Fld.rng, Fld.ro, Fld.any]
  have step : ((dbdTrimStageReg n s).merge v).setWidth 10 = v.setWidth 10 := by
    ext i hi
    have bit := (dbdTrimStageReg n s).getLsbD_merge v (i := i) (by omega)
    rw [ro, Nat.testBit_two_pow_of_ne (by omega), if_neg Bool.false_ne_true] at bit
    simp only [BitVec.getElem_setWidth]
    exact bit
  change t.stageStep n _ = _
  rw [State.stageStep, step, State.stageStep]

/-- Every write of DBD_TRIM_STAGE sends its bus frame; an admissible one stages its step. -/
theorem State.hubWrite_dbdTrimStage {s : State} (up : s.up = true) (res : s.nvs.rescue = false)
    (fitted : s.regOn .dbPresent = true) {p : Path} (reached : s.reaches (s.sel p).dbm.toNat = true) (v : Word) :
    ∃ z, s.hubWrite p 0x0CA4 v = { (if (dbdTrimStageReg (s.sel p).dbm.toNat s).allows v then
      s.stageStep (s.sel p).dbm.toNat v else s) with zlb := z } := by
  obtain ⟨f, z, found⟩ := hubReg_dbdTrimStage fitted p reached
  have reg := (State.reg_of_up up res p 0x0CA4).trans found
  cases allowed : (dbdTrimStageReg (s.sel p).dbm.toNat s).allows v with
  | false => exact ⟨_, State.hubWrite_of_disallowed reg allowed⟩
  | true =>
    have stages : (dbdTrimStageReg (s.sel p).dbm.toNat s).put (0x0CA4 : Addr).toNat v s = s.stageStep (s.sel p).dbm.toNat v :=
      (RegDef.put_of_not_kept rfl _ v s).trans (dbdTrimStageReg_write _ s s v)
    exact ⟨_, (State.hubWrite_of_allowed reg allowed).trans (congrArg (fun t : State => { t with zlb := z v t }) stages)⟩

/-! ## The obligation -/

/-- A trim step that takes effect, as the buffer and its subchannel's bookkeeping show it. -/
theorem State.stepApplied_kept {s : State} {n : Nat} (small : n < s.dbs.length) (armed : (s.db n).stageArmed = true)
    (pend : (s.db n).stagePend = true) (u : Nat) :
    let t := (s.applyStage n).stepTaken u
    t.db n = (s.db n).stepped (s.stagedTap n)
    ∧ (∀ m, m ≠ n → t.db m = s.db m) ∧ t.train.dbGens = s.train.dbGens
    ∧ t = { s with
        dbs := t.dbs, trim := t.trim, nvs := { s.nvs with pend := t.nvs.pend }
        train := { s.train with
          dbRefs := t.train.dbRefs, drifted := t.train.drifted, recPending := t.train.recPending
          recSource := t.train.recSource, recInvalid := t.train.recInvalid } } := by
  intro t
  obtain ⟨refs, applied⟩ := State.applyStage_form armed pend
  have noted : (s.applyStage n).RecOnly t := State.stepTaken_recOnly _ u
  rw [applied] at noted
  refine ⟨?_, fun m other => ?_, noted.dbGens, Eq.trans noted ?_⟩
  · rw [State.db, noted.dbs]
    exact nth_upd_self small _ _
  · rw [State.db, noted.dbs]
    exact nth_upd_ne _ other _ _
  · rw [noted.dbs, noted.dbRefs]

/-- Settles O32: each row by what it does to one buffer: `sampleFrame_obeyed`, `exec_shadowWindowEnd`, `State.stepApplied_kept`
for the staged step, `frameErr_eq` for a frame error, and `State.hubWrite_dbdTrimStage` for the register. -/
theorem bufferSampling : Obligations.BufferSampling := by
  unfold Obligations.BufferSampling
  refine ⟨fun x pos drx s on => ?sample, fun n uis counts flips s on fitted streams => ?windowEnd, fun x s on => ?arm,
    fun n s on fitted armed pend => ?step, fun x seen first second s on start bad => ?frameError,
    fun p v s up res present fitted small reached => ?stage⟩
  case sample =>
    have acts := (s.dbcCmd_eachDb on x _).congr fun _ => sampleFrame_obeyed pos drx
    exact ⟨_, rfl, s.dbcCmd_form x _, acts.guarded⟩
  case windowEnd =>
    have small : n.val < s.dbs.length := by omega
    obtain ⟨t, closed⟩ := exec_shadowWindowEnd on streams uis counts flips
    exact ⟨_, closed, State.setDb_db_self small _, fun m other => s.setDb_db_ne other _, rfl⟩
  case arm => exact State.dbcCmd_next on x _ fun _ _ => rfl
  case step =>
    have small : n.val < s.dbs.length := by omega
    obtain ⟨entry, others, gens, kept⟩ := State.stepApplied_kept small armed pend (n + 2)
    have path : ((s.db n).stage.extractLsb' 0 4).toNat = (s.db n).stagePath := by
      simp [BitVec.extractLsb'_toNat, Db.stagePath]
    have bits : ((s.db n).stage.extractLsb' 4 4).toNat = (s.db n).stageEntry := by
      simp [BitVec.extractLsb'_toNat, Db.stageEntry, Nat.shiftRight_eq_div_pow]
    refine ⟨_, exec_trimStepApply on armed pend, ⟨?_, fun p e _ other => ?_⟩, ?_, others, kept⟩
    · rw [path, bits, State.dbTap, entry]
      exact (tapOf_sput_self ..).trans rfl
    · rw [path, bits] at other
      rw [State.dbTap, entry, gens]
      exact tapOf_sput_ne _ _ (Ne.symm other) _
    · rw [entry]
      rfl
  case frameError =>
    have heard : exec (.dbcFrameError x seen first second) s = .next { s with dbs := (subDbs x).foldl (fun l n =>
        upd l n (fun d => if seen.getLsbD (n % 5) = true then frameErr d else d)) s.dbs } := by
      refine (congrArg Host.Outcome.next (if_pos on)).trans ?_
      simp only [upd_if, dbcHear_bad start bad]
    refine ⟨_, heard, rfl, fun n => ?_⟩
    have acts := State.EachDb.guarded (C := fun n _ => seen.getLsbD (n % 5) = true) (f := fun _ => frameErr)
      (s.eachDb_foldl x _) n
    rw [frameErr_eq] at acts
    exact acts
  case stage =>
    obtain ⟨z, written⟩ := State.hubWrite_dbdTrimStage up res present reached v
    have judged := dbdTrimStageReg_allows (s.sel p).dbm.toNat s v
    refine ⟨fun fits ok => ?_, fun refused => ?_⟩
    · have low : v.toNat % 1024 = v.toNat := Nat.mod_eq_of_lt fits
      have reserved : v.toNat ||| 0x800003FF = 0x800003FF := or_mask_of_lt (k := 10) fits (by decide)
      rw [judged, reserved, low, ok] at written
      exact ⟨_, congrArg Host.Outcome.next written, State.setDb_db_self (by omega) _,
        fun m other => s.setDb_db_ne other _, rfl⟩
    · rw [judged, refused, Bool.and_false] at written
      exact ⟨_, congrArg Host.Outcome.next written, rfl⟩

end Sys2Proof.Machine

/-! SUPPORT. Temperature conversions and the status poll (O33). -/

namespace Sys2Proof.Machine
open Sys2Proof

/-! ## One buffer's part of the poll (R117) -/

/-- What polls of reached buffers may change: the memories of the targets, DBM_ZLB_TAGS.HIGH, the HOT bits seen and events. -/
def State.Polled (s t : State) : Prop :=
  t = { s with zlb := { s.zlb with targets := t.zlb.targets, high := t.zlb.high, hotSeen := t.zlb.hotSeen }, evt := t.evt }
    ∧ ∀ m, (t.tgt m).alive = (s.tgt m).alive

theorem State.Polled.trans {s t u : State} (h : s.Polled t) (k : t.Polled u) : s.Polled u := by
  obtain ⟨h, aliveT⟩ := h
  obtain ⟨k, aliveU⟩ := k
  refine ⟨Eq.trans k ?_, fun m => (aliveU m).trans (aliveT m)⟩
  rw [h]

theorem State.Polled.reaches {s t : State} (h : s.Polled t) (n : Nat) : t.reaches n = s.reaches n := by
  obtain ⟨h, alive⟩ := h
  rw [State.reaches, State.reaches, alive, State.unreach, State.unreach, h]

theorem State.Polled.dbs {s t : State} (h : s.Polled t) : t.dbs = s.dbs := by
  obtain ⟨h, -⟩ := h
  rw [h]

theorem State.Polled.cal {s t : State} (h : s.Polled t) : t.cal = s.cal := by
  obtain ⟨h, -⟩ := h
  rw [h]

theorem State.setTgt_alive (s : State) (n : Nat) {f : ZTarget → ZTarget} (hf : ∀ z, (f z).alive = z.alive) (m : Nat) :
    ((s.setTgt n f).tgt m).alive = (s.tgt m).alive := nth_upd_kept ZTarget.alive hf _ _ _ _

theorem State.warrenAccess_polled (s : State) (n o : Nat) (data resp : Word) : s.Polled (s.warrenAccess n o data resp) :=
  ⟨rfl, State.setTgt_alive s n fun _ => rfl⟩

theorem State.zlbTry_of_reaches {s : State} {n : Nat} (reached : s.reaches n = true) : s.zlbTry n = s := by
  simp only [State.reaches, Bool.and_eq_true] at reached
  obtain ⟨alive, -⟩ := reached
  exact if_pos (by simp [alive])

/-- Bit `n` of the HOT bits seen takes the buffer's; the others stand. -/
theorem getLsbD_hotSeen (seen : BitVec 10) (hot : Bool) {n m : Nat} (hn : n < 10) (hm : m < 10) :
    (BitVec.ofNat 10 (if hot then seen.toNat ||| 2 ^ n else seen.toNat &&& (1023 - 2 ^ n))).getLsbD m
      = if m = n then hot else seen.getLsbD m := by
  have clear : ∀ n < 10, ∀ m < 10, (1023 - 2 ^ n).testBit m = decide (m ≠ n) := by decide
  rw [BitVec.getLsbD_ofNat]
  by_cases same : m = n
  · subst same
    cases hot <;> simp [hm, Nat.testBit_or, Nat.testBit_and, clear m hm m hm]
  · have bit : (2 ^ n).testBit m = false := Nat.testBit_two_pow_of_ne (Ne.symm same)
    cases hot <;> simp [hm, same, Nat.testBit_or, Nat.testBit_and, bit, clear n hn m hm, BitVec.testBit_toNat]

theorem State.pollHot_polled {s : State} {n : Nat} (hn : n < 10) (reached : s.reaches n = true) :
    s.Polled (s.pollHot n) ∧ ∀ m, m < 10 →
      (s.pollHot n).zlb.hotSeen.getLsbD m = if m = n then (s.db n).hot else s.zlb.hotSeen.getLsbD m := by
  have raised : ∀ (u : State) (k : Nat) (a : BitVec 24), k < 24 → u.Polled (u.raise k a) ∧ (u.raise k a).zlb = u.zlb := by
    intro u k a low
    obtain ⟨e, noted⟩ := u.raise_unlatched (Or.inl low) (Or.inl (by omega)) a
    rw [noted]
    exact ⟨⟨rfl, fun _ => rfl⟩, rfl⟩
  have seen : ∀ (u v : State), v = { u with zlb := { u.zlb with hotSeen := v.zlb.hotSeen } } → u.Polled v := by
    intro u v only
    exact ⟨by rw [only], fun m => by rw [State.tgt, only, State.tgt]⟩
  have read : s.Polled ((s.warrenAccess n 0x008 0 (dbStatus (s.db n))).warrenAccess n 0x018 0 (s.dbTemp n)) :=
    (s.warrenAccess_polled n _ _ _).trans (State.warrenAccess_polled _ n _ _ _)
  have bits := fun m (hm : m < 10) => getLsbD_hotSeen s.zlb.hotSeen (s.db n).hot hn hm
  unfold State.pollHot
  rw [State.zlbTry_of_reaches reached]
  dsimp only
  rw [if_neg (by simp [reached])]
  split
  · obtain ⟨noted, same⟩ := raised _ 12 _ (by decide)
    exact ⟨(read.trans (seen _ _ rfl)).trans noted, fun m hm => by rw [same]; exact bits m hm⟩
  · split
    · obtain ⟨noted, same⟩ := raised _ 15 _ (by decide)
      exact ⟨(read.trans (seen _ _ rfl)).trans noted, fun m hm => by rw [same]; exact bits m hm⟩
    · exact ⟨read.trans (seen _ _ rfl), bits⟩

/-- The poll of buffers that are all reached takes the HOT bit of each. -/
theorem State.pollHots_polled {ks : List Nat} (small : ∀ n ∈ ks, n < 10) {s : State}
    (reached : ∀ n ∈ ks, s.reaches n = true) : s.Polled (ks.foldl State.pollHot s) ∧ ∀ m, m < 10 →
      (ks.foldl State.pollHot s).zlb.hotSeen.getLsbD m = if m ∈ ks then (s.db m).hot else s.zlb.hotSeen.getLsbD m := by
  induction ks generalizing s with
  | nil => exact ⟨⟨rfl, fun _ => rfl⟩, fun m _ => by simp⟩
  | cons k ks ih =>
    obtain ⟨first, bits⟩ := State.pollHot_polled (small k List.mem_cons_self) (reached k List.mem_cons_self)
    obtain ⟨rest, seen⟩ := ih (s := s.pollHot k) (fun n h => small n (List.mem_cons_of_mem _ h)) fun n h =>
      (first.reaches n).trans (reached n (List.mem_cons_of_mem _ h))
    refine ⟨first.trans rest, fun m hm => (seen m hm).trans ?_⟩
    rw [bits m hm, State.db, first.dbs]
    by_cases at_k : m = k
    · simp [at_k, State.db]
    · simp [at_k, State.db]

/-! ## DBM_TEMP_MAX (R117) -/

/-- The hottest of a list of buffers is one of them, and none is hotter. -/
theorem hottest_spec (s : State) {ks : List Nat} (some_k : ks ≠ []) : ∃ m ∈ ks,
    hottest s ks = some (m, tempOf ((s.dbTemp m).setWidth 12))
      ∧ ∀ n ∈ ks, tempOf ((s.dbTemp n).setWidth 12) ≤ tempOf ((s.dbTemp m).setWidth 12) := by
  induction ks with
  | nil => exact absurd rfl some_k
  | cons k ks ih =>
    unfold hottest
    dsimp only
    cases ks with
    | nil => exact ⟨k, List.mem_cons_self, rfl, fun n h => by rw [List.mem_singleton.mp h]⟩
    | cons j js =>
      obtain ⟨m, among, found, hotter⟩ := ih (List.cons_ne_nil _ _)
      rw [found]
      dsimp only
      by_cases first : tempOf ((s.dbTemp m).setWidth 12) ≤ tempOf ((s.dbTemp k).setWidth 12)
      · rw [if_pos first]
        exact ⟨k, List.mem_cons_self, rfl, List.forall_mem_cons.mpr ⟨le_rfl, fun n h => (hotter n h).trans first⟩⟩
      · rw [if_neg first]
        exact ⟨m, List.mem_cons_of_mem _ among, rfl, List.forall_mem_cons.mpr ⟨(not_le.mp first).le, hotter⟩⟩

/-- A buffer that is not being calibrated reports the temperature it converted last (R171). -/
theorem State.dbTemp_temp {s : State} {n : Nat} (idle : s.calRun (n + 1) = none) : (s.dbTemp n).setWidth 12 = (s.db n).temp := by
  have small := (s.db n).temp.isLt
  have flag := (s.db n).tempValid.toNat_lt
  unfold State.dbTemp
  rw [idle]
  refine BitVec.eq_of_toNat_eq ?_
  simp only [packWord, List.foldl_cons, List.foldl_nil, BitVec.toNat_setWidth, BitVec.toNat_ofNat]
  omega

theorem State.statusPoll_form {s : State} (up : s.up = true) (db : s.pow.straps.nodb = false) (pd5 : s.pow.on.getLsbD 5 = true)
    (reached : ∀ n, n < 10 → s.reaches n = true) (idle : ∀ n, n < 10 → s.calRun (n + 1) = none) :
    ∃ u, s.Polled u ∧ (∀ m, m < 10 → u.zlb.hotSeen.getLsbD m = (s.db m).hot) ∧ ∃ m, m < 10
      ∧ s.statusPoll = { u with zlb := { u.zlb with tempMax := (s.db m).temp, tempDb := BitVec.ofNat 4 m } }
      ∧ ∀ n, n < 10 → (s.db n).temp.toInt ≤ (s.db m).temp.toInt := by
  obtain ⟨polled, seen⟩ := State.pollHots_polled (ks := List.range 10) (s := s) (fun n h => List.mem_range.mp h)
    (fun n h => reached n (List.mem_range.mp h))
  have all : (List.range 10).filter ((List.range 10).foldl State.pollHot s).reaches = List.range 10 :=
    List.filter_eq_self.mpr fun n h => (polled.reaches n).trans (reached n (List.mem_range.mp h))
  obtain ⟨m, among, found, hotter⟩ := hottest_spec ((List.range 10).foldl State.pollHot s) (ks := List.range 10) (by decide)
  have temp : ∀ n, n < 10 → tempOf ((((List.range 10).foldl State.pollHot s).dbTemp n).setWidth 12)
      = (s.db n).temp.toInt := by
    intro n hn
    rw [State.dbTemp_temp (by rw [State.calRun, polled.cal]; exact idle n hn), tempOf, State.db, polled.dbs, State.db]
  have small := List.mem_range.mp among
  refine ⟨_, polled, fun k hk => (seen k hk).trans (if_pos (List.mem_range.mpr hk)), m, small, ?_, fun n hn => ?_⟩
  · unfold State.statusPoll
    rw [if_neg (by simp [up, db, pd5])]
    dsimp only
    rw [all, found]
    dsimp only
    rw [temp m small, BitVec.ofInt_toInt]
  · rw [← temp n hn, ← temp m small]
    exact hotter n (List.mem_range.mpr hn)

/-! ## What the temperatures call for (R159, R170) -/

theorem State.wantRanks_form (s : State) (x : Sub) (m : Nat) : ∃ t e, s.wantRanks x m = { s with train := t, evt := e } := by
  have want : ∀ f, ∃ t, s.setTr x f = { s with train := t } := fun f => by cases x <;> exact ⟨_, rfl⟩
  unfold State.wantRanks
  dsimp only
  split
  · obtain ⟨e, noted⟩ := State.raise_unlatched (State.setTr s x _) (n := 20) (Or.inl (by decide)) (Or.inl (by decide)) _
    obtain ⟨t, wants⟩ := want (fun t => { t with want := (s.tr x).want ||| BitVec.ofNat 4 m })
    rw [noted, wants]
    exact ⟨t, e, rfl⟩
  · obtain ⟨t, wants⟩ := want (fun t => { t with want := (s.tr x).want ||| BitVec.ofNat 4 m })
    exact ⟨t, s.evt, wants⟩

theorem State.wantByTemp_form (s : State) : ∃ t e, s.wantByTemp = { s with train := t, evt := e } := by
  unfold State.wantByTemp
  split
  · exact ⟨s.train, s.evt, rfl⟩
  · refine List.foldlRecOn (motive := fun r : State => ∃ t e, r = { s with train := t, evt := e }) _ _
      ⟨s.train, s.evt, rfl⟩ ?_
    rintro _ ⟨t, e, rfl⟩ x -
    dsimp only
    split
    · exact State.wantRanks_form { s with train := t, evt := e } x _
    · exact ⟨t, e, rfl⟩

theorem State.calTap_form (s : State) (u : Nat) (c : Bool) (n : List Nat) (nc : Bool) :
    ∃ k, s.calTap u c n nc = { s with cal := k } := by
  unfold State.calTap
  (repeat' split) <;> exact ⟨_, rfl⟩

theorem State.calByTemp_form (s : State) : ∃ k, s.calByTemp = { s with cal := k } := by
  unfold State.calByTemp
  refine List.foldlRecOn (motive := fun r : State => ∃ k, r = { s with cal := k }) _ _ ⟨s.cal, rfl⟩ ?_
  rintro _ ⟨k, rfl⟩ u -
  dsimp only
  split
  · split
    · exact State.calTap_form { s with cal := k } _ _ _ _
    · exact ⟨k, rfl⟩
  · exact ⟨k, rfl⟩

/-- The poll row: what the poll takes, and the maintenance and calibrations that the temperatures call for. -/
theorem exec_dbStatusPoll {s : State} (up : s.up = true) :
    ∃ t e k, exec .dbStatusPoll s = .next { s.statusPoll with train := t, evt := e, cal := k } := by
  have row : exec .dbStatusPoll s = .next s.statusPoll.wantByTemp.calByTemp := congrArg Host.Outcome.next (if_pos up)
  obtain ⟨t, e, wants⟩ := s.statusPoll.wantByTemp_form
  obtain ⟨k, cals⟩ := s.statusPoll.wantByTemp.calByTemp_form
  rw [row, cals, wants]
  exact ⟨t, e, k, rfl⟩

/-! ## The obligation -/

/-- Settles O33: a conversion is `tempFrame` in its buffer; a poll takes each buffer's HOT bit (`State.pollHots_polled`) and
then the hottest buffer (`hottest_spec`). -/
theorem bufferTemperature : Obligations.BufferTemperature := by
  unfold Obligations.BufferTemperature
  refine ⟨fun n temp s pd5 db fitted => ?_, fun s up db pd5 reached idle => ?_⟩
  · have converts : exec (.dbTempConversion n temp) s = .next (s.setDb n (tempFrame temp)) :=
      congrArg Host.Outcome.next (if_pos (by simp [pd5, db]))
    exact ⟨_, converts, State.setDb_db_self (by omega) _, fun m other => s.setDb_db_ne other _, rfl⟩
  · obtain ⟨u, ⟨polled, -⟩, seen, m, small, poll, hotter⟩ :=
      State.statusPoll_form up db pd5 reached fun n hn => idle (n + 1) (by omega)
    have four : (BitVec.ofNat 4 m).toNat = m := by rw [BitVec.toNat_ofNat]; omega
    obtain ⟨t, e, k, row⟩ := exec_dbStatusPoll up
    rw [poll] at row
    refine ⟨_, row, seen, hotter, ⟨m, small, four, rfl⟩, ?_⟩
    rw [polled]
    exact ⟨rfl, rfl, rfl, rfl, rfl⟩

end Sys2Proof.Machine

/-! SUPPORT. Requests on the local bus and the memory of their targets (O34). -/

namespace Sys2Proof.Machine
open Sys2Proof

/-! ## One target (R125) -/

theorem State.setTgt_tgt_self {s : State} {n : Nat} (h : n < s.zlb.targets.length) (f : ZTarget → ZTarget) :
    (s.setTgt n f).tgt n = f (s.tgt n) := nth_upd_self h f _

theorem State.setTgt_setTgt (s : State) (n : Nat) (f g : ZTarget → ZTarget) :
    (s.setTgt n f).setTgt n g = s.setTgt n (fun z => g (f z)) :=
  congrArg (fun l => ({ s with zlb := { s.zlb with targets := l } } : State)) (upd_upd s.zlb.targets n f g)

/-- A target that answers stands in the table. -/
theorem State.tgt_lt_of_alive {s : State} {n : Nat} (alive : (s.tgt n).alive = true) : n < s.zlb.targets.length := by
  by_contra past
  have silent : s.tgt n = ZTarget.fresh := by simp [State.tgt, nth, List.getD_eq_getElem?_getD, Nat.le_of_not_lt past]
  rw [silent] at alive
  cases alive

theorem State.tgtTakes_facts {s : State} {n : Nat} (takes : s.tgtTakes n = true) :
    s.tgtOn n = true ∧ s.pd2 = true ∧ n < s.zlb.targets.length := by
  simp only [State.tgtTakes, State.tgtOn, Bool.and_eq_true] at takes
  obtain ⟨⟨⟨pd2, alive⟩, reached⟩, -⟩ := takes
  exact ⟨by simp [State.tgtOn, pd2, alive, reached], pd2, State.tgt_lt_of_alive alive⟩

theorem State.zlbFrame_of_tgtOn {s : State} {n : Nat} (on : s.tgtOn n = true) (f : ZTarget → ZTarget) :
    s.zlbFrame n f = s.setTgt n (fun z => f (zDrive z)) := if_pos on

/-- What a target drives in a frame leaves it as ready for a request as it was. -/
theorem State.tgtTakes_driven (s : State) (n : Nat) : (s.setTgt n zDrive).tgtTakes n = s.tgtTakes n := by
  have alive : ((s.setTgt n zDrive).tgt n).alive = (s.tgt n).alive := s.setTgt_alive n (f := zDrive) (fun _ => rfl) n
  have queue : ((s.setTgt n zDrive).tgt n).queue = (s.tgt n).queue :=
    nth_upd_kept ZTarget.queue (f := zDrive) (fun _ => rfl) _ _ _ _
  have power : (s.setTgt n zDrive).pd2 = s.pd2 := rfl
  have mark : (s.setTgt n zDrive).unreach n = s.unreach n := rfl
  simp only [State.tgtTakes, State.tgtOn, alive, queue, power, mark]

/-! ## Local registers leave the ZX8-R's bookkeeping (R128, R130) -/

/-- The state with other requests outstanding and another mark of tags in use. -/
def State.booked (s : State) (out : List ZReq) (high : BitVec 6) : State :=
  { s with zlb := { s.zlb with out := out, high := high } }

/-- A register of a target, where there is one, that a read leaves alone, and whose write keeps the table of the targets and
has nothing to do with the requests outstanding. -/
def LocalReg (o : Option RegDef) : Prop :=
  ∀ d ∈ o, (∀ s, d.onRead s = s) ∧ ∀ v s, (d.write v s).zlb.targets.length = s.zlb.targets.length
    ∧ ∀ out high, d.write v (s.booked out high) = (d.write v s).booked out high

theorem LocalReg.none : LocalReg none := fun _ h => nomatch h

theorem LocalReg.some {d : RegDef} (hr : ∀ s, d.onRead s = s)
    (hl : ∀ v s, (d.write v s).zlb.targets.length = s.zlb.targets.length)
    (hb : ∀ v s out high, d.write v (s.booked out high) = (d.write v s).booked out high) : LocalReg (some d) := by
  rintro _ ⟨⟩
  exact ⟨hr, fun v s => ⟨hl v s, hb v s⟩⟩

theorem LocalReg.ite {c : Prop} [Decidable c] {x y : Option RegDef} (hx : LocalReg x) (hy : LocalReg y) :
    LocalReg (if c then x else y) := by
  split <;> assumption

theorem State.setTgt_length (s : State) (n : Nat) (f : ZTarget → ZTarget) :
    (s.setTgt n f).zlb.targets.length = s.zlb.targets.length := List.length_modify ..

theorem dbReg_local (n o : Nat) (s : State) : LocalReg (dbReg n o s) := by
  unfold dbReg
  extract_lets
  repeat' refine LocalReg.ite ?_ ?_
  any_goals exact .none
  any_goals exact .some (fun _ => rfl) (fun _ _ => rfl) fun _ _ _ _ => rfl
  exact .some (fun _ => rfl) (fun _ t => t.setTgt_length _ _) fun _ _ _ _ => rfl

theorem zxpLocal_local (o : Nat) (s : State) : LocalReg (zxpLocal o s) := by
  unfold zxpLocal
  extract_lets
  refine LocalReg.ite ?_ (LocalReg.ite ?_ ?_)
  any_goals exact .some (fun _ => rfl) (fun _ _ => rfl) fun _ _ _ _ => rfl
  split
  any_goals exact .none
  any_goals exact .some (fun _ => rfl) (fun _ _ => rfl) fun _ _ _ _ => rfl
  exact .some (fun _ => rfl) (fun _ t => t.setTgt_length _ _) fun _ _ _ _ => rfl

theorem tgtReg_local (t o : Nat) (s : State) : LocalReg (tgtReg t o s) := by
  unfold tgtReg
  exact .ite (dbReg_local t o s) (zxpLocal_local o s)

theorem tgtReg_booked (t o : Nat) (s : State) (out : List ZReq) (high : BitVec 6) :
    tgtReg t o (s.booked out high) = tgtReg t o s := rfl

/-! ## A request that its target executes (R128, R129) -/

/-- What the response to a request carries: the local register on a read, zero where there is none. -/
def State.tgtValue (s : State) (t : Nat) (write : Bool) (word : BitVec 15) : Word :=
  match tgtReg t (4 * word.toNat) s with
  | some d => if write then 0 else d.read
  | none => 0

/-- The access to the local register. -/
def State.tgtAccess (s : State) (t : Nat) (write : Bool) (word : BitVec 15) (data : Word) : State :=
  match tgtReg t (4 * word.toNat) s with
  | some d => if !write then d.onRead s else if d.allows data then d.write (d.merge data) s else s
  | none => s

/-- A target queues its response and remembers the request. -/
def ZTarget.executed (z : ZTarget) (tag : BitVec 5) (word : BitVec 15) (data resp : Word) : ZTarget :=
  { z with memo := sput z.memo tag.toNat ⟨word, data, ⟨tag, word, resp⟩⟩, queue := z.queue ++ [⟨tag, word, resp⟩] }

theorem State.tgtDo_eq (s : State) (t : Nat) (tag : BitVec 5) (write : Bool) (word : BitVec 15) (data : Word) :
    s.tgtDo t tag write word data = (s.tgtAccess t write word data).setTgt t (fun z =>
      z.executed tag word (if write then data else 0) (s.tgtValue t write word)) := by
  have both := State.setTgt_setTgt (s.tgtAccess t write word data) t
    (fun z => { z with
      memo := sput z.memo tag.toNat ⟨word, if write then data else 0, ⟨tag, word, s.tgtValue t write word⟩⟩ })
    (fun z => { z with queue := z.queue ++ [⟨tag, word, s.tgtValue t write word⟩] })
  refine Eq.trans ?_ both
  unfold State.tgtDo State.tgtAccess State.tgtValue
  cases tgtReg t (4 * word.toNat) s <;> rfl

theorem State.tgtValue_write (s : State) (t : Nat) (word : BitVec 15) : s.tgtValue t true word = 0 := by
  unfold State.tgtValue
  split <;> rfl

theorem State.tgtAccess_read (s : State) (t : Nat) (word : BitVec 15) (data : Word) : s.tgtAccess t false word data = s := by
  have loc := tgtReg_local t (4 * word.toNat) s
  unfold State.tgtAccess
  cases found : tgtReg t (4 * word.toNat) s with
  | none => rfl
  | some d =>
    obtain ⟨read, -⟩ := loc d found
    exact read s

theorem State.tgtAccess_length (s : State) (t : Nat) (write : Bool) (word : BitVec 15) (data : Word) :
    (s.tgtAccess t write word data).zlb.targets.length = s.zlb.targets.length := by
  have loc := tgtReg_local t (4 * word.toNat) s
  unfold State.tgtAccess
  cases found : tgtReg t (4 * word.toNat) s with
  | none => rfl
  | some d =>
    obtain ⟨read, writes⟩ := loc d found
    dsimp only
    split
    · rw [read]
    · split
      · obtain ⟨length, -⟩ := writes (d.merge data) s
        exact length
      · rfl

/-- What a target does has nothing to do with the ZX8-R's bookkeeping. -/
theorem State.tgtDo_booked (s : State) (out : List ZReq) (high : BitVec 6) (t : Nat) (tag : BitVec 5) (write : Bool)
    (word : BitVec 15) (data : Word) :
    (s.booked out high).tgtDo t tag write word data = (s.tgtDo t tag write word data).booked out high := by
  have loc := tgtReg_local t (4 * word.toNat) s
  have access : (s.booked out high).tgtAccess t write word data = (s.tgtAccess t write word data).booked out high := by
    unfold State.tgtAccess
    rw [tgtReg_booked]
    cases found : tgtReg t (4 * word.toNat) s with
    | none => rfl
    | some d =>
      obtain ⟨read, writes⟩ := loc d found
      dsimp only
      split
      · rw [read, read]
      · split
        · obtain ⟨-, books⟩ := writes (d.merge data) s
          exact books out high
        · rfl
  have value : (s.booked out high).tgtValue t write word = s.tgtValue t write word := rfl
  rw [State.tgtDo_eq, State.tgtDo_eq, access, value]
  rfl

/-! ## Requests and retries that a target takes -/

theorem State.zlbAsk_taken {s : State} {t : Nat} (takes : s.tgtTakes t = true) (tag : BitVec 5) (write : Bool)
    (word : BitVec 15) (data : Word) : s.zlbAsk t tag write word data = (s.setTgt t zDrive).tgtDo t tag write word data := by
  obtain ⟨on, -, -⟩ := State.tgtTakes_facts takes
  have frame : s.zlbFrame t id = s.setTgt t zDrive := State.zlbFrame_of_tgtOn on id
  unfold State.zlbAsk
  dsimp only
  rw [frame, if_pos ((s.tgtTakes_driven t).trans takes)]

/-- DBM_ZLB_TAGS.HIGH once `k` tags have been in use. -/
def State.tagMark (s : State) (k : Nat) : BitVec 6 := BitVec.ofNat 6 (max s.zlb.high.toNat k)

/-- A new request with tag and credit that its target takes: counted, and executed. -/
theorem State.zlbRequest_taken {s : State} {t : Nat} {tag : BitVec 5} (free : s.unreach t = false)
    (credit : s.zlbCredit t tag = true) (takes : s.tgtTakes t = true) (write : Bool) (word : BitVec 15) (data : Word) :
    s.zlbRequest t tag write word data = ((s.setTgt t zDrive).tgtDo t tag write word data).booked
      (s.zlb.out ++ [⟨t, tag, write, word, data, 0⟩]) (s.tagMark (s.zlb.out.length + 1)) := by
  obtain ⟨-, pd2, -⟩ := State.tgtTakes_facts takes
  have sent : s.zlbRequest t tag write word data
      = s.zlbSend ⟨t, tag, write, word, data, 0⟩ := by
    unfold State.zlbRequest
    dsimp only
    rw [if_neg (by simp [pd2, free]), if_pos credit]
  have book : s.zlbSend ⟨t, tag, write, word, data, 0⟩ = (s.booked (s.zlb.out ++ [⟨t, tag, write, word, data, 0⟩])
      (s.tagMark (s.zlb.out ++ [(⟨t, tag, write, word, data, 0⟩ : ZReq)]).length)).zlbAsk t tag write word data := rfl
  rw [sent, book, List.length_append]
  refine (State.zlbAsk_taken ?_ tag write word data).trans (State.tgtDo_booked (s.setTgt t zDrive) _ _ t tag write word data)
  exact takes

theorem State.zlbAgain_taken {s : State} {t : Nat} (takes : s.tgtTakes t = true) (write : Bool) (tag : BitVec 5)
    (word : BitVec 15) (data : Word) : s.zlbAgain t write tag word data =
      match (s.tgt t).memo.find? (fun e => e.1 == tag.toNat) with
      | some e => if e.2.word = word && e.2.data = (if write then data else 0) then (s.setTgt t zDrive).tgtQueue t e.2.resp
          else (s.setTgt t zDrive).tgtDo t tag write word (if write then data else 0)
      | none => (s.setTgt t zDrive).tgtDo t tag write word (if write then data else 0) := by
  obtain ⟨on, pd2, -⟩ := State.tgtTakes_facts takes
  have frame : s.zlbFrame t id = s.setTgt t zDrive := State.zlbFrame_of_tgtOn on id
  have memo : ((s.setTgt t zDrive).tgt t).memo = (s.tgt t).memo := nth_upd_kept ZTarget.memo (f := zDrive) (fun _ => rfl) _ _ _ _
  unfold State.zlbAgain
  dsimp only
  rw [frame, State.tgtTakes_driven, takes, memo]
  rfl

theorem State.zlbAgain_matched {s : State} {t : Nat} (takes : s.tgtTakes t = true) {write : Bool} {tag : BitVec 5}
    {word : BitVec 15} {data : Word} {resp : ZResp} {k : Nat}
    (kept : (s.tgt t).memo.find? (fun e => e.1 == tag.toNat) = some (k, ⟨word, if write then data else 0, resp⟩)) :
    s.zlbAgain t write tag word data = s.setTgt t (fun z => { zDrive z with queue := z.queue ++ [resp] }) := by
  rw [State.zlbAgain_taken takes, kept]
  dsimp only
  rw [if_pos (by simp)]
  exact s.setTgt_setTgt t zDrive _

theorem State.zlbAgain_unmatched {s : State} {t : Nat} (takes : s.tgtTakes t = true) {write : Bool} {tag : BitVec 5}
    {word : BitVec 15} {data : Word} (other : ∀ resp, (s.tgt t).memo.find? (fun e => e.1 == tag.toNat)
      ≠ some (tag.toNat, ⟨word, if write then data else 0, resp⟩)) : s.zlbAgain t write tag word data
      = (s.setTgt t zDrive).tgtDo t tag write word (if write then data else 0) := by
  rw [State.zlbAgain_taken takes]
  cases kept : (s.tgt t).memo.find? (fun e => e.1 == tag.toNat) with
  | none => rfl
  | some e =>
    obtain ⟨k, m⟩ := e
    have key : k = tag.toNat := by simpa using List.find?_some kept
    refine if_neg fun same => ?_
    simp only [Bool.and_eq_true, decide_eq_true_eq] at same
    obtain ⟨sameWord, sameData⟩ := same
    refine other m.resp ?_
    rw [kept, key, ← sameWord, ← sameData]

/-- What a target that has executed a request remembers and queues. -/
theorem State.tgtDo_tgt {s : State} {t : Nat} (present : t < s.zlb.targets.length) (tag : BitVec 5) (write : Bool)
    (word : BitVec 15) (data : Word) : (s.tgtDo t tag write word data).tgt t
      = ((s.tgtAccess t write word data).tgt t).executed tag word (if write then data else 0) (s.tgtValue t write word) := by
  rw [State.tgtDo_eq]
  exact State.setTgt_tgt_self ((s.tgtAccess_length t write word data).symm ▸ present) _

theorem ZTarget.executed_kept (z : ZTarget) (tag : BitVec 5) (word : BitVec 15) (data resp : Word) :
    (z.executed tag word data resp).memo.find? (fun e => e.1 == tag.toNat)
      = some (tag.toNat, ⟨word, data, ⟨tag, word, resp⟩⟩) := find?_sput_self _ _ _

/-! ## The obligation -/

/-- Settles O34: an executed request stands in its target's memory (`ZTarget.executed_kept`), a RETRY that matches it queues
the remembered response alone (`State.zlbAgain_matched`), and one that does not match does to the target what the new request
does, which rests on nothing that the ZX8-R books (`State.tgtDo_booked`). -/
theorem retryMemory : Obligations.RetryMemory := by
  unfold Obligations.RetryMemory
  have code : ∀ tag : Fin 32, (BitVec.ofNat 5 tag).toNat = tag.val := fun tag => by rw [BitVec.toNat_ofNat]; omega
  have kept : ∀ (tag : Fin 32) (z : ZTarget) word data resp,
      (z.executed (BitVec.ofNat 5 tag) word data resp).memo.find? (fun e => e.1 == tag.val)
        = some (tag.val, ⟨word, data, ⟨BitVec.ofNat 5 tag, word, resp⟩⟩) := fun tag z word data resp => by
    have found := z.executed_kept (BitVec.ofNat 5 tag) word data resp
    rwa [code tag] at found
  refine ⟨fun n tag word data s pd2 free credit takes => ?_, fun n write tag word data resp s takes known => ?_,
    fun n write tag word data s takes free other => ?_⟩
  · obtain ⟨-, -, present⟩ := State.tgtTakes_facts takes
    have asked := State.zlbRequest_taken free credit takes
    have done := State.tgtDo_tgt ((s.setTgt_length n zDrive).symm ▸ present) (BitVec.ofNat 5 tag)
    refine ⟨⟨_, congrArg Host.Outcome.next (asked true word data), ?_⟩, _,
      (s.setTgt n zDrive).tgtValue n false word, congrArg Host.Outcome.next (asked false word 0), ?_, ?_⟩
    · change ((State.tgtDo _ _ _ _ _ _).tgt n).memo.find? _ = _
      rw [done, State.tgtValue_write]
      exact kept tag _ word data 0
    · change ((State.tgtDo _ _ _ _ _ _).tgt n).queue = _
      rw [done, State.tgtAccess_read, State.setTgt_tgt_self present]
      rfl
    · change ((State.tgtDo _ _ _ _ _ _).tgt n).memo.find? _ = _
      rw [done]
      exact kept tag _ word 0 _
  · dsimp only at known
    rw [← code tag] at known
    exact congrArg Host.Outcome.next (State.zlbAgain_matched takes known)
  · dsimp only at other
    rw [← code tag] at other
    have again := State.zlbAgain_unmatched takes other
    have empty : ({ s with zlb := { s.zlb with out := [] } } : State).zlbCredit n (BitVec.ofNat 5 tag) = true := by
      simp [State.zlbCredit, State.tgtOut]
    have asked := State.zlbRequest_taken (s := { s with zlb := { s.zlb with out := [] } }) free empty takes write word
      (if write then data else 0)
    have alone := State.tgtDo_booked (s.setTgt n zDrive) [] s.zlb.high n (BitVec.ofNat 5 tag) write word
      (if write then data else 0)
    have row : exec (if write then .zlbWrite n tag word data else .zlbRead n tag word) { s with zlb := { s.zlb with out := [] } }
        = .next (State.zlbRequest { s with zlb := { s.zlb with out := [] } } n (BitVec.ofNat 5 tag) write word
            (if write then data else 0)) := by
      cases write <;> rfl
    refine ⟨_, _, congrArg Host.Outcome.next again, 
      row.trans (congrArg Host.Outcome.next (asked.trans (congrArg (State.booked · _ _) alone))), ?_⟩
    exact ⟨rfl, rfl, rfl, rfl, rfl⟩

end Sys2Proof.Machine

/-! SUPPORT. Requests and their mark (O35): the six bits of DBM_ZLB_TAGS.HIGH where 63 requests are outstanding. -/

namespace Sys2Proof.Machine
open Sys2Proof

/-- Every target of the local bus answers, and 63 requests stand outstanding at target 0 under tag 0. -/
def manyOutstanding : State :=
  { State.reset with
    pow := { State.reset.pow with dom := .run, on := 0x3D }
    zlb := { State.reset.zlb with
      targets := List.replicate 11 { ZTarget.fresh with alive := true }
      out := List.replicate 63 ⟨0, 0, false, 0, 0, 0⟩ } }

/-- One more request, of another target under another tag, has credit and is taken. -/
theorem manyOutstanding_takes : manyOutstanding.unreach 1 = false ∧ manyOutstanding.zlbCredit 1 1 = true
    ∧ manyOutstanding.tgtTakes 1 = true := by decide

/-- The 64 tags then in use do not fit the mark, which reads 0. -/
theorem manyOutstanding_tagMark : manyOutstanding.tagMark (manyOutstanding.zlb.out.length + 1) = 0 := by decide

/-- Refutes O35: the statement has DBM_ZLB_TAGS.HIGH reach the requests outstanding in every state, but the mark has six bits
and the statement does not bound the requests, which a running set keeps at one for each of the 32 tags (R130): with 63
outstanding, as on `manyOutstanding`, a further request takes the mark to 0. -/
theorem not_busRequests : ¬ Obligations.BusRequests := by
  unfold Obligations.BusRequests
  rintro ⟨requests, -⟩
  obtain ⟨free, credit, takes⟩ := manyOutstanding_takes
  obtain ⟨⟨t, step, -, -, -, marks, -⟩, -⟩ := requests 1 1 0 0 manyOutstanding (by decide) free credit takes
  have taken : exec (.zlbRead 1 1 0) manyOutstanding = .next _ :=
    congrArg Host.Outcome.next (State.zlbRequest_taken free credit takes false 0 0)
  cases taken.symm.trans step
  change 63 < (manyOutstanding.tagMark (manyOutstanding.zlb.out.length + 1)).toNat + 1 at marks
  rw [manyOutstanding_tagMark] at marks
  exact absurd marks (by decide)

end Sys2Proof.Machine

/-! SUPPORT. Responses on the local bus (O36): the last attempt at a ZX8-P whose ADC is calibrated. -/

namespace Sys2Proof.Machine
open Sys2Proof

/-- The ZX8-P, whose ADC is being calibrated, has stopped answering, and a read of KPA_STATUS has failed three times. -/
def lastAttemptMidAdcCal : State :=
  { fetchMidAdcCal with zlb := { fetchMidAdcCal.zlb with out := [⟨10, 0, false, 2, 0, 3⟩] } }

/-- The fourth failure marks the ZX8-P unreachable, which abandons the calibration (R131, R172), and the readings go live. -/
theorem lastAttemptMidAdcCal_timeout_held : (lastAttemptMidAdcCal.zlbTimeout 10 0).zxp.held.isSome = false := by decide

/-- Refutes O36: the statement has the last failed attempt leave the ZX8-P as it was, but at a ZX8-P it abandons a running
calibration of its ADC, whose held channels go live again (R131, R171, R172), as on `lastAttemptMidAdcCal`. -/
theorem not_busResponses : ¬ Obligations.BusResponses := by
  unfold Obligations.BusResponses
  rintro ⟨-, -, -, -, -, -, -, times⟩
  obtain ⟨t, step, -, -, -, fails⟩ := times 10 0 false 2 0 3 lastAttemptMidAdcCal rfl rfl
  have timedOut : exec (.zlbAttemptTimeout 10 0) lastAttemptMidAdcCal = .next (lastAttemptMidAdcCal.zlbTimeout 10 0) := rfl
  cases timedOut.symm.trans step
  obtain ⟨-, kept⟩ := fails (Or.inr le_rfl)
  have live := lastAttemptMidAdcCal_timeout_held
  have held : lastAttemptMidAdcCal.zxp.held.isSome = true := fetchMidAdcCal_held
  rw [congrArg State.zxp kept, held] at live
  cases live

end Sys2Proof.Machine

/-! SUPPORT. The warm record's commands and the host blob (O41). -/

namespace Sys2Proof.Machine
open Sys2Proof

/-! ## The warm record becomes pending (R147, R195) -/

/-- The working set is to be stored, with its source. -/
theorem State.recStore_form (s : State) (source : Nat) : ∃ l, l.contains 5 = true ∧ s.recStore source = { s with
    train := { s.train with recPending := true, recSource := source, recInvalid := false }
    nvs := { s.nvs with pend := l } } :=
  ⟨_, State.pendRegion_contains _ 5, State.pendRegion_eq _ 5⟩

/-- The working set is to be stored for a change of its own: its source stands, or is SAVE where it has none. -/
theorem State.recOwed_form (s : State) : ∃ l, l.contains 5 = true ∧ s.recOwed = { s with
    train := { s.train with
      recPending := true, recSource := if s.train.recSource = 0 then 3 else s.train.recSource, recInvalid := false }
    nvs := { s.nvs with pend := l } } :=
  s.recStore_form _

/-- A write of a register whose Kept fields are in the warm record. -/
theorem RegDef.put_warm (d : RegDef) {a : Nat} (home : homeOf a = 5) (v : Word) (s : State) :
    d.put a v s = if d.changes v then (d.write (d.merge v) s).recOwed else d.write (d.merge v) s := by
  have owed : ∀ t : State, t.homePend (homeOf a) = t.recOwed := fun t => if_pos home
  simp only [RegDef.put, owed]
  rfl

/-- The training registers stand from 0x1100 to 0x11FF. -/
theorem hubReg_train (p : Path) (s : State) {a : Nat} (lo : 0x1100 ≤ a) (hi : a < 0x1200) (aligned : a % 4 = 0) :
    hubReg p a s = trainReg p a s := by
  simp (disch := omega) [hubReg, if_neg, if_pos]

/-! ## TRM_REC_CMD (R147, R148) -/

/-- TRM_REC_CMD. -/
def trmRecCmdReg : RegDef :=
  { flds := [⟨15, 0, .wo, false, fun k => k == 0x5A01 || k == 0x5A02⟩], read := 0,
    write := fun v s => s.recCmd (fld v 15 0) }

theorem hubReg_trmRecCmd {s : State} (warm : s.regOn .warmBoot = true) (p : Path) :
    hubReg p 0x1110 s = some trmRecCmdReg := by
  rw [hubReg_train p s (by decide) (by decide) (by decide)]
  simp [trainReg, warm]
  rfl

theorem State.recCmd_save (s : State) : s.recCmd 0x5A01 = s.recStore 3 := rfl

/-- A key that the register knows is its command. -/
theorem State.put_trmRecCmd {s : State} (up : s.up = true) (res : s.nvs.rescue = false) (warm : s.regOn .warmBoot = true)
    (p : Path) {k : Nat} (known : k = 0x5A01 ∨ k = 0x5A02) : s.put p 0x1110 k = s.recCmd k := by
  have reg := (State.reg_of_up up res p 0x1110).trans (hubReg_trmRecCmd warm p)
  have allowed : trmRecCmdReg.allows (BitVec.ofNat 32 k) = true := by rcases known with rfl | rfl <;> rfl
  have key : fld (BitVec.ofNat 32 k) 15 0 = k := by rcases known with rfl | rfl <;> rfl
  refine (State.hubWrite_of_allowed reg allowed).trans ((RegDef.put_of_not_kept rfl _ _ s).trans ?_)
  rw [RegDef.merge_of_roMask rfl]
  exact congrArg s.recCmd key

/-! ## TRM_HBLOB_DATA (R162) -/

theorem sget_eq_find? {β : Type} (d : β) (m : List (Nat × β)) (k : Nat) :
    sget d m k = ((m.find? (fun e => e.1 == k)).map Prod.snd).getD d := by
  induction m with
  | nil => rfl
  | cons e m ih =>
    by_cases hit : e.1 = k
    · simp [sget, hit]
    · simp [sget, hit, ih]

theorem find?_serase_self {β : Type} (m : List (Nat × β)) (k : Nat) : (serase m k).find? (fun e => e.1 == k) = none := by
  simp [serase]

theorem find?_serase_ne {β : Type} (m : List (Nat × β)) {j k : Nat} (h : j ≠ k) :
    (serase m k).find? (fun e => e.1 == j) = m.find? (fun e => e.1 == j) := by
  rw [serase, List.find?_filter]
  refine congrArg (m.find? ·) (funext fun e => ?_)
  by_cases at_j : e.1 = j
  · simp [at_j, h]
  · simp [at_j]

theorem sget_sset_self {β : Type} [DecidableEq β] (d : β) (m : List (Nat × β)) (k : Nat) (v : β) :
    sget d (sset d m k v) k = v := by
  unfold sset
  split
  case isTrue reset =>
    rw [sget_eq_find?, find?_serase_self]
    exact reset.symm
  case isFalse set =>
    rw [sget_eq_find?, find?_sput_self]
    rfl

theorem sget_sset_ne {β : Type} [DecidableEq β] (d : β) (m : List (Nat × β)) {j k : Nat} (h : j ≠ k) (v : β) :
    sget d (sset d m k v) j = sget d m j := by
  unfold sset
  split
  case isTrue reset => rw [sget_eq_find?, find?_serase_ne m h, sget_eq_find?]
  case isFalse set => rw [sget_eq_find?, find?_sput_ne m h v, sget_eq_find?]

theorem pathIdx_injective : Function.Injective pathIdx := by
  intro p q h
  cases p <;> cases q <;> trivial

theorem State.setSel_sel_self {s : State} {p : Path} (present : pathIdx p < s.sels.length) (f : PathSel → PathSel) :
    (s.setSel p f).sel p = f (s.sel p) :=
  nth_upd_self present f PathSel.fresh

theorem State.setSel_sel_ne (s : State) {p q : Path} (other : q ≠ p) (f : PathSel → PathSel) :
    (s.setSel p f).sel q = s.sel q :=
  nth_upd_ne _ (fun same => other (pathIdx_injective same)) f _

/-- Word `k` of the host blob is written. -/
def State.blobSet (s : State) (k : Nat) (v : Word) : State :=
  { s with train := { s.train with blob := sset 0 s.train.blob k v } }

/-- TRM_HBLOB_DATA as path `p` finds it. -/
def trmHblobDataReg (p : Path) (s : State) : RegDef :=
  let k := (s.sel p).hblob.toNat
  { flds := [Fld.keptAny 31 0], read := sget 0 s.train.blob k, onRead := fun s => s.blobNext p,
    write := fun v s => (s.blobSet k v).blobNext p }

theorem hubReg_trmHblobData {s : State} (warm : s.regOn .warmBoot = true) (p : Path) :
    hubReg p 0x1124 s = some (trmHblobDataReg p s) := by
  rw [hubReg_train p s (by decide) (by decide) (by decide)]
  simp [trainReg, warm]
  rfl

theorem trmHblobDataReg_allows (p : Path) (s : State) (v : Word) : (trmHblobDataReg p s).allows v = true := by
  have fits : v.toNat ||| (2 ^ 32 - 1) = 2 ^ 32 - 1 := or_lowMask_iff.mpr v.isLt
  have mask : (trmHblobDataReg p s).fieldMask = 2 ^ 32 - 1 := rfl
  simp only [RegDef.allows, mask, fits]
  rfl

theorem trmHblobDataReg_changes (p : Path) (s : State) (v : Word) :
    (trmHblobDataReg p s).changes v = decide (sget 0 s.train.blob (s.sel p).hblob.toNat ≠ v) := by
  have kept : ∀ i, (trmHblobDataReg p s).keptMask.testBit i = decide (i < 32) := fun i => Nat.testBit_two_pow_sub_one 32 i
  have same : (trmHblobDataReg p s).changes v = false ↔ sget 0 s.train.blob (s.sel p).hblob.toNat = v := by
    rw [RegDef.changes_eq_false_iff, RegDef.merge_of_roMask rfl]
    simp only [kept, decide_eq_true_iff]
    refine ⟨fun bits => BitVec.eq_of_getLsbD_eq fun i hi => (bits i hi).symm, fun eq i _ => ?_⟩
    rw [← eq]
    rfl
  rw [Bool.eq_iff_iff, ← Bool.not_eq_false, same, decide_eq_true_iff]

/-- A write puts the value at the path's index, moves the index on, and owes the record where the word changes. -/
theorem State.hubWrite_hblobData {s : State} (up : s.up = true) (res : s.nvs.rescue = false)
    (warm : s.regOn .warmBoot = true) (p : Path) (v : Word) : s.hubWrite p 0x1124 v =
      if sget 0 s.train.blob (s.sel p).hblob.toNat = v then (s.blobSet (s.sel p).hblob.toNat v).blobNext p
      else ((s.blobSet (s.sel p).hblob.toNat v).blobNext p).recOwed := by
  have reg := (State.reg_of_up up res p 0x1124).trans (hubReg_trmHblobData warm p)
  refine (State.hubWrite_of_allowed reg (trmHblobDataReg_allows p s v)).trans ?_
  refine (RegDef.put_warm (a := (0x1124 : Addr).toNat) _ rfl v s).trans ?_
  rw [trmHblobDataReg_changes, RegDef.merge_of_roMask rfl]
  by_cases same : sget 0 s.train.blob (s.sel p).hblob.toNat = v
  · simp only [same, ne_eq, not_true_eq_false, decide_false, Bool.false_eq_true, if_true, if_false]
    rfl
  · simp only [same, ne_eq, not_false_eq_true, decide_true, if_true, if_false]
    rfl

/-- A word of the blob and the index of its path after a write. -/
theorem State.blobWritten_kept {s : State} (paths : s.sels.length = 6) (p : Path) (k : Nat) (v : Word) :
    let t := (s.blobSet k v).blobNext p
    sget 0 t.train.blob k = v ∧ t.sel p = { s.sel p with hblob := (s.sel p).hblob + 1 }
      ∧ (∀ j, j ≠ k → sget 0 t.train.blob j = sget 0 s.train.blob j) ∧ ∀ q, q ≠ p → t.sel q = s.sel q := by
  have present : pathIdx p < s.sels.length := by
    rw [paths]
    cases p <;> decide
  exact ⟨sget_sset_self 0 _ k v, State.setSel_sel_self (s := s.blobSet k v) present _,
    fun j other => sget_sset_ne 0 _ other v, fun q other => (s.blobSet k v).setSel_sel_ne other _⟩

/-! ## The obligation -/

/-- Settles O41: both keys of TRM_REC_CMD (`State.put_trmRecCmd`), and an access to TRM_HBLOB_DATA
(`State.hubWrite_hblobData`), whose word and index are those of `State.blobWritten_kept`. The record source that a change of
the blob keeps or sets is the model's choice (log entry 93). -/
theorem warmRecordCommands : Obligations.WarmRecordCommands := by
  unfold Obligations.WarmRecordCommands
  intro p s up res warm
  refine ⟨⟨_, congrArg Host.Outcome.next (State.put_trmRecCmd up res warm p (.inl rfl)), ?_⟩,
    ⟨_, congrArg Host.Outcome.next (State.put_trmRecCmd up res warm p (.inr rfl)), ?_⟩, fun v paths => ?_, ?_⟩
  case refine_1 =>
    obtain ⟨l, owed, stored⟩ := s.recStore_form 3
    rw [State.recCmd_save, stored]
    exact ⟨owed, rfl⟩
  case refine_2 => exact ⟨State.pendRegion_contains _ 5, State.pendRegion_eq _ 5⟩
  case refine_3 =>
    refine ⟨_, congrArg Host.Outcome.next (State.hubWrite_hblobData up res warm p v), ?_⟩
    obtain ⟨word, idx, words, idxs⟩ := State.blobWritten_kept paths p (s.sel p).hblob.toNat v
    by_cases same : sget 0 s.train.blob (s.sel p).hblob.toNat = v
    · rw [if_pos same, if_pos same]
      exact ⟨word, idx, words, idxs, rfl⟩
    · rw [if_neg same, if_neg same]
      obtain ⟨l, owed, stored⟩ := ((s.blobSet (s.sel p).hblob.toNat v).blobNext p).recOwed_form
      rw [stored]
      exact ⟨word, idx, words, idxs, owed, rfl⟩
  case refine_4 =>
    have reg := (State.reg_of_up up res p 0x1124).trans (hubReg_trmHblobData warm p)
    refine ⟨_, rfl, ?_⟩
    simp only [State.afterRead, reg]
    rfl

end Sys2Proof.Machine

/-! SUPPORT. Initialization of the DRAMs (O37): its start with the rate checked, and what it leads to. -/

namespace Sys2Proof.Machine
open Sys2Proof

/-- TRAIN frames reach the buffers alone (R118). -/
theorem State.trainFrames_form (s : State) (x : Sub) (cs : List (BitVec 2)) :
    s.trainFrames x cs = { s with dbs := (s.trainFrames x cs).dbs } := by
  have frames : ∀ (l : List (BitVec 2)) (u : State),
      ∃ d, l.foldl (fun t c => t.dbcCmd x (.train c)) u = { u with dbs := d } := by
    intro l
    induction l with
    | nil => exact fun u => ⟨u.dbs, rfl⟩
    | cons c l ih =>
      intro u
      obtain ⟨d, form⟩ := ih (u.dbcCmd x (.train c))
      rw [List.foldl_cons, form, u.dbcCmd_form x]
      exact ⟨d, rfl⟩
  obtain ⟨d, form⟩ := frames cs s
  rw [State.trainFrames, form]

/-! ## The start of initialization (R139, R146) -/

section
variable {s : State} {x : Sub}

/-- What INIT starts with: YRST_n high. -/
def State.yrstHigh (s : State) : State := { s with host := { s.host with yrst := true } }

/-- A record whose rate is not the one measured is not used (R146). -/
def State.rateChecked (s : State) (x : Sub) : State :=
  if (s.tr x).replayed && !rateNear s.clk.hckMhz.toNat s.train.trainedRate.toNat then
    { (s.discardWork x) with train := { (s.discardWork x).train with coldCause := 3 } }
  else if s.rateLate then { s with train := { s.train with coldCause := 3 } } else s

/-- Training of a subchannel as INIT starts it (R139). -/
def TrainSub.initial (t : TrainSub) : TrainSub :=
  { t with phase := .init, rankFail := 0, want := 0, reelDone := false, skip := false }

theorem State.rateChecked_form (s : State) (x : Sub) : ∃ d t, s.rateChecked x = { s with dbs := d, train := t }
    ∧ (State.tr { s with train := t } x).replayed
        = ((s.tr x).replayed && rateNear s.clk.hckMhz.toNat s.train.trainedRate.toNat)
    ∧ ∀ y, y ≠ x → State.tr { s with train := t } y = s.tr y := by
  unfold State.rateChecked
  split
  case isTrue far =>
    obtain ⟨-, far⟩ := Bool.and_eq_true_iff.mp far
    obtain ⟨g, r, form⟩ := s.discardWork_eq x
    obtain ⟨-, -, -, -, -, -, -, -, discarded, others⟩ := s.discardWork_kept x
    have replayed : ((s.discardWork x).tr x).replayed = false := by rw [discarded]; rfl
    rw [form] at replayed others ⊢
    refine ⟨_, _, rfl, ?_, fun y other => Eq.trans ?_ (others y other)⟩
    · rw [Bool.not_eq_true'] at far
      rw [far, Bool.and_false, ← replayed]
      cases x <;> rfl
    · cases y <;> rfl
  case isFalse near =>
    have same : (s.tr x).replayed = ((s.tr x).replayed && rateNear s.clk.hckMhz.toNat s.train.trainedRate.toNat) := by
      cases hr : (s.tr x).replayed <;> simp_all
    split
    · exact ⟨s.dbs, _, rfl, by rw [← same]; cases x <;> rfl, fun y _ => by cases y <;> rfl⟩
    · exact ⟨s.dbs, s.train, rfl, same, fun _ _ => rfl⟩

theorem exec_trainingInit (up : s.up = true) (trains : s.trains = true) (phase : (s.tr x).phase = .wait)
    (reset : s.host.resetHigh = true) (hck : s.clk.hckOk = true) : exec (.trainingInit x) s = .next
      (((s.yrstHigh.rateChecked x).setTr x TrainSub.initial).setSub x (fun t => { t with
        ranks := (List.range 4).map (fun k => if s.rankFitted x k then .active else .absent) })) := by
  obtain ⟨d, t, form, -⟩ := s.yrstHigh.rateChecked_form x
  have fitted : ((s.yrstHigh.rateChecked x).setTr x TrainSub.initial).rankFitted x = s.rankFitted x := by
    rw [form]
    cases x <;> rfl
  have starts : ¬ ((s.tr x).phase != .wait || !s.host.resetHigh || !s.clk.hckOk || !s.trains) = true := by
    simp [phase, reset, hck, trains]
  rw [← fitted]
  refine congrArg Host.Outcome.next ((if_pos up).trans ?_)
  unfold State.trainInit
  rw [if_neg starts]
  rfl

theorem exec_trainingInit_of_other (other : (s.tr x).phase ≠ .wait ∨ s.host.resetHigh = false) :
    exec (.trainingInit x) s = .next s := by
  have stays : s.trainInit x = s := if_pos (by rcases other with phase | low <;> simp [*])
  refine congrArg Host.Outcome.next ?_
  rw [stays, ite_self]

/-! ## The end of initialization (R139, R141, R142) -/

/-- The DRAMs are out of reset and their mode registers programmed, with values that the manual does not give. -/
def State.initialized (s : State) (x : Sub) : State :=
  let u : State := { s with host := { s.host with yrst := true, yrstMs := 0 } }
  let m : MrShadow := ⟨0, u.freeVal 7, u.took.freeVal 7, false, false⟩
  u.took.took.setSub x (fun t => { t with shadow := List.replicate 4 m })

/-- POLKA follows where a replayed record stands, REEL where none does (R142). -/
def State.trainsOn (s : State) (x : Sub) : State :=
  if (s.tr x).replayed then (s.initialized x).setPhase x .polka
  else ((s.initialized x).coldPath.setPhase x .reel).trainFrames x (trainCodes .reel)

theorem exec_trainingInitDone (up : s.up = true) (trains : s.trains = true) (phase : (s.tr x).phase = .init)
    (reset : s.host.resetHigh = true) (hck : s.clk.hckOk = true) : exec (.trainingInitDone x) s = .next
      (if s.pow.straps.nodb then ((s.initialized x).setPath 6).trainDone x
        else s.trainsOn x) := by
  have starts : ¬ ((s.tr x).phase != .init || !s.host.resetHigh || !s.clk.hckOk || !s.trains) = true := by
    simp [phase, reset, hck, trains]
  refine congrArg Host.Outcome.next ((if_pos up).trans ?_)
  unfold State.initDone
  rw [if_neg starts]
  cases x <;> rfl

theorem exec_trainingInitDone_of_other (other : (s.tr x).phase ≠ .init ∨ s.host.resetHigh = false) :
    exec (.trainingInitDone x) s = .next s := by
  have stays : s.initDone x = s := if_pos (by rcases other with phase | low <;> simp [*])
  refine congrArg Host.Outcome.next ?_
  rw [stays, ite_self]
end

theorem State.initialized_form (s : State) (x : Sub) : ∃ m f, s.initialized x =
    State.setSub { s with host := { s.host with yrst := true, yrstMs := 0 }, free := f } x
      (fun t => { t with shadow := List.replicate 4 m }) := ⟨_, _, rfl⟩

/-- The path of a subchannel that trains cold: 4 and 5 stand, everything else becomes 2 (R140). -/
theorem State.coldPath_form (s : State) : s.coldPath = { s with
    train := { s.train with path := if s.train.path = 4 ∨ s.train.path = 5 then s.train.path else 2 } } := by
  have codes : ∀ p : BitVec 3, (decide (p.toNat = 4) || decide (p.toNat = 5)) = decide (p = 4 ∨ p = 5) := by decide
  unfold State.coldPath
  rw [codes]
  by_cases stands : s.train.path = 4 ∨ s.train.path = 5
  · rw [if_pos (decide_eq_true stands), if_pos stands]
  · rw [if_neg (by simpa using stands), if_neg stands]
    rfl

theorem State.trainsOn_kept (s : State) (x : Sub) : ((s.trainsOn x).tr x).phase = (if (s.tr x).replayed then .polka else .reel)
    ∧ (s.trainsOn x).train.path
        = (if (s.tr x).replayed = true ∨ s.train.path = 4 ∨ s.train.path = 5 then s.train.path else 2)
    ∧ ((s.trainsOn x).sub x).owner = (s.sub x).owner ∧ ((s.trainsOn x).sub x).shadow.length = 4
    ∧ (∀ y, y ≠ x → (s.trainsOn x).sub y = s.sub y ∧ (s.trainsOn x).tr y = s.tr y)
    ∧ s.trainsOn x = { s with
        host := { s.host with yrst := true, yrstMs := 0 }, subA := (s.trainsOn x).subA, subB := (s.trainsOn x).subB
        train := (s.trainsOn x).train, free := (s.trainsOn x).free, dbs := (s.trainsOn x).dbs } := by
  obtain ⟨m, f, ready⟩ := s.initialized_form x
  unfold State.trainsOn
  cases replayed : (s.tr x).replayed
  case true =>
    rw [if_pos rfl, ready]
    refine ⟨?_, ?_, ?_, ?_, fun y other => ⟨?_, ?_⟩, ?_⟩
    case refine_5 => exact (State.setTr_sub _ x y _).trans ((State.setSub_sub_ne _ other _).trans (by cases y <;> rfl))
    case refine_6 => exact (State.setTr_tr_ne _ other _).trans ((State.setSub_tr _ x y _).trans (by cases y <;> rfl))
    all_goals cases x <;> rfl
  case false =>
    rw [if_neg Bool.false_ne_true, State.trainFrames_form, State.coldPath_form, ready]
    simp only [Bool.false_eq_true, false_or]
    generalize State.dbs (State.trainFrames _ x _) = d
    refine ⟨?_, ?_, ?_, ?_, fun y other => ⟨?_, ?_⟩, ?_⟩
    case refine_5 => exact (State.setTr_sub _ x y _).trans ((State.setSub_sub_ne _ other _).trans (by cases y <;> rfl))
    case refine_6 => exact (State.setTr_tr_ne _ other _).trans (by cases x <;> cases y <;> rfl)
    all_goals cases x <;> rfl

/-- Settles O37: INIT starts from a state whose record's rate has been checked (`State.rateChecked_form`), and ends in
`State.trainsOn` or, without buffers, with `State.trainDone`. What the mode registers are programmed with is free
(log entry 8). -/
theorem trainingInit : Obligations.TrainingInit := by
  unfold Obligations.TrainingInit
  refine ⟨fun x s up trains phase reset hck => ?start, fun x s up trains phase reset hck db => ?buffers,
    fun x s up trains phase reset hck nodb free own => ?bare,
    fun x s => ⟨exec_trainingInit_of_other, exec_trainingInitDone_of_other⟩⟩
  case start =>
    refine ⟨_, exec_trainingInit up trains phase reset hck, ?_⟩
    obtain ⟨d, t, form, replayed, others⟩ := s.yrstHigh.rateChecked_form x
    have ranks : (List.range 4).map (fun k => if s.rankFitted x k then RankSt.active else .absent)
        = (List.range 4).map (fun k => if (s.drmCfg x).getLsbD k then .active else .absent) :=
      List.map_congr_left fun k hk => by simp [State.rankFitted, List.mem_range.mp hk]
    rw [form, ranks]
    refine ⟨?_, ?_, ?_, ?_, ?_, ?_, Eq.trans ?_ replayed, ?_, fun y other => ⟨?_, ?_⟩, ?_, ?_, ?_⟩
    case refine_9 => exact (State.setSub_sub_ne _ other _).trans ((State.setTr_sub _ x y _).trans (by cases y <;> rfl))
    case refine_10 => exact (State.setSub_tr _ x y _).trans ((State.setTr_tr_ne _ other _).trans (others y other))
    all_goals cases x <;> rfl
  case buffers =>
    have run := exec_trainingInitDone up trains phase reset hck
    rw [db, if_neg Bool.false_ne_true] at run
    exact ⟨_, run, s.trainsOn_kept x⟩
  case bare =>
    have run := exec_trainingInitDone up trains phase reset hck
    rw [nodb, if_pos rfl] at run
    refine ⟨_, run, ?_⟩
    obtain ⟨m, f, ready⟩ := s.initialized_form x
    obtain ⟨-, -, -, path, -, done, -⟩ := ((s.initialized x).setPath 6).trainDone_kept x
    have holds : ((s.initialized x).setPath 6).restoreHolds = false := by
      rw [ready, ← free]
      cases x <;> rfl
    refine ⟨done, path, ?_⟩
    have waits : (((s.initialized x).setPath 6).sub x).owner = .notReady := by
      rw [ready, ← own]
      cases x <;> rfl
    rw [State.trainDone_sub_host holds, SubSt.awake_toHost waits]

end Sys2Proof.Machine

/-! SUPPORT. What training finds for the ranks of a subchannel (O39, O40): the codes of its ranks and buffers alone. -/

namespace Sys2Proof.Machine
open Sys2Proof

/-- Training on `x` has found codes: its ranks' sets, the buffers' taps with what is noted of them, the steps at their
limit, free values and events may have changed, and nothing else has. -/
def State.Found (x : Sub) (s t : State) : Prop :=
  ∃ g d f l c r e, t = { s with
    dbs := d, free := f, evt := e, trim := { s.trim with limit := l }
    train := { (s.setTr x (fun u => { u with gens := g })).train with dbGens := c, dbRefs := r } }

namespace State.Found
variable {x : Sub} {s t u : State}

theorem refl (x : Sub) (s : State) : s.Found x s :=
  ⟨(s.tr x).gens, s.dbs, s.free, s.trim.limit, s.train.dbGens, s.train.dbRefs, s.evt, by cases x <;> rfl⟩

theorem trans (h : s.Found x t) (k : t.Found x u) : s.Found x u := by
  obtain ⟨_, _, _, _, _, _, _, rfl⟩ := h
  obtain ⟨g, d, f, l, c, r, e, rfl⟩ := k
  exact ⟨g, d, f, l, c, r, e, by cases x <;> rfl⟩

theorem foldl {α : Type} {f : State → α → State} (h : ∀ (s : State) a, s.Found x (f s a)) (l : List α) (s : State) :
    s.Found x (l.foldl f s) :=
  List.foldlRecOn (motive := fun t => s.Found x t) l f (refl x s) fun t found a _ => found.trans (h t a)

/-- The subchannels, the host side, the power and the settings memory stand, as does what training notes elsewhere. -/
theorem kept (h : s.Found x t) : t.subA = s.subA ∧ t.subB = s.subB ∧ t.host = s.host ∧ t.pow = s.pow ∧ t.clk = s.clk
    ∧ t.nv = s.nv ∧ t.nvs = s.nvs ∧ t.hrd = s.hrd ∧ ∀ y, y ≠ x → t.tr y = s.tr y := by
  obtain ⟨g, _, _, _, _, _, _, rfl⟩ := h
  refine ⟨rfl, rfl, rfl, rfl, rfl, rfl, rfl, rfl,
    fun y other => Eq.trans ?_ (s.setTr_tr_ne other fun u => { u with gens := g })⟩
  cases y <;> rfl

theorem tr (h : s.Found x t) : t.tr x = { s.tr x with gens := (t.tr x).gens } := by
  obtain ⟨_, _, _, _, _, _, _, rfl⟩ := h
  cases x <;> rfl
end State.Found

section
variable (s : State) (x : Sub)

/-- The buffers' codes and what is noted of them. -/
theorem State.codes_found (d : List Db) (f : Nat) (l : BitVec 12) (c : List (List (Nat × Nat)))
    (r : List (List (Nat × TapSt))) (e : Evt) : s.Found x { s with
      dbs := d, free := f, evt := e, trim := { s.trim with limit := l }, train := { s.train with dbGens := c, dbRefs := r } } :=
  ⟨(s.tr x).gens, d, f, l, c, r, e, by cases x <;> rfl⟩

/-- The sets of the ranks. -/
theorem State.gens_found (g : List (Nat × Nat) → List (Nat × Nat)) (f : Nat) :
    s.Found x { s.setTr x (fun u => { u with gens := g u.gens }) with free := f } :=
  ⟨g (s.tr x).gens, s.dbs, f, s.trim.limit, s.train.dbGens, s.train.dbRefs, s.evt, by cases x <;> rfl⟩

theorem State.trainFrames_found (cs : List (BitVec 2)) : s.Found x (s.trainFrames x cs) := by
  rw [State.trainFrames_form]
  exact s.codes_found x _ s.free s.trim.limit s.train.dbGens s.train.dbRefs s.evt

theorem State.raise_found {n : Nat} (power : n < 24 ∨ 31 < n) (hoard : n < 48 ∨ 55 < n) (a : BitVec 24) :
    s.Found x (s.raise n a) := by
  obtain ⟨e, raised⟩ := s.raise_unlatched power hoard a
  rw [raised]
  exact s.codes_found x s.dbs s.free s.trim.limit s.train.dbGens s.train.dbRefs e

theorem State.genSet_found (rank die kind : Nat) : s.Found x (s.genSet x rank die kind) :=
  s.gens_found x (fun g => sput g ((rank * 4 + die) * 4 + kind) s.free) _

theorem State.genDb_found (n path : Nat) (dqs : Bool) : s.Found x (s.genDb n path dqs) :=
  s.codes_found x _ _ _ _ _ s.evt

theorem State.genPath_found (path : Nat) (dqs : Bool) : s.Found x (s.genPath x path dqs) :=
  .foldl (fun t n => t.genDb_found x n path dqs) _ s

theorem State.genDies_found (rank kind : Nat) : s.Found x (s.genDies x rank kind) :=
  .foldl (fun t d => t.genSet_found x rank d kind) _ s

theorem State.reelRank_found (k : Nat) : s.Found x (s.reelRank x k) :=
  (s.genSet_found x k 0 0).trans (State.genDies_found _ x k 1)

theorem State.writeRank_found (k : Nat) : s.Found x (s.writeRank x k) :=
  ((s.genPath_found x (2 + 2 * k) false).trans (State.genSet_found _ x k 0 2)).trans (State.genDies_found _ x k 3)

/-- A Quadrille step on one rank (R136). -/
theorem State.trainRank_found (ph : Phase) (k : Nat) : s.Found x (s.trainRank x ph k) := by
  cases ph with
  | reel => exact s.reelRank_found x k
  | gavotte => exact s.genPath_found x (2 + 2 * k) true
  | minuet => exact (s.genPath_found x (3 + 2 * k) false).trans (State.writeRank_found _ x k)
  | _ => exact .refl x s

/-- A failed rank goes back to its reset taps (R143). -/
theorem State.resetRank_found (k : Nat) : s.Found x (s.resetRank x k) := by
  have sets : s.Found x (s.setTr x (fun t => { t with gens := t.gens.filter (fun g => g.1 / 16 != k) })) := by
    have found := s.gens_found x (List.filter (fun g => g.1 / 16 != k)) s.free
    cases x <;> exact found
  exact sets.trans (State.Found.foldl (fun t n => t.codes_found x _ t.free t.trim.limit _ t.train.dbRefs t.evt) _ _)

end

end Sys2Proof.Machine

/-! SUPPORT. Receivers and the units of a grant (O40): Reel-H, the HRX settle, and what a maintenance unit and a repair unit
leave. -/

namespace Sys2Proof.Machine
open Sys2Proof

/-! ## Reel-H (R137) -/

section
variable {s : State} {x : Sub} {es : List TapVref}

/-- The receiver entries that Reel-H finds: the 14 HCA entries and HPAR as found, HCS_n at the mean of the HCA taps. -/
def State.reelCodes (s : State) (es : List TapVref) : List TapSt :=
  es.zipIdx.map (fun e => ⟨toField (if e.2 < 15 then e.1.tap
    else roundDiv s.free ((es.take 14).foldl (fun a e => a + e.tap) 0) 14), toField e.1.vref⟩)

theorem State.reelCodes_length (s : State) (es : List TapVref) : (s.reelCodes es).length = es.length := by
  simp [State.reelCodes]

theorem State.reelCodes_found (s : State) (es : List TapVref) {i : Nat} (h : i < 15) :
    ((s.reelCodes es)[i]?).map (fun c => (c.tap, c.vref))
      = (es[i]?).map (fun e => (BitVec.ofNat 7 e.tap, BitVec.ofNat 7 e.vref)) := by
  cases found : es[i]? with
  | none => simp [State.reelCodes, found]
  | some e => simp [State.reelCodes, found, h, toField]

theorem exec_reelHEnd (up : s.up = true) (trains : s.trains = true) (hck : s.clk.hckOk = true)
    (running : (s.tr x).reelDone = false) (own : (s.sub x).owner = .notReady) (enough : Bool) (es : List TapVref) :
    exec (.reelHEnd x enough es) s = .next (if enough then
      (s.took.limitOff (subNo x)).setTr x (fun t => { t with
        ca := s.reelCodes es, caRef := s.reelCodes es, reelDone := true, skip := false })
      else s.setTr x (fun t => { t with reelDone := true, skip := true })) := by
  have ends : ¬ ((s.tr x).reelDone || (s.sub x).owner != .notReady || !s.clk.hckOk || !s.trains) = true := by
    simp [trains, hck, running, own]
  refine congrArg Host.Outcome.next ((if_pos up).trans ?_)
  unfold State.reelH
  rw [if_neg ends]
  cases enough <;> rfl

/-! ## HRX settle (R153) -/

/-- TRM_HSETTLE. -/
def trmHsettleReg (s : State) : RegDef :=
  let t := s.train
  { flds := [Fld.any .rw 0 0, Fld.any .rw 1 1, Fld.ro 2 2, Fld.ro 3 3, Fld.ro 4 4, Fld.ro 5 5],
    read := packWord [(0, t.a.settleGo.toNat), (1, t.b.settleGo.toNat), (2, t.a.settleDone.toNat),
      (3, t.b.settleDone.toNat), (4, t.a.settleFail.toNat), (5, t.b.settleFail.toNat)],
    write := fun v s => (s.settleGo .a (bitAt v 0)).settleGo .b (bitAt v 1) }

theorem hubReg_trmHsettle (fitted : s.regOn .dbPresent = true) (p : Path) :
    hubReg p 0x112C s = some (trmHsettleReg s) := by
  rw [hubReg_train p s (by decide) (by decide) (by decide)]
  simp [trainReg, fitted]
  rfl

/-- A write of TRM_HSETTLE sets its two GO bits. -/
theorem State.hubWrite_hsettle (up : s.up = true) (res : s.nvs.rescue = false) (fitted : s.regOn .dbPresent = true)
    (p : Path) {v : Word} (hv : v.toNat < 4) :
    s.hubWrite p 0x112C v = (s.settleGo .a (v.getLsbD 0)).settleGo .b (v.getLsbD 1) := by
  have reg := (State.reg_of_up up res p 0x112C).trans (hubReg_trmHsettle fitted p)
  have mask : (trmHsettleReg s).fieldMask = 2 ^ 6 - 1 := rfl
  have fits : v.toNat ||| (2 ^ 6 - 1) = 2 ^ 6 - 1 := or_lowMask_iff.mpr (by omega)
  have allowed : (trmHsettleReg s).allows v = true := by
    simp only [RegDef.allows, mask, fits]
    rfl
  have ro : (trmHsettleReg s).roMask = 0x3C := rfl
  have go0 := (trmHsettleReg s).getLsbD_merge v (i := 0) (by decide)
  have go1 := (trmHsettleReg s).getLsbD_merge v (i := 1) (by decide)
  rw [ro] at go0 go1
  refine (State.hubWrite_of_allowed reg allowed).trans ((RegDef.put_of_not_kept rfl _ v s).trans ?_)
  change (s.settleGo .a (((trmHsettleReg s).merge v).getLsbD 0)).settleGo .b (((trmHsettleReg s).merge v).getLsbD 1) = _
  rw [go0, go1]
  rfl

theorem State.settleGo_start (own : (s.sub x).owner = .host) (idle : (s.tr x).settleGo = false) : s.settleGo x true =
    s.setTr x (fun t => { t with settleGo := true, settleDone := false, settleFail := false }) :=
  (if_pos rfl).trans (if_pos (by simp [own, idle]))

theorem State.settleGo_idle (idle : (s.tr x).settleGo = false) : s.settleGo x false = s := by
  have same : (s.tr x) = { s.tr x with settleGo := false } := by rw [← idle]
  cases x
  · exact (congrArg (fun u => { s with train := { s.train with a := u } }) same.symm :)
  · exact (congrArg (fun u => { s with train := { s.train with b := u } }) same.symm :)

/-- The receivers of the buffers of `x` may have been written: their taps, what is noted of them, and the steps at their limit. -/
def State.Settled (x : Sub) (s t : State) : Prop :=
  (∃ d l r, t = { s with dbs := d, trim := { s.trim with limit := l }, train := { s.train with dbRefs := r } })
    ∧ ∀ n, n ∉ subDbs x → t.db n = s.db n

theorem State.Settled.refl (x : Sub) (s : State) : s.Settled x s :=
  ⟨⟨s.dbs, s.trim.limit, s.train.dbRefs, rfl⟩, fun _ _ => rfl⟩

theorem State.Settled.trans {s t u : State} (h : s.Settled x t) (k : t.Settled x u) : s.Settled x u := by
  obtain ⟨⟨_, _, _, rfl⟩, old⟩ := h
  obtain ⟨⟨d, l, r, rfl⟩, new⟩ := k
  exact ⟨⟨d, l, r, rfl⟩, fun n other => (new n other).trans (old n other)⟩

theorem State.Settled.foldl {α : Type} {f : State → α → State} (l : List α)
    (h : ∀ a ∈ l, ∀ s : State, s.Settled x (f s a)) (s : State) : s.Settled x (l.foldl f s) :=
  List.foldlRecOn (motive := fun t => s.Settled x t) l f (.refl x s) fun t settled a ha => settled.trans (h a ha t)

theorem State.writeDbTap_settled (s : State) {n : Nat} (own : n ∈ subDbs x) (path entry : Nat) (t : TapSt) :
    s.Settled x (s.writeDbTap n path entry t) :=
  ⟨⟨_, _, _, rfl⟩, fun m other => s.setDb_db_ne (fun same : m = n => other (same ▸ own)) _⟩

/-- What a settle writes before it ends: the receivers found, where it found edges. -/
def State.settleWrite (s : State) (x : Sub) (edges : Bool) (es : List TapVref) : State :=
  if edges then
    (subDbs x).foldl (fun s n => if !s.reaches n then s else (List.range 10).foldl (fun s i =>
      let e := nth es (10 * (n % 5) + i) ⟨64, 60⟩
      s.writeDbTap n 0 i ⟨toField e.tap, if i < 8 then toField e.vref else 0⟩) s) s
  else s

theorem State.settleWrite_settled (s : State) (x : Sub) (edges : Bool) (es : List TapVref) :
    s.Settled x (s.settleWrite x edges es) := by
  unfold State.settleWrite
  split
  · refine State.Settled.foldl _ (fun n own t => ?_) s
    split
    · exact .refl x t
    · exact .foldl _ (fun i _ u => u.writeDbTap_settled own 0 i _) t
  · exact .refl x s

/-- A settle ends: DONE or FAIL, with the receivers found. -/
theorem exec_hsettleEnd (up : s.up = true) (running : (s.tr x).settleGo = true) (edges : Bool) (es : List TapVref) :
    ∃ l e, exec (.hsettleEnd x edges es) s = .next { (((s.settleWrite x edges es).hrxClear x).setTr x (fun t => { t with
      settleGo := false, settleDone := edges, settleFail := !edges })) with
        pow := { s.pow with latched := l }, evt := e } := by
  obtain ⟨⟨_, _, _, written⟩, -⟩ := s.settleWrite_settled x edges es
  have pow : (((s.settleWrite x edges es).hrxClear x).setTr x (fun t => { t with
      settleGo := false, settleDone := edges, settleFail := !edges })).pow = s.pow := by
    rw [written]
    cases x <;> rfl
  obtain ⟨l, e, raised⟩ := State.raise_form (((s.settleWrite x edges es).hrxClear x).setTr x (fun t => { t with
    settleGo := false, settleDone := edges, settleFail := !edges })) 23 (BitVec.ofNat 24 (subNo x + 2 * (!edges).toNat))
  rw [pow] at raised
  refine ⟨l, e, congrArg Host.Outcome.next ((if_pos up).trans (Eq.trans ?_ raised))⟩
  unfold State.settleEnd
  rw [if_neg (by simp [running])]
  rfl


/-! ## Maintenance units (R159, R161) -/

/-- A unit is over: its saved bursts are back, its subchannel is in DONE, and TRAIN mode is off. -/
def State.unitOver (s : State) (x : Sub) : State :=
  ((s.unitRestore x).setTr x (fun t => { t with phase := .done, unit := none })).trainFrames x [0]

theorem State.unitOver_form (s : State) (x : Sub) : ∃ d r, s.unitOver x =
    { s.setTr x (fun t => { t with phase := .done, unit := none, row := r }) with dbs := d } := by
  unfold State.unitOver
  rw [State.trainFrames_form]
  generalize State.dbs (State.trainFrames _ x _) = d
  exact ⟨d, ((s.tr x).row + 1) % s.dieRows x, by cases x <;> rfl⟩

/-- The values held before a unit stand. -/
theorem State.unitOver_dbTap (s : State) (x : Sub) (n p e : Nat) : (s.unitOver x).dbTap n p e = s.dbTap n p e := by
  have gens : (s.unitOver x).train.dbGens = s.train.dbGens := by
    obtain ⟨d, r, ended⟩ := s.unitOver_form x
    rw [ended]
    cases x <;> rfl
  have restored : ((((s.unitRestore x).setTr x (fun t => { t with phase := .done, unit := none })).db n).taps) = (s.db n).taps := by
    refine Eq.trans ?_ (s.setDbs_db_kept x Db.taps (f := fun d => { d with saved := false }) (fun _ => rfl) n)
    cases x <;> rfl
  rw [State.dbTap, State.dbTap, gens]
  exact congrArg (fun taps => tapOf taps _ p e) ((State.trainFrames_taps _ x [0] n).trans restored)

/-- Ranks have a new transmit training, at the hottest temperature (R159). -/
theorem State.noteTemps_form (s : State) (x : Sub) (m : Nat) :
    ∃ l, s.noteTemps x m = s.setTr x (fun t => { t with temps := l }) := by
  unfold State.noteTemps
  split
  case h_1 => exact ⟨(s.tr x).temps, by cases x <;> rfl⟩
  case h_2 hot _ =>
    exact ⟨(s.tr x).temps.zipIdx.map (fun e => if m.testBit e.2 then hot else e.1), by cases x <;> rfl⟩

theorem State.recStore_tr (s : State) (source : Nat) (y : Sub) : (s.recStore source).tr y = s.tr y := by
  obtain ⟨l, -, stored⟩ := s.recStore_form source
  rw [stored]
  cases y <;> rfl

theorem exec_maintUnitDone {rank : Fin 4} (up : s.up = true) (unit : (s.tr x).unit = some rank) (pass changed : Bool)
    (lane : Fin 10) : exec (.maintUnitDone x rank pass changed lane) s = .next (s.unitDone x pass changed lane) :=
  congrArg Host.Outcome.next (if_pos (by simp [up, unit]))

/-- A unit that passed: its rank is no longer wanted, and has a new transmit training (R161). -/
def State.unitPassed (s : State) (x : Sub) (k : Fin 4) : State :=
  State.noteTemps ((s.unitOver x).setTr x (fun t => { t with want := t.want &&& ~~~(BitVec.ofNat 4 (2 ^ k.val)) })) x (2 ^ k.val)

/-- What a passing unit trained, written as one (R161). -/
def State.unitTrained (s : State) (x : Sub) (k : Nat) : State :=
  ((s.reelRank x k).genPath x (2 + 2 * k) true).writeRank x k

theorem State.unitTrained_found (s : State) (x : Sub) (k : Nat) : s.Found x (s.unitTrained x k) :=
  ((s.reelRank_found x k).trans (State.genPath_found _ x (2 + 2 * k) true)).trans (State.writeRank_found _ x k)

theorem State.unitDone_pass {k : Fin 4} (unit : (s.tr x).unit = some k) (changed : Bool) (lane : Nat) :
    s.unitDone x true changed lane =
      if changed then ((s.unitPassed x k).unitTrained x k).recStore 2 else s.unitPassed x k := by
  unfold State.unitDone
  rw [unit]
  rfl

theorem State.unitDone_fail {k : Fin 4} (unit : (s.tr x).unit = some k) (changed : Bool) (lane : Nat) :
    ∃ e f, s.unitDone x false changed lane = { s.unitOver x with evt := e, flt := f } := by
  obtain ⟨e, raised⟩ := (s.unitOver x).raise_unlatched (n := 17) (by decide) (by decide) (BitVec.ofNat 24 (subNo x + 2 * k.val))
  obtain ⟨f, counted⟩ := ((s.unitOver x).raise 17 (BitVec.ofNat 24 (subNo x + 2 * k.val))).fault_form 1 (10 * subNo x + lane) 1
  rw [raised] at counted
  refine ⟨e, f, Eq.trans ?_ counted⟩
  unfold State.unitDone
  rw [unit, ← raised]
  rfl

theorem State.unitPassed_kept (s : State) (x : Sub) (k : Fin 4) : ((s.unitPassed x k).tr x).phase = .done
    ∧ ((s.unitPassed x k).tr x).unit = none
    ∧ ((s.unitPassed x k).tr x).want = (s.tr x).want &&& ~~~(BitVec.ofNat 4 (2 ^ k.val))
    ∧ (∀ n p e, (s.unitPassed x k).dbTap n p e = s.dbTap n p e) ∧ (s.unitPassed x k).nvs = s.nvs
    ∧ (s.unitPassed x k).subA = s.subA ∧ (s.unitPassed x k).subB = s.subB := by
  obtain ⟨l, noted⟩ := State.noteTemps_form ((s.unitOver x).setTr x (fun t => { t with
    want := t.want &&& ~~~(BitVec.ofNat 4 (2 ^ k.val)) })) x (2 ^ k.val)
  have taps := s.unitOver_dbTap x
  obtain ⟨d, r, ended⟩ := s.unitOver_form x
  rw [State.unitPassed, noted]
  refine ⟨?_, ?_, ?_, fun n p e => Eq.trans ?_ (taps n p e), ?_, ?_, ?_⟩
  case refine_4 => cases x <;> rfl
  all_goals
    rw [ended]
    cases x <;> rfl

/-! ## Repair units (R265) -/

/-- An entry of the repair list takes a value; the fault log, the island's latch and the pool may note it. -/
theorem State.setRepair_form (s : State) (e : Nat) (r : Repair) : ∃ n l v q, s.setRepair e r = { s with
    flt := { s.flt with repairs := upd s.flt.repairs e (fun _ => r) }
    nvs := n, pow := { s.pow with latched := l }, evt := v, pool := q } := by
  unfold State.setRepair State.logRepair
  split
  · exact ⟨s.nvs, s.pow.latched, s.evt, s.pool, rfl⟩
  · exact State.faultRecord_form _ _

/-- No repair unit is at work on `x` any more, and its saved bursts are back (R265). -/
def State.repairOver (s : State) (x : Sub) : State := (s.setDbs x (fun d => { d with saved := false })).setBusy x none

theorem State.repairOver_kept (s : State) (x : Sub) : (s.repairOver x).repairBusy x = none
    ∧ (s.repairOver x).flt.repairs = s.flt.repairs ∧ (s.repairOver x).flt.lastFail = s.flt.lastFail
    ∧ (s.repairOver x).flt.res = s.flt.res ∧ (s.repairOver x).nv = s.nv
    ∧ (∀ n p i, (s.repairOver x).dbTap n p i = s.dbTap n p i) ∧ (s.repairOver x).subA = s.subA
    ∧ (s.repairOver x).subB = s.subB := by
  have taps : ∀ n, ((s.repairOver x).db n).taps = (s.db n).taps := fun n => by
    refine Eq.trans ?_ (s.setDbs_db_kept x Db.taps (f := fun d => { d with saved := false }) (fun _ => rfl) n)
    cases x <;> rfl
  have gens : (s.repairOver x).train = s.train := by cases x <;> rfl
  refine ⟨?_, ?_, ?_, ?_, ?_, fun n p i => ?_, ?_, ?_⟩
  case refine_6 => rw [State.dbTap, State.dbTap, taps, gens]
  all_goals cases x <;> rfl

/-- A repair as its unit leaves it (R265). -/
def Repair.done (r : Repair) (pass : Bool) : Repair :=
  if pass then { r with status := .applied, applied := satAdd r.applied 1 } else { r with status := .failed }

/-- The fault unit after a repair unit: its entry, unless forgotten meanwhile, and LAST_FAIL. -/
def Flt.repaired (f : Flt) (e : Nat) (pass : Bool) : Flt :=
  let r := nth f.repairs e Repair.none
  if r.status = .empty then f
  else { f with repairs := upd f.repairs e (fun _ => r.done pass), lastFail := if pass then f.lastFail else 1 }

theorem State.repairDone_form {e : Nat} (busy : s.repairBusy x = some e) (pass : Bool) : ∃ n l v q,
    s.repairDone x pass = { s.repairOver x with
      flt := (s.repairOver x).flt.repaired e pass, nvs := n, pow := { (s.repairOver x).pow with latched := l }
      evt := v, pool := q } := by
  have stop : s.repairStop x = s.repairOver x := if_neg (by simp [busy])
  have noted : ∀ (u : State) (r : Repair) (k : Nat) (a : BitVec 24), ∃ n l v q, (u.setRepair e r).raise k a = { u with
      flt := { u.flt with repairs := upd u.flt.repairs e (fun _ => r) }
      nvs := n, pow := { u.pow with latched := l }, evt := v, pool := q } := fun u r k a => by
    obtain ⟨n, l, v, q, set⟩ := u.setRepair_form e r
    obtain ⟨l', v', raised⟩ := (u.setRepair e r).raise_form k a
    rw [set] at raised
    exact ⟨n, l', v', q, (congrArg (fun t : State => t.raise k a) set).trans raised⟩
  unfold State.repairDone
  rw [busy]
  dsimp only
  rw [stop]
  unfold Flt.repaired
  generalize s.repairOver x = u
  by_cases forgotten : (nth u.flt.repairs e Repair.none).status = .empty
  · rw [if_pos (beq_iff_eq.mpr forgotten), if_pos forgotten]
    exact ⟨u.nvs, u.pow.latched, u.evt, u.pool, rfl⟩
  · rw [if_neg (by simpa using forgotten), if_neg forgotten]
    cases pass
    · exact noted { u with flt := { u.flt with lastFail := 1 } } ((nth u.flt.repairs e Repair.none).done false) 43
        (BitVec.ofNat 24 (e + 32))
    · exact noted u ((nth u.flt.repairs e Repair.none).done true) 42 (BitVec.ofNat 24 e)

theorem Flt.repaired_kept (f : Flt) {e : Nat} (present : e < f.repairs.length) (pass : Bool) :
    let r := nth f.repairs e Repair.none
    nth (f.repaired e pass).repairs e Repair.none = (if r.status = .empty then r else r.done pass)
    ∧ (f.repaired e pass).lastFail = (if pass = true ∨ r.status = .empty then f.lastFail else 1)
    ∧ (∀ m, m ≠ e → nth (f.repaired e pass).repairs m Repair.none = nth f.repairs m Repair.none)
    ∧ (f.repaired e pass).res = f.res ∧ (f.repaired e pass).busyA = f.busyA ∧ (f.repaired e pass).busyB = f.busyB := by
  intro r
  unfold Flt.repaired
  by_cases forgotten : r.status = .empty
  · rw [if_pos forgotten, if_pos forgotten, if_pos (.inr forgotten)]
    exact ⟨rfl, rfl, fun _ _ => rfl, rfl, rfl, rfl⟩
  · rw [if_neg forgotten, if_neg forgotten, if_congr (or_iff_left forgotten) rfl rfl]
    exact ⟨nth_upd_self present _ _, rfl, fun m other => nth_upd_ne _ other _ _, rfl, rfl, rfl⟩

end

/-! ## The obligation -/

/-- Settles O40: Reel-H by `exec_reelHEnd`, the settle by `State.hubWrite_hsettle` and `exec_hsettleEnd`, a maintenance
unit by `State.unitDone_pass` and `State.unitDone_fail`, a repair unit by `State.repairDone_form`. That an entry forgotten
meanwhile is marked by nothing is the model's choice (log entry 104). -/
theorem receiversAndUnits : Obligations.ReceiversAndUnits := by
  unfold Obligations.ReceiversAndUnits
  refine ⟨fun x es s up trains hck running own => ?reelH, fun p s up res fitted own goA goB => ?settleStart,
    fun x edges es s up running => ?settleEnd, fun x rank changed lane s up unit => ⟨?passed, ?failed⟩,
    fun x rank pass changed lane s other => ?idle, fun x e pass s up busy present => ?repair⟩
  case reelH =>
    have ends := fun enough => exec_reelHEnd up trains hck running own enough es
    refine ⟨ends false, fun size => ⟨_, ends true, ?_⟩⟩
    have length := (s.reelCodes_length es).trans size
    have found := fun i (h : i < 15) => s.reelCodes_found es h
    generalize s.reelCodes es = ca at length found ⊢
    rw [if_pos rfl]
    refine ⟨?_, ?_, ?_, ?_, fun i h => Eq.trans ?_ (found i h), ?_, fun y other => (State.setTr_tr_ne _ other _).trans ?_⟩
    case refine_3 => exact Eq.trans (by cases x <;> rfl) length
    case refine_7 => cases y <;> rfl
    all_goals cases x <;> rfl
  case settleStart =>
    refine congrArg Host.Outcome.next ((State.hubWrite_hsettle up res fitted p (by decide)).trans ?_)
    change (s.settleGo .a true).settleGo .b false = _
    rw [State.settleGo_start (x := .a) own goA]
    exact State.settleGo_idle (x := .b) goB
  case settleEnd =>
    obtain ⟨l, e, run⟩ := exec_hsettleEnd up running edges es
    refine ⟨_, run, ?_⟩
    obtain ⟨⟨d, k, r, written⟩, others⟩ := s.settleWrite_settled x edges es
    refine ⟨?_, fun none => ?_, fun n other => Eq.trans ?_ (others n fun own => other (mem_subDbs_iff.mp own).2),
      fun y other => ?_, ?_, ?_, ?_⟩
    case refine_2 =>
      subst none
      cases x <;> exact ⟨rfl, rfl⟩
    case refine_3 => cases x <;> rfl
    all_goals rw [written]
    case refine_4 =>
      match x, y with
      | .a, .b | .b, .a => rfl
      | .a, .a | .b, .b => exact absurd rfl other
    all_goals cases x <;> rfl
  case passed =>
    refine ⟨_, (exec_maintUnitDone up unit true changed lane).trans (congrArg _ (State.unitDone_pass unit changed lane)), ?_⟩
    obtain ⟨phase, none, want, taps, nvs, subA, subB⟩ := s.unitPassed_kept x rank
    cases changed
    case false => exact ⟨phase, none, want, nofun, fun _ => ⟨taps, nvs⟩, subA, subB⟩
    case true =>
      have trained := (s.unitPassed x rank).unitTrained_found x rank
      obtain ⟨subA', subB', -⟩ := trained.kept
      have tr := trained.tr
      generalize (s.unitPassed x rank).unitTrained x rank = w at subA' subB' tr ⊢
      have storedTr := (w.recStore_tr 2 x).trans tr
      obtain ⟨l, owed, stored⟩ := w.recStore_form 2
      rw [stored] at storedTr
      rw [if_pos rfl, stored, storedTr]
      exact ⟨phase, none, want, fun _ => ⟨rfl, rfl, owed⟩, nofun, subA'.trans subA, subB'.trans subB⟩
  case failed =>
    obtain ⟨e, f, done⟩ := State.unitDone_fail unit changed lane
    refine ⟨_, (exec_maintUnitDone up unit false changed lane).trans (congrArg _ done), ?_⟩
    have taps := s.unitOver_dbTap x
    obtain ⟨d, r, ended⟩ := s.unitOver_form x
    refine ⟨?_, ?_, fun n p i => taps n p i⟩
    · rw [ended]
      cases x <;> rfl
    · rw [ended]
      cases x <;> rfl
  case idle => exact congrArg Host.Outcome.next (if_neg (by simp [other]))
  case repair =>
    obtain ⟨n, l, v, q, done⟩ := State.repairDone_form busy pass
    refine ⟨_, congrArg Host.Outcome.next ((if_pos up).trans done), ?_⟩
    obtain ⟨idle, repairs, lastFail, res, nv, taps, subA, subB⟩ := s.repairOver_kept x
    obtain ⟨entry, failed, others, res', busyA, busyB⟩ := (s.repairOver x).flt.repaired_kept (repairs ▸ present) pass
    rw [repairs] at entry failed others
    refine ⟨Eq.trans ?_ idle, entry, failed.trans (by rw [lastFail]), others, res'.trans res, nv, taps, subA, subB⟩
    cases x
    · exact busyA
    · exact busyB

end Sys2Proof.Machine

/-! SUPPORT. The Quadrille (O39): what READY_x leaves of the settings memory's state and the failed ranks, and the ranks
that a step tries. -/

namespace Sys2Proof.Machine
open Sys2Proof

/-! ## What READY_x leaves (R86) -/

/-- What neither a report nor READY_x writes: the settings memory's RAM state and the failed ranks. -/
def State.ledger (s : State) : Nvs × BitVec 4 × BitVec 4 := (s.nvs, s.train.a.rankFail, s.train.b.rankFail)

theorem State.ledger_tr {s t : State} (h : t.ledger = s.ledger) (x : Sub) : (t.tr x).rankFail = (s.tr x).rankFail := by
  obtain ⟨-, a, b⟩ : _ ∧ _ ∧ _ := by simpa only [State.ledger, Prod.mk.injEq] using h
  cases x
  · exact a
  · exact b

theorem State.ledger_of_aside {s t : State} (h : t.aside = s.aside) : t.ledger = s.ledger := by
  have view : t.aside.ledger = s.aside.ledger := congrArg State.ledger h
  exact view

section
variable (s : State)

theorem State.raise_ledger (n : Nat) (a : BitVec 24) : (s.raise n a).ledger = s.ledger := by
  obtain ⟨l, e, raised⟩ := s.raise_form n a
  rw [raised]
  rfl

theorem State.raise_if_ledger (p : Prop) [Decidable p] (n : Nat) (a : BitVec 24) :
    (if p then s.raise n a else s).ledger = s.ledger := by
  split
  · exact s.raise_ledger n a
  · rfl

theorem State.fault_ledger (c i k : Nat) : (s.fault c i k).ledger = s.ledger := by
  obtain ⟨f, counted⟩ := s.fault_form c i k
  rw [counted]
  rfl

theorem State.setTr_ledger (x : Sub) {f : TrainSub → TrainSub} (hf : ∀ t, (f t).rankFail = t.rankFail) :
    (s.setTr x f).ledger = s.ledger := by
  cases x
  · exact (congrArg (fun m => (s.nvs, m, s.train.b.rankFail)) (hf s.train.a) :)
  · exact (congrArg (fun m => (s.nvs, s.train.a.rankFail, m)) (hf s.train.b) :)

theorem State.setSub_ledger (x : Sub) (f : SubSt → SubSt) : (s.setSub x f).ledger = s.ledger := by cases x <;> rfl

theorem State.conCal_ledger (u o z : Nat) : (s.conCal u o z).ledger = s.ledger := by
  unfold State.conCal State.conHold
  split
  · split
    · rfl
    · dsimp only
      split
      · exact State.ledger_of_aside (s.respond_aside _ _ _ _)
      · rfl
  · rfl

/-- A calibration abandoned on a unit other than the ADC. -/
theorem State.calAbandon_ledger {u : Nat} (unit : u ≠ 11) : (s.calAbandon u).ledger = s.ledger := by
  unfold State.calAbandon State.swapsBack
  rw [if_neg unit]
  split
  · rfl
  · exact (State.conCal_ledger _ _ _ _).trans ((State.raise_if_ledger _ _ _ _).trans (State.raise_if_ledger _ _ _ _))

theorem State.zlbTry_ledger {t : Nat} (ht : t < 10) : (s.zlbTry t).ledger = s.ledger := by
  have attempt : ∀ u : State, (u.attemptFail t).ledger = u.ledger := fun u =>
    (State.raise_ledger _ _ _).trans (u.fault_ledger 3 t 1)
  have marked : ∀ u : State, (u.markUnreach t).ledger = u.ledger := fun u => by
    unfold State.markUnreach
    split
    · rfl
    · exact (State.calAbandon_ledger _ (by omega)).trans (State.raise_ledger _ _ _)
  have last : ∀ u : State, (u.lastFail t).ledger = u.ledger := fun u => (marked _).trans (u.fault_ledger 3 t 1)
  unfold State.zlbTry State.noAnswer
  split
  · rfl
  · rw [last, attempt, attempt, attempt]

theorem State.copyCfg_ledger (x : Sub) : (s.copyCfg x).ledger = s.ledger := by
  unfold State.copyCfg
  split
  · rfl
  · refine List.foldlRecOn (motive := fun t : State => t.ledger = s.ledger) _ _ rfl fun t kept n own => ?_
    have sent := (t.zlbTry_ledger (mem_subDbs_iff.mp own).1).trans kept
    dsimp only
    split
    · exact sent
    · exact sent

theorem State.firstVref_ledger (x : Sub) : (s.firstVref x).ledger = s.ledger := by
  have starts : ∀ (t : State) u rxs c, (t.calVref u rxs c).ledger = t.ledger := fun t u rxs c => by
    unfold State.calVref State.calBegin
    (repeat' split) <;> rfl
  unfold State.firstVref
  split
  · rfl
  · exact (foldl_kept State.ledger _ (fun t n => starts t _ _ _) _ _).trans
      ((starts _ _ _ _).trans (s.setTr_ledger x fun _ => rfl))

theorem State.goHost_ledger (x : Sub) : (s.goHost x).ledger = s.ledger := by
  have buffers : ∀ (u : State) f, (u.setDbs x f).ledger = u.ledger := fun _ _ => rfl
  have noted : ∀ (u : State) n, (u.setTr x (fun t => { t with ready := n, reelDone := true })).ledger = u.ledger :=
    fun u _ => u.setTr_ledger x fun _ => rfl
  unfold State.goHost
  split
  · rfl
  · refine (State.raise_if_ledger _ _ _ _).trans ((State.firstVref_ledger _ x).trans ?_)
    rw [noted, State.setSub_ledger, buffers, State.copyCfg_ledger]
    exact s.setSub_ledger x _

theorem State.trainFrames_ledger (x : Sub) (cs : List (BitVec 2)) : (s.trainFrames x cs).ledger = s.ledger := by
  rw [State.trainFrames_form]
  rfl

/-- The end of training stores nothing, and no rank fails in it. -/
theorem State.trainDone_ledger (x : Sub) : (s.trainDone x).ledger = s.ledger := by
  have done : ∀ n, ((((s.setPhase x .done).setRanks x .active).trainFrames x [0]).raise 16 n).ledger = s.ledger := fun n => by
    rw [State.raise_ledger, State.trainFrames_ledger]
    exact (State.setSub_ledger _ x _).trans (s.setTr_ledger x fun _ => rfl)
  unfold State.trainDone
  dsimp only
  split
  · cases x <;> exact done _
  · exact (State.goHost_ledger _ x).trans (done _)

/-- The end of training writes its subchannel's part of the training unit alone. -/
theorem State.trainDone_train (x : Sub) : ∃ f, (s.trainDone x).train = (s.setTr x f).train := by
  obtain ⟨l, f, g, h, form, -⟩ := s.trainDone_form x
  obtain ⟨-, -, -, -, -, -, -, -, -, train, -⟩ := State.kept_of_still form
  refine ⟨f, train.trans ?_⟩
  cases x <;> rfl

end

/-! ## The ranks of a step (R136, R143) -/

section
variable {s t : State} {x : Sub}

theorem State.goodRanks_congr (host : t.host = s.host) (fails : (t.tr x).rankFail = (s.tr x).rankFail) :
    t.goodRanks x = s.goodRanks x := by
  have cfg : t.drmCfg x = s.drmCfg x := by
    unfold State.drmCfg
    rw [host]
  unfold State.goodRanks State.rankFitted
  rw [cfg, fails]

theorem State.Found.restoreHolds (h : s.Found x t) : t.restoreHolds = s.restoreHolds := by
  obtain ⟨_, _, _, _, _, _, _, rfl⟩ := h
  rfl

/-- The failed ranks of `x` become what `g` makes of them. -/
def State.mapFail (s : State) (x : Sub) (g : BitVec 4 → BitVec 4) : State :=
  s.setTr x (fun t => { t with rankFail := g t.rankFail })

theorem State.Found.mapFail (h : s.Found x t) (g : BitVec 4 → BitVec 4) : (s.mapFail x g).Found x (t.mapFail x g) := by
  obtain ⟨k, d, f, l, c, r, e, rfl⟩ := h
  exact ⟨k, d, f, l, c, r, e, by cases x <;> rfl⟩

theorem State.failRanks_foldl_found (ks : List Nat) (s : State) :
    (s.mapFail x (fun m => ks.foldl (fun m k => m ||| BitVec.ofNat 4 (2 ^ k)) m)).Found x
      (ks.foldl (fun s k => ((s.mapFail x (· ||| BitVec.ofNat 4 (2 ^ k))).resetRank x k).raise 17
        (BitVec.ofNat 24 (subNo x + 2 * k))) s) := by
  induction ks generalizing s with
  | nil =>
    have same : s.mapFail x (fun m => m) = s := by cases x <;> rfl
    exact same.symm ▸ State.Found.refl x s
  | cons k ks ih =>
    have first := ((s.mapFail x (· ||| BitVec.ofNat 4 (2 ^ k))).resetRank_found x k).trans
      (State.raise_found _ x (n := 17) (by decide) (by decide) (BitVec.ofNat 24 (subNo x + 2 * k)))
    have rest := (first.mapFail (fun m => ks.foldl (fun m k => m ||| BitVec.ofNat 4 (2 ^ k)) m)).trans (ih _)
    have both : (s.mapFail x (· ||| BitVec.ofNat 4 (2 ^ k))).mapFail x
          (fun m => ks.foldl (fun m k => m ||| BitVec.ofNat 4 (2 ^ k)) m)
        = s.mapFail x (fun m => (k :: ks).foldl (fun m k => m ||| BitVec.ofNat 4 (2 ^ k)) m) := by cases x <;> rfl
    exact both ▸ rest

/-- The ranks of a mask fail, and go back to their reset taps (R143). -/
theorem State.failRanks_found (s : State) {m : Nat} (hm : m < 16) :
    (s.mapFail x (· ||| BitVec.ofNat 4 m)).Found x (s.failRanks x m) := by
  have ones : ∀ m < 16, ∀ r : BitVec 4,
      (onesOf 4 m).foldl (fun m k => m ||| BitVec.ofNat 4 (2 ^ k)) r = r ||| BitVec.ofNat 4 m := by
    decide
  have found := State.failRanks_foldl_found (x := x) (onesOf 4 m) s
  rw [funext (ones m hm)] at found
  exact found

/-- The ranks that a step tries: those that failed it twice fail, the rest are trained. -/
def State.ranksTried (s : State) (x : Sub) (failed : BitVec 4) : State :=
  let ph := (s.tr x).phase
  let u := s.trainFrames x (trainCodes ph)
  let v := u.failRanks x (u.goodRanks x &&& failed.toNat)
  (onesOf 4 (v.goodRanks x)).foldl (fun s k => s.trainRank x ph k) v

theorem State.ranksTried_found (s : State) (failed : BitVec 4) :
    (s.mapFail x (· ||| (failed &&& BitVec.ofNat 4 (s.goodRanks x)))).Found x (s.ranksTried x failed) := by
  have frames := s.trainFrames_found x (trainCodes (s.tr x).phase)
  obtain ⟨-, -, host, -⟩ := frames.kept
  have good : (s.trainFrames x (trainCodes (s.tr x).phase)).goodRanks x = s.goodRanks x :=
    State.goodRanks_congr host (State.ledger_tr (s.trainFrames_ledger x _) x)
  have mask : failed &&& BitVec.ofNat 4 (s.goodRanks x) = BitVec.ofNat 4 (s.goodRanks x &&& failed.toNat) := by
    rw [BitVec.ofNat_and, BitVec.ofNat_toNat, BitVec.setWidth_eq, BitVec.and_comm]
  rw [mask]
  refine (frames.mapFail _).trans ((State.failRanks_found _ ?_).trans ?_)
  · exact Nat.lt_of_le_of_lt Nat.and_le_right failed.isLt
  · unfold State.ranksTried
    dsimp only
    rw [good]
    exact .foldl (fun t k => t.trainRank_found x _ k) _ _

theorem State.ranksTried_kept (s : State) (x : Sub) (failed : BitVec 4) :
    let v := s.ranksTried x failed
    (v.tr x).rankFail = (s.tr x).rankFail ||| (failed &&& BitVec.ofNat 4 (s.goodRanks x))
      ∧ (∀ y, v.sub y = s.sub y) ∧ (∀ y, y ≠ x → v.tr y = s.tr y) ∧ v.restoreHolds = s.restoreHolds
      ∧ v.clk = s.clk ∧ v.nv = s.nv ∧ v.pow = s.pow := by
  have found := s.ranksTried_found (x := x) failed
  obtain ⟨subA, subB, -, pow, clk, nv, -, -, others⟩ := found.kept
  refine ⟨?_, fun y => ?_, fun y other => (others y other).trans (s.setTr_tr_ne other _),
    found.restoreHolds.trans (by cases x <;> rfl), clk.trans (s.setTr_clk x _), nv.trans (s.setTr_nv x _),
    pow.trans (s.setTr_pow x _)⟩
  · rw [found.tr]
    cases x <;> rfl
  · cases y
    · exact subA.trans (s.setTr_subA x _)
    · exact subB.trans (s.setTr_subB x _)

/-- No fitted rank is left (R143). -/
def State.ranksGone (s : State) (x : Sub) : State :=
  ((s.setPhase x .fail).trainFrames x [0]).raise 17 (BitVec.ofNat 24 (subNo x))

/-- The Quadrille is over: its set is to be stored, at the measured rate (R142, R147). -/
def State.quadrilleKept (s : State) (x : Sub) : State :=
  ((State.noteTemps { s with train := { s.train with trainedRate := s.clk.hckMhz } } x 15).publish false).recStore 1

/-- The next step of the Quadrille (R136, R142). -/
def State.stepOn (s : State) (x : Sub) (ph : Phase) : State := (s.setPhase x ph).trainFrames x ((trainCodes ph).take 1)

theorem exec_quadrilleStepDone (up : s.up = true) (trains : s.trains = true)
    (phase : (s.tr x).phase = .reel ∨ (s.tr x).phase = .gavotte ∨ (s.tr x).phase = .minuet) (failed : BitVec 4) :
    exec (.quadrilleStepDone x failed) s = .next (
      let v := s.ranksTried x failed
      if v.goodRanks x = 0 then v.ranksGone x
      else if (s.tr x).phase == .minuet then (v.quadrilleKept x).trainDone x
      else v.stepOn x (nextPhase (s.tr x).phase)) := by
  have tries : ¬ (((s.tr x).phase != .reel && (s.tr x).phase != .gavotte && (s.tr x).phase != .minuet) || !s.trains) = true := by
    rcases phase with h | h | h <;> simp [h, trains]
  refine congrArg Host.Outcome.next ((if_pos up).trans ?_)
  unfold State.stepDone
  rw [if_neg tries]
  rfl

/-- A step that has been tried on `x` ends: failed ranks, host side and settings memory stand, and the other subchannel. -/
def State.Leaves (x : Sub) (s t : State) : Prop :=
  (t.tr x).rankFail = (s.tr x).rankFail ∧ t.host = s.host ∧ (∀ y, y ≠ x → t.sub y = s.sub y ∧ t.tr y = s.tr y)
    ∧ t.nv = s.nv ∧ t.pow.dom = s.pow.dom

theorem State.setPhase_leaves (s : State) (x : Sub) (ph : Phase) (d : List Db) (e : Evt) :
    s.Leaves x { s.setPhase x ph with dbs := d, evt := e } := by
  refine ⟨?_, ?_, fun y other => ⟨?_, ?_⟩, ?_, ?_⟩
  case refine_4 =>
    match x, y with
    | .a, .b | .b, .a => rfl
    | .a, .a | .b, .b => exact absurd rfl other
  case refine_3 => cases x <;> cases y <;> rfl
  all_goals cases x <;> rfl

/-- What every end of a step shows. -/
theorem State.Leaves.step {failed : BitVec 4} (h : (s.ranksTried x failed).Leaves x t) :
    (t.tr x).rankFail = (s.tr x).rankFail ||| (failed &&& BitVec.ofNat 4 (s.goodRanks x))
      ∧ t.goodRanks x = (s.ranksTried x failed).goodRanks x ∧ (∀ y, y ≠ x → t.sub y = s.sub y ∧ t.tr y = s.tr y)
      ∧ t.nv = s.nv ∧ t.pow.dom = s.pow.dom := by
  obtain ⟨fails, sub, others, -, -, nv, pow⟩ := s.ranksTried_kept x failed
  obtain ⟨fails', host', others', nv', dom'⟩ := h
  exact ⟨fails'.trans fails, State.goodRanks_congr host' fails', fun y other =>
    ⟨(others' y other).1.trans (sub y), (others' y other).2.trans (others y other)⟩, nv'.trans nv,
    dom'.trans (congrArg Pow.dom pow)⟩

/-- With no rank left the subchannel fails, with its owner (R143). -/
theorem State.ranksGone_leaves (s : State) (x : Sub) : s.Leaves x (s.ranksGone x)
    ∧ ((s.ranksGone x).tr x).phase = .fail ∧ (s.ranksGone x).sub x = s.sub x := by
  obtain ⟨e, raised⟩ := ((s.setPhase x .fail).trainFrames x [0]).raise_unlatched (n := 17) (by decide) (by decide)
    (BitVec.ofNat 24 (subNo x))
  unfold State.ranksGone
  rw [raised, State.trainFrames_form]
  generalize State.dbs (State.trainFrames _ x _) = d
  refine ⟨s.setPhase_leaves x .fail d e, ?_, ?_⟩
  · cases x <;> rfl
  · cases x <;> rfl

theorem State.stepOn_leaves (s : State) (x : Sub) (ph : Phase) : s.Leaves x (s.stepOn x ph)
    ∧ ((s.stepOn x ph).tr x).phase = ph := by
  unfold State.stepOn
  rw [State.trainFrames_form]
  generalize State.dbs (State.trainFrames _ x _) = d
  have leaves := s.setPhase_leaves x ph d s.evt
  cases x <;> exact ⟨leaves, rfl⟩

/-- The record to be stored, as the Quadrille leaves it. -/
theorem State.quadrilleKept_form (s : State) (x : Sub) : ∃ l h n, n.contains 5 = true ∧ s.quadrilleKept x =
    { s with
      train := { (s.setTr x (fun t => { t with temps := l })).train with
        trainedRate := s.clk.hckMhz, hpub := h, recPending := true, recSource := 1, recInvalid := false }
      nvs := { s.nvs with pend := n } } := by
  obtain ⟨l, noted⟩ := State.noteTemps_form { s with train := { s.train with trainedRate := s.clk.hckMhz } } x 15
  unfold State.quadrilleKept
  rw [noted]
  generalize published : State.publish _ false = u
  obtain ⟨n, owed, stored⟩ := u.recStore_form 1
  refine ⟨l, u.train.hpub, n, owed, stored.trans ?_⟩
  subst published
  cases x <;> rfl

/-- The Quadrille is over: DONE, with the record to be stored, and the host where no restore comes first (R142, R147). -/
theorem State.quadrilleDone_leaves (s : State) (x : Sub) :
    let t := (s.quadrilleKept x).trainDone x
    s.Leaves x t ∧ (t.tr x).phase = .done ∧ t.train.recPending = true ∧ t.train.recSource = 1
      ∧ t.train.trainedRate = s.clk.hckMhz ∧ t.nvs.pend.contains 5 = true
      ∧ (s.restoreHolds = false → (s.sub x).owner = .notReady → (t.sub x).owner = .host) := by
  obtain ⟨l, h, n, owed, kept⟩ := s.quadrilleKept_form x
  obtain ⟨⟨m, pow⟩, host, nv, -, -, done, others, -⟩ := (s.quadrilleKept x).trainDone_kept x
  have ledger := (s.quadrilleKept x).trainDone_ledger x
  obtain ⟨f, train⟩ := (s.quadrilleKept x).trainDone_train x
  have ready := fun free => State.trainDone_sub_host (s := s.quadrilleKept x) free x
  intro t
  have nvs : t.nvs = (s.quadrilleKept x).nvs := congrArg Prod.fst ledger
  have fails := State.ledger_tr ledger x
  refine ⟨⟨fails.trans ?_, host.trans ?_, fun y other => ⟨(others y other).1.trans ?_, (others y other).2.trans ?_⟩,
    nv.trans ?_, (congrArg Pow.dom pow).trans ?_⟩, done, ?_, ?_, ?_, ?_, fun free own => ?_⟩
  case refine_4 =>
    rw [kept]
    match x, y with
    | .a, .b | .b, .a => rfl
    | .a, .a | .b, .b => exact absurd rfl other
  case refine_10 =>
    rw [nvs, kept]
    exact owed
  case refine_11 =>
    rw [ready (by rw [kept]; exact free)]
    rw [kept]
    cases x <;> exact congrArg SubSt.owner (SubSt.awake_toHost own)
  case refine_3 =>
    rw [kept]
    cases y <;> rfl
  case refine_7 | refine_8 | refine_9 =>
    rw [train, kept]
    cases x <;> rfl
  case refine_1 =>
    rw [kept]
    cases x <;> rfl
  all_goals rw [kept]

end

/-! ## The obligation -/

/-- Settles O39: what the tried ranks leave (`State.ranksTried_found`), and each end of a step: `State.ranksGone_leaves`,
`State.stepOn_leaves` and `State.quadrilleDone_leaves`. -/
theorem quadrilleSteps : Obligations.QuadrilleSteps := by
  unfold Obligations.QuadrilleSteps
  refine ⟨fun x failed s up trains phase => ⟨_, exec_quadrilleStepDone up trains phase failed, ?step⟩,
    fun x failed s reel gavotte minuet => ?other⟩
  case other =>
    have stays : s.stepDone x failed = s := if_pos (by simp [reel, gavotte, minuet])
    refine congrArg Host.Outcome.next ?_
    rw [stays, ite_self]
  case step =>
    obtain ⟨-, sub, -, holds, clk, -, -⟩ := s.ranksTried_kept x failed
    dsimp only
    by_cases gone : (s.ranksTried x failed).goodRanks x = 0
    case pos =>
      obtain ⟨leaves, fail, own⟩ := (s.ranksTried x failed).ranksGone_leaves x
      obtain ⟨fails, good, others, nv, dom⟩ := leaves.step
      have empty := good.trans gone
      rw [if_pos gone]
      exact ⟨fails, fun _ => ⟨fail, by rw [own, sub]⟩, fun left => absurd empty left, fun left => absurd empty left,
        fun left => absurd empty left, others, nv, dom⟩
    case neg =>
      rw [if_neg gone]
      by_cases last : (s.tr x).phase = .minuet
      case pos =>
        obtain ⟨leaves, done, pending, source, rate, owed, ready⟩ := (s.ranksTried x failed).quadrilleDone_leaves x
        obtain ⟨fails, good, others, nv, dom⟩ := leaves.step
        rw [holds, sub] at ready
        rw [clk] at rate
        rw [if_pos (beq_iff_eq.mpr last)]
        exact ⟨fails, fun empty => absurd (good.symm.trans empty) gone, fun _ reel => by simp [last] at reel,
          fun _ gavotte => by simp [last] at gavotte, fun _ _ => ⟨done, pending, source, rate, owed, ready⟩, others, nv, dom⟩
      case neg =>
        obtain ⟨leaves, next⟩ := (s.ranksTried x failed).stepOn_leaves x (nextPhase (s.tr x).phase)
        obtain ⟨fails, good, others, nv, dom⟩ := leaves.step
        rw [if_neg (by simpa using last)]
        exact ⟨fails, fun empty => absurd (good.symm.trans empty) gone, fun _ reel => by rw [next, reel]; rfl,
          fun _ gavotte => by rw [next, gavotte]; rfl, fun _ minuet => absurd minuet last, others, nv, dom⟩

end Sys2Proof.Machine

/-! SUPPORT. The start of a calibration (O42): CAL_CMD, and what a run holds. -/

namespace Sys2Proof.Machine
open Sys2Proof

/-! ## CAL_CMD (R170) -/

/-- CAL_CMD. -/
def calCmdReg (s : State) : RegDef :=
  { flds := [⟨31, 0, .wo, false, s.calCmdOk⟩], read := 0, write := fun v s => s.calCmd v }

theorem hubReg_calCmd (p : Path) (s : State) : hubReg p 0x1008 s = some (calCmdReg s) := rfl

theorem calCmdReg_allows (s : State) (v : Word) : (calCmdReg s).allows v = s.calCmdOk v.toNat := by
  have mask : (calCmdReg s).fieldMask = 0xFFFFFFFF := by simp [RegDef.fieldMask, calCmdReg, Fld.mask]
  have fits : v.toNat ||| 0xFFFFFFFF = 0xFFFFFFFF := (or_lowMask_iff (k := 32)).mpr v.isLt
  have writable : (Access.wo != Access.ro) = true := rfl
  simp only [RegDef.allows, mask, fits]
  simp [calCmdReg, Fld.writable, writable]

theorem State.hubWrite_calCmd {s : State} (up : s.up = true) (res : s.nvs.rescue = false) (p : Path) {v : Word}
    (ok : s.calCmdOk v.toNat = true) : s.hubWrite p 0x1008 v = s.calCmd v := by
  have reg : s.reg p 0x1008 = some (calCmdReg s) := (State.reg_of_up up res p 0x1008).trans (hubReg_calCmd p s)
  have allowed : (calCmdReg s).allows v = true := (calCmdReg_allows s v).trans ok
  rw [State.hubWrite_of_allowed reg allowed, RegDef.put_of_not_kept rfl, RegDef.merge_of_roMask rfl]
  rfl

theorem State.hubWrite_calCmd_ignored {s : State} {p : Path} {v : Word} (refused : s.calCmdOk v.toNat = false) :
    s.hubWrite p 0x1008 v = s := by
  unfold State.hubWrite
  split
  case h_1 d reg =>
    cases (hubReg_calCmd p s).symm.trans (State.hubReg_of_reg reg)
    rw [calCmdReg_allows, refused]
    rfl
  case h_2 => rfl

/-- The value of CAL_CMD that asks for a kind on a unit. -/
def calCmdWord (kind unit : Nat) : Nat := 0xCA1B0000 + kind + 16 * unit

section
variable {s : State} {kind unit : Nat}

theorem State.calCmdOk_calCmdWord (hk : kind < 16) (hu : unit < 16) : s.calCmdOk (calCmdWord kind unit) =
    (if kind == 4 then unit == 11 && s.cal.adcMv != 0 && s.regOn .calAdc && (s.pow.dom == .run || s.pow.dom == .attended)
      else 1 ≤ kind && kind ≤ 3 && (unit ≤ 10 || unit == 15) && (unit == 0 || unit == 15 || s.regOn .dbPresent)
        && s.calDom) := by
  have key : calCmdWord kind unit / 65536 = 0xCA1B := by unfold calCmdWord; omega
  have rest : calCmdWord kind unit / 256 % 256 = 0 := by unfold calCmdWord; omega
  have low : calCmdWord kind unit % 16 = kind := by unfold calCmdWord; omega
  have high : calCmdWord kind unit / 16 % 16 = unit := by unfold calCmdWord; omega
  simp [State.calCmdOk, key, rest, low, high]

theorem calCmdWord_toNat (hk : kind < 16) (hu : unit < 16) :
    (BitVec.ofNat 32 (calCmdWord kind unit)).toNat = calCmdWord kind unit := by
  rw [BitVec.toNat_ofNat]
  unfold calCmdWord
  omega

/-- What an accepted CAL_CMD starts on the unit it names. -/
theorem State.calCmd_calCmdWord (hk : kind < 16) (hu : unit < 15) : s.calCmd (BitVec.ofNat 32 (calCmdWord kind unit)) =
    if kind = 4 then s.adcStart else if kind = 2 then s.calVref unit (rxsOf unit) true
      else if kind = 3 then s.calBoth unit true else s.calTap unit true [] false := by
  have value := calCmdWord_toNat hk (show unit < 16 by omega)
  have low : fld (BitVec.ofNat 32 (calCmdWord kind unit)) 3 0 = kind := by
    rw [fld, value]
    unfold calCmdWord
    omega
  have high : fld (BitVec.ofNat 32 (calCmdWord kind unit)) 7 4 = unit := by
    rw [fld, value, Nat.shiftRight_eq_div_pow]
    unfold calCmdWord
    omega
  have one : s.cmdUnits unit = [unit] := if_neg (by omega)
  simp only [State.calCmd, low, high, one, List.foldl_cons, List.foldl_nil]

/-- CAL_CMD with a tap or a Vref kind, on a unit that is there in a domain state that allows it. -/
theorem State.put_calCmdWord (up : s.up = true) (res : s.nvs.rescue = false) (dom : s.calDom = true)
    (hk : 1 ≤ kind ∧ kind ≤ 3) (there : unit = 0 ∨ (unit ≤ 10 ∧ s.regOn .dbPresent = true)) (p : Path) :
    s.put p 0x1008 (calCmdWord kind unit) =
      if kind = 2 then s.calVref unit (rxsOf unit) true
      else if kind = 3 then s.calBoth unit true else s.calTap unit true [] false := by
  have small : unit ≤ 10 := by omega
  have fitted : (unit == 0 || unit == 15 || s.regOn .dbPresent) = true := by
    obtain rfl | ⟨-, fitted⟩ := there <;> simp [*]
  have ok : s.calCmdOk (BitVec.ofNat 32 (calCmdWord kind unit)).toNat = true := by
    rw [calCmdWord_toNat (by omega) (by omega), State.calCmdOk_calCmdWord (by omega) (by omega),
      if_neg (by simpa using by omega), fitted, dom]
    simpa [small] using hk
  rw [State.put, State.hubWrite_calCmd up res p ok, State.calCmd_calCmdWord (by omega) (by omega), if_neg (by omega)]

/-- No tap or Vref calibration is taken in another domain state (R170). -/
theorem State.put_calCmdWord_ignored (dom : s.calDom = false) (hk : kind < 4) (hu : unit < 16) (p : Path) :
    s.put p 0x1008 (calCmdWord kind unit) = s := by
  refine State.hubWrite_calCmd_ignored ?_
  rw [calCmdWord_toNat (by omega) hu, State.calCmdOk_calCmdWord (by omega) hu, if_neg (by simpa using by omega), dom,
    Bool.and_false]

end

/-! ## What a start holds (R163, R171) -/

/-- Between `s` and `t` a run starts on unit `u`, which holds the unit's values; nothing else changes. -/
def State.Starts (s t : State) (u kind : Nat) (todo next : List Nat) (com nextCmd : Bool) : Prop :=
  (∃ r, t.calRun u = some r ∧ r.kind = kind ∧ r.todo = todo ∧ r.next = next ∧ r.commanded = com ∧ r.nextCmd = nextCmd
    ∧ r.rejected = false ∧ r.shadow = none
    ∧ r.holdUnit = s.calUnit u ∧ r.holdCaA = s.train.a.ca ∧ r.holdCaB = s.train.b.ca)
  ∧ (∀ m, m ≠ u → t.calRun m = s.calRun m) ∧ t = { s with cal := { s.cal with runs := t.cal.runs } }

section
variable {s : State} {u : Nat}

theorem State.setRun_calRun_self (present : u < s.cal.runs.length) (r : Option CalRun) : (s.setRun u r).calRun u = r :=
  nth_upd_self present _ _

theorem State.setRun_calRun_ne (s : State) {u m : Nat} (other : m ≠ u) (r : Option CalRun) :
    (s.setRun u r).calRun m = s.calRun m := nth_upd_ne _ other _ _

theorem State.calBegin_starts (present : u < s.cal.runs.length) (kind : Nat) (todo next : List Nat) (com nextCmd : Bool) :
    s.Starts (s.calBegin u kind todo com next nextCmd) u kind todo next com nextCmd :=
  ⟨⟨_, State.setRun_calRun_self present _, rfl, rfl, rfl, rfl, rfl, rfl, rfl, rfl, rfl, rfl⟩,
    fun _ other => s.setRun_calRun_ne other _, rfl⟩

theorem State.calDom_of (dom : s.pow.dom = .run ∨ s.pow.dom = .restore) : s.calDom = true := by
  simpa [State.calDom] using dom

theorem State.calable_of (dom : s.calDom = true)
    (unit : u = 0 ∨ (u ≤ 10 ∧ s.fnOn .dbPresent = true ∧ s.reaches (u - 1) = true)) : s.calable u = true := by
  unfold State.calable
  obtain rfl | ⟨small, present, reached⟩ := unit
  · simp [dom]
  · have zero : u = 0 ∨ 1 ≤ u := by omega
    simpa [dom, small, present, reached] using zero

theorem State.calTap_idle (idle : s.calRun u = none) (able : s.calable u = true) (com : Bool) (next : List Nat)
    (nextCmd : Bool) : s.calTap u com next nextCmd =
      if s.clk.hckOk then s.calBegin u 1 [] com next nextCmd else s.calWait u com next nextCmd := by
  unfold State.calTap
  rw [idle]
  cases s.clk.hckOk <;> simp [able]

theorem State.calVref_idle (idle : s.calRun u = none) (able : s.calable u = true) (rxs : List Nat) (com : Bool) :
    s.calVref u rxs com = s.calBegin u 2 rxs com [] false := by
  unfold State.calVref
  rw [idle]
  exact if_pos able

theorem State.calWait_first (empty : s.cal.defer = []) (com : Bool) (next : List Nat) (nextCmd : Bool) :
    s.calWait u com next nextCmd = { s with cal := { s.cal with defer := [⟨u, next, com, nextCmd⟩] } } := by
  simp [State.calWait, empty]

/-! ## CAL_ADC (R168) -/

theorem State.put_calAdc (up : s.up = true) (res : s.nvs.rescue = false) (adc : s.regOn .calAdc = true)
    (declared : s.cal.adcMv ≠ 0) (dom : s.pow.dom = .run ∨ s.pow.dom = .attended) (p : Path) :
    s.put p 0x1008 (calCmdWord 4 11) = s.adcStart := by
  have ok : s.calCmdOk (BitVec.ofNat 32 (calCmdWord 4 11)).toNat = true := by
    rw [calCmdWord_toNat (by omega) (by omega), State.calCmdOk_calCmdWord (by omega) (by omega)]
    simpa [adc] using And.intro declared dom
  rw [State.put, State.hubWrite_calCmd up res p ok, State.calCmd_calCmdWord (by omega) (by omega), if_pos rfl]

/-- What is latched and held as the ADC's calibration starts. -/
theorem State.adcStart_idle (idle : s.calRun 11 = none) (reached : s.reaches 10 = true) : s.adcStart =
    { s.calBegin 11 4 [] true [] false with
      zxp := { s.zxp with held := some s.zxp.chans }
      cal := { (s.calBegin 11 4 [] true [] false).cal with adcLatched := s.cal.adcMv, adcRun := AdcRun.fresh } } := by
  unfold State.adcStart
  rw [if_neg (by simp [idle, reached])]
  rfl

end

/-! ## The obligation -/

/-- Settles O42: CAL_CMD by its value (`State.put_calCmdWord`, `State.put_calAdc`), and the run that it starts, which holds
its unit's values (`State.calBegin_starts`). -/
theorem calibrationStarts : Obligations.CalibrationStarts := by
  unfold Obligations.CalibrationStarts
  refine ⟨fun p unit s up res dom runs idle there => ?command, fun u s up dom runs idle hck period there => ?period,
    fun p unit s notRun notRestore => ?otherDom, fun p s up res adc declared dom runs idle reached => ?adc⟩
  case command =>
    have small : unit.toNat ≤ 10 := by
      obtain rfl | ⟨small, -⟩ := there
      · decide
      · exact small
    have present : unit.toNat < s.cal.runs.length := by omega
    have dom := State.calDom_of dom
    have able : s.calable unit.toNat = true := State.calable_of dom <| by
      obtain rfl | ⟨-, -, fn, reached⟩ := there
      · exact Or.inl rfl
      · exact Or.inr ⟨small, fn, reached⟩
    have put {kind : Nat} (hk : 1 ≤ kind ∧ kind ≤ 3) := State.put_calCmdWord up res dom hk (unit := unit.toNat) (p := p) (by
      obtain rfl | ⟨-, fitted, -⟩ := there
      · exact Or.inl rfl
      · exact Or.inr ⟨small, fitted⟩)
    have tap := put (kind := 1) (by decide)
    have vref := put (kind := 2) (by decide)
    have both := put (kind := 3) (by decide)
    rw [if_neg (by decide), if_neg (by decide), State.calTap_idle idle able] at tap
    rw [if_pos rfl, State.calVref_idle idle able] at vref
    rw [if_neg (by decide), if_pos rfl, State.calBoth, State.calTap_idle idle able] at both
    refine ⟨fun hck => ?_, ⟨_, congrArg Host.Outcome.next vref, State.calBegin_starts present _ _ _ _ _⟩, fun hck => ?_,
      fun hck empty => ?_⟩
    · rw [if_pos hck] at tap
      exact ⟨_, congrArg Host.Outcome.next tap, State.calBegin_starts present _ _ _ _ _⟩
    · rw [if_pos hck] at both
      exact ⟨_, congrArg Host.Outcome.next both, State.calBegin_starts present _ _ _ _ _⟩
    · rw [if_neg (by simp [hck]), State.calWait_first empty] at tap
      exact congrArg Host.Outcome.next tap
  case period =>
    have able : s.calable u = true := State.calable_of (State.calDom_of dom) <| by
      obtain rfl | there := there
      · exact Or.inl rfl
      · exact Or.inr ⟨by omega, there⟩
    have set : fld s.cal.cfg 10 0 ≠ 0 := by
      intro zero
      refine period (BitVec.eq_of_toNat_eq ?_)
      simpa [fld, BitVec.extractLsb'_toNat] using zero
    have row : exec (.calPeriodExpiry u) s = .next (s.calBegin u 1 [] false (rxsOf u) false) := by
      refine congrArg Host.Outcome.next ((if_pos (by simp [up, set])).trans ?_)
      rw [State.calBoth, State.calTap_idle idle able, if_pos hck]
    exact ⟨_, row, State.calBegin_starts (by omega) _ _ _ _ _⟩
  case otherDom =>
    have dom : s.calDom = false := by simp [State.calDom, notRun, notRestore]
    have ignored {kind : Nat} (hk : kind < 4) := State.put_calCmdWord_ignored dom hk unit.isLt p
    exact ⟨congrArg Host.Outcome.next (ignored (kind := 1) (by decide)),
      congrArg Host.Outcome.next (ignored (kind := 2) (by decide)),
      congrArg Host.Outcome.next (ignored (kind := 3) (by decide))⟩
  case adc =>
    have row := State.put_calAdc up res adc declared dom p
    rw [State.adcStart_idle idle reached] at row
    exact ⟨_, congrArg Host.Outcome.next row, ⟨_, State.setRun_calRun_self (by omega) _, rfl, rfl⟩, rfl, rfl, rfl, rfl, rfl⟩

end Sys2Proof.Machine

/-! SUPPORT. The end of a calibration (O43): what every ending records, and the results of tap, Vref and ADC runs. -/

namespace Sys2Proof.Machine
open Sys2Proof

/-! ## What every ending records (R172) -/

theorem State.form_of_aside {s t : State} (h : t.aside = s.aside) : ∃ c e p, t = { s with con := c, evt := e, pool := p } :=
  ⟨t.con, t.evt, t.pool, congrArg (fun r : State => { r with con := t.con, evt := t.evt, pool := t.pool }) h⟩

theorem nth_upd_none {α : Type} (l : List (Option α)) (i : Nat) : nth (upd l i (fun _ => none)) i none = none := by
  by_cases h : i < l.length
  · exact nth_upd_self h _ _
  · simp [nth, upd, h]

/-- What may mark a region pending changes the list of pending regions alone (R173). -/
theorem State.pendRegion_if_eq (s : State) (p : Bool) (r : Nat) : (if p then s.pendRegion r else s) =
    { s with nvs := { s.nvs with pend := (if p then s.pendRegion r else s).nvs.pend } } := by
  cases p
  · rfl
  · exact s.pendRegion_eq r

/-- The stored body once an ending is recorded: outcome 0 accepted, 1 rejected, 2 abandoned. -/
def State.recorded (s : State) (u kind outcome : Nat) : CalBody :=
  { s.cal.body with
    count := if outcome = 0 then satAdd s.cal.body.count 1 else s.cal.body.count
    reject := if outcome = 1 then satAdd s.cal.body.reject 1 else s.cal.body.reject
    abandon := if outcome = 2 then satAdd s.cal.body.abandon 1 else s.cal.body.abandon
    last := BitVec.ofNat 11 (kind + 16 * u + 256 * outcome + 1024 * s.clk.wallSet.toNat)
    lastLife := s.clk.life, lastUtc := if s.clk.wallSet then s.utc else s.cal.body.lastUtc }

theorem State.recorded_last (s : State) (u kind outcome : Nat) :
    (s.recorded u kind outcome).last.extractLsb' 0 8 = BitVec.ofNat 8 (kind + 16 * u) := by
  refine BitVec.eq_of_toNat_eq ?_
  simp only [State.recorded, BitVec.extractLsb'_toNat, BitVec.toNat_ofNat, Nat.shiftRight_zero]
  omega

section
variable {s : State} {u : Nat} {r : CalRun}

theorem State.raise_if_aside (p : Prop) [Decidable p] {n : Nat} (power : n < 24 ∨ 31 < n) (hoard : n < 48 ∨ 55 < n)
    (a : BitVec 24) : (if p then s.raise n a else s).aside = s.aside := by
  split
  · exact s.raise_aside power hoard a
  · rfl

/-- Beside the record only events are raised (R172). -/
theorem State.calRecord_aside (kind outcome : Nat) (com : Bool) : (s.calRecord u kind outcome com).aside =
    State.aside { s with cal := { s.cal with body := s.recorded u kind outcome, pending := true } } :=
  (State.raise_if_aside _ (by omega) (by omega) _).trans (State.raise_if_aside _ (by omega) (by omega) _)

theorem State.conCal_aside (outcome size : Nat) : (s.conCal u outcome size).aside = s.aside := by
  unfold State.conCal State.conHold
  split
  · split
    · rfl
    · dsimp only
      split
      · exact s.respond_aside _ _ _ _
      · rfl
  · rfl

theorem State.conAdc_aside (outcome reason : Nat) : (s.conAdc outcome reason).aside = s.aside := by
  unfold State.conAdc State.respondOk State.respondErr
  split
  · dsimp only
    (repeat' split) <;> exact s.respond_aside _ _ _ _
  · rfl

/-- The end of an ADC calibration: the channels are live, and the outcome is recorded with its REASON. -/
theorem State.adcEnd_form (run : s.calRun 11 = some r) (outcome reason : Nat) : ∃ c e p, s.adcEnd outcome reason = { s with
    zxp := { s.zxp with held := none }
    cal := { s.cal with
      runs := upd s.cal.runs 11 (fun _ => none), adcReject := outcome == 1, adcReason := BitVec.ofNat 3 reason
      body := s.recorded 11 4 outcome, pending := true }
    con := c, evt := e, pool := p } := by
  unfold State.adcEnd
  rw [run]
  exact State.form_of_aside ((State.conAdc_aside _ _).trans (State.calRecord_aside _ _ _))

/-- A run of a unit is over, its ending recorded, with the temperatures of the units' last calibrations. -/
def State.ended (s : State) (u kind outcome : Nat) (temps : List Int) : State :=
  { s with cal := { s.cal with
      runs := upd s.cal.runs u (fun _ => none), body := s.recorded u kind outcome, pending := true, temps := temps } }

/-- The end of a tap run that no Vref run follows. -/
theorem State.calEnd_tap (run : s.calRun u = some r) (tap : r.kind = 1) (alone : r.next = []) (outcome : Nat) :
    ∃ l c e p, s.calEnd u outcome = { s.ended u 1 outcome l with con := c, evt := e, pool := p } := by
  obtain ⟨c, e, p, recorded⟩ := State.form_of_aside
    (State.calRecord_aside (s := s.setRun u none) (u := u) 1 outcome r.commanded)
  have idle (t : State) (h : t.cal.runs = upd s.cal.runs u (fun _ => none)) : (t.calRun u).isSome = false := by
    rw [State.calRun, h, nth_upd_none]
    rfl
  unfold State.calEnd
  rw [run]
  simp only [tap, alone, Nat.reduceEqDiff, decide_false, Bool.false_and, Bool.false_eq_true, if_false, bne_self_eq_false,
    recorded]
  split
  · rw [if_neg (by rw [idle _ rfl]; exact Bool.false_ne_true)]
    exact ⟨_, State.form_of_aside (State.conCal_aside _ _)⟩
  · rw [if_neg (by rw [idle _ rfl]; exact Bool.false_ne_true)]
    exact ⟨s.cal.temps, State.form_of_aside (State.conCal_aside _ _)⟩

/-! ## Tap size (R164) -/

theorem State.calReach_of_reaches (reached : u = 0 ∨ s.reaches (u - 1) = true) : s.calReach u = s := by
  unfold State.calReach
  split
  · rfl
  · next buffer => exact State.zlbTry_of_reaches (reached.resolve_left buffer)

/-- A quotient rounded down or up lies less than one from the exact one. -/
theorem roundDiv_near (n a : Nat) {b : Nat} (pos : 0 < b) : b * roundDiv n a b < a + b ∧ a < b * roundDiv n a b + b := by
  have whole := Nat.div_add_mod a b
  have rest := Nat.mod_lt a pos
  unfold roundDiv
  split
  · omega
  · split
    · rw [Nat.mul_add]
      omega
    · omega

/-- The mean tap in 1/16 ps of two measurements, as the tap size rounds it (R164): its numerator. -/
def tapNum (p q : Nat × Nat) : Nat := 16000000 * (p.2 * q.1 + q.2 * p.1)
/-- Its denominator. -/
def tapDen (mhz : Nat) (p q : Nat × Nat) : Nat := 2 * mhz * p.1 * q.1

theorem tapDen_of_tapOk {mhz : Nat} {p q : Nat × Nat} (ok : tapOk mhz p q = true) :
    0 < tapDen mhz p q ∧ tapNum p q ≤ 96 * tapDen mhz p q := by
  simp only [tapOk, Bool.and_eq_true, decide_eq_true_eq] at ok
  obtain ⟨⟨⟨⟨⟨⟨p2, -⟩, -⟩, q1⟩, -⟩, -⟩, most⟩ := ok
  have some_ := Nat.mul_pos p2 q1
  unfold tapNum tapDen
  generalize 2 * mhz * p.1 * q.1 = den at *
  omega

/-- The size that an accepted tap calibration gives its unit, in 1/16 ps. -/
def State.tapSize (s : State) (p q : Nat × Nat) : Nat := roundDiv s.free (tapNum p q) (tapDen s.clk.hckMhz.toNat p q)

theorem State.tapSize_near {p q : Nat × Nat} (ok : tapOk s.clk.hckMhz.toNat p q = true) :
    let size := (BitVec.ofNat 12 (s.tapSize p q)).toNat
    tapDen s.clk.hckMhz.toNat p q * size < tapNum p q + tapDen s.clk.hckMhz.toNat p q
      ∧ tapNum p q < tapDen s.clk.hckMhz.toNat p q * size + tapDen s.clk.hckMhz.toNat p q := by
  obtain ⟨pos, most⟩ := tapDen_of_tapOk ok
  have near := roundDiv_near s.free (tapNum p q) pos
  have small : s.tapSize p q < 97 := by
    refine Nat.lt_of_mul_lt_mul_left (a := tapDen s.clk.hckMhz.toNat p q) ?_
    unfold State.tapSize
    omega
  rw [BitVec.toNat_ofNat, Nat.mod_eq_of_lt (by omega)]
  exact near

/-- The unit's values once a tap calibration is accepted. -/
def State.tapTaken (s : State) (u : Nat) (p q : Nat × Nat) : State :=
  s.took.setUnit u (fun c => { c with
    size := BitVec.ofNat 12 (s.tapSize p q)
    tph := toField (min (2 * p.1 * q.1 / (p.2 * q.1 + q.2 * p.1)) 255), tapLife := s.clk.life })

theorem State.tapTaken_calUnit (present : u < s.cal.body.units.length) (p q : Nat × Nat) :
    let c := (s.tapTaken u p q).calUnit u
    c.size = BitVec.ofNat 12 (s.tapSize p q) ∧ c.tapLife = s.clk.life ∧ c.comps = (s.calUnit u).comps := by
  intro c
  have taken : c = _ := nth_upd_self present _ _
  rw [taken]
  exact ⟨rfl, rfl, rfl⟩

theorem State.calTapDone_accepted (reached : u = 0 ∨ s.reaches (u - 1) = true) (run : s.calRun u = some r) (tap : r.kind = 1)
    {a b c d : Nat} (ok : tapOk s.clk.hckMhz.toNat (tphFrac a b) (tphFrac c d) = true) : ∃ l, s.calTapDone u a b c d =
      State.calEnd { s.tapTaken u (tphFrac a b) (tphFrac c d) with nvs := { s.nvs with pend := l } } u 0 := by
  simp only [State.calTapDone, State.calReach_of_reaches reached, run, tap, ok, bne_self_eq_false, Bool.not_true,
    Bool.false_eq_true, if_false]
  exact ⟨_, congrArg (State.calEnd · u 0) ((s.tapTaken u (tphFrac a b) (tphFrac c d)).pendRegion_if_eq _ 4)⟩

theorem State.calTapDone_rejected (reached : u = 0 ∨ s.reaches (u - 1) = true) (run : s.calRun u = some r) (tap : r.kind = 1)
    {a b c d : Nat} (bad : tapOk s.clk.hckMhz.toNat (tphFrac a b) (tphFrac c d) = false) :
    s.calTapDone u a b c d = s.calEnd u 1 := by
  simp [State.calTapDone, State.calReach_of_reaches reached, run, tap, bad]

theorem State.calUnit_setUnit_self (present : u < s.cal.body.units.length) (f : CalUnit → CalUnit) :
    (s.setUnit u f).calUnit u = f (s.calUnit u) := nth_upd_self present _ _

/-! ## Vref (R166, R167) -/

theorem State.vrefRun_of {rx : Nat} (run : s.calRun u = some r) (vref : r.kind = 2) (head : r.todo.head? = some rx) :
    s.vrefRun u rx = some r := by
  simp [State.vrefRun, run, vref, head]

theorem State.swapOf_setSwap_self (s : State) (u rx v : Nat) : (s.setSwap u rx v).swapOf u rx = v := sget_sset_self _ _ _ _

theorem State.setComp_form (s : State) (u key : Nat) (v : Byte × Byte) : ∃ l, s.setComp u key v =
    { s.setUnit u (fun c => { c with comps := sset (0, 0) c.comps key v }) with nvs := { s.nvs with pend := l } } := by
  exact ⟨_, State.pendRegion_if_eq (s.setUnit u (fun c => { c with comps := sset (0, 0) c.comps key v })) _ 4⟩

/-- A comparator takes the result it has, if any. -/
def State.takeComp (s : State) (u key : Nat) : Option (Byte × Byte) → State
  | some v => s.setComp u key v
  | none => s

/-- The unit's values once one of its comparators has taken its result. -/
def CalUnit.taken (c : CalUnit) (key : Nat) : Option (Byte × Byte) → CalUnit
  | some v => { c with comps := sset (0, 0) c.comps key v }
  | none => c

theorem CalUnit.taken_comps (c : CalUnit) (key : Nat) (v : Option (Byte × Byte)) :
    sget (0, 0) (c.taken key v).comps key = v.getD (sget (0, 0) c.comps key) := by
  cases v with
  | some v => exact sget_sset_self _ _ _ _
  | none => rfl

theorem CalUnit.taken_size (c : CalUnit) (key : Nat) (v : Option (Byte × Byte)) : (c.taken key v).size = c.size := by
  cases v <;> rfl

theorem State.takeComp_form (s : State) (u key : Nat) (v : Option (Byte × Byte)) : ∃ l, s.takeComp u key v =
    { s.setUnit u (·.taken key v) with nvs := { s.nvs with pend := l } } := by
  cases v with
  | some v => exact s.setComp_form u key v
  | none =>
    have same : s.setUnit u (·.taken key none) = s :=
      congrArg (fun l => ({ s with cal := { s.cal with body := { s.cal.body with units := l } } } : State)) (upd_id _ u)
    exact ⟨s.nvs.pend, same.symm⟩

/-- The shadow comparator is through: it has its result, and the receiver swaps. -/
theorem State.vrefSwap_through {rx : Nat} (inPlace : s.swapOf u rx = 0) (run : s.vrefRun u rx = some r)
    {v : Option (Byte × Byte)} (through : r.shadow = some v) :
    s.vrefSwap u rx = (s.takeComp u (rx * 2 + 1) v).setSwap u rx 1 := by
  simp only [State.vrefSwap, inPlace, run, through]
  cases v <;> rfl

theorem State.vrefSwap_waits {rx : Nat} (inPlace : s.swapOf u rx = 0) (run : s.vrefRun u rx = some r)
    (waits : r.shadow = none) : s.vrefSwap u rx = s ∧ s.swapTimeout u rx = s := by
  simp [State.vrefSwap, State.swapTimeout, inPlace, run, waits]

/-- Without an idle point before the swap the receiver in hand is abandoned, and the next one follows. -/
theorem State.swapTimeout_through {rx : Nat} (inPlace : s.swapOf u rx = 0) (run : s.vrefRun u rx = some r)
    (through : r.shadow ≠ none) (more : 1 < r.todo.length) : s.swapTimeout u rx =
      State.setRun { s with cal := { s.cal with body := { s.cal.body with abandon := satAdd s.cal.body.abandon 1 } } } u
        (some { r with todo := r.todo.drop 1, shadow := none, mainDone := false }) := by
  have some_ : ¬ r.shadow.isNone = true := by simpa using through
  simp only [State.swapTimeout, inPlace, run, if_neg some_, State.rxNext]
  exact if_neg (by omega)

/-- The values that two measurements give a comparator: none where they disagree. -/
def State.tripValue (s : State) (p q : Trips) : Option (Byte × Byte) := if tripsAgree p q then some (s.trims p q) else none

/-- A run that notes whether a comparator was rejected. -/
def CalRun.noted (r : CalRun) (v : Option (Byte × Byte)) : CalRun := { r with rejected := r.rejected || v.isNone }

theorem State.calVrefDone_shadow {rx : Nat} (reached : u = 0 ∨ s.reaches (u - 1) = true) (run : s.vrefRun u rx = some r)
    (inPlace : s.swapOf u rx = 0) (first : r.shadow = none) (p q : Trips) : s.calVrefDone u rx true p q =
      State.setRun { s with free := s.free + 3 } u
        (some { r.noted (s.tripValue p q) with shadow := some (s.tripValue p q) }) := by
  simp [State.calVrefDone, State.calReach_of_reaches reached, run, inPlace, first, State.tripValue, CalRun.noted]

theorem State.calVrefDone_main {rx : Nat} (reached : u = 0 ∨ s.reaches (u - 1) = true) (run : s.vrefRun u rx = some r)
    (swapped : s.swapOf u rx = 1) (p q : Trips) : s.calVrefDone u rx false p q =
      ((State.takeComp { s with free := s.free + 3 } u (rx * 2) (s.tripValue p q)).setRun u
        (some { r.noted (s.tripValue p q) with mainDone := true })).setSwap u rx 2 := by
  simp only [State.calVrefDone, State.calReach_of_reaches reached, run, swapped, State.tripValue, CalRun.noted]
  cases tripsAgree p q <;> rfl

/-! ## ADC (R168, R169) -/

/-- The sum of the codes of one sub-mode. -/
def State.adcSum (s : State) (i : Nat) : Nat := nth s.cal.adcRun.sums i 0

/-- Both gains lie in their window. -/
def State.adcGains (s : State) : Bool :=
  gainOk 20 s.cal.adcLatched.toNat (s.adcSum 0) (s.adcSum 2) && gainOk 80 s.cal.adcLatched.toNat (s.adcSum 1) (s.adcSum 3)
/-- Both offsets lie in theirs. -/
def State.adcOffsets (s : State) : Bool := offsetOk 20 (s.adcSum 2) && offsetOk 80 (s.adcSum 3)

/-- The corrections of an accepted calibration. -/
def State.adcResult (s : State) : List (BitVec 16) :=
  [BitVec.ofNat 16 (adcOffset 20 (s.adcSum 2)),
    BitVec.ofInt 16 (adcGain 20 s.cal.adcLatched.toNat (s.adcSum 0) (s.adcSum 2)),
    BitVec.ofNat 16 (adcOffset 80 (s.adcSum 3)),
    BitVec.ofInt 16 (adcGain 80 s.cal.adcLatched.toNat (s.adcSum 1) (s.adcSum 3))]

/-- The corrections are in force, and in the body to be stored. -/
def State.adcTaken (s : State) : State :=
  { s with
    zxp := { s.zxp with corr := s.adcResult }
    cal := { s.cal with body := { s.cal.body with
      adc := s.adcResult, adcRef := s.cal.adcLatched, adcLife := s.clk.life, adcValid := true } } }

/-- REASON of a rejected calibration: a flagged sample before a gain before an offset (R169). -/
def State.adcReason (s : State) : Nat := if s.cal.adcRun.flagged then 3 else if s.adcGains then 2 else 1

theorem State.calAdcDone_judged (run : s.calRun 11 = some r) (full : 256 ≤ s.cal.adcRun.count)
    (reached : s.reaches 10 = true) : ∃ l, s.calAdcDone =
      if s.cal.adcRun.flagged = true ∨ s.adcGains = false ∨ s.adcOffsets = false then s.adcEnd 1 s.adcReason
      else State.adcEnd { s.adcTaken with nvs := { s.nvs with pend := l } } 0 0 := by
  have samples : ¬ ((s.calRun 11).isNone || decide (s.cal.adcRun.count < 256)) = true := by simpa [run] using full
  have gains : (!gainOk 20 s.cal.adcLatched.toNat (s.adcSum 0) (s.adcSum 2)
      || !gainOk 80 s.cal.adcLatched.toNat (s.adcSum 1) (s.adcSum 3)) = !s.adcGains := (Bool.not_and _ _).symm
  have offsets : (!offsetOk 20 (s.adcSum 2) || !offsetOk 80 (s.adcSum 3)) = !s.adcOffsets := (Bool.not_and _ _).symm
  unfold State.adcSum at gains offsets
  unfold State.calAdcDone State.adcReason
  rw [if_neg samples]
  simp only [State.zlbTry_of_reaches reached, reached, gains, offsets, Bool.not_true, Bool.false_eq_true, if_false]
  cases flag : s.cal.adcRun.flagged with
  | true => exact ⟨[], by simp⟩
  | false =>
    cases gain : s.adcGains with
    | false => exact ⟨[], by simp⟩
    | true =>
      cases offset : s.adcOffsets with
      | false => exact ⟨[], by simp⟩
      | true =>
        simp only [Bool.not_true, Bool.false_eq_true, if_false, reduceCtorEq, or_self]
        exact ⟨_, congrArg (State.adcEnd · 0 0) (s.adcTaken.pendRegion_if_eq _ 4)⟩

/-! ## Abandonment (R172) -/

/-- Abandoned work on a unit other than the ADC: the values from before it, and the swapped receivers wait (R167). -/
theorem State.calAbandon_form (unit : u ≠ 11) (run : s.calRun u = some r) : ∃ c e p, s.calAbandon u = { s with
    cal := { s.cal with
      swaps := s.cal.swaps.map (fun e => if e.1 / 64 = u then (e.1, 2) else e), runs := upd s.cal.runs u (fun _ => none)
      body := { s.recorded u r.kind 2 with units := upd s.cal.body.units u (fun _ => r.holdUnit) }, pending := true }
    con := c, evt := e, pool := p } := by
  unfold State.calAbandon
  rw [if_neg unit, run]
  exact State.form_of_aside ((State.conCal_aside _ _).trans (State.calRecord_aside _ _ _))

theorem State.calResume_of_none (empty : s.cal.defer = []) : s.calResume = s := by
  unfold State.calResume
  split
  · rfl
  · rw [empty]
    exact congrArg (fun l => ({ s with cal := { s.cal with defer := l } } : State)) empty.symm

/-- CAL_ABANDON where no tap calibration waits for the unit. -/
theorem exec_calAbandon (up : s.up = true) {u : Fin 12} (none_waits : s.clk.hckOk = false ∨ s.cal.defer = [])
    (defer : (s.calAbandon u).cal.defer = s.cal.defer) :
    exec (.calAbandon u) s = .next (s.calAbandon u) := by
  change execCalAbandon u s = _
  have rests : s.clk.hckOk = true → (s.calAbandon u).calResume = s.calAbandon u := fun on =>
    State.calResume_of_none (defer.trans (none_waits.resolve_left (by simp [on])))
  unfold execCalAbandon
  rw [if_neg (by simp [up])]
  split
  · next on => exact congrArg Host.Outcome.next (rests on)
  · rfl

end

/-! ## The obligation -/

/-- Settles O43: the results by `State.calTapDone_accepted`, `State.vrefSwap_through`, `State.calVrefDone_shadow`,
`State.calVrefDone_main` and `State.calAdcDone_judged`; every ending by what it records (`State.recorded`). -/
theorem calibrationEnds : Obligations.CalibrationEnds := by
  unfold Obligations.CalibrationEnds
  refine ⟨fun u a b c d r s up run tap alone reached runs units => ?tap,
    fun u rx r s up run vref head inPlace units => ?swap,
    fun u rx shadow lo hi lo' hi' r s up run vref head stands first reached units runs => ?vrefDone,
    fun r s up run runs reached full => ?adc, fun u r s up run runs waits => ?abandon⟩
  case tap =>
    have reached : u.val = 0 ∨ s.reaches (u - 1) = true := reached.imp_left (congrArg Fin.val)
    have present : u.val < s.cal.body.units.length := by omega
    cases ok : tapOk s.clk.hckMhz.toNat (tphFrac a b) (tphFrac c d) with
    | true =>
      obtain ⟨l, accepted⟩ := State.calTapDone_accepted reached run tap ok
      obtain ⟨m, con, e, p, ended⟩ := State.calEnd_tap
        (s := { s.tapTaken u (tphFrac a b) (tphFrac c d) with nvs := { s.nvs with pend := l } }) run tap alone 0
      obtain ⟨size, life, comps⟩ := State.tapTaken_calUnit present (tphFrac a b) (tphFrac c d)
      refine ⟨_, congrArg Host.Outcome.next ((if_pos up).trans (accepted.trans ended)), nth_upd_none _ _, fun _ => ?_, nofun,
        State.recorded_last _ _ _ _, rfl, rfl, rfl, rfl⟩
      have near := State.tapSize_near ok
      rw [← size] at near
      obtain ⟨above, below⟩ := near
      exact ⟨rfl, rfl, life, above, below, comps⟩
    | false =>
      obtain ⟨m, con, e, p, ended⟩ := State.calEnd_tap run tap alone 1
      exact ⟨_, congrArg Host.Outcome.next ((if_pos up).trans ((State.calTapDone_rejected reached run tap ok).trans ended)),
        nth_upd_none _ _, nofun, fun _ => ⟨rfl, rfl, rfl⟩, s.recorded_last _ _ _, rfl, rfl, rfl, rfl⟩
  case swap =>
    have inHand := State.vrefRun_of run vref head
    refine ⟨fun v through => ?_, fun waits => ?_, fun through more => ?_⟩
    · obtain ⟨l, taken⟩ := s.takeComp_form u (rx * 2 + 1) v
      have row := State.vrefSwap_through inPlace inHand through
      rw [taken] at row
      have unit := State.calUnit_setUnit_self (s := s) (u := u) (by omega) (·.taken (rx * 2 + 1) v)
      refine ⟨_, congrArg Host.Outcome.next ((if_pos up).trans row), State.swapOf_setSwap_self _ _ _ _, ?_, rfl⟩
      exact (congrArg (fun c : CalUnit => sget (0, 0) c.comps (rx * 2 + 1)) unit).trans (CalUnit.taken_comps _ _ _)
    · obtain ⟨swap, timeout⟩ := State.vrefSwap_waits inPlace inHand waits
      exact ⟨congrArg Host.Outcome.next ((if_pos up).trans swap), congrArg Host.Outcome.next ((if_pos up).trans timeout)⟩
    · exact congrArg Host.Outcome.next ((if_pos up).trans (State.swapTimeout_through inPlace inHand through more))
  case vrefDone =>
    have reached : u.val = 0 ∨ s.reaches (u - 1) = true := reached.imp_left (congrArg Fin.val)
    have inHand := State.vrefRun_of run vref head
    have present : u.val < s.cal.runs.length := by omega
    cases shadow with
    | true =>
      have row := State.calVrefDone_shadow reached inHand stands (first rfl) (lo, hi) (lo', hi')
      refine ⟨_, congrArg Host.Outcome.next ((if_pos up).trans row), fun agree _ => ⟨?_, rfl⟩, nofun,
        fun differ => ⟨rfl, ?_⟩, stands, rfl, rfl⟩
      · refine (State.setRun_calRun_self present _).trans ?_
        simp [State.tripValue, CalRun.noted, agree]
      · refine (State.setRun_calRun_self present _).trans ?_
        simp [State.tripValue, CalRun.noted, differ]
    | false =>
      obtain ⟨l, taken⟩ := State.takeComp_form { s with free := s.free + 3 } u (rx * 2) (s.tripValue (lo, hi) (lo', hi'))
      have row := State.calVrefDone_main reached inHand stands (lo, hi) (lo', hi')
      have unit := State.calUnit_setUnit_self (s := s) (u := u) (by omega)
        (·.taken (rx * 2) (s.tripValue (lo, hi) (lo', hi')))
      have through := State.setRun_calRun_self present
        (some { r.noted (s.tripValue (lo, hi) (lo', hi')) with mainDone := true })
      cases agree : tripsAgree (lo, hi) (lo', hi') with
      | true =>
        rw [taken] at row
        have value : s.tripValue (lo, hi) (lo', hi') = some (s.trims (lo, hi) (lo', hi')) := if_pos agree
        refine ⟨_, congrArg Host.Outcome.next ((if_pos up).trans row), nofun, fun _ _ => ⟨through.trans ?_, ?_, ?_⟩, nofun,
          State.swapOf_setSwap_self _ _ _ _, rfl, rfl⟩
        · simp [value, CalRun.noted]
        · exact (congrArg CalUnit.size unit).trans (CalUnit.taken_size _ _ _)
        · refine (congrArg (fun c : CalUnit => sget (0, 0) c.comps (rx * 2)) unit).trans ?_
          rw [CalUnit.taken_comps, value, Option.getD_some]
      | false =>
        have value : s.tripValue (lo, hi) (lo', hi') = none := if_neg (by simp [agree])
        rw [value] at row
        refine ⟨_, congrArg Host.Outcome.next ((if_pos up).trans row), nofun, nofun, fun _ => ⟨rfl, ?_⟩,
          State.swapOf_setSwap_self _ _ _ _, rfl, rfl⟩
        refine (State.setRun_calRun_self present _).trans ?_
        simp [CalRun.noted]
  case adc =>
    obtain ⟨l, judged⟩ := State.calAdcDone_judged run full reached
    intro sum mv gain offset
    by_cases bad : s.cal.adcRun.flagged = true ∨ s.adcGains = false ∨ s.adcOffsets = false
    · obtain ⟨c, e, p, ended⟩ := State.adcEnd_form run 1 s.adcReason
      rw [if_pos bad, ended] at judged
      refine ⟨_, congrArg Host.Outcome.next ((if_pos up).trans judged), nth_upd_none _ _, rfl,
        fun _ => ⟨rfl, rfl, rfl, ?_, rfl⟩, fun clean gains offsets => ?_⟩
      · change BitVec.ofNat 3 s.adcReason = if s.cal.adcRun.flagged then 3 else if s.adcGains then 2 else 1
        unfold State.adcReason
        (repeat' split) <;> rfl
      · exact absurd bad (by simp [clean, show s.adcGains = true from gains, show s.adcOffsets = true from offsets])
    · obtain ⟨c, e, p, ended⟩ := State.adcEnd_form (s := { s.adcTaken with nvs := { s.nvs with pend := l } }) run 0 0
      rw [if_neg bad, ended] at judged
      exact ⟨_, congrArg Host.Outcome.next ((if_pos up).trans judged), nth_upd_none _ _, rfl,
        fun rejected => absurd rejected bad, fun _ _ _ => ⟨rfl, rfl, rfl, rfl, rfl, rfl⟩⟩
  case abandon =>
    by_cases adc : u = 11
    · subst adc
      obtain ⟨c, e, p, ended⟩ := State.adcEnd_form run 2 4
      have row : s.calAbandon (11 : Fin 12) = _ := (if_pos rfl).trans ended
      have next := exec_calAbandon (u := 11) up waits (congrArg (fun t : State => t.cal.defer) row :)
      rw [row] at next
      exact ⟨_, next, nth_upd_none _ _, rfl, fun small => absurd small (by decide), fun _ => ⟨rfl, rfl, rfl⟩, rfl,
        fun small => absurd small (by decide), rfl⟩
    · obtain ⟨c, e, p, row⟩ := State.calAbandon_form (fun same => adc (Fin.ext same)) run
      have next := exec_calAbandon (u := u) up waits (congrArg (fun t : State => t.cal.defer) row :)
      rw [row] at next
      refine ⟨_, next, nth_upd_none _ _, rfl, fun _ => rfl, fun same => absurd same adc, rfl, fun _ e swap here => ?_, rfl⟩
      obtain ⟨f, -, rfl⟩ := List.mem_map.mp swap
      by_cases mine : f.1 / 64 = u.val
      · rw [if_pos mine]
      · rw [if_neg mine] at here
        exact absurd here mine

end Sys2Proof.Machine

/-! SUPPORT. The SME rotation (O44): what a slot may write, with a buffer that is asked over the bus and one that is not. -/

namespace Sys2Proof.Machine
open Sys2Proof

/-! ## What a slot may write (R175, R176) -/

/-- The state with what an SME slot may write blanked; of live trim the counts, the placed steps, slot and frame stay. -/
def State.offSlot (s : State) : State :=
  { s with
    pow := { s.pow with latched := [] }
    trim := { Trim.fresh with
      applied := s.trim.applied, refused := s.trim.refused, placed := s.trim.placed, slot := s.trim.slot
      frame := s.trim.frame }
    dbs := [], free := 0, zlb := Zlb.fresh, cal := Cal.fresh, con := Con.fresh, pool := Pool.fresh, wrn := Wrn.fresh
    evt := Evt.fresh, flt := Flt.fresh }

theorem State.kept_of_offSlot {s t : State} (h : t.offSlot = s.offSlot) :
    t.trim.slot = s.trim.slot ∧ t.trim.frame = s.trim.frame ∧ t.trim.applied = s.trim.applied
      ∧ t.trim.refused = s.trim.refused ∧ t.trim.placed = s.trim.placed
      ∧ t = { s with
          trim := t.trim, dbs := t.dbs, free := t.free, zlb := t.zlb, cal := t.cal, con := t.con, pool := t.pool
          wrn := t.wrn, evt := t.evt, flt := t.flt, pow := { s.pow with latched := t.pow.latched } } := by
  refine ⟨(congrArg (·.trim.slot) h :), (congrArg (·.trim.frame) h :), (congrArg (·.trim.applied) h :),
    (congrArg (·.trim.refused) h :), (congrArg (·.trim.placed) h :), ?_⟩
  exact congrArg (fun r : State => { r with
    trim := t.trim, dbs := t.dbs, free := t.free, zlb := t.zlb, cal := t.cal, con := t.con, pool := t.pool
    wrn := t.wrn, evt := t.evt, flt := t.flt, pow := { r.pow with latched := t.pow.latched } }) h

section
variable (s : State)

/-- A buffer that is asked over the bus: its retries, its loss, and the calibration lost with it. -/
theorem State.zlbTry_offSlot {n : Nat} (hn : n < 10) : (s.zlbTry n).offSlot = s.offSlot := by
  have still := s.zlbTry_still hn
  have nvs : (s.zlbTry n).nvs = s.nvs := congrArg Prod.fst (s.zlbTry_ledger hn)
  have view (u : State) : u.offSlot = State.offSlot { u.still with nvs := u.nvs } := rfl
  rw [view, view s, still, nvs]

theorem State.dbcCmd_offSlot (x : Sub) (c : DbcCmd) : (s.dbcCmd x c).offSlot = s.offSlot := by
  rw [State.dbcCmd_form]
  rfl

theorem State.trimDecide_offSlot (u path mode entry : Nat) : (s.trimDecide u path mode entry).offSlot = s.offSlot := by
  unfold State.trimDecide
  dsimp only
  split
  · rfl
  · split <;> rfl

theorem State.smeResult_offSlot (u path mode n : Nat) (counts : List EyeCount) :
    (s.smeResult u path mode n counts).offSlot = s.offSlot := by
  have joined (acc : List (Nat × Acc)) : State.offSlot { s with trim := { s.trim with acc := acc } } = s.offSlot := rfl
  have decided := foldl_kept State.offSlot (fun (t : State) (c : EyeCount × Nat) => t.trimDecide u path mode c.2)
    fun t c => t.trimDecide_offSlot u path mode c.2
  unfold State.smeResult
  dsimp only
  rw [decided, joined]

theorem State.dbrResult_offSlot (n path mode : Nat) (rx : List Bool) (room : Bool) :
    (s.dbrResult n path mode rx room).offSlot = s.offSlot := by
  unfold State.dbrResult
  split
  · rfl
  · split
    · rfl
    · exact s.smeResult_offSlot _ _ _ _ _

theorem State.windowClose_offSlot (n uis : Nat) (counts : List EyeCount) :
    (s.windowClose n uis counts).offSlot = s.offSlot := rfl

theorem State.smeBuffer_offSlot {n : Nat} (hn : n < 10) (path uis : Nat) (counts : List EyeCount) (flips : List (Fin 157))
    (room : Bool) : (s.smeBuffer n path uis counts flips room).offSlot = s.offSlot := by
  have shadowed (t : State) (w : Word) : ((t.warrenAccess n 0x020 w 0).setDb n (fun d => { d with shadow := w })).offSlot
      = t.offSlot := rfl
  unfold State.smeBuffer
  dsimp only
  split
  · exact s.zlbTry_offSlot hn
  · split
    · rw [shadowed, s.zlbTry_offSlot hn]
    · split
      · rw [State.dbcCmd_offSlot, shadowed, s.zlbTry_offSlot hn]
      · rw [State.dbrResult_offSlot, State.windowClose_offSlot, State.dbcCmd_offSlot, shadowed, s.zlbTry_offSlot hn]

theorem State.centreSweep_offSlot : s.centreSweep.offSlot = s.offSlot := by
  unfold State.centreSweep
  split
  · rfl
  · exact (apply_ite State.offSlot _ _ _).trans (ite_self s.offSlot)

end

/-! ## The rotation (R175) -/

/-- The slot moves on, and after slot 23 the frame count. -/
def State.rotated (s : State) : State :=
  { s with trim := { s.trim with
      slot := BitVec.ofNat 5 (if s.trim.slot.toNat = 23 then 0 else s.trim.slot.toNat + 1)
      frame := if s.trim.slot.toNat = 23 then s.trim.frame + 1 else s.trim.frame } }

theorem State.rotated_trim (s : State) : s.rotated.trim.slot = (if s.trim.slot = 23 then 0 else s.trim.slot + 1)
    ∧ s.rotated.trim.frame = (if s.trim.slot = 23 then s.trim.frame + 1 else s.trim.frame) := by
  have last : s.trim.slot.toNat = 23 ↔ s.trim.slot = 23 := by
    rw [← BitVec.toNat_inj]
    rfl
  simp only [State.rotated, last]
  split
  · exact ⟨rfl, trivial⟩
  · refine ⟨BitVec.eq_of_toNat_eq ?_, trivial⟩
    simp [BitVec.toNat_add]

/-- The buffers have the slots below 20, and the CA receivers slots 20 and 21. -/
theorem State.slotSource_lt {s : State} {slot u path : Nat} (h : s.slotSource slot = some (u, path)) : u < 12 := by
  have order : ∀ k < 10, nth [0, 5, 1, 6, 2, 7, 3, 8, 4, 9] k 0 < 10 := by decide
  unfold State.slotSource at h
  dsimp only at h
  split at h
  · next low =>
    have := order slot low
    simp only [Option.some.injEq, Prod.mk.injEq] at h
    omega
  · split at h
    · next low =>
      have := order (slot - 10) (by omega)
      simp only [Option.some.injEq, Prod.mk.injEq] at h
      omega
    · split at h
      · simp only [Option.some.injEq, Prod.mk.injEq] at h
        omega
      · split at h
        · simp only [Option.some.injEq, Prod.mk.injEq] at h
          omega
        · cases h

theorem State.slotSource_spare {s : State} {slot : Nat} (h : 21 < slot) : s.slotSource slot = none := by
  unfold State.slotSource
  dsimp only
  rw [if_neg (by omega), if_neg (by omega), if_neg (by omega), if_neg (by omega)]

theorem State.smeSlot_offSlot (s : State) (n : Nat) (counts : List EyeCount) (flips : List (Fin 157)) (room : Bool) :
    (s.smeSlot n counts flips room).offSlot = s.rotated.offSlot := by
  unfold State.smeSlot
  dsimp only
  split
  · exact s.rotated.centreSweep_offSlot
  · next u path source =>
    have small := State.slotSource_lt source
    split
    · rfl
    · split
      · split
        · rfl
        · exact s.rotated.smeResult_offSlot _ _ _ _ _
      · exact s.rotated.smeBuffer_offSlot (by omega) _ _ _ _ _

/-- A spare slot without a re-centre, and the slot of a source that cannot deliver. -/
theorem State.smeSlot_skipped {s : State} (skips : (21 < s.trim.slot.toNat ∧ s.trim.recentre = [])
      ∨ (s.slotSource s.trim.slot.toNat).any (fun q => !s.smeReady q.1) = true)
    (n : Nat) (counts : List EyeCount) (flips : List (Fin 157)) (room : Bool) :
    s.smeSlot n counts flips room = s.rotated := by
  unfold State.smeSlot
  dsimp only
  split
  · next spare =>
    have quiet : s.rotated.trim.recentre = [] := by
      obtain ⟨-, quiet⟩ | ready := skips
      · exact quiet
      · simp [spare] at ready
    have sweep : s.rotated.centreSweep = s.rotated := by
      unfold State.centreSweep
      rw [quiet]
      rfl
    exact sweep
  · next u path source =>
    have busy : s.smeReady u = false := by
      obtain ⟨spare, -⟩ | ready := skips
      · rw [State.slotSource_spare spare] at source
        cases source
      · simpa [source] using ready
    rw [if_pos (by simp [busy])]
    rfl

end Sys2Proof.Machine

/-! SUPPORT. The steps of live trim (O44): what a tick takes from its queue, and a step that takes effect. -/

namespace Sys2Proof.Machine
open Sys2Proof

/-! ## The queue of a unit (R178) -/

theorem lt_of_nth_cons {α : Type} {l : List (List α)} {i : Nat} {h : α} {q : List α} (head : nth l i [] = h :: q) :
    i < l.length := by
  by_contra past
  simp [nth, List.getElem?_eq_none (Nat.le_of_not_lt past)] at head

section
variable {s : State} {u : Nat} {h : TrimStep} {q : List TrimStep}

theorem State.stepDue_head (head : nth s.trim.queues u [] = h :: q) (free : s.suspended u h.path = false) :
    s.stepDue u = some h := by
  unfold State.stepDue
  rw [head]
  exact List.find?_cons_of_pos (by simp [free])

theorem State.popStep_queue (head : nth s.trim.queues u [] = h :: q) : nth (s.popStep u h).trim.queues u [] = q := by
  have popped : nth (s.popStep u h).trim.queues u [] = (nth s.trim.queues u []).erase h :=
    nth_upd_self (lt_of_nth_cons head) _ _
  rw [popped, head]
  exact List.erase_cons_head ..

/-! ## A step that a tick takes (R178, R179) -/

/-- A step that leaves its entry's codes or its span. -/
def State.overEdge (s : State) (u : Nat) (h : TrimStep) : Bool :=
  stepEdge (s.trimVal u h.path h.entry) h.vref h.down
    || (!h.centre && s.beyond (s.trimVal u h.path h.entry) (s.trimRef u h.path h.entry) h.vref h.down)

theorem State.takeStep_refused (past : s.overEdge u h = true) : s.takeStep u h = (s.popStep u h).refuseStep u h :=
  if_pos past

theorem State.takeStep_pending (inside : s.overEdge u h = false) (receiver : u < 2)
    (idle : nth s.trim.placed u none = none) : s.takeStep u h = s.placeStep u h := by
  refine (if_neg (Bool.not_eq_true _ ▸ inside)).trans ((if_pos receiver).trans (if_neg ?_))
  simp [idle]

/-- A step staged in its buffer (R123). -/
def Db.staged (d : Db) (h : TrimStep) : Db := { d with stagePend := true, stageArmed := false, stage := stageCode h }

/-- The unit's step is staged in its buffer over the bus (R129). -/
def State.stageInBuffer (s : State) (u : Nat) (h : TrimStep) : State :=
  ((s.warrenAccess (u - 2) 0x024 ((stageCode h).setWidth 32) 0).placeStep u h).setDb (u - 2) (·.staged h)

theorem State.stageInBuffer_kept (s : State) (u : Nat) (h : TrimStep) : (s.stageInBuffer u h).trim = (s.placeStep u h).trim
    ∧ (s.stageInBuffer u h).dbcOn = s.dbcOn ∧ (s.stageInBuffer u h).dbs = upd s.dbs (u - 2) (·.staged h) := by
  refine ⟨rfl, ?_, rfl⟩
  unfold State.dbcOn State.pd3
  rfl

theorem State.takeStep_staged (inside : s.overEdge u h = false) (buffer : 2 ≤ u) (idle : (s.db (u - 2)).stagePend = false)
    (reached : s.reaches (u - 2) = true) : s.takeStep u h = s.stageInBuffer u h := by
  refine (if_neg (Bool.not_eq_true _ ▸ inside)).trans ((if_neg (by omega)).trans ((if_neg (by simp [idle])).trans ?_))
  rw [State.zlbTry_of_reaches reached]
  exact if_neg (by simp [reached])

/-- Live trim once it has refused a step of a unit. -/
def Trim.refuse (t : Trim) (u : Nat) : Trim :=
  { t with refused := satAdd t.refused 1, limit := t.limit ||| BitVec.ofNat 12 (2 ^ u) }

/-- A refused step is counted with its LIMIT bit; beside that it is reported. -/
theorem State.refuseStep_kept (s : State) (u : Nat) (h : TrimStep) : (s.refuseStep u h).trim = s.trim.refuse u
    ∧ (s.refuseStep u h).train = s.train ∧ (s.refuseStep u h).dbs = s.dbs := by
  have faulted (e : Evt) (c i : Nat) : ∃ f, State.fault { s with trim := s.trim.refuse u, evt := e } c i 1 =
      { s with trim := s.trim.refuse u, evt := e, flt := f } := State.fault_form _ c i 1
  obtain ⟨e, raised⟩ := State.raise_unlatched { s with trim := s.trim.refuse u } (n := 22) (by decide) (by decide)
    (BitVec.ofNat 24 u)
  unfold Trim.refuse at raised faulted
  unfold State.refuseStep
  dsimp only
  split
  · exact ⟨rfl, rfl, rfl⟩
  · rw [raised]
    split
    · obtain ⟨f, lane⟩ := faulted e 2 u
      rw [lane]
      exact ⟨rfl, rfl, rfl⟩
    · obtain ⟨f, lane⟩ := faulted e 1 (2 * (u - 2) + h.entry / 4)
      rw [lane]
      exact ⟨rfl, rfl, rfl⟩

theorem getLsbD_limitBit (m : BitVec 12) (u : Fin 12) : (m ||| BitVec.ofNat 12 (2 ^ u.val)).getLsbD u = true := by
  rw [BitVec.getLsbD_or, BitVec.getLsbD_ofNat, Nat.testBit_two_pow_self, decide_eq_true u.isLt]
  simp

/-! ## TRIM_APPLY of a tick (R123) -/

/-- A buffer's tick sends TRIM_APPLY on its subchannel. -/
def State.tickSend (s : State) (u : Nat) : State := if 2 ≤ u then s.trimApply (trimSub u) else s

theorem State.tickSend_form (s : State) (u : Nat) : s.tickSend u = { s with dbs := (s.tickSend u).dbs } := by
  unfold State.tickSend
  split
  · exact s.dbcCmd_form _ _
  · rfl

theorem State.tickSend_kept (s : State) (u : Nat) : (s.tickSend u).trim = s.trim ∧ (s.tickSend u).train = s.train :=
  ⟨(congrArg State.trim (s.tickSend_form u) :), (congrArg State.train (s.tickSend_form u) :)⟩

theorem State.tickSend_taps (s : State) (u n : Nat) : ((s.tickSend u).db n).taps = (s.db n).taps := by
  unfold State.tickSend
  split
  · exact s.dbcCmd_db_kept _ Db.taps (fun _ => rfl) n
  · rfl

theorem State.tickSend_receiver (receiver : u < 2) : s.tickSend u = s := if_neg (by omega)

theorem State.tickSend_buffer (on : s.dbcOn = true) (buffer : 2 ≤ u) (hu : u < 12) (present : u - 2 < s.dbs.length) :
    (s.tickSend u).db (u - 2) = { s.db (u - 2) with stageArmed := (s.db (u - 2)).stagePend } := by
  have own : trimSub u = if u - 2 < 5 then Sub.a else .b := (if_neg (by omega)).trans (if_neg (by omega))
  obtain ⟨-, heard⟩ := s.dbcCmd_eachDb on (trimSub u) .trimApply
  unfold State.tickSend
  rw [if_pos buffer]
  exact (heard (u - 2)).trans (if_pos ⟨present, by omega, own.symm⟩)

theorem State.centreEnd_of_none (none_runs : s.trim.recentre = []) (u : Nat) : s.centreEnd u = s := by
  unfold State.centreEnd
  rw [none_runs]
  rfl

/-! ## TRIM_TICK (R178, R180) -/

theorem State.trimTick_step (on : s.trimOn u = true) (idle : s.calRun (trimCal u) = none) (due : s.stepDue u = some h) :
    s.trimTick u = ((s.takeStep u h).tickSend u).centreEnd u := by
  unfold State.trimTick
  rw [if_neg (by simp [on])]
  simp only [idle, due]
  rfl

/-- A unit under calibration keeps its steps; only TRIM_APPLY goes out. -/
theorem State.trimTick_busy (busy : s.calRun (trimCal u) ≠ none) : s.trimTick u = s ∨ s.trimTick u = s.tickSend u := by
  have isSome : (s.calRun (trimCal u)).isSome = true := Option.isSome_iff_ne_none.mpr busy
  unfold State.trimTick
  split
  · exact Or.inl rfl
  · right
    simp only [isSome, if_true]
    rfl

/-! ## A step that takes effect (R147, R178) -/

theorem State.drift_trim (s : State) (u path entry : Nat) (now : TapSt) : (s.drift u path entry now).trim = s.trim := by
  unfold State.drift State.driftCheck
  split
  · split
    · obtain ⟨l, -, owed⟩ := State.recOwed_form { s with train := { s.train with drifted := true } }
      rw [owed]
    · rfl
  · rfl

theorem State.countStep_trim (s : State) (u : Nat) : (s.countStep u).trim.applied = satAdd s.trim.applied 1
    ∧ (s.countStep u).trim.placed = s.trim.placed := by
  unfold State.countStep
  dsimp only
  split <;> exact ⟨rfl, rfl⟩

/-- The step is counted and stands no longer. -/
theorem State.stepTaken_trim (placed : nth s.trim.placed u none = some h) :
    (s.stepTaken u).trim.applied = satAdd s.trim.applied 1 ∧ nth (s.stepTaken u).trim.placed u none = none := by
  unfold State.stepTaken
  rw [placed]
  obtain ⟨applied, kept⟩ := State.countStep_trim (State.drift { s with
    trim := { s.trim with placed := upd s.trim.placed u (fun _ => none) } } u h.path h.entry
    (State.trimVal { s with trim := { s.trim with placed := upd s.trim.placed u (fun _ => none) } } u h.path h.entry)) u
  rw [State.drift_trim] at applied kept
  refine ⟨applied, ?_⟩
  rw [kept]
  exact nth_upd_none _ _

end

/-! ## The rows of live trim (R178) -/

section
variable {s : State} {h : TrimStep} {q : List TrimStep}

theorem exec_trimTick {u : Fin 12} (up : s.up = true) (on : s.trimOn u = true) (idle : s.calRun (trimCal u) = none)
    (head : nth s.trim.queues u [] = h :: q) (free : s.suspended u h.path = false) {t : State} (takes : s.takeStep u h = t)
    (steady : t.trim.recentre = []) : exec (.trimTick u) s = .next (t.tickSend u) := by
  have quiet : (t.tickSend u).trim.recentre = [] := by
    rw [(t.tickSend_kept u).1]
    exact steady
  refine congrArg Host.Outcome.next ((if_pos up).trans ?_)
  rw [State.trimTick_step on idle (State.stepDue_head head free), takes, State.centreEnd_of_none quiet]

/-- A receiver's entry moved by its step. -/
def State.caStepped (s : State) (x : Sub) (h : TrimStep) : State :=
  s.setTr x (fun r => { r with
    ca := upd r.ca h.entry (fun _ => (nth (s.tr x).ca h.entry ⟨64, 60⟩).step h.vref h.down) })

/-- A receiver's pending step takes effect (R178). -/
theorem exec_caTrimStepApply {x : Sub} (up : s.up = true) (hck : s.clk.hckOk = true) (idle : s.calRun 0 = none)
    (placed : nth s.trim.placed (subNo x) none = some h) : exec (.caTrimStepApply x) s =
      .next ((s.caStepped x h).stepTaken (subNo x)) := by
  refine congrArg Host.Outcome.next ((if_pos up).trans ?_)
  have value : s.trimVal (subNo x) 0 h.entry = nth (s.tr x).ca h.entry ⟨64, 60⟩ := by cases x <;> rfl
  unfold State.caApply
  simp only [placed, idle, hck, value]
  rfl

theorem TapSt.step_eq (t : TapSt) (vref down : Bool) : t.step vref down =
    if vref then { t with vref := BitVec.ofNat 7 (if down then t.vref.toNat - 1 else min 120 (t.vref.toNat + 1)) }
    else { t with tap := BitVec.ofNat 7 (if down then t.tap.toNat - 1 else min 127 (t.tap.toNat + 1)) } := by
  cases vref <;> cases down <;> rfl

theorem State.RecOnly.tr {t : State} (noted : s.RecOnly t) (x : Sub) : t.tr x = s.tr x := by
  rw [noted]
  cases x <;> rfl

end

/-! ## The obligation -/

/-- Settles O44: a slot is `State.rotated` and what it measures (`State.smeSlot_offSlot`); a tick takes the head of its queue
(`exec_trimTick`) and refuses, places or stages it; a step that takes effect is counted (`State.stepTaken_trim`). -/
theorem liveTrim : Obligations.LiveTrim := by
  unfold Obligations.LiveTrim
  refine ⟨fun n counts flips room s up => ?slot, fun u h q s up on idle head free steady => ?tick, fun u s up busy => ?busy,
    fun x h s up hck idle placed small => ?receiver, fun n h s on pend armed dbs placed => ?buffer⟩
  case slot =>
    obtain ⟨slot, frame, applied, refused, kept, form⟩ := State.kept_of_offSlot (s.smeSlot_offSlot n counts flips room)
    obtain ⟨next, count⟩ := s.rotated_trim
    refine ⟨_, congrArg Host.Outcome.next (if_pos up), slot.trans next, frame.trans count, fun skips => ?_, applied, refused,
      kept, form⟩
    rw [State.smeSlot_skipped skips]
    rfl
  case tick =>
    refine ⟨fun past => ?refused, fun edge span receiver none_placed present => ?pending,
      fun edge span buffer none_staged reached dbc dbs present => ?staged⟩
    case refused =>
      have past : s.overEdge u h = true := by
        simpa [State.overEdge] using past
      obtain ⟨trim, train, dbs⟩ := (s.popStep u h).refuseStep_kept u h
      obtain ⟨sentTrim, sentTrain⟩ := ((s.popStep u h).refuseStep u h).tickSend_kept u
      have row := exec_trimTick up on idle head free (State.takeStep_refused past) (by rw [trim]; exact steady)
      refine ⟨_, row, ?_, ?_, ?_, ?_, ?_, sentTrain.trans train, fun receiver => ?alone, fun n => ?taps⟩
      case alone => exact (congrArg State.dbs (State.tickSend_receiver receiver)).trans dbs
      case taps => exact (State.tickSend_taps _ u n).trans (congrArg (fun l => (nth l n Db.fresh).taps) dbs)
      all_goals rw [sentTrim, trim]
      · exact State.popStep_queue head
      · rfl
      · exact getLsbD_limitBit _ u
      · rfl
      · rfl
    case pending =>
      have inside : s.overEdge u h = false := by simp [State.overEdge, edge, span]
      have row := exec_trimTick up on idle head free (State.takeStep_pending inside receiver none_placed) steady
      rw [State.tickSend_receiver receiver] at row
      exact ⟨_, row, State.popStep_queue head, nth_upd_self present _ _, rfl⟩
    case staged =>
      have inside : s.overEdge u h = false := by simp [State.overEdge, edge, span]
      have small : u.val - 2 < s.dbs.length := by omega
      obtain ⟨placed, hears, staged⟩ := s.stageInBuffer_kept u h
      have row := exec_trimTick up on idle head free (State.takeStep_staged inside buffer none_staged reached)
        (by rw [placed]; exact steady)
      have entry : (s.stageInBuffer u h).db (u - 2) = (s.db (u - 2)).staged h := by
        rw [State.db, staged]
        exact nth_upd_self small _ _
      have sent := State.tickSend_buffer (s := s.stageInBuffer u h) (hears.trans dbc) buffer u.isLt
        (by rw [staged]; simpa [upd] using small)
      obtain ⟨trim, -⟩ := (s.stageInBuffer u h).tickSend_kept u
      rw [entry] at sent
      refine ⟨_, row, ?_, ?_, ?_, ?_, ?entry⟩
      case entry =>
        rw [sent]
        exact ⟨rfl, rfl, rfl, rfl⟩
      all_goals rw [trim, placed]
      · exact State.popStep_queue head
      · exact nth_upd_self present _ _
      · rfl
      · rfl
  case busy =>
    obtain same | sent := State.trimTick_busy busy
    · exact ⟨s, congrArg Host.Outcome.next ((if_pos up).trans same), rfl, rfl, fun _ => rfl⟩
    · obtain ⟨trim, train⟩ := s.tickSend_kept u
      exact ⟨_, congrArg Host.Outcome.next ((if_pos up).trans sent), trim, train, s.tickSend_taps u⟩
  case receiver =>
    have noted := (s.caStepped x h).stepTaken_recOnly (subNo x)
    have trim : (s.caStepped x h).trim = s.trim := s.setTr_trim x _
    obtain ⟨counted, gone⟩ := State.stepTaken_trim (by rw [trim]; exact placed)
    have stepped := (noted.tr x).trans (s.setTr_tr x _)
    have entries := congrArg TrainSub.ca stepped
    refine ⟨_, exec_caTrimStepApply up hck idle placed, gone, ?_, ?_, fun e other => ?_, ?_, ?_, ?_, ?_⟩
    · rw [counted, trim]
    · rw [entries, nth_upd_self small, TapSt.step_eq]
    · rw [entries, nth_upd_ne _ other]
    · rw [stepped]
    · exact noted.dbs.trans (s.setTr_dbs x _)
    · rw [noted]
      exact s.setTr_subA x _
    · rw [noted]
      exact s.setTr_subB x _
  case buffer =>
    obtain ⟨entry, -⟩ := State.stepApplied_kept (s := s) (n := n) (by omega) armed pend (n + 2)
    obtain ⟨refs, applied⟩ := State.applyStage_form armed pend
    have standing : nth (s.applyStage n).trim.placed (n + 2) none = some h := by
      rw [applied]
      exact placed
    have trim : (s.applyStage n).trim = s.trim := by rw [applied]
    obtain ⟨counted, gone⟩ := State.stepTaken_trim standing
    rw [trim] at counted
    refine ⟨_, exec_trimStepApply on armed pend, gone, counted, ?_, ?_⟩
    · rw [entry]
      rfl
    · rw [entry]
      rfl

end Sys2Proof.Machine

/-! SUPPORT. The image load (O46): the registers that start, feed and abort it, what it leaves of the two firmware slots, and
how it ends. -/

namespace Sys2Proof.Machine
open Sys2Proof

/-! ## The two slots of a region (R186) -/

/-- One slot of the pair: B where `b` is set. -/
def Slots.pick {β : Type} (x : Slots β) (b : Bool) : Option (Held β) := if b then x.b else x.a

section
variable {β : Type} (x : Slots β) (b : Bool)

theorem Slots.pick_wipe (raw : Bool) : (x.wipe b raw).pick b = none := by
  cases b <;> rfl

theorem Slots.pick_wipe_not (raw : Bool) : (x.wipe (!b) raw).pick b = x.pick b := by
  cases b <;> rfl

theorem Slots.pick_put (h : Held β) : (x.put b h).pick b = some h := by
  cases b <;> rfl

theorem Slots.pick_not : x.pick (!b) = if b then x.a else x.b := by
  cases b <;> rfl

theorem Slots.pick_put_not (h : Held β) : (x.put b h).pick (!b) = x.pick (!b) := by
  cases b <;> rfl

end

/-! ## The registers of a load (R200) -/

/-- NVS_IMG_CTRL where it is open. -/
def nvsImgCtrlReg (s : State) : RegDef :=
  { flds := [Fld.rng 8 0 (fun x => 1 ≤ x && x ≤ 447 && s.nvs.img.isNone && !s.gated), ⟨31, 16, .wo, false, (· == 0x1A0D)⟩]
    read := s.nvs.imgKib.setWidth 32
    write := fun x s => s.imgStart (fld x 8 0) }

/-- NVS_IMG_DATA where it is open. -/
def nvsImgDataReg (s : State) : RegDef :=
  { flds := [⟨31, 0, .wo, false, fun _ => s.imgSpace != 0⟩], read := 0, write := fun x s => s.imgData x }

section
variable {s : State} (settings : s.regOn .settingsWrite = true) (p : Path)
include settings

theorem hubReg_nvsCmd : hubReg p 0x2010 s = some nvsCmdReg := by
  change nvsReg p 0x2010 s = some nvsCmdReg
  simp [nvsReg, settings, nvsCmdReg]

theorem hubReg_nvsImgCtrl : hubReg p 0x2030 s = some (nvsImgCtrlReg s) := by
  change nvsReg p 0x2030 s = some (nvsImgCtrlReg s)
  simp [nvsReg, settings, nvsImgCtrlReg]

theorem hubReg_nvsImgData : hubReg p 0x2038 s = some (nvsImgDataReg s) := by
  change nvsReg p 0x2038 s = some (nvsImgDataReg s)
  simp [nvsReg, settings, nvsImgDataReg]

end

/-- The key of a load beside its size in KiB sets no reserved bit. -/
theorem imgKey_fits {kib : Nat} (small : kib < 512) : (0x1A0D0000 + kib) ||| 0xFFFF01FF = 0xFFFF01FF := by
  have parts : 0x1A0D0000 + kib = 0x1A0D0000 ||| kib :=
    Nat.two_pow_add_eq_or_of_lt (i := 16) (b := kib) (by omega) 0x1A0D
  have low : kib ||| 0xFFFF01FF = 0xFFFF01FF := or_mask_of_lt (k := 9) small (by decide)
  rw [parts, Nat.or_assoc, low]
  rfl

theorem imgKey_fld {kib : Nat} (small : kib < 512) : fld (BitVec.ofNat 32 (0x1A0D0000 + kib)) 8 0 = kib
    ∧ fld (BitVec.ofNat 32 (0x1A0D0000 + kib)) 31 16 = 0x1A0D := by
  simp only [fld, BitVec.toNat_ofNat, Nat.shiftRight_eq_div_pow]
  omega

theorem nvsImgCtrlReg_allows {s : State} (idle : s.nvs.img = none) (opened : s.gated = false) {kib : Nat} (lo : 1 ≤ kib)
    (hi : kib ≤ 447) : (nvsImgCtrlReg s).allows (BitVec.ofNat 32 (0x1A0D0000 + kib)) = true := by
  have mask : (nvsImgCtrlReg s).fieldMask = 0xFFFF01FF := by
    simp [RegDef.fieldMask, nvsImgCtrlReg, Fld.rng, Fld.mask]
  have value : (BitVec.ofNat 32 (0x1A0D0000 + kib)).toNat = 0x1A0D0000 + kib := by
    rw [BitVec.toNat_ofNat]
    omega
  obtain ⟨size, key⟩ := imgKey_fld (kib := kib) (by omega)
  simp only [RegDef.allows, mask, value, imgKey_fits (kib := kib) (by omega)]
  simp [nvsImgCtrlReg, Fld.rng, Fld.writable, size, key, idle, opened, lo, hi]

theorem nvsImgDataReg_allows (s : State) (v : Word) : (nvsImgDataReg s).allows v = (s.imgSpace != 0) := by
  have mask : (nvsImgDataReg s).fieldMask = 0xFFFFFFFF := by simp [RegDef.fieldMask, nvsImgDataReg, Fld.mask]
  have fits : v.toNat ||| 0xFFFFFFFF = 0xFFFFFFFF := (or_lowMask_iff (k := 32)).mpr v.isLt
  have writable : (Access.wo != Access.ro) = true := rfl
  simp only [RegDef.allows, mask, fits]
  simp [nvsImgDataReg, Fld.writable, writable]

/-- Space is shown while words are left. -/
theorem State.imgSpace_ne_zero {s : State} {i : ImgLoad} (loading : s.nvs.img = some i) :
    (s.imgSpace != 0) = decide (i.count < i.kib * 256) := by
  rw [Bool.eq_iff_iff]
  simp only [State.imgSpace, loading, ImgLoad.left, bne_iff_ne, decide_eq_true_eq]
  omega

section
variable {s : State} (up : s.up = true) (res : s.nvs.rescue = false) (settings : s.regOn .settingsWrite = true) (p : Path)
include up res settings

theorem State.hubWrite_nvsImgCtrl (idle : s.nvs.img = none) (opened : s.gated = false) {kib : Nat} (lo : 1 ≤ kib)
    (hi : kib ≤ 447) : s.hubWrite p 0x2030 (BitVec.ofNat 32 (0x1A0D0000 + kib)) = s.imgStart kib := by
  have reg := (State.reg_of_up up res p 0x2030).trans (hubReg_nvsImgCtrl settings p)
  obtain ⟨size, -⟩ := imgKey_fld (kib := kib) (by omega)
  rw [State.hubWrite_of_allowed reg (nvsImgCtrlReg_allows idle opened lo hi), RegDef.put_of_not_kept rfl,
    RegDef.merge_of_roMask rfl]
  exact congrArg s.imgStart size

theorem State.hubWrite_nvsImgData (v : Word) :
    s.hubWrite p 0x2038 v = if s.imgSpace != 0 then s.imgData v else s := by
  have reg := (State.reg_of_up up res p 0x2038).trans (hubReg_nvsImgData settings p)
  have allows := nvsImgDataReg_allows s v
  cases space : s.imgSpace != 0 with
  | false => exact State.hubWrite_of_disallowed reg (allows.trans space)
  | true =>
    rw [State.hubWrite_of_allowed reg (allows.trans space), RegDef.put_of_not_kept rfl, RegDef.merge_of_roMask rfl]
    rfl

theorem State.put_abortImage : s.put p 0x2010 0x9E570002 = s.imgFail 5 := by
  have reg := (State.reg_of_up up res p 0x2010).trans (hubReg_nvsCmd settings p)
  have allowed : nvsCmdReg.allows (BitVec.ofNat 32 0x9E570002) = true := by decide
  rw [State.put, State.hubWrite_of_allowed reg allowed, RegDef.put_of_not_kept rfl, RegDef.merge_of_roMask rfl]
  rfl

end

/-! ## What a load does (R200) -/

/-- A load starts with the slot not booted programmed no further than its erase. -/
theorem State.imgStart_form (s : State) (kib : Nat) : ∃ w l, s.imgStart kib =
    { s with
      nv := { s.nv with fw := s.nv.fw.wipe (!s.slotUse 2) true }
      nvs := { s.nvs with
        wear := w, bus := l, img := some ⟨kib, [], 0⟩, imgKib := BitVec.ofNat 9 kib, imgDone := false
        imgReject := false, imgReason := 0, imgTarget := !s.slotUse 2 } } := by
  obtain ⟨w, l, erased⟩ := s.eraseSlot_form 2 (!s.slotUse 2)
  have wiped : ((s.eraseSlot 2 (!s.slotUse 2)).wipeSlot 2 (!s.slotUse 2) true).nv
      = (s.wipeSlot 2 (!s.slotUse 2) true).nv := by
    rw [← s.wipeSlot_wipeSlot 2 (!s.slotUse 2) false true]
    exact State.wipeSlot_nv_congr (s.eraseSlot_nv _ _) _ _ _
  have own : (s.eraseSlot 2 (!s.slotUse 2)).wipeSlot 2 (!s.slotUse 2) true
      = { s.eraseSlot 2 (!s.slotUse 2) with nv := (s.wipeSlot 2 (!s.slotUse 2) true).nv } := by
    rw [← wiped]
    rfl
  unfold State.imgStart
  dsimp only
  rw [own, erased]
  exact ⟨w, l, rfl⟩

section
variable {s : State} {i : ImgLoad} (loading : s.nvs.img = some i)
include loading

/-- A word is taken; the last of a page sends it over the bus. -/
theorem State.imgData_form (room : i.count < i.kib * 256) (v : Word) : ∃ l, s.imgData v =
    { s with
      nvs := { s.nvs with img := some ⟨i.kib, v :: i.words, i.count + 1⟩, bus := l }
      pool := if (i.count + 1) % 64 = 0 then s.pool.brief .w9 else s.pool } := by
  have left : i.left ≠ 0 := by
    rw [ImgLoad.left]
    omega
  unfold State.imgData
  simp only [loading, if_neg left]
  by_cases page : (i.count + 1) % 64 = 0
  · simp only [if_pos page]
    exact ⟨_, rfl⟩
  · simp only [if_neg page]
    exact ⟨s.nvs.bus, rfl⟩

theorem State.imgFail_of_loading (reason : BitVec 3) :
    s.imgFail reason = { s with nvs := { s.nvs with img := none, imgReject := true, imgReason := reason } } :=
  if_neg (by simp [loading])

theorem State.imgEnd_of_gated (shut : s.gated = true) (verified : Bool) : s.imgEnd verified = s.imgFail 4 := by
  simp only [State.imgEnd, loading, shut, if_true]

theorem State.imgEnd_of_left (opened : s.gated = false) (room : i.count < i.kib * 256) (verified : Bool) :
    s.imgEnd verified = s := by
  have left : (i.left != 0) = true := by
    rw [ImgLoad.left, bne_iff_ne]
    omega
  simp only [State.imgEnd, loading, opened, left, Bool.false_eq_true, if_false, if_true]

end

/-- The REASON that a complete load ends with; 0: it is good. -/
def State.imgVerdict (s : State) (body : List Byte) (verified : Bool) : BitVec 3 :=
  if crc32c body ≠ s.nvs.imgCrc then 1
  else if bodyNat body 0 2 ≠ 0x0A38 ∨ (nth body 2 0).getLsbD 2 = false then 2
  else if verified && genOk (s.nextGen 2).toNat then 0 else 3

theorem State.imgEnd_of_complete {s : State} {i : ImgLoad} (loading : s.nvs.img = some i) (opened : s.gated = false)
    (complete : i.kib * 256 ≤ i.count) (verified : Bool) : s.imgEnd verified =
      if s.imgVerdict i.bytes verified = 0 then s.imgGood i.bytes else s.imgFail (s.imgVerdict i.bytes verified) := by
  have left : (i.left != 0) = false := by
    rw [ImgLoad.left, bne_eq_false_iff_eq]
    omega
  simp only [State.imgEnd, loading, opened, left, Bool.false_eq_true, if_false]
  unfold State.imgVerdict
  by_cases crc : crc32c i.bytes = s.nvs.imgCrc
  · by_cases part : bodyNat i.bytes 0 2 ≠ 0x0A38 ∨ (nth i.bytes 2 0).getLsbD 2 = false
    · rw [if_neg (by simp [crc]), if_pos (by simpa using part), if_neg (not_not.mpr crc), if_pos part]
      rfl
    · rw [if_neg (by simp [crc]), if_neg (by simpa using part), if_neg (not_not.mpr crc), if_neg part]
      cases verified <;> cases genOk (s.nextGen 2).toNat <;> rfl
  · rw [if_pos (bne_iff_ne.mpr crc), if_pos crc]
    rfl

/-- The header of a good load beside what boot reads of its body. -/
def State.imgHeld (s : State) (body : List Byte) : Held FwBody :=
  ⟨mkHdr 2 (s.nextGen 2).toNat body.length (if s.nvs.imgTarget then (s.wear 2).2 else (s.wear 2).1) 0 (crc32c body), fwOf body⟩

/-- The header carries the next generation over a body that reads back good. -/
theorem State.imgHeld_reads (s : State) (body : List Byte) :
    ((s.imgHeld body).hdr.gen, (s.imgHeld body).hdr.bodyOk, (s.imgHeld body).body) = (s.nextGen 2, true, fwOf body) := by
  simp [State.imgHeld, mkHdr, SlotHdr.bodyOk]

/-- A good load outside rescue mode: the target's header, DONE, its failed boots forgotten, and EV36. -/
theorem State.imgGood_form {s : State} (res : s.nvs.rescue = false) (body : List Byte) : ∃ l e, s.imgGood body =
    { s with
      nv := { s.nv with fw := s.nv.fw.put s.nvs.imgTarget (s.imgHeld body) }
      nvs := { s.nvs with img := none, imgDone := true, imgReason := 0, bus := l }
      pow := { s.pow with failedBoots := upd s.pow.failedBoots s.nvs.imgTarget.toNat (fun _ => 0) }
      evt := e } := by
  unfold State.imgGood
  dsimp only
  generalize hu : ({ s.nvsIssue _ with nv := _, nvs := _, pow := _ } : State) = u
  obtain ⟨e, raised⟩ := u.raise_unlatched (n := 36) (by omega) (by omega) (BitVec.ofNat 24 s.nvs.imgTarget.toNat)
  have normal : u.nvs.rescue = false := by
    rw [← hu]
    exact res
  rw [raised, if_neg (by simp [normal]), ← hu]
  exact ⟨_, e, rfl⟩

/-! ## The obligation -/

/-- Settles O46: a load starts as `State.imgStart_form` says, takes words as `State.imgData_form` does, and once complete
ends by `State.imgVerdict`, with `State.imgGood_form` where that is 0. -/
theorem imageLoad : Obligations.ImageLoad := by
  unfold Obligations.ImageLoad
  refine ⟨fun p kib s up res settings opened idle lo hi => ?starts, fun p v i s up res settings loading =>
    ⟨fun room => ?takes, fun complete => ?full, ?aborts⟩, fun i verified s up loading =>
    ⟨fun opened room => ?waits, fun shut => ?gated, fun opened complete =>
      ⟨s.imgVerdict i.bytes verified, rfl, fun bad => ?rejects, fun good res => ?accepts⟩⟩⟩
  case starts =>
    obtain ⟨w, l, started⟩ := s.imgStart_form kib
    exact ⟨_, congrArg Host.Outcome.next ((State.hubWrite_nvsImgCtrl up res settings p idle opened lo hi).trans started),
      rfl, rfl, rfl, rfl, Slots.pick_wipe _ _ _, Slots.pick_wipe_not _ _ _, rfl⟩
  case takes =>
    obtain ⟨l, taken⟩ := State.imgData_form loading room v
    have written := State.hubWrite_nvsImgData up res settings p v
    rw [State.imgSpace_ne_zero loading, if_pos (decide_eq_true room), taken] at written
    exact ⟨_, congrArg Host.Outcome.next written, rfl⟩
  case full =>
    refine congrArg Host.Outcome.next ((State.hubWrite_nvsImgData up res settings p v).trans ?_)
    rw [State.imgSpace_ne_zero loading, if_neg (by simpa using complete)]
  case aborts =>
    exact congrArg Host.Outcome.next ((State.put_abortImage up res settings p).trans (State.imgFail_of_loading loading 5))
  case waits => exact next_of_up up (State.imgEnd_of_left loading opened room verified)
  case gated =>
    exact next_of_up up ((State.imgEnd_of_gated loading shut verified).trans (State.imgFail_of_loading loading 4))
  case rejects =>
    refine next_of_up up ((State.imgEnd_of_complete loading opened complete verified).trans ?_)
    rw [if_neg bad]
    exact State.imgFail_of_loading loading _
  case accepts =>
    obtain ⟨l, e, done⟩ := State.imgGood_form res i.bytes
    have ended := (State.imgEnd_of_complete loading opened complete verified).trans ((if_pos good).trans done)
    refine ⟨_, next_of_up up ended, rfl, ?_, ?_, rfl, fun two => nth_upd_self ?_ _ _⟩
    · have stored := Slots.pick_put s.nv.fw s.nvs.imgTarget (s.imgHeld i.bytes)
      exact (congrArg (Option.map _) stored).trans (congrArg some (s.imgHeld_reads i.bytes))
    · have other := Slots.pick_put_not s.nv.fw s.nvs.imgTarget (s.imgHeld i.bytes)
      rwa [Slots.pick_not, Slots.pick_not] at other
    · rw [two]
      exact Bool.toNat_lt _

end Sys2Proof.Machine

/-! SUPPORT. A power cut (O7): what a keep-pack test that PFAIL ends may write, and the island as Curl begins. -/

namespace Sys2Proof.Machine
open Sys2Proof

/-! ## The report of a keep-pack test (R270, R271) -/

/-- The report of a test stops the draw from the bank and lets the charger follow; it is a record of the fault ring and EV46,
and of the island it reaches the latch at most. -/
theorem State.packReport_form (s : State) (c esr outcome : Nat) : ∃ f g n l e q, s.packReport c esr outcome = { s with
    flt := f, zxp := { s.zxp with convCurrent := false, chg := g, chgPlant := s.zxp.plant }, nvs := n
    pow := { s.pow with latched := l }, evt := e, pool := q } := by
  unfold State.packReport
  dsimp only
  split
  · obtain ⟨n, l, e, q, recorded⟩ := State.faultRecord_form (State.charger { s with
      flt := { s.flt with test := { s.flt.test with due := false, busy := false, outcome := BitVec.ofNat 2 outcome } }
      zxp := { s.zxp with convCurrent := false } }) _
    rw [recorded]
    obtain ⟨l', e', raised⟩ := State.raise_form _ 46 (BitVec.ofNat 24 outcome)
    rw [raised]
    exact ⟨_, _, n, l', e', q, rfl⟩
  · obtain ⟨l, e, raised⟩ := State.raise_form _ 46 (BitVec.ofNat 24 outcome)
    rw [raised]
    exact ⟨_, _, s.nvs, l, e, s.pool, rfl⟩

/-! ## A falling edge of PFAIL_n (R207, R211, R215) -/

/-- Curl begins in what `State.curlEnter` makes of the stopped set: a keep-pack test that ends with it and EV24 touch the fault
unit, the charger, the logs and the island's latch alone. -/
theorem State.curlStart_form (s : State) (bankOk : Bool) : ∃ f v g p n l e q,
    let u := s.curlStop.curlEnter bankOk
    s.curlStart bankOk = { u with
      flt := f, zxp := { u.zxp with convCurrent := v, chg := g, chgPlant := p }, nvs := n
      pow := { u.pow with latched := l }, evt := e, pool := q } := by
  unfold State.curlStart
  generalize s.curlStop.curlEnter bankOk = u
  dsimp only
  split
  case isTrue testing =>
    obtain ⟨f, g, n, l, e, q, reported⟩ := u.packReport_form 0 0 2
    have ended : u.packEnd .noResult = u.packReport 0 0 2 := if_pos testing
    obtain ⟨l', e', raised⟩ := (u.packEnd .noResult).raise_form 24 0
    rw [raised, ended, reported]
    exact ⟨f, false, g, _, n, l', e', q, rfl⟩
  case isFalse =>
    obtain ⟨l, e, raised⟩ := u.raise_form 24 0
    rw [raised]
    exact ⟨u.flt, u.zxp.convCurrent, u.zxp.chg, u.zxp.chgPlant, u.nvs, l, e, u.pool, rfl⟩

/-- The queue and the module are those before what PFAIL stops. -/
theorem State.pfailNote_curlStop_kept (s : State) (bankOk : Bool) :
    (s.pfailNote bankOk).curlStop.pending = s.pending ∧ (s.pfailNote bankOk).curlStop.modl = s.modl := by
  obtain ⟨noted, notedModl, -⟩ := s.pfailNote_keeps bankOk
  obtain ⟨stopped, stoppedModl, -⟩ := (s.pfailNote bankOk).curlStop_moves
  exact ⟨stopped.trans noted, stoppedModl.trans notedModl⟩

/-- PFAIL_n falls in a state in which that begins Curl (R211). -/
def State.curlEdge (s : State) : Bool :=
  !s.pow.pfailLow && (s.pow.dom == .boot || s.pow.dom == .run || s.pow.dom == .restore || s.pow.dom == .wake)

theorem State.curlEdge_iff (s : State) : s.curlEdge = true ↔
    s.pow.pfailLow = false ∧ (s.pow.dom = .boot ∨ s.pow.dom = .run ∨ s.pow.dom = .restore ∨ s.pow.dom = .wake) := by
  simp [State.curlEdge, or_assoc]

theorem State.pfail_eq (s : State) (bankOk : Bool) : s.pfail bankOk =
    if s.curlEdge then (s.pfailNote bankOk).curlStart bankOk else s.pfailNote bankOk := rfl

/-- Without such an edge the module is held by the bank in CURL and COMMIT_HOLD alone (R215). -/
theorem State.pfailNote_convOn {s : State} (none : s.curlEdge = false) (bankOk : Bool) : (s.pfailNote bankOk).zxp.convOn =
    (s.zxp.convOn || (!s.pow.pfailLow && (s.pow.dom == .curl || s.pow.dom == .commitHold) && s.modl.zxpFitted && bankOk)) := by
  simp only [State.curlEdge, Bool.and_eq_false_iff, Bool.or_eq_false_iff, Bool.not_eq_false'] at none
  rcases none with low | ⟨⟨⟨boot, run⟩, restore⟩, wake⟩
  · simp [State.pfailNote, State.charger, low]
  · simp [State.pfailNote, State.charger, boot, run, restore, wake]

/-- Settles O7: an edge begins Curl as `State.curlStart_form` says, and everything else is `State.pfailNote`, in which of the
states that hold the module only CURL and COMMIT_HOLD are left. -/
theorem powerFail : Obligations.PowerFail := by
  unfold Obligations.PowerFail
  intro bankOk s on
  have falls : exec (.pfail bankOk) s = .next (s.pfail bankOk) :=
    congrArg Host.Outcome.next (if_neg fun h => on (beq_iff_eq.mp h))
  rw [falls]
  refine ⟨fun edge => ⟨_, rfl, ?curl⟩, fun stays => ⟨_, rfl, ?noted⟩⟩
  case curl =>
    obtain ⟨f, v, g, p, n, l, e, q, begun⟩ := (s.pfailNote bankOk).curlStart_form bankOk
    obtain ⟨pending, modl⟩ := s.pfailNote_curlStop_kept bankOk
    rw [State.pfail_eq, if_pos (s.curlEdge_iff.mpr edge), begun]
    generalize (s.pfailNote bankOk).curlStop = u at pending modl
    rw [← pending, ← modl]
    exact ⟨rfl, rfl, rfl, rfl, rfl, rfl, rfl, rfl, rfl, rfl, rfl, rfl, rfl, rfl⟩
  case noted =>
    have none : s.curlEdge = false := Bool.eq_false_iff.mpr fun h => by
      obtain ⟨high, serves⟩ := s.curlEdge_iff.mp h
      rcases stays with low | other
      · rw [high] at low
        cases low
      · exact other serves
    rw [State.pfail_eq, if_neg (by simp [none])]
    refine ⟨rfl, ?_, rfl⟩
    rw [← State.pfailNote_convOn none]
    rfl

end Sys2Proof.Machine

/-! SUPPORT. The outcome of Curl and of COMMIT_HOLD (O8). -/

namespace Sys2Proof.Machine
open Sys2Proof

/-! ## HOLD from any domain state (R207) -/

/-- The island in HOLD as it is entered, whatever the domain state was: a RESTORE that PD2 takes with it only moves domains
that DORMOUSE sets anew. -/
theorem State.holding_island (s : State) : ∃ c l o, s.holding.pow = { s.pow with
    dom := .dormouse, on := o, pd2Down := false, keep := .hold, usedMs := 0, kdeep := false, copy := c, lost := l }
    ∧ o &&& 0x7D = 0x11 := by
  obtain ⟨d, o, p, c, l, pow, -⟩ := s.mgmtClear_form
  refine ⟨c, l, _, ?_, on_seven .dormouse s.buffers s.modl.hoardFitted false o⟩
  have off : s.pd2Off.pow = s.mgmtClear.pow := rfl
  unfold State.holding State.setDom
  rw [off, pow]
  rfl

/-- Where neither host power good, the bank floor, the reserve nor a fixture stands, HOLD is entered and nothing acts at once. -/
theorem State.enterHold_eq_holding {s : State} (hpg : s.pow.hostPg = false) (bank : s.zxp.above20 = true)
    (reserve : s.atReserve = false) (svc : s.pow.svc = false) : s.enterHold = s.holding := by
  obtain ⟨c, l, o, pow, -⟩ := s.holding_island
  obtain ⟨-, -, -, -, -, -, zxp, -⟩ := s.mgmtClear_form
  have kept : s.holding.zxp = { s.mgmtClear.zxp with aclk := 1 } := rfl
  have floor : s.holding.floorTripped = false := by simp [State.floorTripped, kept, zxp, bank]
  have short : s.holding.atReserve = false := by simpa only [State.atReserve, pow] using reserve
  have entered : s.enterHold = if s.holding.pow.hostPg then s.holding.wake else if s.holding.floorTripped then s.holding.floorEnd
      else if s.holding.pow.copy && s.holding.atReserve then s.holding.reserveTrigger
      else if s.holding.pow.svc then s.holding.attend else s.holding := rfl
  simp [entered, floor, short, pow, hpg, svc]

/-- An image that is held and that nothing ends at once (R67, R207). -/
theorem State.enterHold_left {s : State} (hpg : s.pow.hostPg = false) (bank : s.zxp.above20 = true)
    (reserve : s.atReserve = false) (svc : s.pow.svc = false) :
    let t := s.enterHold
    t.pow.keep = .hold ∧ t.pow.dom = .dormouse ∧ t.pow.kdeep = false ∧ t.pow.image = s.pow.image ∧ t.pow.usedMs = 0
      ∧ t.pow.on &&& 0x7D = 0x11 ∧ t.feat = Feat.fresh := by
  obtain ⟨c, l, o, pow, on⟩ := s.holding_island
  rw [State.enterHold_eq_holding hpg bank reserve svc]
  dsimp only
  rw [pow]
  exact ⟨rfl, rfl, rfl, rfl, rfl, on, rfl⟩

/-! ## The power-down on the host side (R52, R207) -/

/-- PD2's clearing leaves YRST_n, which PD4 holds. -/
theorem State.mgmtClear_yrst (s : State) : s.mgmtClear.host.yrst = s.host.yrst := by
  obtain ⟨v, n, b, q, torn⟩ := s.tearCommit_form
  obtain ⟨h, halted⟩ := s.tearCommit.layCopy.dropPending.hoardHalt_form
  obtain ⟨d, o, p, ended, -⟩ := s.tearCommit.layCopy.dropPending.hoardHalt.restoreEnd_form
  have cleared : s.mgmtClear.host.yrst = s.tearCommit.layCopy.dropPending.hoardHalt.restoreEnd.host.yrst := rfl
  rw [cleared, ended, halted, torn]
  rfl

/-- A power-down drives YRST_n low and takes negotiation with PD2. -/
theorem State.powerDown_left (s : State) (lastEnd : BitVec 3) :
    (s.powerDown lastEnd).host.yrst = false ∧ (s.powerDown lastEnd).feat = Feat.fresh := by
  obtain ⟨-, -, host, -⟩ := (s.conv false).yrstLow_kept
  have down : (s.powerDown lastEnd).host = (s.conv false).yrstLow.pd3Off.mgmtClear.host := rfl
  have off : ∀ u : State, u.pd3Off.host.yrst = u.host.yrst := fun _ => rfl
  refine ⟨?_, rfl⟩
  rw [down, State.mgmtClear_yrst, off, host]

/-! ## What Curl decides by (R207, R220) -/

/-- Every fitted rank is in self-refresh: reached in Curl, or before it. -/
def State.curlReached (s : State) (times : CurlTimes) : Bool := times.sr.isSome || (s.subA.asleep && s.subB.asleep)

/-- Curl ends with an image (R207). -/
def State.curlImage (s : State) (times : CurlTimes) : Bool :=
  s.modl.zxpFitted && s.curlReached times && s.host.yrst && !s.pow.curl.noBank

/-- A commit in flight runs on from the bank (R207). -/
def State.curlCommits (s : State) : Bool := s.nvs.commit.isSome && s.zxp.convOn

/-- Curl's own commands put the ranks to sleep where it reached them. -/
def State.curlSlept (s : State) (times : CurlTimes) : State := if times.sr.isSome then (s.curlSleep .a).curlSleep .b else s

/-- The set once Curl's own commands are through, its times are kept, and PD3 and PD5 are off. -/
def State.curlOver (s : State) (times : CurlTimes) : State :=
  ((s.curlSlept times).curlTimes times (s.curlReached times)).curlMark (s.curlImage times) s.curlCommits

theorem State.curlSlept_form (s : State) (times : CurlTimes) : ∃ a b, s.curlSlept times = { s with subA := a, subB := b } := by
  unfold State.curlSlept
  split
  · exact ⟨_, _, rfl⟩
  · exact ⟨s.subA, s.subB, rfl⟩

/-- PD3 and PD5 go off and the outcome is noted: with an image on the ranks, without one by EV27, which may be latched. -/
theorem State.curlMark_form (s : State) (image hold : Bool) : ∃ a b l e, s.curlMark image hold =
    { State.pd3Off { s with subA := a, subB := b, evt := e } with
      pow := { s.pow with curl := { s.pow.curl with commit := hold }, latched := l, image := image } } := by
  unfold State.curlMark
  dsimp only
  split
  · exact ⟨_, _, s.pow.latched, s.evt, rfl⟩
  · split
    · obtain ⟨l, e, raised⟩ := State.raise_form { s with pow := { s.pow with curl := { s.pow.curl with commit := hold } } } 27
        (BitVec.ofNat 24 (hold.toNat + 2 * s.pow.curl.hckLost.toNat + 4 * s.pow.curl.noBank.toNat))
      rw [raised]
      exact ⟨s.subA, s.subB, l, e, rfl⟩
    · exact ⟨s.subA, s.subB, s.pow.latched, s.evt, rfl⟩

/-- Of the island the end of Curl writes PWR_CURL, the latch and the image; the bank, the settings memory and the commit in
flight stay, and the subchannels serve no host. -/
theorem State.curlOver_left (s : State) (times : CurlTimes) :
    let t := s.curlOver times
    (∃ c l, t.pow = { s.pow with curl := c, latched := l, image := s.curlImage times })
      ∧ t.zxp = s.zxp ∧ t.nvs.commit = s.nvs.commit ∧ t.nv = s.nv
      ∧ t.subA.owner = .blocked ∧ t.subB.owner = .blocked := by
  obtain ⟨a, b, slept⟩ := s.curlSlept_form times
  obtain ⟨a', b', l, e, marked⟩ := State.curlMark_form
    (State.curlTimes { s with subA := a, subB := b } times (s.curlReached times)) (s.curlImage times) s.curlCommits
  unfold State.curlOver
  dsimp only
  rw [slept, marked]
  exact ⟨⟨_, l, rfl⟩, rfl, rfl, rfl, rfl, rfl⟩

/-- The table of keep states, at the end of Curl (R207). -/
theorem State.curlEnd_of_curl {s : State} (curl : s.pow.keep = .curl) (times : CurlTimes) : s.curlEnd times =
    if s.curlCommits then (s.curlOver times).enterCommitHold
    else if s.curlImage times then (s.curlOver times).enterHold
    else (s.curlOver times).powerDown (if s.modl.zxpFitted then 6 else s.pow.lastEnd) := by
  obtain ⟨a, b, slept⟩ := s.curlSlept_form times
  have modl : (s.curlSlept times).modl = s.modl := by rw [slept]
  have pow : (s.curlSlept times).pow = s.pow := by rw [slept]
  have ends : s.curlEnd times = if s.curlCommits then (s.curlOver times).enterCommitHold
      else if s.curlImage times then (s.curlOver times).enterHold
      else (s.curlOver times).powerDown
        (if (s.curlSlept times).modl.zxpFitted then 6 else (s.curlSlept times).pow.lastEnd) := if_neg (by simp [curl])
  rw [ends, modl, pow]

/-- COMMIT_HOLD: KDEEP_n is asserted and the domains are those of R67. -/
theorem State.enterCommitHold_left (s : State) :
    let t := s.enterCommitHold
    t = { s with pow := t.pow } ∧ t.pow.keep = .commitHold ∧ t.pow.dom = .commitHold ∧ t.pow.kdeep = true
      ∧ t.pow.image = s.pow.image ∧ t.pow.on &&& 0x7D = 0x15 :=
  ⟨rfl, rfl, rfl, rfl, rfl, on_seven .commitHold s.buffers s.modl.hoardFitted false s.pow.on⟩

/-! ## The outcome (O8) -/

/-- Settles O8: Curl decides by `State.curlEnd_of_curl` on what `State.curlOver_left` leaves, COMMIT_HOLD by its image; both go
on to COMMIT_HOLD, to HOLD (`State.enterHold_left`) or down (`State.powerDown_pow`). -/
theorem curlOutcome : Obligations.CurlOutcome := by
  unfold Obligations.CurlOutcome
  refine ⟨fun times s curl => ?ends, fun s holds through => ⟨fun image hpg bank reserve svc => ?imaged, fun none => ?imageless⟩⟩
  case ends =>
    have next : exec (.curlComplete times) s = .next _ := congrArg Host.Outcome.next (State.curlEnd_of_curl curl times)
    obtain ⟨⟨c, l, pow⟩, zxp, commit, nv, ownerA, ownerB⟩ := s.curlOver_left times
    rw [next]
    generalize s.curlOver times = u at pow zxp commit nv ownerA ownerB
    refine ⟨fun (commits : s.curlCommits = true) => ⟨_, rfl, ?committing⟩,
      fun (settled : s.curlCommits = false) (image : s.curlImage times = true) hpg bank reserve svc => ⟨_, rfl, ?held⟩,
      fun (settled : s.curlCommits = false) (none : s.curlImage times = false) => ⟨_, rfl, ?down⟩⟩
    case committing =>
      obtain ⟨left, keep, dom, kdeep, image, on⟩ := u.enterCommitHold_left
      rw [if_pos commits]
      refine ⟨keep, dom, kdeep, image.trans (congrArg Pow.image pow), on, ?_⟩
      rw [left]
      exact ⟨commit, nv, ownerA, ownerB⟩
    case held =>
      rw [if_neg (ne_true_of_eq_false settled), if_pos image]
      obtain ⟨keep, dom, kdeep, kept, used, on, feat⟩ := State.enterHold_left (s := u) (by rw [pow, hpg]) (by rw [zxp, bank])
        (by rw [State.atReserve, pow]; exact reserve) (by rw [pow, svc])
      exact ⟨keep, dom, kdeep, kept.trans ((congrArg Pow.image pow).trans image), used, on, feat⟩
    case down =>
      rw [if_neg (ne_true_of_eq_false settled), if_neg (ne_true_of_eq_false none)]
      generalize (if s.modl.zxpFitted then (6 : BitVec 3) else s.pow.lastEnd) = lastEnd
      obtain ⟨k, r, o, down, on⟩ := u.powerDown_pow lastEnd
      obtain ⟨yrst, feat⟩ := u.powerDown_left lastEnd
      rw [down, u.powerDown_zxp, pow]
      exact ⟨rfl, rfl, rfl, rfl, rfl, on, rfl, yrst, feat⟩
  case imaged =>
    have next : exec .commitHoldEnd s = .next s.enterHold :=
      congrArg Host.Outcome.next ((if_neg (by simp [holds, through])).trans (if_pos image))
    obtain ⟨keep, dom, kdeep, kept, used, on, -⟩ := State.enterHold_left hpg bank reserve svc
    exact ⟨_, next, keep, dom, kdeep, used, kept.trans image, on⟩
  case imageless =>
    have next : exec .commitHoldEnd s = .next (s.powerDown 6) :=
      congrArg Host.Outcome.next ((if_neg (by simp [holds, through])).trans (if_neg (ne_true_of_eq_false none)))
    obtain ⟨c, l, o, down, on⟩ := s.powerDown_pow 6
    refine ⟨_, next, ?_⟩
    rw [down, s.powerDown_zxp]
    exact ⟨rfl, rfl, rfl, on, rfl⟩

end Sys2Proof.Machine

/-! SUPPORT. The plant bus (O12): what a fault of the ZX8-P and the loss of the bus write. -/

namespace Sys2Proof.Machine
open Sys2Proof

theorem or_ofNat_two_pow_of_getLsbD {w i : Nat} {x : BitVec w} (set : x.getLsbD i = true) : x ||| BitVec.ofNat w (2 ^ i) = x := by
  refine BitVec.eq_of_getLsbD_eq fun j hj => ?_
  by_cases same : i = j
  · simp [← same, set]
  · rw [BitVec.getLsbD_or, BitVec.getLsbD_ofNat, Nat.testBit_two_pow_of_ne same, Bool.and_false, Bool.or_false]

/-- A fault sets its KPA_FAULT bit; where the bit rises EV31 arises, which may be latched (R224). -/
theorem State.kpaFault_form (s : State) (bit : Nat) : ∃ l e, s.kpaFault bit = { s with
    zxp := { s.zxp with fault := s.zxp.fault ||| BitVec.ofNat 5 (2 ^ bit) }
    pow := { s.pow with latched := l }, evt := e } := by
  unfold State.kpaFault
  split
  case isTrue set =>
    refine ⟨s.pow.latched, s.evt, ?_⟩
    rw [or_ofNat_two_pow_of_getLsbD set]
  case isFalse => exact State.raise_form _ _ _

/-- PLANT_ABSENT, and what counts as it: PD1 goes off, the charger leaves the plant bus, and EV25 may be latched. -/
theorem State.plantOff_form {s : State} (present : s.zxp.plant = true) : ∃ g l e, s.plantOff = { s with
    zxp := { s.zxp with plant := false, chg := g, chgPlant := false }
    pow := { s.pow with on := s.pow.on &&& 0x7D, latched := l }, evt := e } := by
  obtain ⟨l, e, raised⟩ := (State.charger { s with
    zxp := { s.zxp with plant := false }, pow := { s.pow with on := s.pow.on &&& 0x7D } }).raise_form 25 0
  exact ⟨_, l, e, (if_neg (by simp [present])).trans raised⟩

/-- A plant bus that its comparator refuses (R208): the bit of KPA_FAULT is set, and the bus counts as absent. `z` is the ZX8-P
with the comparator's output. -/
theorem State.plantRefused_form (s : State) {z : Zxp} (present : z.plant = true) (bit : Nat) : ∃ g l e,
    (State.kpaFault { s with zxp := z } bit).plantOff = { s with
      zxp := { z with plant := false, fault := z.fault ||| BitVec.ofNat 5 (2 ^ bit), chg := g, chgPlant := false }
      pow := { s.pow with on := s.pow.on &&& 0x7D, latched := l }, evt := e } := by
  obtain ⟨l, e, faulted⟩ := State.kpaFault_form { s with zxp := z } bit
  rw [faulted]
  exact State.plantOff_form present

/-- Settles O12: the bus goes as `State.plantOff_form` says, with the fault of a refusal before it (`State.plantRefused_form`). -/
theorem plantBus : Obligations.PlantBus := by
  unfold Obligations.PlantBus
  intro s on
  refine ⟨fun absent ov rev => congrArg Host.Outcome.next (if_neg (by simp [on, absent, ov, rev])),
    fun present => congrArg Host.Outcome.next ((if_pos on).trans (if_neg (by simp [present]))), fun present => ?tooHigh,
    fun present => ?reverse, ?resumes, congrArg Host.Outcome.next (if_pos on)⟩
  case tooHigh =>
    obtain ⟨g, l, e, refused⟩ := s.plantRefused_form (z := { s.zxp with plantOv := true }) present 0
    exact ⟨_, congrArg Host.Outcome.next ((if_neg (by simp [on])).trans refused), rfl, rfl, rfl⟩
  case reverse =>
    obtain ⟨g, l, e, refused⟩ := s.plantRefused_form (z := { s.zxp with plantRev := true }) present 1
    exact ⟨_, congrArg Host.Outcome.next ((if_neg (by simp [on])).trans refused), rfl, rfl, rfl⟩
  case resumes => exact ⟨_, congrArg Host.Outcome.next (if_pos on), rfl, rfl⟩

end Sys2Proof.Machine

/-! SUPPORT. The charger (O13), the ADC (O14) and the keep-pack test (O50): the states on which their statements fail. -/

namespace Sys2Proof.Machine
open Sys2Proof

/-! ## The charger (R210, R212) -/

/-- The charger runs at constant current, and the bank's comparators have not left the state of their POR. -/
def chargingFloorsLow : State := { Wit.run with zxp := { Wit.run.zxp with chg := 1 } }

/-- CHARGER_FULL of a running charger: VBANK stands at VTARGET, so that the comparators see both floors passed. -/
theorem exec_chargerFull {s : State} (on : s.zxpOn = true) (charges : s.zxp.chg ≠ 0) : exec .chargerFull s
    = .next { s with zxp := { s.zxp with chg := 3, above16 := true, above20 := true } } :=
  congrArg Host.Outcome.next (if_neg (by simpa [on] using charges))

/-- Refutes O13: the statement has CHARGER_FULL move the charger alone, but VTARGET is at least 20 V, so that the comparators
of the floors come out on their permitting side (R210), as on `chargingFloorsLow`, where they read below. -/
theorem not_charger : ¬ Obligations.Charger := by
  unfold Obligations.Charger
  intro h
  obtain ⟨-, full, -⟩ := h chargingFloorsLow (by decide)
  rw [exec_chargerFull (by decide) (by decide)] at full
  have above : true = chargingFloorsLow.zxp.above20 := congrArg (fun t => t.zxp.above20) (Host.Outcome.next.inj full)
  exact absurd above (by decide)

/-! ## The ADC (R210, R229) -/

/-- The rotation stands at VBANK, slot 2, and the bank's comparators have not left the state of their POR. -/
def vbankSlot : State := { Wit.run with zxp := { Wit.run.zxp with slot := 2 } }

/-- In VBANK's slot the coarse code of 20 V or more is the level that the 20 V comparator sees too. -/
theorem State.adcSlot_above20 {s : State} (vbank : s.zxp.slot = 2) {coarse : Int} (high : 16384 ≤ coarse * 4) (fine : Int) :
    (s.adcSlot fine coarse).zxp.above20 = true := by
  have held : ∀ (t : State) (n : Nat), (t.chargeHold n).zxp.above20 = t.zxp.above20 := fun t n => by
    unfold State.chargeHold
    dsimp only
    split <;> rfl
  unfold State.adcSlot
  simp [held, State.bankSeen, vbank, high]

/-- Refutes O14: the statement has a slot leave all of the ZX8-P but the ADC and the charger, but the slot of VBANK is where
the model has the comparators of the floors see the bank (R210; log entry 94), as at 20 V on `vbankSlot`. -/
theorem not_adcSlot : ¬ Obligations.AdcSlot := by
  unfold Obligations.AdcSlot
  intro h
  obtain ⟨t, slot, -, -, -, -, -, frame⟩ := h 16384 4096 vbankSlot (by decide) (by decide)
  cases (congrArg Host.Outcome.next (if_pos (by decide))).symm.trans slot
  have seen := State.adcSlot_above20 (s := vbankSlot) (by decide) (coarse := 4096) (by decide) 16384
  rw [frame] at seen
  exact absurd seen (by decide)

/-! ## The keep-pack test (R243, R270) -/

/-- A test is due in RUN, its conditions hold, and the Hoard unit is erasing its spare area. -/
def testDueWhileErasing : State := { Wit.run with
  flt := { Wit.run.flt with test := { Wit.run.flt.test with due := true } }
  hrd := { Wit.run.hrd with st := .erasing }
  zxp := { Wit.run.zxp with chg := 3, chans := List.replicate 3 { AdcCh.fresh with value := 30000 } } }

/-- The test starts: an erase is no restore. -/
theorem testDueWhileErasing_starts : testDueWhileErasing.packStart.flt.test.busy = true := by decide

/-- Refutes O50: the statement has no test start unless the Hoard unit is idle, but R270 waits for a running restore alone,
and on `testDueWhileErasing` the unit erases. -/
theorem not_packTest : ¬ Obligations.PackTest := by
  unfold Obligations.PackTest
  rintro ⟨-, -, waits, -⟩
  have stays : testDueWhileErasing.packStart = testDueWhileErasing :=
    Host.Outcome.next.inj (waits testDueWhileErasing (by decide))
  have busy := testDueWhileErasing_starts
  rw [stays] at busy
  exact absurd busy (by decide)

end Sys2Proof.Machine

/-! SUPPORT. Restores (O16): the marker page of a newest image without a header. -/

namespace Sys2Proof.Machine
open Sys2Proof

/-- A restore runs with nothing left to bring back, and the area that counts as the newest has a marker, but no header. -/
def restoringUnheaded : State := { Wit.run with
  hrd := { Hrd.fresh with st := .restoring, areaA := { Area.clean with marker := some ⟨1, 0⟩ } } }

/-- Where the newest image has no header no marker page is programmed: both areas stand (R253). -/
theorem State.consume_hrd_of_no_hdr {s : State} (h : s.hrd.newest.hdr = none) :
    s.consume.hrd = { s.hrd with markerOwed := false } := by
  simp only [State.consume, h]

/-- What the end of a restore makes of the Hoard unit: the image is consumed, the unit erases, and nothing is held back
(R243, R249, R253). -/
theorem State.restoreComplete_hrd {s : State} (restores : s.hrd.st.restores = true) (whole : s.hrd.unfinished = false) :
    s.restoreComplete.hrd = { s.consume.hrd with st := .erasing, readyHeldA := false, readyHeldB := false } := by
  have runs : ¬ (!(s.hrd.st == .restoring || s.hrd.st == .lending) || s.hrd.unfinished) = true := by
    rw [whole, Bool.or_false, Bool.not_eq_true, Bool.not_eq_false']
    exact restores
  rw [State.restoreComplete, if_neg runs, State.releaseReady_hrd, State.raise_hrd]

/-- Refutes O16: the third clause has the end of a restore leave a newest area without a header without a marker, but the model
programs no marker page there and leaves the area as it stands, as on `restoringUnheaded`. The model itself gives a marker only
to an area with a header; the statement asks for every state, and unlike its fifth clause does not allow for such an area. -/
theorem not_hoardRestore : ¬ Obligations.HoardRestore := by
  unfold Obligations.HoardRestore
  rintro ⟨-, -, complete, -⟩
  obtain ⟨t, step, -, -, -, -, area⟩ := complete restoringUnheaded (by decide) (Or.inl rfl) (by decide)
  cases (congrArg Host.Outcome.next (if_pos (by decide))).symm.trans step
  rw [State.restoreComplete_hrd (by decide) (by decide), State.consume_hrd_of_no_hdr (by decide)] at area
  exact absurd area (by decide)

end Sys2Proof.Machine

/-! SUPPORT. Saves (O15): a save that is held, its start, the programs and erases of its LUNs, and its end. -/

namespace Sys2Proof.Machine
open Sys2Proof

/-! ## The two areas (R242) -/

theorem Hrd.setArea_own (h : Hrd) (b : Bool) (a : Area) :
    (if b then (h.setArea b a).areaB else (h.setArea b a).areaA) = a := by
  cases b <;> rfl

theorem Hrd.setArea_other (h : Hrd) (b : Bool) (a : Area) :
    (if b then (h.setArea b a).areaA else (h.setArea b a).areaB) = if b then h.areaA else h.areaB := by
  cases b <;> rfl

/-! ## A save is held (R243, R247) -/

theorem State.sleepSub_form (s : State) (x : Sub) : ∃ a b, s.sleepSub x = { s with subA := a, subB := b } := by
  unfold State.sleepSub
  split
  · exact ⟨_, _, rfl⟩
  · cases x <;> exact ⟨_, _, rfl⟩

/-- A held save records outcome 4, and both areas stand. -/
theorem State.saveHeld_form (s : State) : ∃ a b m, s.saveHeld = { s with
    subA := a, subB := b, hrd := { s.hrd with st := .held, lastOutcome := 4, lastTime := m } } := by
  obtain ⟨a, b, sleepA⟩ := s.sleepSub_form .a
  obtain ⟨c, d, sleepB⟩ := (s.sleepSub .a).sleepSub_form .b
  rw [State.saveHeld, sleepB, sleepA]
  exact ⟨_, _, _, rfl⟩

/-- The event of a held save may be latched. -/
theorem State.saveHeld_raise_form (s : State) (n : Nat) (arg : BitVec 24) : ∃ a b m l e, s.saveHeld.raise n arg = { s with
    subA := a, subB := b, hrd := { s.hrd with st := .held, lastOutcome := 4, lastTime := m }
    pow := { s.pow with latched := l }, evt := e } := by
  obtain ⟨a, b, m, held⟩ := s.saveHeld_form
  obtain ⟨l, e, raised⟩ := s.saveHeld.raise_form n arg
  rw [held] at raised
  exact ⟨a, b, m, l, e, (congrArg (fun t : State => t.raise n arg) held).trans raised⟩

/-- A full area, or a channel that fails, holds the save; want of space where a LUN has no good block left. -/
theorem State.areaFull_form {s : State} {noSpace : Bool} (saving : s.hrd.st = .saving)
    (room : noSpace = true → s.hrd.noRoom = true) : ∃ n arg, s.areaFull noSpace = s.saveHeld.raise n arg := by
  unfold State.areaFull
  cases noSpace with
  | false => exact ⟨49, 4, (if_neg (by simp [saving])).trans (if_neg nofun)⟩
  | true => exact ⟨53, 0, (if_neg (by simp [saving, room rfl])).trans (if_pos rfl)⟩

/-! ## Polka at the save rate (R243, R244) -/

/-- A subchannel's Polka at the save rate has passed. -/
def State.proved (s : State) : Sub → State
  | .a => { s with hrd := { s.hrd with provedA := true } }
  | .b => { s with hrd := { s.hrd with provedB := true } }

theorem State.proved_form (s : State) (x : Sub) :
    ∃ a b, s.proved x = { s with hrd := { s.hrd with provedA := a, provedB := b } } := by
  cases x <;> exact ⟨_, _, rfl⟩

/-- The other subchannel's Polka at the save rate has passed. -/
def Hrd.otherProved (h : Hrd) : Sub → Bool
  | .a => h.provedB
  | .b => h.provedA

theorem State.proved_both (s : State) {x : Sub} (other : s.hrd.otherProved x = true) :
    ((s.proved x).hrd.provedA && (s.proved x).hrd.provedB) = true := by
  cases x
  · exact other
  · exact (Bool.and_true _).trans other

section
variable {s : State} {x : Sub} {dies : List PolkaDie}

theorem exec_polkaDone_of_save (up : s.up = true) (dom : s.pow.dom = .save) :
    exec (.polkaDone x dies) s = .next (s.savePolka x dies) := by
  change execPolkaDone x dies s = _
  rw [execPolkaDone, if_neg (by simp [up]), if_pos (by simp [dom])]

theorem State.savePolka_failed (idle : s.hrd.st = .idle) (phase : (s.tr x).phase = .held) (trains : s.trains = true)
    (fails : (s.polkaJudge x dies).1 ≠ 0) : s.savePolka x dies = (s.judged x dies).saveHeld.raise 49 4 := by
  rw [State.savePolka, if_neg (by simp [idle, phase, trains])]
  exact if_pos (by simpa using fails)

theorem State.savePolka_second (idle : s.hrd.st = .idle) (phase : (s.tr x).phase = .held) (trains : s.trains = true)
    (passes : (s.polkaJudge x dies).1 = 0) (other : s.hrd.otherProved x = true) :
    s.savePolka x dies = ((s.judged x dies).proved x).saveStart := by
  rw [State.savePolka, if_neg (by simp [idle, phase, trains])]
  refine (if_neg (by simp [passes])).trans ?_
  have both := (s.judged x dies).proved_both other
  cases x
  · exact if_pos both
  · exact if_pos both

end

@[simp] theorem State.wakeSub_hrd (s : State) (x : Sub) : (s.wakeSub x).hrd = s.hrd := by
  simp only [State.wakeSub, State.issue, State.setRanks, State.setSub_hrd]

/-- The Hoard unit as a save starts: the spare area has a header and no more, and the LUNs stand at their first blocks. -/
theorem State.saveStart_hrd (s : State) : ∃ p, s.saveStart.hrd =
    { s.hrd.setArea s.hrd.spareB ⟨false, some ⟨BitVec.ofNat 32 (max s.hrd.areaA.gen s.hrd.areaB.gen + 1),
        mapRows s.hrd.extents, s.clk.life, s.hrd.extents⟩, none, none⟩ with
      st := .saving, lastNotClean := s.hrd.spare.state != 0, pages := 0, saveMs := 0, retiredNow := []
      curs := s.firstCurs, prog := p } := by
  unfold State.saveStart
  rw [State.wakeSub_hrd, State.wakeSub_hrd]
  exact ⟨_, rfl⟩

/-! ## Programs and erases (R245) -/

/-- During a save a failed block joins those that the save retires. -/
theorem State.retireBlock_of_saving {s : State} (saving : s.hrd.st = .saving) (b : NandBlock) : ∃ l e, s.retireBlock b =
    { s with
      hrd := { s.hrd with retiredNow := s.hrd.retiredNow ++ [b] }, pow := { s.pow with latched := l }, evt := e } := by
  unfold State.retireBlock
  rw [if_pos (by simp [saving])]
  exact State.raise_form _ _ _

/-- At any other time a failed block goes into region 6. -/
theorem State.retireBlock_of_ne {s : State} (saving : s.hrd.st ≠ .saving) (b : NandBlock) : ∃ p l e, s.retireBlock b =
    { s with
      hrd := { s.hrd with retired := s.hrd.retired ++ [b] }, nvs := { s.nvs with pend := p }
      pow := { s.pow with latched := l }, evt := e } ∧ p.contains 6 = true := by
  unfold State.retireBlock
  rw [if_neg (by simp [saving]), State.pendRegion_eq]
  obtain ⟨l, e, raised⟩ := State.raise_form _ 52 (BitVec.ofNat 24 (b.channel + 4 * b.lun + 32 * b.block))
  exact ⟨_, l, e, raised, State.pendRegion_contains _ 6⟩

/-- A LUN with work in hand has its place in the table. -/
theorem State.curKey_lt_of_nandCur {s : State} {b : NandBlock} {u : NandCur} (h : s.nandCur b = some u) :
    curKey b < s.hrd.curs.length := by
  by_contra beyond
  have nothing : nth s.hrd.curs (curKey b) none = none := by
    simp [nth, List.getD_eq_getElem?_getD, Nat.not_lt.mp beyond]
  rw [State.nandCur, nothing] at h
  cases h

section
variable {s : State} {b : NandBlock}

theorem exec_nandProgramDone (up : s.up = true) (c : Fin 4) (l : Fin 8) (n : BitVec 16) (ok : Bool) :
    exec (.nandProgramDone c l n ok) s = .next (s.nandDone ⟨c.val, l.val, n.toNat⟩ ok) :=
  congrArg Host.Outcome.next (if_pos up)

theorem State.nandDone_elsewhere (saving : s.hrd.st = .saving) (h : s.nandCur b = none) (ok : Bool) :
    s.nandDone b ok = s := by
  simp only [State.nandDone, saving, h]

theorem State.nandDone_erased {u : NandCur} (saving : s.hrd.st = .saving) (h : s.nandCur b = some u)
    (fresh : u.erased = false) : s.nandDone b true = s.setCur b (some { u with erased := true }) := by
  simp [State.nandDone, saving, h, fresh]

theorem State.nandDone_page {u : NandCur} (saving : s.hrd.st = .saving) (h : s.nandCur b = some u)
    (erased : u.erased = true) : s.nandDone b true = s.pageDone b u := by
  simp [State.nandDone, saving, h, erased]

theorem State.nandDone_failed {u : NandCur} (saving : s.hrd.st = .saving) (h : s.nandCur b = some u) :
    ∃ v, s.nandDone b false = (s.retireBlock b).setCur b v := by
  refine ⟨(s.retireBlock b).curFrom b (b.block + 1) u.done, ?_⟩
  simp [State.nandDone, saving, h]

theorem State.nandDone_erasing (erasing : s.hrd.st = .erasing) : s.nandDone b false = s.retireBlock b := by
  simp [State.nandDone, erasing]

end

/-- A page that is programmed counts, and its LUN goes on to a place. -/
theorem State.pageDone_form (s : State) (b : NandBlock) (u : NandCur) : ∃ v, s.pageDone b u = { s with
    hrd := { s.hrd with
      pages := s.hrd.pages + 1, prog := some ⟨b.channel, b.lun, u.block, u.page, []⟩
      curs := upd s.hrd.curs (curKey b) (fun _ => v) } } := ⟨_, rfl⟩

/-! ## The end of a save (R243, R245) -/

/-- What a loss of PD2 and of the DRAMs leaves of a Hoard unit that does no work: the areas and the record of the last save. -/
def Hrd.unpowered (h : Hrd) : Hrd := { h with
  lend := false, extents := Hrd.fresh.extents, factoryBad := [], retired := [], corrected := 0, uncorrectable := 0
  uncorr := none, wmarkA := 0, wmarkB := 0, readyHeldA := false, readyHeldB := false }

theorem State.hoardHalt_of_idle {s : State} (idle : s.hrd.st = .idle) : s.hoardHalt = s := by
  simp only [State.hoardHalt, idle]

theorem State.mgmtClear_hrd_of_idle {s : State} (idle : s.hrd.st = .idle) : s.mgmtClear.hrd = { s.hrd with
    lend := false, extents := Hrd.fresh.extents, factoryBad := [], retired := [], corrected := 0, uncorrectable := 0
    uncorr := none } := by
  obtain ⟨v, n, b, q, torn⟩ := s.tearCommit_form
  have kept : s.tearCommit.layCopy.dropPending.hrd = s.hrd := by rw [torn]; rfl
  obtain ⟨d, o, p, ended, -⟩ := s.tearCommit.layCopy.dropPending.restoreEnd_form
  unfold State.mgmtClear
  dsimp only
  rw [State.hoardHalt_of_idle (kept ▸ idle), ended]
  dsimp only
  rw [kept]

theorem State.powerDown_hrd_of_idle {s : State} (idle : s.hrd.st = .idle) (lastEnd : BitVec 3) :
    (s.powerDown lastEnd).hrd = s.hrd.unpowered := by
  obtain ⟨-, -, -, -, -, -, -, -, -, -, -, low⟩ := State.kept_of_still (s.conv false).yrstLow_still
  have before : (s.conv false).yrstLow.pd3Off.hrd =
      { s.hrd with wmarkA := 0, wmarkB := 0, readyHeldA := false, readyHeldB := false } := by
    generalize (s.conv false).yrstLow = u at low ⊢
    have held : u.pd3Off.hrd = { u.hrd with readyHeldA := false, readyHeldB := false } := rfl
    rw [held, low]
    rfl
  unfold State.powerDown
  generalize (s.conv false).yrstLow.pd3Off = u at before ⊢
  have off : u.pd2Off.hrd = u.mgmtClear.hrd := rfl
  simp only [State.setSub_hrd, State.setDom_hrd, off]
  rw [State.mgmtClear_hrd_of_idle (by rw [before]; exact idle), before]
  rfl

/-- With every page programmed the spare area has its trailer, EV48 arises and the set goes down. -/
theorem State.saveComplete_form {s : State} (saving : s.hrd.st = .saving) (all : s.hrd.pages = s.hrd.saveTrailer.pages) :
    ∃ (u : State) (p : Option NandProg) (m : BitVec 16), s.saveComplete = (u.raise 48 0).powerDown 2 ∧ u.pow = s.pow
      ∧ u.hrd = { Hrd.setArea { s.hrd with prog := p } s.hrd.spareB { s.hrd.spare with trl := some s.hrd.saveTrailer } with
          st := .idle, lastOutcome := 1, lastTime := m, markerOwed := false } := by
  have programmed : s.hrd.allPages = true := by rw [Hrd.allPages, all, beq_self_eq_true]
  exact ⟨_, _, _, if_neg (by simp [saving, programmed]), rfl, rfl⟩

/-- Settles O15: each row is one of the forms above, and the end of a save goes through `State.powerDown`, which keeps the areas
of an idle unit. -/
theorem hoardSave : Obligations.HoardSave := by
  unfold Obligations.HoardSave
  refine ⟨fun x dies s up dom idle phase trains fails => ?fails,
    fun x dies s up dom idle phase trains passes other => ?starts,
    fun c l b ok s up saving nothing => (exec_nandProgramDone up c l b ok).trans
      (congrArg Host.Outcome.next (State.nandDone_elsewhere saving nothing ok)),
    fun c l b s u up saving cur => ⟨_, exec_nandProgramDone up c l b true, ?programmed⟩,
    fun c l b s u up saving cur => ⟨_, exec_nandProgramDone up c l b false, ?failed⟩,
    fun c l b s up erasing => ⟨_, exec_nandProgramDone up c l b false, ?retired⟩,
    fun noSpace s up saving room => ?full,
    fun s up saving all => ⟨_, congrArg Host.Outcome.next (if_pos up), ?complete⟩⟩
  case fails =>
    refine ⟨_, (exec_polkaDone_of_save up dom).trans
      (congrArg Host.Outcome.next (State.savePolka_failed idle phase trains fails)), ?_⟩
    obtain ⟨a, b, m, l, e, held⟩ := (s.judged x dies).saveHeld_raise_form 49 4
    rw [held]
    exact ⟨rfl, rfl, rfl, rfl, rfl, dom, rfl⟩
  case starts =>
    refine ⟨_, (exec_polkaDone_of_save up dom).trans
      (congrArg Host.Outcome.next (State.savePolka_second idle phase trains passes (by cases x <;> exact other))), ?_⟩
    obtain ⟨a, b, proved⟩ := (s.judged x dies).proved_form x
    obtain ⟨p, started⟩ := ((s.judged x dies).proved x).saveStart_hrd
    rw [proved] at started ⊢
    rw [started]
    exact ⟨rfl, rfl, rfl, rfl, Hrd.setArea_own _ _ _, Hrd.setArea_other _ _ _⟩
  case programmed =>
    have place := State.curKey_lt_of_nandCur cur
    cases erased : u.erased with
    | false =>
      rw [State.nandDone_erased saving cur erased]
      have own := nth_upd_self place (fun _ => some { u with erased := true }) none
      exact ⟨rfl, rfl, fun _ => ⟨own, rfl⟩, nofun, congrArg (fun v => upd s.hrd.curs _ fun _ => v) own.symm⟩
    | true =>
      obtain ⟨v, paged⟩ := s.pageDone_form ⟨c.val, l.val, b.toNat⟩ u
      rw [State.nandDone_page saving cur erased, paged]
      have own := nth_upd_self place (fun _ => v) none
      exact ⟨rfl, rfl, nofun, fun _ => rfl, congrArg (fun v => upd s.hrd.curs _ fun _ => v) own.symm⟩
  case failed =>
    obtain ⟨v, failed⟩ := State.nandDone_failed saving cur
    obtain ⟨k, e, retired⟩ := State.retireBlock_of_saving saving ⟨c.val, l.val, b.toNat⟩
    rw [failed, retired]
    have own := nth_upd_self (State.curKey_lt_of_nandCur cur) (fun _ => v) none
    exact ⟨rfl, congrArg (fun v => upd s.hrd.curs _ fun _ => v) own.symm⟩
  case retired =>
    obtain ⟨p, k, e, retired, pending⟩ :=
      State.retireBlock_of_ne (s := s) (by simp [erasing]) ⟨c.val, l.val, b.toNat⟩
    rw [State.nandDone_erasing erasing, retired]
    exact ⟨pending, rfl⟩
  case full =>
    obtain ⟨n, arg, filled⟩ := State.areaFull_form saving room
    obtain ⟨a, b, m, l, e, held⟩ := s.saveHeld_raise_form n arg
    refine ⟨_, congrArg Host.Outcome.next ((if_pos up).trans filled), ?_⟩
    rw [held]
    exact ⟨rfl, rfl, rfl, rfl, rfl, rfl⟩
  case complete =>
    obtain ⟨u, p, m, down, pow, hrd⟩ := State.saveComplete_form saving all
    obtain ⟨l, latched, -⟩ := u.raise_kept 48 0
    obtain ⟨c, r, o, island, on⟩ := (u.raise 48 0).powerDown_pow 2
    have unit := State.powerDown_hrd_of_idle (s := u.raise 48 0) (by rw [State.raise_hrd, hrd]) 2
    rw [latched, pow] at island
    rw [State.raise_hrd, hrd] at unit
    rw [down, unit, island]
    exact ⟨Hrd.setArea_own _ _ _, Hrd.setArea_other _ _ _, rfl, rfl, rfl, rfl, rfl, rfl, on, rfl⟩

end Sys2Proof.Machine

/-! SUPPORT. The event unit (O51): what an arising does to its source and to the queue. -/

namespace Sys2Proof.Machine
open Sys2Proof

/-! ## One arising (R277) -/

/-- A present source whose arisings the island does not latch arises in the event unit. -/
theorem State.raise_of_present {s : State} {n : Nat} (unlatched : s.latches n = false) (on : s.pd2 = true)
    (present : s.evtPresent n = true) (arg : BitVec 24) :
    s.raise n arg = { s with evt := evtArise s.deferring s.clk.life n arg s.evt } := by
  simp [State.raise, unlatched, on, present]

/-- A source whose EN is 0 counts nothing. -/
theorem evtArise_of_disabled {e : Evt} {n : Nat} (off : (nth e.srcs n EvtSrc.fresh).en = false) (d : Bool) (life : BitVec 40)
    (arg : BitVec 24) : evtArise d life n arg e = e := by
  simp [evtArise, off]

/-- A source that has counted an arising and set its status bit. -/
def EvtSrc.arisen (x : EvtSrc) (arg : BitVec 24) : EvtSrc := { x with total := satAdd x.total 1, arg := arg, status := true }

/-- With room in the queue and nothing pending an entry of count 1 is appended. -/
theorem evtArise_of_room {e : Evt} {n : Nat} (on : (nth e.srcs n EvtSrc.fresh).en = true)
    (room : e.queue.length < 32 ∧ (nth e.srcs n EvtSrc.fresh).pend = 0) (life : BitVec 40) (arg : BitVec 24) :
    ∃ h b, evtArise false life n arg e
      = { srcs := upd e.srcs n (fun _ => (nth e.srcs n EvtSrc.fresh).arisen arg)
          queue := e.queue ++ [⟨BitVec.ofNat 6 n, 1, life, arg⟩], high := h, halrt := b } :=
  ⟨_, _, by simp only [evtArise, on, room, EvtSrc.arisen]; rfl⟩

/-- Otherwise the arising is pending. -/
theorem evtArise_of_full {e : Evt} {n : Nat} (on : (nth e.srcs n EvtSrc.fresh).en = true)
    (full : ¬ (e.queue.length < 32 ∧ (nth e.srcs n EvtSrc.fresh).pend = 0)) (life : BitVec 40) (arg : BitVec 24) :
    ∃ b, evtArise false life n arg e
      = { e with srcs := upd e.srcs n (fun _ => pendAdd 1 life arg ((nth e.srcs n EvtSrc.fresh).arisen arg)), halrt := b } := by
  have kept : (decide (e.queue.length < 32) && decide ((nth e.srcs n EvtSrc.fresh).pend = 0)) = false := by simpa using full
  exact ⟨_, by simp only [evtArise, on, kept, EvtSrc.arisen]; rfl⟩

@[simp] theorem pendAdd_total (k : Nat) (life : BitVec 40) (arg : BitVec 24) (x : EvtSrc) : (pendAdd k life arg x).total = x.total := by
  unfold pendAdd; split <;> rfl
@[simp] theorem pendAdd_status (k : Nat) (life : BitVec 40) (arg : BitVec 24) (x : EvtSrc) : (pendAdd k life arg x).status = x.status := by
  unfold pendAdd; split <;> rfl
@[simp] theorem pendAdd_arg (k : Nat) (life : BitVec 40) (arg : BitVec 24) (x : EvtSrc) : (pendAdd k life arg x).arg = x.arg := by
  unfold pendAdd; split <;> rfl
@[simp] theorem pendAdd_cfg (k : Nat) (life : BitVec 40) (arg : BitVec 24) (x : EvtSrc) : (pendAdd k life arg x).cfg = x.cfg := by
  unfold pendAdd; split <;> rfl

/-- PEND adds the count, and the first pending arising keeps its second and its argument. -/
theorem pendAdd_pend (k : Nat) (life : BitVec 40) (arg : BitVec 24) (x : EvtSrc) : (pendAdd k life arg x).pend = satAdd x.pend k
    ∧ ((pendAdd k life arg x).stamp, (pendAdd k life arg x).parg) = if x.pend = 0 then (life, arg) else (x.stamp, x.parg) := by
  unfold pendAdd
  split
  next none => rw [none]; exact ⟨rfl, rfl⟩
  next some => exact ⟨rfl, rfl⟩

/-- Settles O51: an arising is `evtArise`, which appends an entry (`evtArise_of_room`) or makes the arising pending
(`evtArise_of_full`), and writes its own source alone. -/
theorem eventArise : Obligations.EventArise := by
  intro n arg s on settled unlatched present size
  have arises : exec (.eventArise n arg) s = .next { s with evt := evtArise false s.clk.life n arg s.evt } := by
    rw [show false = s.deferring by simp [State.deferring, settled], ← State.raise_of_present unlatched on present]
    rfl
  have place : n.val < s.evt.srcs.length := by omega
  refine ⟨fun off => arises.trans (by rw [evtArise_of_disabled off]), fun en => ⟨_, arises, ?_, ?_, rfl⟩⟩
  · by_cases room : s.evt.queue.length < 32 ∧ (nth s.evt.srcs n EvtSrc.fresh).pend = 0
    · obtain ⟨h, b, queued⟩ := evtArise_of_room en room s.clk.life arg
      simp only [queued, nth_upd_self place, if_pos room, EvtSrc.arisen]
      exact ⟨trivial, trivial, trivial, trivial, room.2, trivial⟩
    · obtain ⟨b, pends⟩ := evtArise_of_full en room s.clk.life arg
      simp only [pends, nth_upd_self place, if_neg room, EvtSrc.arisen, pendAdd_total, pendAdd_status, pendAdd_arg, pendAdd_cfg]
      exact ⟨trivial, trivial, trivial, trivial, trivial, pendAdd_pend _ _ _ _⟩
  · intro m other
    by_cases room : s.evt.queue.length < 32 ∧ (nth s.evt.srcs n EvtSrc.fresh).pend = 0
    · obtain ⟨h, b, queued⟩ := evtArise_of_room en room s.clk.life arg
      simp only [queued, nth_upd_ne _ other]
    · obtain ⟨b, pends⟩ := evtArise_of_full en room s.clk.life arg
      simp only [pends, nth_upd_ne _ other]

end Sys2Proof.Machine

/-! SUPPORT. The event unit (O52) and the fault windows (O48): the states on which their statements fail. -/

namespace Sys2Proof.Machine
open Sys2Proof

/-! ## Delivery to a console that loses lines (R281, R326) -/

/-- An entry waits that goes to the console, where the host tunnel's backlog is full: its output buffer has room for a `!lost`
line, and for none of the lines that wait. -/
def deliversIntoFullBacklog : State := { Wit.run with
  evt := { Wit.run.evt with queue := [⟨33, 1, 9, 3⟩] }
  con := { Wit.run.con with
    cfg := 0x20000
    host := { SessSt.fresh with
      out := List.replicate 1000 'x', backlog := List.replicate 16 (eventLine ⟨33, 1, 9, 3⟩) } } }

/-- The delivery reports the line that it drops from the backlog: EV60 is queued. -/
theorem deliversIntoFullBacklog_queue :
    deliversIntoFullBacklog.deliver.evt.queue.map (·.src) = [60] := by decide +kernel

/-- Refutes O52: the statement has a delivery leave exactly the later entries in the queue, but a delivery to the console may
drop a line of a session's backlog, and EV60 (R326) then joins the queue, as on `deliversIntoFullBacklog`. -/
theorem not_eventUnit : ¬ Obligations.EventUnit := by
  unfold Obligations.EventUnit
  rintro ⟨-, -, delivers, -⟩
  obtain ⟨t, delivered, queue, -⟩ :=
    (delivers ⟨33, 1, 9, 3⟩ [] deliversIntoFullBacklog (by decide) rfl).2 (by decide) (by decide)
  have same : deliversIntoFullBacklog.deliver = t := Host.Outcome.next.inj ((congrArg Host.Outcome.next (if_pos (by decide))).symm.trans delivered)
  have joined := deliversIntoFullBacklog_queue
  rw [same, queue] at joined
  exact absurd joined (by decide)

/-! ## FLT_CFGc with a reserved bit set (R259) -/

/-- FLT_CFG0 holds a one in a reserved bit, which no write brings there. -/
def reservedBitInCfg : State := { Wit.run with flt := { Wit.run.flt with cfg := 0x871005A0 :: Wit.run.flt.cfg.tail } }

/-- A write of the same fields marks no region: the reserved bit is not Kept. -/
theorem reservedBitInCfg_pend : (reservedBitInCfg.hubWrite .hubA 0x1410 0x071005A0).nvs.pend = [] := by decide +kernel

/-- Refutes O48: the statement has the settings region pending wherever FLT_CFGc changes, in every state; where a reserved bit
of the register stands at one, as on `reservedBitInCfg`, a write of the same fields changes it and no Kept bit. -/
theorem not_faultWindows : ¬ Obligations.FaultWindows := by
  unfold Obligations.FaultWindows
  rintro ⟨-, -, -, writes⟩
  obtain ⟨t, written, -, -, -, -, -, pends, -⟩ := writes .hubA 0 0x071005A0 reservedBitInCfg (by decide) (by decide) (by decide)
    (by decide) (by decide) (by decide) (by decide) (by decide) (by decide) (by decide)
  have same : reservedBitInCfg.hubWrite .hubA 0x1410 0x071005A0 = t := Host.Outcome.next.inj written
  have marked := pends (by decide)
  rw [← same, reservedBitInCfg_pend] at marked
  exact absurd marked (by decide)

end Sys2Proof.Machine

/-! SUPPORT. FLT_CMD (O49): what a fault record leaves, what a cleared resource reads, and the repair list. -/

namespace Sys2Proof.Machine
open Sys2Proof

/-! ## What fault records leave (R204, R272) -/

/-- The state with the fault unit, the event unit, the waiting fault records and the pool's high-water and refusal counts
blanked: what a command of the fault unit may write. -/
def State.unrecorded (s : State) : State := { s with
  flt := Flt.fresh, evt := Evt.fresh
  nvs := { s.nvs with waitF := [], dropF := 0, dropping := [] }
  pool := { s.pool with high := 0, refused := 0 } }

theorem State.form_of_unrecorded {s t : State} (h : t.unrecorded = s.unrecorded) : t = { s with
    flt := t.flt, evt := t.evt
    nvs := { s.nvs with waitF := t.nvs.waitF, dropF := t.nvs.dropF, dropping := t.nvs.dropping }
    pool := { s.pool with high := t.pool.high, refused := t.pool.refused } } :=
  congrArg (fun r : State => { r with
    flt := t.flt, evt := t.evt
    nvs := { r.nvs with waitF := t.nvs.waitF, dropF := t.nvs.dropF, dropping := t.nvs.dropping }
    pool := { r.pool with high := t.pool.high, refused := t.pool.refused } }) h

theorem State.clk_of_unrecorded {s t : State} (h : t.unrecorded = s.unrecorded) : t.clk = s.clk := by
  have same : t.unrecorded.clk = s.unrecorded.clk := congrArg State.clk h
  exact same

section
variable (s : State)

theorem State.raise_unrecorded {n : Nat} (power : n < 24 ∨ 31 < n) (hoard : n < 48 ∨ 55 < n) (a : BitVec 24) :
    (s.raise n a).unrecorded = s.unrecorded := by
  obtain ⟨e, raised⟩ := s.raise_unlatched power hoard a
  rw [raised]
  rfl

@[simp] theorem State.raise_flt (n : Nat) (a : BitVec 24) : (s.raise n a).flt = s.flt := by
  obtain ⟨l, e, h⟩ := s.raise_form n a
  rw [h]

/-- A buffer that a core claims and frees leaves the high-water or the refusal count. -/
theorem State.handOff_unrecorded : s.handOff.unrecorded = s.unrecorded := by
  unfold State.handOff Pool.brief Pool.claim
  dsimp only
  split <;> rfl

theorem State.ringDrop_fault_unrecorded : (s.ringDrop .fault).unrecorded = s.unrecorded := by
  unfold State.ringDrop
  dsimp only
  split
  · exact State.raise_unrecorded _ (by omega) (by omega) _
  · rfl

@[simp] theorem State.faultRecord_unrecorded (r : FaultRec) : (s.faultRecord r).unrecorded = s.unrecorded := by
  unfold State.faultRecord
  dsimp only
  split
  · exact s.handOff_unrecorded
  · exact (State.ringDrop_fault_unrecorded _).trans s.handOff_unrecorded

@[simp] theorem State.faultRecord_flt (r : FaultRec) : (s.faultRecord r).flt = s.flt := by
  obtain ⟨n, l, e, q, h⟩ := s.faultRecord_form r
  rw [h]

/-- A repair entry that takes a value is recorded. -/
theorem State.setRepair_unrecorded (e : Nat) (r : Repair) : (s.setRepair e r).unrecorded = s.unrecorded := by
  unfold State.setRepair State.logRepair
  split
  · rfl
  · exact State.faultRecord_unrecorded _ _

theorem State.setRepair_flt (e : Nat) (r : Repair) :
    (s.setRepair e r).flt = { s.flt with repairs := upd s.flt.repairs e (fun _ => r) } := by
  obtain ⟨n, l, v, q, h⟩ := s.setRepair_form e r
  rw [h]

end

/-! ## The table of resources -/

/-- Different indices of one class, and indices of different classes, have different keys. -/
theorem resKey_inj {c d i j : Nat} (hi : i < 512) (hj : j < 512) (h : resKey c i = resKey d j) : c = d ∧ i = j := by
  unfold resKey at h
  omega

theorem State.lt_of_mem_listed {s : State} {c i : Nat} (h : i ∈ s.listed c) : i < 512 := by
  obtain ⟨e, -, rfl⟩ := List.mem_map.mp h
  omega

/-- A resource without an entry holds nothing. -/
theorem State.res_of_not_listed {s : State} {c i : Nat} (small : i < 512) (h : i ∉ s.listed c) : s.res c i = Res.fresh := by
  have absent : s.flt.res.find? (fun e => e.1 == resKey c i) = none := by
    refine List.find?_eq_none.mpr fun e mem key => h (List.mem_map.mpr ⟨e, List.mem_filter.mpr ⟨mem, ?_⟩, ?_⟩)
    · have := beq_iff_eq.mp key
      simp only [resKey] at this
      rw [beq_iff_eq]
      omega
    · have := beq_iff_eq.mp key
      simp only [resKey] at this
      omega
  rw [State.res, sget_eq_find?, absent]
  rfl

/-! ## CLEAR (R258, R272) -/

/-- What CLEAR makes of a resource: its pending count stays. -/
def State.clearedRes (s : State) (c : Nat) (r : Res) : Res :=
  { Res.fresh with pend := r.pend, recLife := if s.acts c 24 then s.clk.life else 0 }

theorem State.clearRes_unrecorded (s : State) (c i : Nat) : (s.clearRes c i).unrecorded = s.unrecorded := by
  unfold State.clearRes
  dsimp only
  split
  · exact State.faultRecord_unrecorded _ _
  · rfl

theorem State.clearRes_flt (s : State) (c i : Nat) : (s.clearRes c i).flt
    = { s.flt with res := sset Res.fresh s.flt.res (resKey c i) (s.clearedRes c (s.res c i)) } := by
  unfold State.clearRes State.clearedRes
  dsimp only
  split
  · exact State.faultRecord_flt _ _
  · rfl

/-- Between `s` and `t` the resources of class `c` with an index in `l` are cleared, and nothing else of the fault unit
changes. -/
structure State.Clears (s t : State) (c : Nat) (l : List Nat) : Prop where
  unrecorded : t.unrecorded = s.unrecorded
  flt : t.flt = { s.flt with res := t.flt.res }
  own : ∀ i ∈ l, t.res c i = s.clearedRes c (s.res c i)
  other : ∀ k, k ∉ l.map (resKey c) → sget Res.fresh t.flt.res k = sget Res.fresh s.flt.res k

theorem State.Clears.clearedRes {s t : State} {c : Nat} {l : List Nat} (h : s.Clears t c l) (r : Res) :
    t.clearedRes c r = s.clearedRes c r := by
  have acts : t.acts c 24 = s.acts c 24 := by
    unfold State.acts State.fltCfg
    rw [h.flt]
  rw [State.clearedRes, acts, State.clk_of_unrecorded h.unrecorded, State.clearedRes]

theorem State.clearRes_clears (s : State) (c i : Nat) : s.Clears (s.clearRes c i) c [i] where
  unrecorded := s.clearRes_unrecorded c i
  flt := by rw [State.clearRes_flt]
  own := by
    intro j mem
    rw [List.mem_singleton.mp mem, State.res, State.clearRes_flt]
    exact sget_sset_self _ _ _ _
  other := by
    intro k other
    rw [State.clearRes_flt]
    exact sget_sset_ne _ _ (by simpa using other) _

theorem State.foldl_clearRes_clears (c : Nat) (l : List Nat) (s : State) :
    s.Clears (l.foldl (fun s i => s.clearRes c i) s) c l := by
  induction l generalizing s with
  | nil => exact ⟨rfl, rfl, nofun, fun _ _ => rfl⟩
  | cons i l ih =>
    have one := s.clearRes_clears c i
    have rest := ih (s.clearRes c i)
    refine ⟨rest.unrecorded.trans one.unrecorded, rest.flt.trans (by rw [one.flt]; rfl), fun j mem => ?_, fun k out => ?_⟩
    · by_cases later : j ∈ l
      · rw [List.foldl_cons, rest.own j later, one.clearedRes]
        by_cases same : j = i
        · rw [same, one.own i List.mem_cons_self]
          rfl
        · rw [State.res, one.other _ (by simp [resKey, same])]
          rfl
      · have same : j = i := (List.mem_cons.mp mem).resolve_right later
        rw [List.foldl_cons, State.res, rest.other _ (by simpa [resKey] using later), same]
        exact one.own i List.mem_cons_self
    · rw [List.map_cons, List.mem_cons, not_or] at out
      rw [List.foldl_cons, rest.other k out.2, one.other k (by simpa using out.1)]

theorem State.clearClass_clears (s : State) (c : Nat) : s.Clears (s.clearClass c) c (s.listed c) :=
  State.foldl_clearRes_clears c _ s

/-- A class that is cleared leaves the resources of every other. -/
theorem State.clearClass_res_ne (s : State) {c d i : Nat} (small : i < 512) (other : d ≠ c) :
    (s.clearClass c).res d i = s.res d i := by
  refine (s.clearClass_clears c).other _ fun mem => ?_
  obtain ⟨j, listed, key⟩ := List.mem_map.mp mem
  exact other (resKey_inj (State.lt_of_mem_listed listed) small key).1.symm

/-- Nothing is counted on a resource, a pending count aside. -/
def Res.blank (r : Res) : Prop := r.state = .none ∧ r.sum = 0 ∧ r.suspect = none

theorem State.clearClass_blank (s : State) {c i : Nat} (small : i < 512) : ((s.clearClass c).res c i).blank := by
  by_cases listed : i ∈ s.listed c
  · rw [(s.clearClass_clears c).own i listed]
    exact ⟨rfl, rfl, rfl⟩
  · have kept : (s.clearClass c).res c i = s.res c i := by
      refine (s.clearClass_clears c).other _ fun mem => listed ?_
      obtain ⟨j, there, key⟩ := List.mem_map.mp mem
      exact (resKey_inj (State.lt_of_mem_listed there) small key).2 ▸ there
    rw [kept, State.res_of_not_listed small listed]
    exact ⟨rfl, rfl, rfl⟩

/-- The classes below `n` cleared in turn. -/
theorem State.clearClasses_blank (s : State) (n : Nat) :
    let t := (List.range n).foldl State.clearClass s
    t.unrecorded = s.unrecorded ∧ t.flt = { s.flt with res := t.flt.res }
      ∧ ∀ c i, c < n → i < 512 → (t.res c i).blank := by
  induction n with
  | zero => exact ⟨rfl, rfl, fun _ _ none => absurd none (Nat.not_lt_zero _)⟩
  | succ n ih =>
    obtain ⟨kept, flt, blank⟩ := ih
    rw [List.range_succ, List.foldl_append]
    have last := State.clearClass_clears ((List.range n).foldl State.clearClass s) n
    refine ⟨last.unrecorded.trans kept, last.flt.trans (by rw [flt]; rfl), fun c i below small => ?_⟩
    by_cases own : c = n
    · exact own ▸ State.clearClass_blank _ small
    · rw [List.foldl_cons, List.foldl_nil, State.clearClass_res_ne _ small own]
      exact blank c i (by omega) small

theorem State.clearAll_blank (s : State) : s.clearAll.unrecorded = s.unrecorded ∧ s.clearAll.flt.saturated = false
    ∧ s.clearAll.flt.repairs = s.flt.repairs ∧ ∀ c i, c < 6 → i < 512 → (s.clearAll.res c i).blank := by
  obtain ⟨kept, flt, blank⟩ := s.clearClasses_blank 6
  unfold State.clearAll
  generalize (List.range 6).foldl State.clearClass s = t at kept flt blank
  have repairs := congrArg Flt.repairs flt
  exact ⟨kept, rfl, repairs, blank⟩

/-! ## REPAIR_NOW (R264, R267) -/

/-- The first place of the repair list that is free. -/
def State.repairPlace (s : State) : Nat := (List.range 32).findIdx s.repairFree

theorem State.repairPlace_first {s : State} {dev : Nat} {a : RowAddr} (taken : s.repairRefused dev a = false) :
    s.repairPlace < 32 ∧ s.repairFree s.repairPlace = true ∧ ∀ m, m < s.repairPlace → s.repairFree m = false := by
  have some : (List.range 32).any s.repairFree = true := by
    simp only [State.repairRefused, Bool.or_eq_false_iff, Bool.not_eq_false'] at taken
    exact taken.1
  have place : s.repairPlace < (List.range 32).length := List.findIdx_lt_length.mpr (List.any_eq_true.mp some)
  have free : s.repairFree ((List.range 32)[s.repairPlace]) = true := List.findIdx_getElem
  refine ⟨by simpa using place, by simpa using free, fun m before => ?_⟩
  have busy : s.repairFree ((List.range 32)[m]'(before.trans place)) = false := by
    simpa using List.not_of_lt_findIdx before
  simpa using busy

/-- A wanted repair that is not refused takes the first free place. -/
theorem State.wantRepair_taken {s : State} {dev : Nat} {a : RowAddr} (taken : s.repairRefused dev a = false) :
    (s.wantRepair dev a).unrecorded = s.unrecorded ∧ (s.wantRepair dev a).flt = { s.flt with
      nextAge := s.flt.nextAge + 1
      repairs := upd s.flt.repairs s.repairPlace (fun _ => ⟨.wanted, dev, a, 0, s.flt.nextAge + 1⟩) } := by
  rw [State.wantRepair, if_neg (by simp [taken])]
  exact ⟨(State.raise_unrecorded _ (by omega) (by omega) _).trans (State.setRepair_unrecorded _ _ _),
    (State.raise_flt _ _ _).trans (State.setRepair_flt _ _ _)⟩

/-! ## FLT_CMD (R274) -/

/-- FLT_CMD. -/
def fltCmdReg (p : Path) (s : State) : RegDef :=
  { flds := [⟨31, 0, .wo, false, s.fltCmdOk p⟩], read := 0, write := fun v s => s.fltCmd p v }

theorem hubReg_fltCmd (p : Path) (s : State) :
    hubReg p 0x143C s = if s.regOn .faultWindows then some (fltCmdReg p s) else none := by
  have unit : hubReg p 0x143C s = fltReg p 0x143C s := by simp [hubReg]
  rw [unit]
  cases on : s.regOn .faultWindows <;> simp [fltReg, fltCmdReg, on]

theorem fltCmdReg_allows (p : Path) (s : State) (v : Word) : (fltCmdReg p s).allows v = s.fltCmdOk p v.toNat := by
  have mask : (fltCmdReg p s).fieldMask = 0xFFFFFFFF := by simp [RegDef.fieldMask, fltCmdReg, Fld.mask]
  have fits : v.toNat ||| 0xFFFFFFFF = 0xFFFFFFFF := (or_lowMask_iff (k := 32)).mpr v.isLt
  have writable : (Access.wo != Access.ro) = true := rfl
  simp only [RegDef.allows, mask, fits]
  simp [fltCmdReg, Fld.writable, writable]

section
variable {s : State} {p : Path}

theorem State.hubWrite_fltCmd (up : s.up = true) (res : s.nvs.rescue = false) (on : s.regOn .faultWindows = true) {v : Word}
    (ok : s.fltCmdOk p v.toNat = true) : s.hubWrite p 0x143C v = s.fltCmd p v := by
  have reg : s.reg p 0x143C = some (fltCmdReg p s) :=
    (State.reg_of_up up res p 0x143C).trans ((hubReg_fltCmd p s).trans (if_pos on))
  rw [State.hubWrite_of_allowed reg ((fltCmdReg_allows p s v).trans ok), RegDef.put_of_not_kept rfl,
    RegDef.merge_of_roMask rfl]
  rfl

theorem State.hubWrite_fltCmd_ignored {v : Word} (refused : s.fltCmdOk p v.toNat = false) : s.hubWrite p 0x143C v = s := by
  unfold State.hubWrite
  split
  case h_1 d reg =>
    have there := (hubReg_fltCmd p s).symm.trans (State.hubReg_of_reg reg)
    split at there
    · cases there
      rw [fltCmdReg_allows, refused]
      rfl
    · cases there
  case h_2 => rfl

theorem State.hubWrite_fltCmd_absent (absent : s.regOn .faultWindows = false ∨ s.up = false) (v : Word) :
    s.hubWrite p 0x143C v = s := by
  refine State.hubWrite_of_none ?_ v
  obtain off | down := absent
  · refine ite_eq_left_iff.mpr fun _ => ?_
    exact (hubReg_fltCmd p s).trans (if_neg (by simp [off]))
  · simp [State.reg, down]

end

/-- The value of FLT_CMD for an operation on an entry. -/
def fltCmdWord (op entry : Nat) : Nat := 0xF17C0000 + op + 16 * entry

/-- An operation of FLT_CMD is one that the path may ask for now (R274). -/
def State.fltOpOk (s : State) (p : Path) : Nat → Bool
  | 1 => true | 2 => true | 3 => true
  | 4 => s.regOn .pprAuto && s.repairNowOk (s.resSel p).1 (s.resSel p).2
  | 5 => s.regOn .pprAuto
  | 6 => s.offers .retain
  | _ => false

section
variable {s : State} {op entry : Nat}

theorem fltCmdWord_toNat (hop : op < 16) (hentry : entry < 32) :
    (BitVec.ofNat 32 (fltCmdWord op entry)).toNat = fltCmdWord op entry := by
  rw [BitVec.toNat_ofNat]
  unfold fltCmdWord
  omega

theorem fltCmdWord_op (hop : op < 16) (hentry : entry < 32) : fld (BitVec.ofNat 32 (fltCmdWord op entry)) 3 0 = op := by
  rw [fld, fltCmdWord_toNat hop hentry]
  unfold fltCmdWord
  omega

theorem fltCmdWord_entry (hop : op < 16) (hentry : entry < 32) :
    fld (BitVec.ofNat 32 (fltCmdWord op entry)) 8 4 = entry := by
  rw [fld, fltCmdWord_toNat hop hentry, Nat.shiftRight_eq_div_pow]
  unfold fltCmdWord
  omega

/-- What the operations of FLT_CMD ask for. -/
theorem State.fltCmdOk_fltCmdWord (hop : op < 16) (hentry : entry < 32) (p : Path) :
    s.fltCmdOk p (fltCmdWord op entry) = ((op == 5 || entry == 0) && s.fltOpOk p op) := by
  have key : fltCmdWord op entry / 65536 = 0xF17C := by unfold fltCmdWord; omega
  have rest : fltCmdWord op entry / 512 % 128 = 0 := by unfold fltCmdWord; omega
  have low : fltCmdWord op entry % 16 = op := by unfold fltCmdWord; omega
  have high : fltCmdWord op entry / 16 % 32 = entry := by unfold fltCmdWord; omega
  simp only [State.fltCmdOk, key, rest, low, high]
  rfl

/-- What an operation of FLT_CMD does on the resource that the path selects, or on an entry of the repair list. -/
def State.fltOp (s : State) (p : Path) (entry : Nat) : Nat → State
  | 1 => s.clearRes (s.resSel p).1 (s.resSel p).2
  | 2 => s.clearClass (s.resSel p).1
  | 3 => s.clearAll
  | 4 => match (s.res (s.resSel p).1 (s.resSel p).2).suspect with
    | some u => s.wantRepair (s.resSel p).2 u.at_
    | none => s
  | 5 => if (nth s.flt.repairs entry Repair.none).status == .empty then s else s.setRepair entry Repair.none
  | 6 => { s with flt := { s.flt with test := { s.flt.test with due := true } } }
  | _ => s

theorem State.fltCmd_fltCmdWord (hop : op < 16) (hentry : entry < 32) (p : Path) :
    s.fltCmd p (BitVec.ofNat 32 (fltCmdWord op entry)) = s.fltOp p entry op := by
  simp only [State.fltCmd, fltCmdWord_op hop hentry, fltCmdWord_entry hop hentry]
  rfl

/-- FLT_CMD with an operation: carried out where it is allowed, ignored otherwise. -/
theorem State.put_fltCmd (up : s.up = true) (res : s.nvs.rescue = false) (on : s.regOn .faultWindows = true) (p : Path)
    (hop : op < 16) (hentry : entry < 32) : s.put p 0x143C (fltCmdWord op entry)
      = if (op == 5 || entry == 0) && s.fltOpOk p op then s.fltOp p entry op else s := by
  have judged : s.fltCmdOk p (BitVec.ofNat 32 (fltCmdWord op entry)).toNat = ((op == 5 || entry == 0) && s.fltOpOk p op) := by
    rw [fltCmdWord_toNat hop hentry, State.fltCmdOk_fltCmdWord hop hentry]
  unfold State.put
  split
  case isTrue ok => rw [State.hubWrite_fltCmd up res on (judged.trans ok), State.fltCmd_fltCmdWord hop hentry]
  case isFalse refused => exact State.hubWrite_fltCmd_ignored (judged.trans (Bool.eq_false_iff.mpr refused))

end

/-! ## The commands (O49) -/

section
variable {s : State} {p : Path} (up : s.up = true) (res : s.nvs.rescue = false) (on : s.regOn .faultWindows = true)
include up res on

/-- An operation that is allowed, on no entry. -/
theorem State.put_fltCmd_allowed {op : Nat} (hop : op < 16) (ok : s.fltOpOk p op = true) :
    s.put p 0x143C (fltCmdWord op 0) = s.fltOp p 0 op :=
  (State.put_fltCmd up res on p hop (by omega)).trans (if_pos (by simp [ok]))

/-- An operation that is not. -/
theorem State.put_fltCmd_refused {op entry : Nat} (hop : op < 16) (hentry : entry < 32) (refused : s.fltOpOk p op = false) :
    s.put p 0x143C (fltCmdWord op entry) = s :=
  (State.put_fltCmd up res on p hop hentry).trans (if_neg (by simp [refused]))

/-- FORGET of an entry. -/
theorem State.put_forget {entry : Nat} (hentry : entry < 32) (offered : s.regOn .pprAuto = true) :
    s.put p 0x143C (fltCmdWord 5 entry)
      = if (nth s.flt.repairs entry Repair.none).status == .empty then s else s.setRepair entry Repair.none :=
  (State.put_fltCmd up res on p (by omega) hentry).trans (if_pos offered)

end

/-- What a repair takes that nothing refuses. -/
theorem State.repairNowOk_of {s : State} {i : Nat} {u : Suspect} (suspect : (s.res 0 i).suspect = some u)
    (present : s.resPresent 0 i = true) (taken : s.repairRefused i u.at_ = false) : s.repairNowOk 0 i = true := by
  simp [State.repairNowOk, suspect, present, taken]

theorem State.not_repairNowOk_of {s : State} {c i : Nat}
    (missing : c ≠ 0 ∨ (s.res 0 i).suspect = none ∨ s.resPresent 0 i = false) : s.repairNowOk c i = false := by
  by_cases dram : c = 0
  · subst dram
    obtain other | none | absent := missing
    · exact absurd rfl other
    · simp [State.repairNowOk, none]
    · simp [State.repairNowOk, absent]
  · simp [State.repairNowOk, dram]

/-- Settles O49: FLT_CMD carries out `State.fltOp` where the operation is allowed (`State.put_fltCmd`); what a CLEAR leaves is
`State.Clears`, and a wanted repair takes `State.repairPlace`. -/
theorem faultCommands : Obligations.FaultCommands := by
  unfold Obligations.FaultCommands
  refine ⟨fun p s up res on => ⟨?one, ?whole, ?all, ?repair, ?none, fun entry => ⟨?forget, ?empty⟩, fun offered => ?test,
    fun missing => ?noTest⟩, fun p s absent => ?absent⟩
  case one =>
    obtain ⟨kept, flt, own, other⟩ := s.clearRes_clears (s.resSel p).1 (s.resSel p).2
    have repairs := congrArg Flt.repairs flt
    have saturated := congrArg Flt.saturated flt
    exact ⟨_, congrArg Host.Outcome.next (State.put_fltCmd_allowed up res on (op := 1) (by omega) rfl),
      State.form_of_unrecorded kept, own _ List.mem_cons_self, fun m out => other m (by simpa using out), repairs, saturated⟩
  case whole =>
    obtain ⟨kept, flt, own, other⟩ := s.clearClass_clears (s.resSel p).1
    have repairs := congrArg Flt.repairs flt
    have saturated := congrArg Flt.saturated flt
    exact ⟨_, congrArg Host.Outcome.next (State.put_fltCmd_allowed up res on (op := 2) (by omega) rfl),
      State.form_of_unrecorded kept, fun i _ listed _ => own i listed, fun c i small out => s.clearClass_res_ne small out,
      repairs, saturated⟩
  case all =>
    obtain ⟨kept, saturated, repairs, blank⟩ := s.clearAll_blank
    exact ⟨s.clearAll, congrArg Host.Outcome.next (State.put_fltCmd_allowed up res on (op := 3) (by omega) rfl),
      State.form_of_unrecorded kept, saturated, blank, repairs⟩
  case repair =>
    intro offered u dram suspect present taken size
    obtain ⟨small, free, first⟩ := State.repairPlace_first taken
    obtain ⟨kept, flt⟩ := State.wantRepair_taken taken
    have ok : s.fltOpOk p 4 = true := by
      simp [State.fltOpOk, offered, dram, State.repairNowOk_of suspect present taken]
    have op : s.fltOp p 0 4 = s.wantRepair (s.resSel p).2 u.at_ := by
      simp only [State.fltOp, dram, suspect]
    have place : s.repairPlace < s.flt.repairs.length := by omega
    have written := congrArg Flt.repairs flt
    refine ⟨_, s.repairPlace, congrArg Host.Outcome.next ((State.put_fltCmd_allowed up res on (op := 4) (by omega) ok).trans op),
      State.form_of_unrecorded kept, first, free, place, ⟨_, rfl, ?_⟩, fun m other => ?_, by rw [flt], by rw [flt]⟩
    · rw [written, nth_upd_self place]
      exact ⟨rfl, rfl, rfl, rfl, rfl⟩
    · rw [written, nth_upd_ne _ other]
  case none =>
    intro missing
    have refused : s.fltOpOk p 4 = false := by
      obtain other | off | rest := missing
      · simp [State.fltOpOk, State.not_repairNowOk_of (Or.inl other)]
      · simp [State.fltOpOk, off]
      · simp [State.fltOpOk, State.not_repairNowOk_of (Or.inr rest)]
    exact congrArg Host.Outcome.next (State.put_fltCmd_refused up res on (op := 4) (entry := 0) (by omega) (by omega) refused)
  case forget =>
    intro offered size held
    have written := congrArg Flt.repairs (s.setRepair_flt entry Repair.none)
    refine ⟨_, congrArg Host.Outcome.next ((State.put_forget up res on entry.isLt offered).trans (if_neg (by simpa using held))),
      State.form_of_unrecorded (s.setRepair_unrecorded _ _), ?_, by rw [State.setRepair_flt],
      fun m other => ?_⟩
    · rw [written, nth_upd_self (by omega)]
    · rw [written, nth_upd_ne _ other]
  case empty =>
    intro missing
    refine congrArg Host.Outcome.next ?_
    cases offered : s.regOn .pprAuto with
    | false => exact State.put_fltCmd_refused up res on (op := 5) (by omega) entry.isLt offered
    | true =>
      have empty := missing.resolve_left (by simp [offered])
      exact (State.put_forget up res on entry.isLt offered).trans (if_pos (by simp [empty]))
  case test => exact congrArg Host.Outcome.next (State.put_fltCmd_allowed up res on (op := 6) (by omega) offered)
  case noTest =>
    exact congrArg Host.Outcome.next (State.put_fltCmd_refused up res on (op := 6) (entry := 0) (by omega) (by omega) missing)
  case absent =>
    have ignored := State.hubWrite_fltCmd_absent (p := p) absent
    exact ⟨congrArg Host.Outcome.next (ignored _), congrArg Host.Outcome.next (ignored _), congrArg Host.Outcome.next (ignored _)⟩

end Sys2Proof.Machine

/-! SUPPORT. The suspect row of a DRAM device (O30): a named row and its count, and what the end of a grant leaves of the counts
of class 0. -/

namespace Sys2Proof.Machine
open Sys2Proof

/-! ## Saturating counters -/

theorem satAdd_toNat {n : Nat} (c : BitVec n) (k : Nat) : (satAdd c k).toNat = min (2 ^ n - 1) (c.toNat + k) := by
  have := Nat.two_pow_pos n
  unfold satAdd
  split
  · rw [BitVec.toNat_ofNat, Nat.mod_eq_of_lt (by assumption)]
    omega
  · rw [BitVec.toNat_allOnes]
    omega

/-! ## A faulty row is named (R262) -/

/-- The suspect row after row `a` is named. -/
def nextSuspect (old : Option Suspect) (a : RowAddr) : Option Suspect :=
  match old with
  | some u => if u.at_ = a then some ⟨a, if u.count.toNat < 255 then u.count + 1 else 255⟩ else some ⟨a, 1⟩
  | none => some ⟨a, 1⟩

theorem satAdd_byte_one (c : BitVec 8) : satAdd c 1 = if c.toNat < 255 then c + 1 else 255 := by
  apply BitVec.eq_of_toNat_eq
  rw [satAdd_toNat]
  split <;> simp <;> omega

section
variable (s : State) (i : Nat) (a : RowAddr)

theorem State.suspectRow_res : (s.suspectRow i a).res 0 i = { s.res 0 i with suspect := nextSuspect (s.res 0 i).suspect a } := by
  unfold State.suspectRow State.res State.setRes
  rw [sget_sset_self]
  cases named : (sget Res.fresh s.flt.res (resKey 0 i)).suspect with
  | none => rfl
  | some u =>
    simp only [nextSuspect, satAdd_byte_one]
    split <;> rfl

theorem State.suspectRow_res_ne {k : Nat} (other : k ≠ resKey 0 i) :
    sget Res.fresh (s.suspectRow i a).flt.res k = sget Res.fresh s.flt.res k :=
  sget_sset_ne _ _ other _

end

/-! ## A fault count (R260) -/

section
variable (s : State) (c i k : Nat)

/-- Only the pending count of the resource itself grows. -/
theorem State.fault_res_ne {j : Nat} (other : j ≠ resKey c i) :
    sget Res.fresh (s.fault c i k).flt.res j = sget Res.fresh s.flt.res j := by
  unfold State.fault State.setRes
  split
  · rfl
  · dsimp only
    split <;> exact sget_sset_ne _ _ other _

theorem State.fault_res_suspect : ((s.fault c i k).res c i).suspect = (s.res c i).suspect := by
  unfold State.fault
  split
  · rfl
  · dsimp only
    rw [State.res, State.setRes, sget_sset_self]

variable {s c i k}

theorem State.fault_res_pend (some : k ≠ 0) (present : s.resPresent c i = true) (on : s.fnOn .faultWindows = true) :
    ((s.fault c i k).res c i).pend.toNat = min 255 ((s.res c i).pend.toNat + k) := by
  unfold State.fault
  rw [if_neg (by simp [some, present, on])]
  dsimp only
  rw [State.res, State.setRes, sget_sset_self]
  exact satAdd_toNat _ _

end

/-- A row is named and `k` faults are counted against its device (R261, R262). -/
def State.rowFaults (s : State) (i : Nat) (a : RowAddr) (k : Nat) : State := (s.suspectRow i a).fault 0 i k

section
variable {s : State} {i : Nat} {a : RowAddr} {k : Nat}

theorem State.rowFaults_form (s : State) (i : Nat) (a : RowAddr) (k : Nat) :
    s.rowFaults i a k = { s with flt := (s.rowFaults i a k).flt } := by
  obtain ⟨f, counted⟩ := (s.suspectRow i a).fault_form 0 i k
  rw [State.rowFaults, counted]
  rfl

theorem State.rowFaults_suspect : ((s.rowFaults i a k).res 0 i).suspect = nextSuspect (s.res 0 i).suspect a := by
  rw [State.rowFaults, State.fault_res_suspect, State.suspectRow_res]

theorem State.rowFaults_pend (some : k ≠ 0) (present : s.resPresent 0 i = true) (on : s.fnOn .faultWindows = true) :
    ((s.rowFaults i a k).res 0 i).pend.toNat = min 255 ((s.res 0 i).pend.toNat + k) := by
  exact (State.fault_res_pend (s := s.suspectRow i a) (c := 0) (i := i) some present on).trans (by rw [State.suspectRow_res])

theorem State.rowFaults_res_ne {j : Nat} (other : j ≠ resKey 0 i) :
    sget Res.fresh (s.rowFaults i a k).flt.res j = sget Res.fresh s.flt.res j :=
  (State.fault_res_ne _ 0 i k other).trans (s.suspectRow_res_ne i a other)

end

/-! ## HOST_CE_REPORT (R100) -/

/-- The DRAM device that a report word of subchannel `x` names. -/
def ceDevice (x : Sub) (w : Word) : Nat :=
  (((match x with | .a => 0 | .b => 1) * 4 + (w.extractLsb' 0 2).toNat) * 4 + (w.extractLsb' 2 2).toNat) * 10
    + (w.extractLsb' 27 4).toNat

/-- The row that a report word names. -/
def ceRow (w : Word) : RowAddr := ⟨w.extractLsb' 4 3, w.extractLsb' 7 2, w.extractLsb' 9 18⟩

theorem ceDevice_eq (x : Sub) (w : Word) :
    ceDevice x w = ((subNo x * 4 + w.toNat % 4) * 4 + w.toNat / 4 % 4) * 10 + w.toNat / 2 ^ 27 % 16 := by
  cases x <;> simp [ceDevice, subNo, Nat.shiftRight_eq_div_pow]

theorem ceRow_eq (w : Word) :
    ceRow w = ⟨BitVec.ofNat 3 (w.toNat / 16), BitVec.ofNat 2 (w.toNat / 128), BitVec.ofNat 18 (w.toNat / 512)⟩ := by
  rw [ceRow, RowAddr.mk.injEq]
  refine ⟨?_, ?_, ?_⟩ <;> exact BitVec.eq_of_toNat_eq (by simp [Nat.shiftRight_eq_div_pow])

theorem State.ceReport_eq {s : State} {x : Sub} (takes : s.winTakes x = true)
    (ok : s.ceOk x (s.sub x).win.stage.toNat = true) (on : s.fnOn .faultWindows = true) :
    s.ceReport x = s.rowFaults (ceDevice x (s.sub x).win.stage) (ceRow (s.sub x).win.stage) 1 := by
  unfold State.ceReport
  dsimp only
  rw [if_neg (by simp [takes, ok, on]), ceDevice_eq, ceRow_eq]
  rfl

/-! ## What a bus access leaves of the counts of the other classes (R131) -/

/-- Abandoned work on a unit leaves the fault unit. -/
theorem State.calAbandon_flt (s : State) (u : Nat) : (s.calAbandon u).flt = s.flt := by
  by_cases adc : u = 11
  · subst adc
    cases run : s.calRun 11 with
    | none => simp [State.calAbandon, State.adcEnd, run]
    | some r =>
      obtain ⟨c, e, p, ended⟩ := State.adcEnd_form run 2 4
      rw [State.calAbandon, if_pos rfl, ended]
  · cases run : s.calRun u with
    | none => simp [State.calAbandon, adc, run]
    | some r =>
      obtain ⟨c, e, p, ended⟩ := State.calAbandon_form adc run
      rw [ended]

/-- An access that meets no answer counts against its target, a resource of class 3. -/
theorem State.zlbTry_res_low (s : State) (t : Nat) {k : Nat} (low : k < 1536) :
    sget Res.fresh (s.zlbTry t).flt.res k = sget Res.fresh s.flt.res k := by
  have counted : ∀ u : State, sget Res.fresh (u.fault 3 t 1).flt.res k = sget Res.fresh u.flt.res k :=
    fun u => State.fault_res_ne u 3 t 1 (by unfold resKey; omega)
  have attempt : ∀ u : State, sget Res.fresh (u.attemptFail t).flt.res k = sget Res.fresh u.flt.res k := fun u => by
    rw [State.attemptFail, State.raise_flt]
    exact counted u
  have last : ∀ u : State, sget Res.fresh (u.lastFail t).flt.res k = sget Res.fresh u.flt.res k := fun u => by
    unfold State.lastFail State.markUnreach
    dsimp only
    split
    · exact counted u
    · rw [State.calAbandon_flt, State.raise_flt]
      exact counted u
  unfold State.zlbTry State.noAnswer
  split
  · rfl
  · rw [last, attempt, attempt, attempt]

theorem State.copyCfg_res_low (s : State) (x : Sub) {k : Nat} (low : k < 1536) :
    sget Res.fresh (s.copyCfg x).flt.res k = sget Res.fresh s.flt.res k := by
  unfold State.copyCfg
  split
  · rfl
  · refine foldl_kept (fun u : State => sget Res.fresh u.flt.res k) _ (fun u n => ?_) _ s
    dsimp only
    split
    · exact u.zlbTry_res_low n low
    · exact u.zlbTry_res_low n low

/-! ## The end of a grant (R104, R261) -/

theorem State.grantCut_flt_res (s : State) (x : Sub) : (s.grantCut x).flt.res = s.flt.res := by
  have unit : (s.unitAbandon x).flt = s.flt := by
    unfold State.unitAbandon State.unitRestore
    split
    · rw [State.trainFrames_form]
      cases x <;> rfl
    · rfl
  unfold State.grantCut State.repairStop
  split
  · rw [unit]
  · have kept := congrArg Flt.res unit
    cases x <;> exact kept

/-- The ECS readings are applied first; nothing that the handback does after them counts against a DRAM device. -/
theorem State.handback_res {s : State} {x : Sub} {g : Grant} (granted : (s.sub x).grant = some g) {i : Nat} (small : i < 512) :
    (s.handback x).res 0 i = (s.ecsRead x g.ecs).res 0 i := by
  have low : resKey 0 i < 1536 := by unfold resKey; omega
  have cut (u : State) : sget Res.fresh ((u.issue x [(.refAb, s.grantRefs x g), (.preAb, 1)]).copyCfg x).flt.res (resKey 0 i)
      = sget Res.fresh u.flt.res (resKey 0 i) := by
    rw [State.copyCfg_res_low _ x low]
    cases x <;> rfl
  unfold State.handback
  rw [granted]
  dsimp only
  rw [State.res, State.setSub_flt, cut, State.grantCut_flt_res, State.res]

/-- One reading above its baseline names its row and counts at most 16. -/
theorem State.ecsRead_single {s : State} {x : Sub} {r : EcsRead} (base : (s.sub x).ecsBase = true)
    (present : s.resPresent 0 r.res = true) (mine : (if r.res < 160 then Sub.a else .b) = x)
    (more : sget 0 (s.sub x).ecs r.res < r.count) (on : s.fnOn .faultWindows = true) :
    ∃ f g, s.ecsRead x [r] = ((s.setSub x f).rowFaults r.res ⟨r.bg, r.ba, r.row⟩
      (min (r.count - sget 0 (s.sub x).ecs r.res) 16)).setSub x g := by
  have own : ecsMine s x r = true := by
    simp only [ecsMine, present, devSub, mine, Bool.true_and, beq_self_eq_true]
  have on' : ∀ f, (s.setSub x f).fnOn .faultWindows = true := fun f => by cases x <;> exact on
  refine ⟨fun t => { t with ecs := sset 0 t.ecs r.res r.count }, fun t => { t with ecsBase := true }, ?_⟩
  unfold State.ecsRead
  rw [if_neg (by simp), List.foldl_cons, List.foldl_nil, State.ecsOne, if_neg (by simp [own])]
  dsimp only
  rw [if_pos base, if_neg (by simp [on']; omega)]
  rfl

/-- Settles O30: a report and an ECS reading both name their row by `State.rowFaults`, and a handback does nothing to a count of
class 0 after its readings (`State.handback_res`). -/
theorem suspectRow : Obligations.SuspectRow := by
  unfold Obligations.SuspectRow
  refine ⟨fun x s samples takes ok on => ?_, fun x g r s granted reading base present mine more on => ?_⟩
  · have seen : (s.hold x).sub x = { s.sub x with drive := none } := s.hold_sub x
    have act : (s.hold x).ceReport x = (s.hold x).rowFaults (ceDevice x (s.sub x).win.stage) (ceRow (s.sub x).win.stage) 1 := by
      have same : ((s.hold x).sub x).win = (s.sub x).win := by rw [seen]
      rw [State.ceReport_eq ((s.hold_winTakes x).trans takes) (by rw [same]; cases x <;> exact ok) (by cases x <;> exact on), same]
    have present : ∀ i, (s.hold x).resPresent 0 i = s.resPresent 0 i := fun i => by cases x <;> rfl
    have res : ∀ c i, (s.hold x).res c i = s.res c i := fun c i => by cases x <;> rfl
    have discards := State.discards_of_winOn (x := x) (s := s) (by
      simp only [State.winTakes, Bool.and_eq_true] at takes
      exact takes.1)
    refine ⟨_, State.winSlot_next samples discards act, ?_, fun there => ?_, fun c j other => ?_, State.rowFaults_form _ _ _ _⟩
    · exact State.rowFaults_suspect.trans (congrArg (fun r => nextSuspect r.suspect _) (res 0 _))
    · rw [← res]
      exact State.rowFaults_pend (by omega) ((present _).trans there) (by cases x <;> exact on)
    · rw [← res]
      have key (d : Nat) : resKey 0 d = d := by simp [resKey]
      exact State.rowFaults_res_ne (by rw [key]; exact other)
  · have small : r.res < 512 := by
      simp only [State.resPresent, Bool.and_eq_true, decide_eq_true_eq] at present
      omega
    obtain ⟨f, h, read⟩ := State.ecsRead_single base present mine more on
    have after : (s.handback x).res 0 r.res = ((s.setSub x f).rowFaults r.res ⟨r.bg, r.ba, r.row⟩
        (min (r.count - sget 0 (s.sub x).ecs r.res) 16)).res 0 r.res := by
      rw [State.handback_res granted small, reading, read]
      cases x <;> rfl
    have res : (s.setSub x f).res 0 r.res = s.res 0 r.res := by cases x <;> rfl
    refine ⟨_, rfl, ?_, ?_⟩
    · rw [after, State.rowFaults_suspect, res]
      rfl
    · rw [after, State.rowFaults_pend (by omega) (by cases x <;> exact present) (by cases x <;> exact on), res, Nat.min_comm 16]

end Sys2Proof.Machine

/-! SUPPORT. The bulk stream, the Alert Response and the controller role of the two-wire ports (O54). -/

namespace Sys2Proof.Machine
open Sys2Proof

/-! ## One port (13) -/

section
variable {s : State} {p : Port}

theorem State.setPort_setPort (f g : TwbPort → TwbPort) : (s.setPort p f).setPort p g = s.setPort p (fun t => g (f t)) := by
  cases p <;> rfl

theorem State.setPort_const (f : TwbPort → TwbPort) : s.setPort p f = s.setPort p (fun _ => f (s.port p)) := by
  cases p <;> rfl

/-- Only what becomes of the port's own value counts. -/
theorem State.setPort_congr {f g : TwbPort → TwbPort} (same : f (s.port p) = g (s.port p)) : s.setPort p f = s.setPort p g := by
  rw [State.setPort_const f, State.setPort_const g, same]

theorem State.setPort_of_eq {f : TwbPort → TwbPort} (same : f (s.port p) = s.port p) : s.setPort p f = s :=
  (State.setPort_congr (g := id) same).trans (by cases p <;> rfl)

theorem State.setPort_port_ne {q : Port} (other : q ≠ p) (f : TwbPort → TwbPort) : (s.setPort p f).port q = s.port q := by
  cases p <;> cases q
  · exact absurd rfl other
  · rfl
  · rfl
  · exact absurd rfl other

theorem State.dropRead_of_none (idle : (s.port p).read = none) : s.dropRead p = s := by
  rw [State.dropRead, idle]
  rfl

theorem State.dropRead_of_some {r : TwbRead} (open_ : (s.port p).read = some r) :
    s.dropRead p = { s.setPort p (fun t => { t with read := none }) with pool := s.pool.free (portHolder p) } := by
  rw [State.dropRead, open_]
  rfl

/-- A port with PEC on, as its statements say it. -/
theorem TwbPort.pec_eq (t : TwbPort) : t.pec = t.cfg.getLsbD 0 := rfl

theorem State.up_of_answers {fn : Nat} {addr : BitVec 7} {rd : Bool} (answered : s.answers p fn addr rd = true) : s.up = true :=
  (Bool.and_eq_true_iff.mp answered).1

end

/-! ## The bulk stream (R297, R298, R300) -/

section
variable {s : State} {p : Port}

theorem twbA1Read_of_claimed {addr : BitVec 7} {g : Ring} (answered : s.answers p 1 addr false = true)
    (idle : (s.port p).read = none) (claimed : (s.pool.claim (portHolder p)).2 = true) :
    exec (.twbA1Read p addr g) s = .next ({ s with pool := (s.pool.claim (portHolder p)).1 }.setPort p (fun t => { t with
      read := some ⟨g, false, false, false, 0, []⟩ })) := by
  refine congrArg Host.Outcome.next ((if_pos answered).trans ?_)
  rw [State.a1Read, State.dropRead_of_none idle]
  exact if_pos claimed

theorem twbA1Read_of_refused {addr : BitVec 7} {g : Ring} (answered : s.answers p 1 addr false = true)
    (idle : (s.port p).read = none) (refused : (s.pool.claim (portHolder p)).2 = false) :
    exec (.twbA1Read p addr g) s = .next ({ s with pool := (s.pool.claim (portHolder p)).1 }.setPort p (fun t => { t with
      busyCount := satAdd t.busyCount 1 })) := by
  refine congrArg Host.Outcome.next ((if_pos answered).trans ?_)
  rw [State.a1Read, State.dropRead_of_none idle]
  exact if_neg (by simp [refused])

/-- The records of a READ's ring from the port's cursor on. -/
def State.fromCursor (s : State) (p : Port) (g : Ring) : List (Nat × List Byte) :=
  (s.ringBytes g).filter (fun e => (s.port p).cursor g ≤ e.1)

/-- A READ once its fill is done. -/
def State.filledRead (s : State) (p : Port) (r : TwbRead) : TwbRead :=
  let rs := (s.fromCursor p r.ring).take (ringMost r.ring)
  let first := match rs with
    | [] => (s.port p).cursor r.ring
    | e :: _ => e.1
  { r with filled := true, gap := decide ((s.port p).cursor r.ring < first),
           more := decide (rs.length < (s.fromCursor p r.ring).length), first := first, recs := rs.map (·.2) }

theorem State.a1Fill_of_unfilled {r : TwbRead} (open_ : (s.port p).read = some r) (unfilled : r.filled = false) :
    s.a1Fill p = s.setPort p (fun t => { t with read := some (s.filledRead p r) }) := by
  rw [State.a1Fill, open_]
  simp only [unfilled, Bool.false_eq_true, if_false]
  rfl

/-- The first record sent is the first one from the cursor on: a read phase holds at least one. -/
theorem State.filledRead_first (r : TwbRead) : (s.filledRead p r).first = match s.fromCursor p r.ring with
    | [] => (s.port p).cursor r.ring
    | e :: _ => e.1 := by
  unfold State.filledRead
  dsimp only
  cases s.fromCursor p r.ring <;> cases r.ring <;> rfl

theorem State.a1Phase_advances {addr : BitVec 7} {again : Bool} {r : TwbRead} (open_ : (s.port p).read = some r)
    (filled : r.filled = true) :
    s.a1Phase p addr again true = { s.setPort p (fun t => ({ t with read := none, sent := (s.port p).phase addr again }).setCursor
      r.ring (r.first + r.recs.length)) with pool := s.pool.free (portHolder p) } := by
  have sent : ((s.setPort p (fun t => { t with sent := t.phase addr again })).port p).read = some r := by
    rw [State.setPort_port]
    exact open_
  rw [State.a1Phase]
  simp only [sent, filled, Bool.not_true, Bool.or_self, Bool.false_eq_true, if_false]
  rw [State.dropRead_of_some (r := r), State.setPort_setPort, State.setPort_setPort, State.setPort_pool]
  · cases r.ring <;> cases p <;> rfl
  · rw [State.setPort_port]
    cases r.ring <;> exact sent

theorem State.a1Phase_stays {addr : BitVec 7} {again stop : Bool}
    (stays : ∀ r, (s.port p).read = some r → r.filled = false ∨ stop = false) :
    s.a1Phase p addr again stop = s.setPort p (fun t => { t with sent := (s.port p).phase addr again }) := by
  have sent : ((s.setPort p (fun t => { t with sent := t.phase addr again })).port p).read = (s.port p).read := by
    rw [State.setPort_port]
  rw [State.a1Phase, sent]
  cases open_ : (s.port p).read with
  | none => exact State.setPort_congr rfl
  | some r =>
    refine (if_pos ?_).trans (State.setPort_congr rfl)
    rcases stays r open_ with h | h <;> simp [h]

theorem State.a1Seek_of_idle {g : Ring} {n : Nat} (idle : (s.port p).read = none) :
    s.a1Seek p g n true = s.setPort p (fun t => t.setCursor g (max (s.oldSeq g) (min n (s.nextSeq g)))) := by
  rw [State.a1Seek, if_neg (by simp), State.dropRead_of_none idle]

end

/-! ## The Alert Response (R301, R302) -/

section
variable {s : State} {other : Option (BitVec 7)}

/-- The address that answers an Alert Response: A0 where HALRT_n is asserted for it, else A1. -/
def State.alertAddr (s : State) : Nat := (if s.evt.halrt then 0x58 else 0x60) + s.pow.straps.hsa.toNat

theorem State.alertAddr_eq (s : State) : (if s.evt.halrt then s.ownAddr .host 0 else s.ownAddr .host 1) = s.alertAddr := by
  unfold State.alertAddr
  cases s.evt.halrt <;> rfl

theorem alertLost_iff {mine : Nat} : (other.map (fun a => decide (a.toNat < mine))).getD false = true
    ↔ ∃ a, other = some a ∧ a.toNat < mine := by
  cases other <;> simp

/-- The bytes of an answered Alert Response. -/
def State.alertBytes (s : State) : List Byte :=
  let b : Byte := BitVec.ofNat 8 (2 * s.alertAddr)
  if s.twb.host.pec then [b, pecOf [addrByte 0x0C true, b]] else [b]

theorem State.alertBytes_head (s : State) : s.alertBytes.head? = some (BitVec.ofNat 8 (2 * s.alertAddr)) := by
  unfold State.alertBytes
  cases s.twb.host.pec <;> rfl

theorem State.alertResponse_lost {a : BitVec 7} (lower : a.toNat < s.alertAddr) (won : other = some a) :
    s.alertResponse other = s := by
  unfold State.alertResponse
  split
  · rfl
  · simp only [State.alertAddr_eq]
    exact if_pos (alertLost_iff.mpr ⟨a, won, lower⟩)

theorem State.alertResponse_won (up : s.up = true) (pending : s.evt.halrt = true ∨ s.twb.a1Pend = true)
    (won : ∀ a : BitVec 7, other = some a → s.alertAddr ≤ a.toNat) :
    s.alertResponse other = { s with
      evt := { s.evt with halrt := false }
      twb := { s.twb with host := { s.twb.host with sent := s.alertBytes }, a1Pend := s.twb.a1Pend && s.evt.halrt } } := by
  unfold State.alertResponse
  rw [if_neg (by rcases pending with h | h <;> simp [up, h])]
  simp only [State.alertAddr_eq]
  rw [if_neg (mt alertLost_iff.mp (by rintro ⟨a, is, lower⟩; exact absurd (won a is) (by omega)))]
  cases halrt : s.evt.halrt with
  | true => simp [State.alertBytes, State.setPort, halrt]
  | false =>
    have kept : ({ s.evt with halrt := false } : Evt) = s.evt := by rw [← halrt]
    simp [State.alertBytes, State.setPort, halrt, kept]

end

/-! ## The Host Notify (R282, R303, R305) -/

section
variable {s : State} {o : Attempt} {src cnt : Byte}

/-- The bytes of a Host Notify of the host port. -/
def State.notifyBytes (s : State) (src cnt : Byte) : List Byte :=
  [addrByte 8 false, BitVec.ofNat 8 (2 * (0x58 + s.pow.straps.hsa.toNat)), src, cnt]

/-- The arbitration losses of a port after an attempt. -/
def lostAfter (o : Attempt) (n : BitVec 16) : BitVec 16 := if o = .arbLost then satAdd n 1 else n

theorem State.attempt_notify (job : s.twb.host.job = some (.notify src cnt)) :
    s.attempt .host o = { s with twb := { s.twb with host := { s.twb.host with
      tries := s.twb.host.tries + 1, sent := s.notifyBytes src cnt, arbLost := lostAfter o s.twb.host.arbLost } } } := by
  have bytes : s.jobBytes .host = s.notifyBytes src cnt := by
    rw [State.jobBytes, show (s.port .host).job = _ from job]
    rfl
  rw [State.attempt, bytes]
  cases o <;> rfl

theorem State.notifyTry_acknowledged (job : s.twb.host.job = some (.notify src cnt)) :
    s.notifyTry .ack = { s with twb := { s.twb with
      host := { s.twb.host with job := none, tries := 0, sent := s.notifyBytes src cnt }, hnSent := satAdd s.twb.hnSent 1 } } := by
  rw [State.notifyTry, State.attempt_notify job]
  rfl

theorem State.notifyTry_failed (job : s.twb.host.job = some (.notify src cnt)) (failed : o ≠ .ack) (again : s.twb.host.tries < 8) :
    s.notifyTry o = { s with twb := { s.twb with host := { s.twb.host with
      tries := s.twb.host.tries + 1, arbLost := lostAfter o s.twb.host.arbLost, sent := s.notifyBytes src cnt } } } := by
  rw [State.notifyTry, State.attempt_notify job]
  simp only [beq_iff_eq, failed, if_false]
  exact if_pos (by omega)

theorem State.notifyTry_abandoned (job : s.twb.host.job = some (.notify src cnt)) (failed : o ≠ .ack) (last : 8 ≤ s.twb.host.tries) :
    s.notifyTry o = { s with
      twb := { s.twb with
        host := { s.twb.host with
          job := none, tries := 0, arbLost := lostAfter o s.twb.host.arbLost, sent := s.notifyBytes src cnt }
        hnAband := satAdd s.twb.hnAband 1 }
      evt := { s.evt with halrt := true } } := by
  rw [State.notifyTry, State.attempt_notify job]
  simp only [beq_iff_eq, failed, if_false]
  exact if_neg (by omega)

/-- The instruction of the next attempt of a Host Notify: the first one, or a retry. -/
theorem exec_notify {d : List Byte} (up : s.up = true) (job : s.twb.host.job = some (.notify src cnt)) :
    exec (if s.twb.host.tries = 0 then Instr.hostNotifySend o else .twbControllerRetry .host o d) s = .next (s.notifyTry o) := by
  by_cases first : s.twb.host.tries = 0
  · rw [if_pos first]
    exact congrArg Host.Outcome.next (if_pos (by simp [up, job, first]))
  · rw [if_neg first]
    refine congrArg Host.Outcome.next ((if_pos up).trans ?_)
    rw [State.retryJob, show (s.port .host).job = _ from job]
    exact if_neg first

end

/-! ## Polls (R306) -/

section
variable {s : State} {k : Fin 4} {o : Attempt} {d : List Byte}

/-- Poll entry `k`. -/
def State.poll (s : State) (k : Nat) : PollSt := nth s.twb.polls k ⟨0, 0, false, false, 0⟩

/-- The bytes of a poll up to its answer. -/
def PollSt.asks (q : PollSt) : List Byte :=
  [addrByte (q.cfg.setWidth 7) false, q.cfg.extractLsb' 8 8, addrByte (q.cfg.setWidth 7) true]

theorem fld_byte (w : Word) (lo : Nat) : BitVec.ofNat 8 (fld w (lo + 7) lo) = w.extractLsb' lo 8 := by
  apply BitVec.eq_of_toNat_eq
  rw [BitVec.toNat_ofNat, BitVec.extractLsb'_toNat, fld, show lo + 7 - lo + 1 = 8 by omega, Nat.mod_mod]

theorem State.jobBytes_poll (job : s.twb.loc.job = some (.poll k)) : s.jobBytes .loc = (s.poll k).asks := by
  rw [State.jobBytes, show (s.port .loc).job = _ from job]
  simp only [fld_byte _ 8]
  rfl

/-- A poll's transfer ends: its entry takes the outcome, and the poll that waits longest takes the port. -/
theorem State.pollEnd_eq (s : State) (f : PollSt → PollSt) :
    ((s.setPoll k f).jobEnd .loc).nextPoll = { s with twb := { s.twb with
      loc := { s.twb.loc with job := s.twb.due.head?.map TwbJob.poll, tries := 0 }
      due := s.twb.due.tail, polls := upd s.twb.polls k f } } := by
  have kept : ((s.setPoll k f).jobEnd .loc).twb.due = s.twb.due := rfl
  rw [State.nextPoll, kept]
  cases due : s.twb.due with
  | nil =>
    have same : ({ s.twb with due := [] } : Twb) = s.twb := by rw [← due]
    exact congrArg (fun w : Twb => { s with twb := { w with
      loc := { s.twb.loc with job := none, tries := 0 }, polls := upd s.twb.polls k f } }) same.symm
  | cons k r => rfl

theorem State.attempt_poll (job : s.twb.loc.job = some (.poll k)) :
    s.attempt .loc o = { s with twb := { s.twb with loc := { s.twb.loc with
      tries := s.twb.loc.tries + 1, sent := (s.poll k).asks, arbLost := lostAfter o s.twb.loc.arbLost } } } := by
  rw [State.attempt, State.jobBytes_poll job]
  cases o <;> rfl

theorem State.pollTry_acknowledged (job : s.twb.loc.job = some (.poll k)) :
    s.pollTry k .ack d = { s with twb := { s.twb with
      loc := { s.twb.loc with job := s.twb.due.head?.map TwbJob.poll, tries := 0, sent := (s.poll k).asks }
      due := s.twb.due.tail, polls := upd s.twb.polls k (fun q => q.take d) } } := by
  rw [State.pollTry, State.attempt_poll job]
  exact State.pollEnd_eq _ _

theorem State.pollTry_failed (job : s.twb.loc.job = some (.poll k)) (again : s.twb.loc.tries < 8) :
    s.pollTry k .nack d = { s with twb := { s.twb with loc := { s.twb.loc with
      tries := s.twb.loc.tries + 1, sent := (s.poll k).asks } } } := by
  rw [State.pollTry, State.attempt_poll job]
  exact if_pos (Nat.succ_lt_succ again)

theorem State.pollTry_abandoned (job : s.twb.loc.job = some (.poll k)) (last : 8 ≤ s.twb.loc.tries) :
    s.pollTry k .nack d = { s with twb := { s.twb with
      loc := { s.twb.loc with job := s.twb.due.head?.map TwbJob.poll, tries := 0, sent := (s.poll k).asks }
      due := s.twb.due.tail, polls := upd s.twb.polls k (fun q => { q with fail := true }) } } := by
  have ninth : ¬ s.twb.loc.tries + 1 < 9 := by omega
  rw [State.pollTry, State.attempt_poll job]
  exact (if_neg ninth).trans (State.pollEnd_eq _ _)

/-- A poll without PEC takes its one or two bytes, low byte first. -/
theorem PollSt.take_eq {q : PollSt} {b0 b1 : Byte} (plain : q.cfg.getLsbD 17 = false) :
    q.take [b0, b1] = { q with
      data := if q.cfg.getLsbD 16 then b1 ++ b0 else b0.setWidth 16, valid := true, fail := false, ageMs := 0 } := by
  have low : b0.toNat < 256 := b0.isLt
  have high : b1.toNat < 256 := b1.isLt
  have two : fld q.cfg 16 16 = (q.cfg.getLsbD 16).toNat := by
    rw [fld, BitVec.getLsbD, Nat.toNat_testBit, Nat.shiftRight_eq_div_pow]
    rfl
  have data : BitVec.ofNat 16 (leNat ((List.range (1 + fld q.cfg 16 16)).map (fun i => nth [b0, b1] i 0xFF)))
      = if q.cfg.getLsbD 16 then b1 ++ b0 else b0.setWidth 16 := by
    apply BitVec.eq_of_toNat_eq
    rw [two]
    cases q.cfg.getLsbD 16
    · simp [leNat, nth, List.range_succ]
    · simp [leNat, nth, List.range_succ]
      rw [Nat.mod_eq_of_lt (by omega), BitVec.toNat_append, Nat.shiftLeft_eq, Nat.mul_comm b1.toNat,
        ← Nat.two_pow_add_eq_or_of_lt low]
      omega
  unfold PollSt.take
  simp only [data]
  exact if_neg (by rw [bitAt, plain]; exact Bool.false_ne_true)

/-! ## A poll period ends (R306, log entry 110) -/

/-- A poll that is on and neither runs nor waits starts, or joins the waiting ones. -/
theorem State.pollDue_eq (on : (s.poll k).cfg.getLsbD 31 = true) (other : s.twb.loc.job ≠ some (.poll k)) (fresh : k ∉ s.twb.due) :
    s.pollDue k o d = if s.twb.loc.job.isSome then { s with twb := { s.twb with due := s.twb.due ++ [k] } }
      else (s.setPort .loc (fun t => { t with job := some (.poll k), tries := 0 })).pollTry k o d := by
  have active : bitAt (nth s.twb.polls k ⟨0, 0, false, false, 0⟩).cfg 31 = true := on
  refine if_neg ?_
  rw [active]
  simp [other, fresh]

theorem State.pollDue_first (on : (s.poll k).cfg.getLsbD 31 = true) (idle : s.twb.loc.job = none) (fresh : k ∉ s.twb.due) :
    s.pollDue k o d = (s.setPort .loc (fun t => { t with job := some (.poll k), tries := 0 })).pollTry k o d :=
  (State.pollDue_eq on (by simp [idle]) fresh).trans (if_neg (by simp [idle]))

theorem State.pollDue_waits (on : (s.poll k).cfg.getLsbD 31 = true) (busy : s.twb.loc.job ≠ none)
    (other : s.twb.loc.job ≠ some (.poll k)) (fresh : k ∉ s.twb.due) :
    s.pollDue k o d = { s with twb := { s.twb with due := s.twb.due ++ [k] } } :=
  (State.pollDue_eq on other fresh).trans (if_pos (Option.isSome_iff_ne_none.mpr busy))

theorem State.pollDue_skipped (busy : s.twb.loc.job = some (.poll k) ∨ k ∈ s.twb.due) : s.pollDue k o d = s :=
  if_pos (by rcases busy with h | h <;> simp [h])

end

/-- Settles O54, clause by clause from the rules of the stream, the Alert Response, the Host Notify and the polls. -/
theorem twbStream : Obligations.TwbStream := by
  refine ⟨?read, ?fill, ?phase, ?expiry, ?seek, ?alert, ?notify, ?poll⟩
  case read =>
    intro p addr g s answered idle
    exact ⟨twbA1Read_of_claimed answered idle, twbA1Read_of_refused answered idle⟩
  case fill =>
    intro p r s up open_ unfilled
    have filled := State.a1Fill_of_unfilled open_ unfilled
    refine ⟨_, s.filledRead p r, congrArg Host.Outcome.next ((if_pos up).trans filled), by rw [State.setPort_port], rfl, rfl,
      ⟨?_, State.filledRead_first r, decide_eq_true_iff, ?_⟩, by rw [State.setPort_port]⟩
    · rcases r with ⟨_ | _, rest⟩ <;> rfl
    · rw [State.filledRead, List.length_map]
      exact decide_eq_true_iff
  case phase =>
    intro p addr again stop s answered
    refine ⟨_, congrArg Host.Outcome.next (if_pos answered), ?_, ?_, ?_⟩
    · by_cases stays : ∀ r, (s.port p).read = some r → r.filled = false ∨ stop = false
      · rw [State.a1Phase_stays stays, State.setPort_port]
      · push Not at stays
        obtain ⟨r, open_, filled, stopped⟩ := stays
        obtain rfl : stop = true := eq_true_of_ne_false stopped
        rw [State.a1Phase_advances open_ (eq_true_of_ne_false filled)]
        cases p <;> cases r.ring <;> rfl
    · rintro r open_ filled rfl
      rw [State.a1Phase_advances open_ filled]
      cases p <;> cases r.ring <;> exact ⟨rfl, rfl, rfl, rfl⟩
    · intro stays
      rw [State.a1Phase_stays stays, State.setPort_port]
  case expiry =>
    intro p r s up open_
    refine ⟨fun filled => congrArg Host.Outcome.next ((if_pos ?_).trans (State.dropRead_of_some open_)),
      fun unfilled => congrArg Host.Outcome.next (if_neg ?_)⟩
    · simp [up, open_, filled]
    · simp [open_, unfilled]
  case seek =>
    intro p addr g seq s answered idle
    have sought : ∀ n, (if s.answers p 1 addr false then s.a1Seek p g n true else s)
        = s.setPort p (fun t => t.setCursor g (max (s.oldSeq g) (min n (s.nextSeq g)))) :=
      fun n => (if_pos answered).trans (State.a1Seek_of_idle idle)
    refine ⟨congrArg Host.Outcome.next (sought _), ?_, fun ordered => ?_, fun pec => ?_⟩
    · refine congrArg Host.Outcome.next ((sought 0).trans ?_)
      rw [Nat.zero_min, Nat.max_zero]
    · refine congrArg Host.Outcome.next ((sought (s.nextSeq g)).trans ?_)
      rw [Nat.min_self, Nat.max_eq_right ordered]
    · refine congrArg Host.Outcome.next ((if_pos answered).trans (if_pos ?_))
      rw [TwbPort.pec_eq, pec]
      rfl
  case alert =>
    intro other s up pending
    exact ⟨fun won => ⟨_, congrArg Host.Outcome.next (State.alertResponse_won up pending won), rfl, rfl, s.alertBytes_head, rfl⟩,
      fun a won lower => congrArg Host.Outcome.next (State.alertResponse_lost lower won)⟩
  case notify =>
    intro src cnt o d s up job
    refine ⟨?_, fun failed again => ?_, fun failed last => ?_⟩
    · rintro rfl
      exact (exec_notify up job).trans (congrArg Host.Outcome.next (State.notifyTry_acknowledged job))
    · exact (exec_notify up job).trans (congrArg Host.Outcome.next (State.notifyTry_failed job failed again))
    · exact (exec_notify up job).trans (congrArg Host.Outcome.next (State.notifyTry_abandoned job failed last))
  case poll =>
    rintro k b0 b1 q s up four rfl on plain
    have inTable : k.val < s.twb.polls.length := by
      rw [four]
      exact k.isLt
    have due : ∀ o d, exec (.twbPollDue k o d) s = .next (s.pollDue k o d) := fun o d => congrArg Host.Outcome.next (if_pos up)
    have retry : s.twb.loc.job = some (.poll k) → exec (.twbControllerRetry .loc .nack []) s = .next (s.pollTry k .nack []) := by
      intro job
      refine congrArg Host.Outcome.next ((if_pos up).trans ?_)
      rw [State.retryJob, show (s.port .loc).job = _ from job]
    refine ⟨fun idle fresh => ?_, fun idle fresh => ?_, fun job again => ?_, fun job last => ?_, fun busy => ?_,
      fun busy other fresh => ?_⟩
    · refine ⟨_, (due _ _).trans (congrArg Host.Outcome.next ((State.pollDue_first on idle fresh).trans
        (State.pollTry_acknowledged rfl))), ?_, fun m other => ?_, rfl⟩
      · exact (nth_upd_self inTable _ _).trans (PollSt.take_eq plain)
      · exact nth_upd_ne _ other _ _
    · exact (due _ _).trans (congrArg Host.Outcome.next ((State.pollDue_first on idle fresh).trans
        (State.pollTry_failed rfl (by exact Nat.zero_lt_succ 7))))
    · exact (retry job).trans (congrArg Host.Outcome.next (State.pollTry_failed job again))
    · exact ⟨_, (retry job).trans (congrArg Host.Outcome.next (State.pollTry_abandoned job (le_of_eq last.symm))),
        nth_upd_self inTable _ _, rfl, rfl, rfl⟩
    · exact (due _ _).trans (congrArg Host.Outcome.next (State.pollDue_skipped busy))
    · exact (due _ _).trans (congrArg Host.Outcome.next (State.pollDue_waits on busy other fresh))

end Sys2Proof.Machine

/-! SUPPORT. Lines of the console and its tunnels (O55): what output on a session leaves, characters, terminators, and the A2
transactions. -/

namespace Sys2Proof.Machine
open Sys2Proof

/-! ## What output on a session leaves (R315, R323, R326) -/

/-- A session with its output, its waiting lines and what they bring about blanked. -/
def SessSt.unsent (t : SessSt) : SessSt :=
  { t with out := [], resp := [], backlog := [], lost := 0, lastNn := none, lastFinal := [], ending := none }

/-- The state with the output of session `x`, the counts of lost lines and the event unit blanked: output leaves the rest. -/
def State.unsent (s : State) (x : Sess) : State :=
  let u := s.setSes x SessSt.unsent
  { u with con := { u.con with dropped := 0, reported := 0 }, evt := Evt.fresh }

section
variable (s : State) (x : Sess)

theorem State.setSes_setSes (f g : SessSt → SessSt) : (s.setSes x f).setSes x g = s.setSes x (fun t => g (f t)) := by
  cases x <;> rfl

theorem State.setSes_const (f : SessSt → SessSt) : s.setSes x f = s.setSes x (fun _ => f (s.ses x)) := by
  cases x <;> rfl

/-- Only what becomes of the session's own value counts. -/
theorem State.setSes_congr {s : State} {x : Sess} {f g : SessSt → SessSt} (same : f (s.ses x) = g (s.ses x)) :
    s.setSes x f = s.setSes x g := by
  rw [State.setSes_const _ _ f, State.setSes_const _ _ g, same]

theorem State.setSes_of_eq {s : State} {x : Sess} {f : SessSt → SessSt} (same : f (s.ses x) = s.ses x) : s.setSes x f = s :=
  (State.setSes_congr (g := id) same).trans (by cases x <;> rfl)

theorem State.setSes_ses_ne {x y : Sess} (other : y ≠ x) (f : SessSt → SessSt) : (s.setSes x f).ses y = s.ses y := by
  cases x <;> cases y <;> simp at other <;> rfl

theorem State.setSes_unsent {f : SessSt → SessSt} (silent : (f (s.ses x)).unsent = (s.ses x).unsent) :
    (s.setSes x f).unsent x = s.unsent x := by
  have same : (s.setSes x f).setSes x SessSt.unsent = s.setSes x SessSt.unsent :=
    (s.setSes_setSes x f _).trans (State.setSes_congr silent)
  unfold State.unsent
  rw [same]

@[simp] theorem State.conEcho_unsent (l : Text) : (s.conEcho x l).unsent x = s.unsent x := by
  unfold State.conEcho
  split
  · rfl
  · exact s.setSes_unsent x rfl

/-- Counts of lost lines and events do not show. -/
theorem State.raise_unsent {n : Nat} (power : n < 24 ∨ 31 < n) (hoard : n < 48 ∨ 55 < n) (a : BitVec 24) :
    (s.raise n a).unsent x = s.unsent x := by
  obtain ⟨e, raised⟩ := s.raise_unlatched power hoard a
  rw [raised]
  cases x <;> rfl

theorem State.sendLost_unsent : (s.sendLost x).unsent x = s.unsent x := by
  unfold State.sendLost
  dsimp only
  split
  · rfl
  split
  · rfl
  rw [State.raise_unsent _ _ (by omega) (by omega)]
  refine Eq.trans ?_ (s.setSes_unsent x (f := fun t => { t with
    out := t.out ++ (breakIn (s.ses x) ++ lineText (s.ses x) (tx "!lost " ++ dec (s.ses x).lost) ++ reprompt (s.ses x)), lost := 0 }) rfl)
  cases x <;> rfl

theorem State.sendBacklog_unsent : (s.sendBacklog x).unsent x = s.unsent x := by
  unfold State.sendBacklog
  dsimp only
  split
  · rfl
  split
  · rfl
  exact s.setSes_unsent x rfl

@[simp] theorem State.pump_unsent : (s.pump x).unsent x = s.unsent x := by
  unfold State.pump
  dsimp only
  split
  · exact s.setSes_unsent x rfl
  · rw [State.sendBacklog_unsent, State.sendLost_unsent]
    exact s.setSes_unsent x rfl

@[simp] theorem State.answer_unsent (l : Text) : (s.answer x l).unsent x = s.unsent x :=
  (State.pump_unsent _ x).trans (s.setSes_unsent x rfl)

/-- What a blanked output still tells. -/
theorem State.of_unsent {s t : State} {x : Sess} (h : t.unsent x = s.unsent x) :
    (t.ses x).unsent = (s.ses x).unsent ∧ (∀ y, y ≠ x → t.ses y = s.ses y) ∧ t.con.queue = s.con.queue
    ∧ t.con.exec = s.con.exec ∧ t.con.cfg = s.con.cfg ∧ t.con.revertTo = s.con.revertTo
    ∧ t.con.errCrc = s.con.errCrc ∧ t.con.errBusy = s.con.errBusy ∧ t.nv = s.nv ∧ t.nvs = s.nvs := by
  have own : ∀ u : State, (u.unsent x).ses x = (u.ses x).unsent := fun u => by cases x <;> rfl
  have others : ∀ u : State, ∀ y, y ≠ x → (u.unsent x).ses y = u.ses y := fun u y other => State.setSes_ses_ne u other _
  have rest : ∀ u : State, ((u.unsent x).con.queue, (u.unsent x).con.exec, (u.unsent x).con.cfg, (u.unsent x).con.revertTo,
      (u.unsent x).con.errCrc, (u.unsent x).con.errBusy, (u.unsent x).nv, (u.unsent x).nvs)
      = (u.con.queue, u.con.exec, u.con.cfg, u.con.revertTo, u.con.errCrc, u.con.errBusy, u.nv, u.nvs) := fun u => by
    cases x <;> rfl
  have kept := rest t
  rw [h, rest s] at kept
  simp only [Prod.mk.injEq] at kept
  refine ⟨(own t).symm.trans ((congrArg (State.ses · x) h).trans (own s)),
    fun y other => (others t y other).symm.trans ((congrArg (State.ses · y) h).trans (others s y other)), ?_⟩
  simp only [kept, and_self]

end

/-! ## Characters (R315, R319) -/

section
variable {s : State} {x : Sess} {c : Byte}

/-- What echoing `l` makes of an output buffer. -/
def echoed (x : Sess) (l out : Text) : Text := if out.length + l.length ≤ outCap x then out ++ l else out

theorem State.conEcho_eq (s : State) (x : Sess) (l : Text) :
    s.conEcho x l = s.setSes x (fun y => { y with out := echoed x l y.out }) := by
  unfold State.conEcho echoed
  split
  · exact (State.setSes_of_eq (by rw [if_neg (by omega)])).symm
  · exact State.setSes_congr (by rw [if_pos (by omega)])

/-- A session after a printable character. -/
def SessSt.printed (x : Sess) (c : Byte) (y : SessSt) : SessSt :=
  if y.tooLong || decide (160 ≤ y.line.length) then { y with tooLong := true }
  else { y with line := y.line ++ [charOf c], out := echoed x [charOf c] y.out }

/-- A session after backspace. -/
def SessSt.erased (x : Sess) (y : SessSt) : SessSt :=
  { y with line := y.line.dropLast, out := if y.line = [] then y.out else echoed x [charOf 8, ' ', charOf 8] y.out }

/-- A session after Ctrl-U. -/
def SessSt.emptied (x : Sess) (y : SessSt) : SessSt :=
  { y with line := [], tooLong := false, out := echoed x (crlf ++ prompt) y.out }

theorem State.typedChar_printable (low : 0x20 ≤ c.toNat) (high : c.toNat ≤ 0x7E) :
    s.typedChar x c = s.setSes x (SessSt.printed x c) := by
  unfold State.typedChar
  simp only [low, high, decide_true, Bool.and_self, if_true]
  split
  · next full => exact State.setSes_congr (if_pos full).symm
  · next room =>
    rw [State.conEcho_eq, State.setSes_setSes]
    exact State.setSes_congr (if_neg room).symm

theorem State.typedChar_backspace (is : c = 8 ∨ c = 0x7F) : s.typedChar x c = s.setSes x (SessSt.erased x) := by
  have erases : (if (s.ses x).line.isEmpty then s
      else (s.setSes x (fun y => { y with line := y.line.dropLast })).conEcho x [charOf 8, ' ', charOf 8])
      = s.setSes x (SessSt.erased x) := by
    split
    · next empty =>
      rw [List.isEmpty_iff] at empty
      refine (State.setSes_of_eq ?_).symm
      rw [SessSt.erased, if_pos empty, empty, List.dropLast_nil, ← empty]
    · next some =>
      rw [List.isEmpty_iff] at some
      rw [State.conEcho_eq, State.setSes_setSes]
      refine State.setSes_congr ?_
      rw [SessSt.erased, if_neg some]
  rcases is with rfl | rfl <;> exact erases

theorem State.typedChar_ctrlU : s.typedChar x 0x15 = s.setSes x (SessSt.emptied x) := by
  refine (State.conEcho_eq _ x _).trans ?_
  rw [State.setSes_setSes]
  rfl

theorem State.typedChar_other (notPrintable : ¬ (0x20 ≤ c.toNat ∧ c.toNat ≤ 0x7E)) (notBack : ¬ (c = 8 ∨ c = 0x7F))
    (notU : c ≠ 0x15) : s.typedChar x c = s := by
  have is : ∀ n : Nat, n < 256 → c ≠ BitVec.ofNat 8 n → c.toNat ≠ n := fun n small ne eq =>
    ne (BitVec.eq_of_toNat_eq (by rw [eq, BitVec.toNat_ofNat, Nat.mod_eq_of_lt small]))
  rw [not_or] at notBack
  unfold State.typedChar
  simp only [Bool.and_eq_true, decide_eq_true_eq, notPrintable, if_false, is 8 (by omega) notBack.1, is 0x7F (by omega) notBack.2,
    is 0x15 (by omega) notU, decide_false, Bool.or_self, Bool.false_eq_true]

theorem State.machineChar_eq : s.machineChar x c = s.setSes x (fun y => { y with
    line := if y.tooLong ∨ 160 ≤ y.line.length then y.line else y.line ++ [charOf c]
    tooLong := y.tooLong || decide (160 ≤ y.line.length) }) := by
  refine State.setSes_congr ?_
  cases long : (s.ses x).tooLong <;> by_cases full : 160 ≤ (s.ses x).line.length <;> simp [full]

/-- A character that ends no line. -/
theorem State.conRx_char (up : s.up = true) (notCr : c ≠ 0x0D) (notLf : c ≠ 0x0A) :
    s.conRx x c = if (s.ses x).machine then (s.setSes x (fun y => { y with afterCr := false })).machineChar x c
      else (s.setSes x (fun y => { y with afterCr := false })).typedChar x c := by
  have cr : (c == 0x0D) = false := by simpa using notCr
  unfold State.conRx State.conOn
  simp only [up, cr, notCr, notLf, if_false, Bool.not_true, Bool.false_eq_true, State.setSes_ses]

end

/-! ## Terminators (R313, R316, R319, R321, R323) -/

section
variable (s : State) (x : Sess)

/-- The line buffer of a session is emptied by a terminator. -/
def State.lineTaken (s : State) (x : Sess) (cr : Bool) : State :=
  let t := s.setSes x (fun y => { y with afterCr := cr, line := [], tooLong := false })
  if x == .uart then { t with con := { t.con with revertTo := none } } else t

theorem State.lineTaken_ses (cr : Bool) :
    (s.lineTaken x cr).ses x = { s.ses x with afterCr := cr, line := [], tooLong := false } := by
  cases x <;> rfl

theorem State.lineTaken_kept (cr : Bool) : (s.lineTaken x cr).con.queue = s.con.queue ∧ (s.lineTaken x cr).con.exec = s.con.exec
    ∧ (s.lineTaken x cr).con.cfg = s.con.cfg ∧ (s.lineTaken x cr).con.errCrc = s.con.errCrc
    ∧ (s.lineTaken x cr).con.errBusy = s.con.errBusy ∧ (s.lineTaken x cr).nv = s.nv ∧ (s.lineTaken x cr).nvs = s.nvs := by
  cases x <;> exact ⟨rfl, rfl, rfl, rfl, rfl, rfl, rfl⟩

theorem State.conRx_terminator {c : Byte} (up : s.up = true) (ends : c = 0x0D ∨ (c = 0x0A ∧ (s.ses x).afterCr = false)) :
    s.conRx x c = if (s.ses x).machine then (s.lineTaken x (c == 0x0D)).machineEnd x (s.ses x).line (s.ses x).tooLong
      else (s.lineTaken x (c == 0x0D)).typedEnd x (s.ses x).line (s.ses x).tooLong := by
  have line : (s.setSes x (fun y => { y with afterCr := c == 0x0D })).lineEnd x
      = if (s.ses x).machine then (s.lineTaken x (c == 0x0D)).machineEnd x (s.ses x).line (s.ses x).tooLong
        else (s.lineTaken x (c == 0x0D)).typedEnd x (s.ses x).line (s.ses x).tooLong := by
    rw [State.lineEnd, State.setSes_setSes, State.setSes_ses]
    rfl
  unfold State.conRx State.conOn
  rcases ends with rfl | ⟨rfl, after⟩
  · simpa [up] using line
  · simpa [up, after] using line

/-- What a line does to the queue and the counts of refused lines. -/
structure LineTally where
  queue : List (Req × Text)
  busy : BitVec 16
  crc : BitVec 16

/-- The queue and the counts as they stand. -/
def State.tally (s : State) : LineTally := ⟨s.con.queue, s.con.errBusy, s.con.errCrc⟩

/-- The state with another queue and other counts. -/
def State.counted (s : State) (y : LineTally) : State :=
  { s with con := { s.con with queue := y.queue, errBusy := y.busy, errCrc := y.crc } }

theorem State.counted_unsent {s t : State} {x : Sess} {y : LineTally} (same : t.unsent x = s.unsent x) :
    (t.counted y).unsent x = (s.counted y).unsent x := by
  have outer : ∀ u : State, (u.counted y).unsent x = (u.unsent x).counted y := fun u => by cases x <;> rfl
  rw [outer, outer, same]

/-- A line finds room in the queue of 4, or counts as busy (R323). -/
def LineTally.queued (y : LineTally) (e : Req × Text) : LineTally :=
  if 4 ≤ y.queue.length then { y with busy := satAdd y.busy 1 } else { y with queue := y.queue ++ [e] }

theorem LineTally.queued_of_full {y : LineTally} {e : Req × Text} (full : 4 ≤ y.queue.length) :
    y.queued e = { y with busy := satAdd y.busy 1 } := if_pos full

theorem LineTally.queued_of_room {y : LineTally} {e : Req × Text} (room : y.queue.length < 4) :
    y.queued e = { y with queue := y.queue ++ [e] } := if_neg (Nat.not_le.mpr room)

/-- A refused line counts (R321). -/
def LineTally.refused (y : LineTally) : LineTally := { y with crc := satAdd y.crc 1 }

/-- The tally after a machine line. -/
def LineTally.machineLine (y : LineTally) (x : Sess) (l : Text) (long : Bool) : LineTally :=
  if long then y.refused else match machineForm l with
  | some (nn, c, true) => y.queued (⟨x, some nn⟩, c)
  | _ => y.refused

/-- The tally after a typed line. -/
def LineTally.typedLine (y : LineTally) (x : Sess) (l : Text) (long : Bool) : LineTally :=
  if long || (wordsOf l).isEmpty then y else y.queued (⟨x, none⟩, l)

theorem State.conQueue_unsent (nn : Option (BitVec 8)) (l : Text) :
    (s.conQueue x nn l).unsent x = (s.counted (s.tally.queued (⟨x, nn⟩, l))).unsent x := by
  by_cases full : 4 ≤ s.con.queue.length
  · rw [State.conQueue, if_pos full, LineTally.queued_of_full full]
    exact State.answer_unsent _ x _
  · rw [State.conQueue, if_neg full, LineTally.queued_of_room (Nat.not_le.mp full)]
    rfl

theorem State.conRefuse_unsent (l : Text) : (s.conRefuse x l).unsent x = (s.counted s.tally.refused).unsent x :=
  State.answer_unsent _ x l

theorem State.machineEnd_unsent (l : Text) (long : Bool) :
    (s.machineEnd x l long).unsent x = (s.counted (s.tally.machineLine x l long)).unsent x := by
  unfold State.machineEnd LineTally.machineLine
  split
  · exact s.conRefuse_unsent x _
  · cases machineForm l with
    | none => exact s.conRefuse_unsent x _
    | some form =>
      obtain ⟨nn, c, ok⟩ := form
      cases ok
      · exact s.conRefuse_unsent x _
      · exact s.conQueue_unsent x _ _

theorem State.typedEnd_unsent (l : Text) (long : Bool) :
    (s.typedEnd x l long).unsent x = (s.counted (s.tally.typedLine x l long)).unsent x := by
  have echo : (s.conEcho x crlf).tally = s.tally := by
    unfold State.conEcho
    split <;> cases x <;> rfl
  unfold State.typedEnd LineTally.typedLine
  cases long
  · simp only [Bool.false_eq_true, if_false, Bool.false_or]
    split
    · rw [State.conEcho_unsent, State.conEcho_unsent]
      rfl
    · rw [State.conQueue_unsent, echo]
      exact State.counted_unsent (s.conEcho_unsent x crlf)
  · simp only [if_true, Bool.true_or]
    rw [State.answer_unsent, State.conEcho_unsent]
    rfl

end

section
variable {s : State} {x : Sess} {c : Byte}

/-- What a terminator makes of a session's line. -/
def State.lineTally (s : State) (x : Sess) : LineTally :=
  if (s.ses x).machine then s.tally.machineLine x (s.ses x).line (s.ses x).tooLong
  else s.tally.typedLine x (s.ses x).line (s.ses x).tooLong

theorem State.conRx_terminator_unsent (up : s.up = true) (ends : c = 0x0D ∨ (c = 0x0A ∧ (s.ses x).afterCr = false)) :
    (s.conRx x c).unsent x = ((s.lineTaken x (c == 0x0D)).counted (s.lineTally x)).unsent x := by
  have tally : (s.lineTaken x (c == 0x0D)).tally = s.tally := by cases x <;> rfl
  rw [s.conRx_terminator x up ends, State.lineTally, ← tally]
  split
  · exact State.machineEnd_unsent _ _ _ _
  · exact State.typedEnd_unsent _ _ _ _

theorem State.lineTally_of_typed (s : State) {x : Sess} (typed : (s.ses x).machine = false) :
    s.lineTally x = s.tally.typedLine x (s.ses x).line (s.ses x).tooLong :=
  if_neg (by simp [typed])

theorem LineTally.typedLine_of_words {y : LineTally} {l : Text} {long : Bool} (short : long = false) (words : wordsOf l ≠ []) :
    y.typedLine x l long = y.queued (⟨x, none⟩, l) :=
  if_neg (by simp [short, words])

/-- A full queue takes no line, whatever it is. -/
theorem State.lineTally_queue_of_full (s : State) (x : Sess) (full : 4 ≤ s.con.queue.length) :
    (s.lineTally x).queue = s.con.queue := by
  have queued : ∀ e, (s.tally.queued e).queue = s.con.queue := fun e => by
    rw [LineTally.queued_of_full full]
    rfl
  unfold State.lineTally LineTally.machineLine LineTally.typedLine
  split
  · split
    · rfl
    · split
      · exact queued _
      · rfl
  · split
    · rfl
    · exact queued _

/-- A typed line that joins the queue moves the console alone. -/
theorem State.conRx_queues (up : s.up = true) (ends : c = 0x0D ∨ (c = 0x0A ∧ (s.ses x).afterCr = false))
    (typed : (s.ses x).machine = false) (short : (s.ses x).tooLong = false) (words : wordsOf (s.ses x).line ≠ [])
    (room : s.con.queue.length < 4) : ∃ k, s.conRx x c = { s with con := k } := by
  have free : ¬ 4 ≤ ((s.lineTaken x (c == 0x0D)).conEcho x crlf).con.queue.length := by
    rw [State.conEcho_eq]
    cases x <;> exact Nat.not_le.mpr room
  rw [s.conRx_terminator x up ends, if_neg (by simp [typed]), short, State.typedEnd, if_neg Bool.false_ne_true,
    if_neg (by simpa using words), State.conQueue, if_neg free, State.conEcho_eq]
  cases x <;> exact ⟨_, rfl⟩

end

/-! ## Output that waits for nothing (R313, R318) -/

section
variable {s : State} {x : Sess}

/-- Nothing waits on a session and no final line is still to take effect. -/
structure State.Drained (s : State) (x : Sess) : Prop where
  resp : (s.ses x).resp = []
  backlog : (s.ses x).backlog = []
  lost : (s.ses x).lost = 0

theorem State.pump_of_drained (done : s.Drained x) : s.pump x = s := by
  obtain ⟨resp, backlog, lost⟩ := done
  have same : s.setSes x (fun t => { t with out := (s.ses x).out, resp := [] }) = s :=
    State.setSes_of_eq (by rw [← resp])
  have noLost : s.sendLost x = s := if_pos lost
  have noBacklog : s.sendBacklog x = s := if_pos (by simp [backlog])
  unfold State.pump
  simp only [resp, fillOut, same, noLost, noBacklog, ite_self]

end

/-! ## Tunnels (R299, R300) -/

section
variable {s : State} {p : Port} {addr : BitVec 7}

theorem State.pool_port (s : State) (q : Pool) (p : Port) : ({ s with pool := q } : State).port p = s.port p := by
  cases p <;> rfl

theorem State.a2Write_of_refused {bs : List Byte} {stop : Bool} (answered : s.answers p 2 addr false = true) (some : bs ≠ [])
    (refused : (s.pool.claim (portHolder p)).2 = false) :
    s.a2Write p addr bs stop = { s with pool := (s.pool.claim (portHolder p)).1 }.setPort p
      (fun t => { t with busyCount := satAdd t.busyCount 1 }) := by
  cases bs with
  | nil => exact absurd rfl some
  | cons n cs =>
    unfold State.a2Write
    rw [if_neg (by simp [answered])]
    exact if_pos (by rw [refused]; rfl)

/-- The bytes of a whole frame: its data, and the PEC where that is on. -/
def State.frame (s : State) (p : Port) (addr : BitVec 7) (bs : List Byte) : List Byte :=
  bs ++ (if (s.port p).cfg.getLsbD 0 then [pecOf (addrByte addr false :: bs)] else [])

theorem State.frame_length (bs : List Byte) : (s.frame p addr bs).length = bs.length + (s.port p).pec.toNat := by
  rw [State.frame, List.length_append, TwbPort.pec_eq]
  cases (s.port p).cfg.getLsbD 0 <;> rfl

theorem State.frame_pecGood (bs : List Byte) : pecGood (s.port p).pec addr (s.frame p addr bs) = true := by
  rw [pecGood, State.frame, TwbPort.pec_eq]
  cases (s.port p).cfg.getLsbD 0
  · rfl
  · simp

theorem State.a2Write_of_frame {n : Byte} {cs : List Byte} (answered : s.answers p 2 addr false = true)
    (claimed : (s.pool.claim (portHolder p)).2 = true) (low : 1 ≤ n.toNat) (high : n.toNat ≤ 32) (len : cs.length = n.toNat) :
    s.a2Write p addr (s.frame p addr (n :: cs)) true = cs.foldl (fun u c => u.conRx (portSess p) c)
      { s with pool := (s.pool.claim (portHolder p)).1.free (portHolder p) } := by
  have shape : s.frame p addr (n :: cs)
      = n :: (cs ++ if (s.port p).cfg.getLsbD 0 then [pecOf (addrByte addr false :: n :: cs)] else []) := rfl
  have good := s.frame_pecGood (p := p) (addr := addr) (n :: cs)
  have length := s.frame_length (p := p) (addr := addr) (n :: cs)
  rw [shape, List.length_cons, List.length_cons, Nat.add_right_comm, Nat.succ_inj, len] at length
  rw [shape] at good ⊢
  have shaped : (!(decide (1 ≤ n.toNat) && decide (n.toNat ≤ 32)
      && (cs ++ if (s.port p).cfg.getLsbD 0 then [pecOf (addrByte addr false :: n :: cs)] else []).length
        == n.toNat + (s.port p).pec.toNat && true)) = false := by
    rw [length]
    simp [low, high]
  have checked := congrArg not good
  unfold State.a2Write
  rw [if_neg (by simp [answered])]
  dsimp only
  rw [if_neg (by simp [claimed]), State.pool_port s ((s.pool.claim (portHolder p)).1.free (portHolder p)), if_neg (fun bad => Bool.false_ne_true (shaped.symm.trans bad)),
    if_neg (fun bad => Bool.false_ne_true (checked.symm.trans bad)), List.take_left' len]

/-- The bytes of an A2 read. -/
def State.a2Bytes (s : State) (p : Port) (addr : BitVec 7) : List Byte :=
  let cs := (s.ses (portSess p)).out.take 32
  let body := BitVec.ofNat 8 cs.length :: cs.map (fun c => BitVec.ofNat 8 c.toNat)
  if (s.port p).cfg.getLsbD 0 then body ++ [pecOf (addrByte addr true :: body)] else body

theorem State.a2Read_eq {stop : Bool} (answered : s.answers p 2 addr true = true) :
    s.a2Read p addr stop =
      let t := s.setPort p (fun t => { t with sent := s.a2Bytes p addr })
      if stop then (t.setSes (portSess p) (fun t => { t with
        out := t.out.drop ((s.ses (portSess p)).out.take 32).length })).conSent (portSess p) else t := by
  have sent : s.setPort p (fun t => { t with sent := s.a2Bytes p addr }) = s.setPort p (fun t => { t with
      sent :=
        let body := BitVec.ofNat 8 ((s.ses (portSess p)).out.take 32).length :: ((s.ses (portSess p)).out.take 32).map byteOf
        if t.pec then body ++ [pecOf (addrByte addr true :: body)] else body }) := State.setPort_congr rfl
  rw [sent]
  exact if_neg (by simp [answered])

/-- A tunnel that has nothing waiting: what is sent leaves the output buffer, and nothing takes its place. -/
theorem State.conSent_of_drained {x : Sess} (up : s.up = true) (tunnel : x ≠ .uart) (done : s.Drained x)
    (quiet : (s.ses x).ending = none) : s.conSent x = s.conRelease := by
  have same : s.setSes x (fun t => { t with ending := none }) = s := State.setSes_of_eq (by rw [← quiet])
  have ends : s.conEnding x = s := by
    unfold State.conEnding
    simp only [same, quiet]
  unfold State.conSent State.conOn
  simp only [up, Bool.not_true, Bool.false_eq_true, if_false, ends, ite_self, beq_iff_eq, tunnel, State.pump_of_drained done]

theorem State.conRelease_form (s : State) : ∃ q, s.conRelease = { s with pool := q } := by
  unfold State.conRelease
  split
  · exact ⟨_, rfl⟩
  · exact ⟨s.pool, rfl⟩

end

theorem State.a2Read_delivers {s : State} {p : Port} {addr : BitVec 7} (answered : s.answers p 2 addr true = true)
    (done : s.Drained (portSess p)) (quiet : (s.ses (portSess p)).ending = none) :
    ∃ q, s.a2Read p addr true = { (s.setPort p (fun t => { t with sent := s.a2Bytes p addr })).setSes (portSess p)
      (fun t => { t with out := t.out.drop 32 }) with pool := q } := by
  obtain ⟨resp, backlog, lost⟩ := done
  rw [State.a2Read_eq answered]
  dsimp only
  rw [if_pos rfl, State.conSent_of_drained]
  · obtain ⟨q, released⟩ := State.conRelease_form ((s.setPort p (fun t => { t with sent := s.a2Bytes p addr })).setSes (portSess p)
      (fun t => { t with out := t.out.drop ((s.ses (portSess p)).out.take 32).length }))
    have short : (s.ses (portSess p)).out.drop ((s.ses (portSess p)).out.take 32).length = (s.ses (portSess p)).out.drop 32 := by
      rw [List.length_take]
      by_cases all : 32 ≤ (s.ses (portSess p)).out.length
      · rw [Nat.min_eq_left all]
      · rw [Nat.min_eq_right (by omega), List.drop_length, List.drop_eq_nil_of_le (by omega)]
    have same : ∀ u : State, u.ses (portSess p) = s.ses (portSess p) → u.setSes (portSess p) (fun t => { t with
        out := t.out.drop ((s.ses (portSess p)).out.take 32).length }) = u.setSes (portSess p) (fun t => { t with out := t.out.drop 32 }) :=
      fun u own => State.setSes_congr (by rw [own, short])
    exact ⟨q, by rw [released, same _ (by cases p <;> rfl)]⟩
  · have up := State.up_of_answers answered
    cases p <;> exact up
  · cases p <;> decide
  · cases p <;> exact ⟨resp, backlog, lost⟩
  · cases p <;> exact quiet

/-- Settles O55, from the rules of characters, terminators, the queue and the tunnels. -/
theorem consoleLines : Obligations.ConsoleLines := by
  refine ⟨?typed, ?machine, ?lf, ?ends, ?execute, ?idle, ?a2Write, ?a2Refused, ?a2Read⟩
  case typed =>
    intro x c s up typed notCr notLf
    refine congrArg Host.Outcome.next ((State.conRx_char up notCr notLf).trans ((if_neg (by simp [typed])).trans ?_))
    by_cases printable : 0x20 ≤ c.toNat ∧ c.toNat ≤ 0x7E
    · rw [State.typedChar_printable printable.1 printable.2, State.setSes_setSes]
      refine State.setSes_congr ?_
      simp only [printable, and_self, if_true, SessSt.printed, Bool.or_eq_true, decide_eq_true_eq]
      by_cases full : (s.ses x).tooLong = true ∨ 160 ≤ (s.ses x).line.length
      · have long : ((s.ses x).tooLong || decide (160 ≤ (s.ses x).line.length)) = true := by simpa using full
        simp only [full, long, if_true]
      · have short : (s.ses x).tooLong = false ∧ ¬ 160 ≤ (s.ses x).line.length := by simpa using full
        simp only [short, decide_false, Bool.or_self]
        rfl
    · simp only [printable, if_false]
      by_cases back : c = 8 ∨ c = 0x7F
      · rw [State.typedChar_backspace back, State.setSes_setSes]
        refine State.setSes_congr ?_
        have notU : (c != 0x15) = true := by rcases back with rfl | rfl <;> rfl
        simp only [back, if_true, notU, Bool.and_true]
        rfl
      · by_cases ctrlU : c = 0x15
        · subst ctrlU
          rw [State.typedChar_ctrlU, State.setSes_setSes]
          refine State.setSes_congr ?_
          simp [SessSt.emptied, echoed]
        · rw [State.typedChar_other printable back ctrlU]
          refine State.setSes_congr ?_
          have notU : (c != 0x15) = true := bne_iff_ne.mpr ctrlU
          simp only [if_neg back, if_neg ctrlU, notU, Bool.and_true]
  case machine =>
    intro x c s up machine notCr notLf
    refine congrArg Host.Outcome.next ((State.conRx_char up notCr notLf).trans ((if_pos machine).trans ?_))
    rw [State.machineChar_eq, State.setSes_setSes]
    rfl
  case lf =>
    intro x s up after
    refine congrArg Host.Outcome.next ((if_pos rfl).trans ?_)
    unfold State.conRx State.conOn
    simp [up, after]
  case ends =>
    intro x c s up ends
    have row : exec (.conLine x c) s = .next (s.conRx x c) := by
      refine congrArg Host.Outcome.next (if_pos ?_)
      rcases ends with rfl | ⟨rfl, -⟩ <;> rfl
    obtain ⟨queue, exec_, cfg, crc, busy, nv, nvs⟩ := s.lineTaken_kept x (c == 0x0D)
    obtain ⟨own, -, queue', exec', cfg', revert, crc', busy', nv', nvs'⟩ := State.of_unsent (State.conRx_terminator_unsent up ends)
    have line : ((s.conRx x c).ses x).unsent = SessSt.unsent { s.ses x with afterCr := c == 0x0D, line := [], tooLong := false } :=
      own.trans (congrArg SessSt.unsent (Eq.trans (by cases x <;> rfl) (s.lineTaken_ses x (c == 0x0D))))
    have mode := congrArg SessSt.machine line
    refine ⟨_, row, rfl, congrArg SessSt.line line, congrArg SessSt.tooLong line, mode, ?revert,
      nv'.trans nv, nvs'.trans nvs, exec'.trans exec_, cfg'.trans cfg, ?queued, ?ignored, ?machine, ?refused, ?full⟩
    case revert =>
      rintro rfl
      exact revert
    case queued =>
      intro typed short words room
      obtain ⟨k, moved⟩ := State.conRx_queues up ends typed short words room
      refine ⟨queue'.trans ?_, by rw [moved]⟩
      rw [State.counted, s.lineTally_of_typed typed, LineTally.typedLine_of_words short words, LineTally.queued_of_room room]
      rfl
    case ignored =>
      intro typed none_
      refine queue'.trans ?_
      rw [State.counted, s.lineTally_of_typed typed, LineTally.typedLine, if_pos (by rcases none_ with h | h <;> simp [h])]
      rfl
    case machine =>
      intro nn l machine short form room
      have tally : s.lineTally x = s.tally.queued (⟨x, some nn⟩, l) := by
        rw [State.lineTally, if_pos machine, LineTally.machineLine, short, form]
        rfl
      rw [LineTally.queued_of_room room] at tally
      exact ⟨queue'.trans (congrArg LineTally.queue tally), crc'.trans (congrArg LineTally.crc tally)⟩
    case refused =>
      intro machine bad
      have tally : s.lineTally x = s.tally.refused := by
        rw [State.lineTally, if_pos machine, LineTally.machineLine]
        rcases bad with long | none_ | ⟨nn, l, form⟩
        · rw [long]
          rfl
        · rw [none_]
          exact ite_self _
        · rw [form]
          exact ite_self _
      exact ⟨queue'.trans (congrArg LineTally.queue tally), crc'.trans (congrArg LineTally.crc tally)⟩
    case full =>
      intro full
      refine ⟨queue'.trans (s.lineTally_queue_of_full x full), fun typed short words => busy'.trans ?_⟩
      rw [State.counted, s.lineTally_of_typed typed, LineTally.typedLine_of_words short words, LineTally.queued_of_full full]
      rfl
  case execute =>
    intro rq l q w k s up idle queue parsed
    refine congrArg Host.Outcome.next ?_
    unfold State.conExecute State.conOn
    simp only [queue, up, idle, parsed, Bool.not_true, Bool.or_self, Bool.false_eq_true, if_false]
  case idle =>
    intro s waits
    refine congrArg Host.Outcome.next ?_
    unfold State.conExecute
    cases queue : s.con.queue with
    | nil => rfl
    | cons e q =>
      have busy : s.conIdle = false := waits.resolve_left (by simp [queue])
      simp [busy]
  case a2Write =>
    intro p addr n cs s answered claimed low high len
    exact congrArg Host.Outcome.next (State.a2Write_of_frame answered claimed low high len)
  case a2Refused =>
    intro p addr bs stop s answered some refused
    exact congrArg Host.Outcome.next (State.a2Write_of_refused answered some refused)
  case a2Read =>
    intro p addr s answered
    refine ⟨congrArg Host.Outcome.next (State.a2Read_eq answered), fun resp backlog lost quiet => ?_⟩
    obtain ⟨q, read⟩ := State.a2Read_delivers answered ⟨resp, backlog, lost⟩ quiet
    refine ⟨_, congrArg Host.Outcome.next read, ?_, ?_, ?_⟩ <;> cases p <;> rfl

end Sys2Proof.Machine

/-! SUPPORT. Sessions of the console (O56): break, revert, cut responses, asynchronous lines and the end of an unlock. -/

namespace Sys2Proof.Machine
open Sys2Proof

/-! ## The end of an unlock (R331) -/

section
variable {s : State} {x : Sess}

theorem State.endUnlock_of_locked (locked : (s.ses x).unlocked = false) : s.endUnlock x = s := if_neg (by simp [locked])

theorem State.endUnlock_form (s : State) (x : Sess) :
    ∃ e, s.endUnlock x = { s.setSes x (fun t => { t with unlocked := false }) with evt := e }
      ∧ ((s.ses x).unlocked = false → e = s.evt) := by
  cases unlocked : (s.ses x).unlocked with
  | false =>
    have same : s.setSes x (fun t => { t with unlocked := false }) = s := State.setSes_of_eq (by rw [← unlocked])
    exact ⟨s.evt, by rw [State.endUnlock_of_locked unlocked, same], fun _ => rfl⟩
  | true =>
    obtain ⟨e, raised⟩ := (s.setSes x (fun t => { t with unlocked := false })).raise_unlatched (n := 59) (by omega) (by omega) 0
    exact ⟨e, (if_pos unlocked).trans raised, fun locked => absurd locked (by simp)⟩

/-! ## The break (R314) -/

/-- A session as a reset leaves it, and what it had waiting is gone. -/
theorem State.resetSes_form (s : State) (x : Sess) :
    ∃ e, s.resetSes x = { s.setSes x (fun _ => SessSt.fresh) with
      con := { (s.setSes x (fun _ => SessSt.fresh)).con with
        queue := s.con.queue.filter (fun e => e.1.sess != x), exec := if s.executes x then none else s.con.exec }
      evt := e } ∧ ((s.ses x).unlocked = false → e = s.evt) := by
  obtain ⟨e, ended, same⟩ := s.endUnlock_form x
  refine ⟨e, ?_, same⟩
  rw [State.resetSes, ended]
  cases x <;> rfl

theorem State.conBreak_form {s : State} (up : s.up = true) : ∃ e q, s.conBreak = { s with
    con := { s.con with
      uart := { SessSt.fresh with out := prompt }, queue := s.con.queue.filter (fun e => e.1.sess != .uart)
      exec := if s.executes .uart then none else s.con.exec, rate := 4, breakRate := true, revertTo := none }
    evt := e, pool := q } ∧ (s.con.uart.unlocked = false → e = s.evt) := by
  obtain ⟨e, reset, kept⟩ := s.resetSes_form .uart
  rw [State.conBreak, State.conOn, up, if_neg (by decide), reset]
  obtain ⟨q, released⟩ := State.conRelease_form _
  exact ⟨e, q, released, kept⟩

theorem State.executes_eq (s : State) (x : Sess) : s.executes x = s.con.exec.any (fun e => e.req.sess = x) := by
  unfold State.executes
  cases s.con.exec <;> rfl

/-! ## Output while nothing fits, or nothing waits (R325, R326) -/

theorem fillOut_of_full {cap : Nat} {out : Text} {ls : List Text} (full : cap ≤ out.length) (some : ∀ l ∈ ls, l ≠ []) :
    fillOut cap out ls = (out, ls) := by
  cases ls with
  | nil => rfl
  | cons l r =>
    have := List.length_pos_iff.mpr (some l List.mem_cons_self)
    exact if_neg (by omega)

theorem lineText_ne_nil (t : SessSt) (l : Text) : lineText t l ≠ [] := by
  simp [lineText, crlf]

/-- A full output buffer takes neither a lost-line report nor the backlog. -/
theorem State.pump_of_full (none_ : (s.ses x).resp = []) (full : outCap x ≤ (s.ses x).out.length) : s.pump x = s := by
  have same : s.setSes x (fun t => { t with out := (s.ses x).out, resp := [] }) = s := State.setSes_of_eq (by rw [← none_])
  have lost : s.sendLost x = s := by
    unfold State.sendLost
    dsimp only
    split
    · rfl
    · refine if_pos ?_
      have := List.length_pos_iff.mpr (lineText_ne_nil (s.ses x) (tx "!lost " ++ dec (s.ses x).lost))
      simp only [List.length_append]
      omega
  have backlog : s.sendBacklog x = s := by
    unfold State.sendBacklog
    dsimp only
    rw [fillOut_of_full (by rw [List.length_append]; omega)]
    · simp
    · rintro l inMap
      obtain ⟨b, -, rfl⟩ := List.mem_map.mp inMap
      exact lineText_ne_nil _ _
  unfold State.pump
  simp only [none_, fillOut, same, lost, backlog, ite_self]

end

/-! ## Asynchronous lines (R326) -/

section
variable {s : State} {x : Sess} {l : Text}

theorem asyncOn_eq (c : Con) (x : Sess) : asyncOn c x = (c.cfg.extractLsb' 16 3).getLsbD (sessCode x - 1) := by
  cases x <;> simp [asyncOn, sessCode, bitAt]

/-- A session after a line has joined its backlog of 16. -/
def SessSt.offered (l : Text) (t : SessSt) : SessSt :=
  if t.backlog.length < 16 then { t with backlog := t.backlog ++ [l] }
  else { t with backlog := t.backlog.drop 1 ++ [l], lost := t.lost + 1 }

theorem State.asyncTo_off (off : asyncOn s.con x = false) : s.asyncTo l x = s := if_pos (by simp [off])

theorem State.asyncTo_on (on : asyncOn s.con x = true) : s.asyncTo l x = (s.setSes x (SessSt.offered l)).pump x :=
  if_neg (by simp [on])

/-- Only the UART takes asynchronous lines. -/
theorem State.asyncLine_of_uart (up : s.up = true) (uart : s.con.cfg.extractLsb' 16 3 = 1)
    (kept : ((s.setSes .uart (SessSt.offered l)).pump .uart).con.cfg = s.con.cfg) :
    s.asyncLine l = (s.setSes .uart (SessSt.offered l)).pump .uart := by
  have on : asyncOn s.con .uart = true := by rw [asyncOn_eq, uart]; rfl
  have off : ∀ c : Con, c.cfg = s.con.cfg → asyncOn c .host = false ∧ asyncOn c .loc = false := fun c same => by
    rw [asyncOn_eq, asyncOn_eq, same, uart]
    exact ⟨rfl, rfl⟩
  obtain ⟨host, loc⟩ := off _ kept
  rw [State.asyncLine, State.conOn, up, if_neg (by decide), State.asyncTo_on on, State.asyncTo_off host, State.asyncTo_off loc]

theorem State.asyncLine_of_none (none_ : s.con.cfg.extractLsb' 16 3 = 0) : s.asyncLine l = s := by
  have off : ∀ x, asyncOn s.con x = false := fun x => by rw [asyncOn_eq, none_]; exact BitVec.getLsbD_zero
  rw [State.asyncLine, State.asyncTo_off (off _), State.asyncTo_off (off _), State.asyncTo_off (off _), ite_self]

/-- A busy session sends nothing beside its response. -/
theorem State.pump_of_executing (none_ : (s.ses x).resp = []) (busy : s.executes x = true) : s.pump x = s := by
  have same : s.setSes x (fun t => { t with out := (s.ses x).out, resp := [] }) = s := State.setSes_of_eq (by rw [← none_])
  unfold State.pump
  simp only [none_, fillOut, same, busy, Bool.or_true, Bool.true_or, if_true]

/-- A backlog line that fits goes out on an idle session, the prompt behind it. -/
theorem State.pump_sends_line (typed : (s.ses x).machine = false) (empty : (s.ses x).line = []) (none_ : (s.ses x).resp = [])
    (lost : (s.ses x).lost = 0) (quiet : (s.ses x).ending = none) (idle : s.executes x = false) (out : (s.ses x).out = [])
    (one : (s.ses x).backlog = [l]) (fits : l.length + 2 + prompt.length ≤ outCap x) :
    s.pump x = s.setSes x (fun t => { t with out := l ++ crlf ++ prompt, backlog := [] }) := by
  have same : s.setSes x (fun t => { t with out := [], resp := [] }) = s :=
    State.setSes_of_eq (congr (congrArg (fun o r => { s.ses x with out := o, resp := r }) out.symm) none_.symm)
  have noLost : s.sendLost x = s := if_pos lost
  have text : lineText (s.ses x) l = l ++ crlf := by rw [lineText, typed]; rfl
  have before : breakIn (s.ses x) = [] := by rw [breakIn, typed, empty]; rfl
  have after : reprompt (s.ses x) = prompt := by rw [reprompt, typed, empty]; exact List.append_nil _
  have sent : fillOut (outCap x - prompt.length) [] [l ++ crlf] = (l ++ crlf, []) := by
    rw [fillOut, if_pos, fillOut, List.nil_append]
    rw [List.length_nil, List.length_append]
    exact Nat.le_sub_of_add_le (by rw [Nat.zero_add]; exact fits)
  unfold State.pump
  simp only [none_, out, fillOut, same, idle, quiet, noLost, List.isEmpty_nil, Bool.not_true, Option.isSome_none, Bool.or_self,
    Bool.false_eq_true, if_false]
  unfold State.sendBacklog
  simp only [one, lost, out, before, after, List.map_cons, List.map_nil, text, sent, List.nil_append, List.isEmpty_cons,
    bne_self_eq_false, Bool.or_self, Bool.false_eq_true, if_false, List.length_nil, List.length_cons]
  refine (if_neg (by decide)).trans (State.setSes_congr ?_)
  rw [Nat.sub_zero, List.drop_length]

end

/-! ## The rate of the UART (R313) -/

section
variable (s : State)

theorem State.baudApply_form : ∃ n, s.baudApply = { s with con := { s.con with rate := n } }
    ∧ (s.con.uart.out = [] → s.con.breakRate = false → n = s.con.cfg.setWidth 4) := by
  unfold State.baudApply
  split
  · exact ⟨_, rfl, fun _ normal => if_neg (by simp [normal])⟩
  · next busy => exact ⟨s.con.rate, rfl, fun out => absurd out (by simpa using busy)⟩

/-- A rate that moves makes the settings region pending. -/
theorem State.baudRevert_form {s : State} {r : BitVec 4} (up : s.up = true) (armed : s.con.revertTo = some r) :
    ∃ l n, s.baudRevert = { s with
        con := { s.con with cfg := setFld s.con.cfg 3 0 r.toNat, revertTo := none, rate := n }
        nvs := { s.nvs with pend := l } }
      ∧ (s.con.uart.out = [] → s.con.breakRate = false → n = (setFld s.con.cfg 3 0 r.toNat).setWidth 4)
      ∧ (r ≠ s.con.cfg.setWidth 4 → l.contains 3 = true) := by
  obtain ⟨l, pended, region⟩ : ∃ l, (if r != s.con.cfg.setWidth 4 then
      State.pendRegion { s with con := { s.con with cfg := setFld s.con.cfg 3 0 r.toNat, revertTo := none } } 3
      else { s with con := { s.con with cfg := setFld s.con.cfg 3 0 r.toNat, revertTo := none } })
      = { s with con := { s.con with cfg := setFld s.con.cfg 3 0 r.toNat, revertTo := none }, nvs := { s.nvs with pend := l } }
      ∧ (r ≠ s.con.cfg.setWidth 4 → l.contains 3 = true) := by
    by_cases moves : r = s.con.cfg.setWidth 4
    · exact ⟨s.nvs.pend, if_neg (by simp [moves]), fun stays => absurd moves stays⟩
    · exact ⟨_, (if_pos (by simpa using moves)).trans (State.pendRegion_eq _ 3), fun _ => State.pendRegion_contains _ 3⟩
  rw [State.baudRevert, armed]
  simp only [State.conOn, up, Bool.not_true, Bool.false_eq_true, if_false, pended]
  obtain ⟨n, applied, rate⟩ := State.baudApply_form { s with
    con := { s.con with cfg := setFld s.con.cfg 3 0 r.toNat, revertTo := none }, nvs := { s.nvs with pend := l } }
  exact ⟨l, n, applied, rate, region⟩

theorem setFld_low (w : Word) (r : BitVec 4) :
    (setFld w 3 0 r.toNat).extractLsb' 0 4 = r ∧ (setFld w 3 0 r.toNat).extractLsb' 4 28 = w.extractLsb' 4 28 := by
  have small : r.toNat < 16 := r.isLt
  have value : (setFld w 3 0 r.toNat).toNat = r.toNat + w.toNat / 16 * 16 := by
    have := w.isLt
    simp [setFld, packWord, Nat.shiftRight_eq_div_pow]
    omega
  refine ⟨BitVec.eq_of_toNat_eq ?_, BitVec.eq_of_toNat_eq ?_⟩
  · rw [BitVec.extractLsb'_toNat, value, Nat.shiftRight_eq_div_pow]
    omega
  · rw [BitVec.extractLsb'_toNat, BitVec.extractLsb'_toNat, value, Nat.shiftRight_eq_div_pow, Nat.shiftRight_eq_div_pow]
    omega

end

/-! ## Responses cut, and output that has been sent (R313, R318, R325, R331) -/

section
variable {s : State} {x : Sess}

theorem State.setSes_conOn (f : SessSt → SessSt) : (s.setSes x f).conOn = s.conOn := by
  cases x <;> rfl

theorem State.responseCut_form (up : s.up = true) (waits : (s.ses x).resp ≠ []) (full : outCap x ≤ (s.ses x).out.length) :
    ∃ q, s.responseCut x = { s.setSes x (fun t => { t with
      resp := [], ending := none
      lost := t.lost + ((s.ses x).resp.filter (fun l => l.getLast? == some '\n')).length }) with pool := q } := by
  have cut := s.setSes_ses x (fun t => { t with
    resp := [], ending := none, lost := t.lost + ((s.ses x).resp.filter (fun l => l.getLast? == some '\n')).length })
  rw [State.responseCut, if_neg (by simp [State.conOn, up, waits])]
  dsimp only
  rw [State.pump_of_full (by rw [cut]) (by rw [cut]; exact full)]
  exact State.conRelease_form _

/-- A final line that ends machine mode's absence, the unlock, or nothing. -/
theorem State.conEnding_form (plain : (s.ses x).ending = none ∨ (s.ses x).ending = some .toMachine ∨ (s.ses x).ending = some .lock) :
    ∃ e, s.conEnding x = { s.setSes x (fun t => { t with
      ending := none
      machine := t.machine || decide ((s.ses x).ending = some .toMachine)
      unlocked := t.unlocked && decide ((s.ses x).ending ≠ some .lock) }) with evt := e } := by
  have kept : ∀ f : SessSt → SessSt, f (s.ses x) = { s.ses x with
        ending := none
        machine := (s.ses x).machine || decide ((s.ses x).ending = some .toMachine)
        unlocked := (s.ses x).unlocked && decide ((s.ses x).ending ≠ some .lock) } →
      s.setSes x f = s.setSes x (fun t => { t with
        ending := none
        machine := t.machine || decide ((s.ses x).ending = some .toMachine)
        unlocked := t.unlocked && decide ((s.ses x).ending ≠ some .lock) }) := fun f same => State.setSes_congr same
  unfold State.conEnding
  rcases plain with none_ | machine | lock
  · refine ⟨s.evt, ?_⟩
    rw [← kept (fun t => { t with ending := none }) (by simp [none_])]
    simp only [none_]
    cases x <;> rfl
  · refine ⟨s.evt, ?_⟩
    rw [← kept (fun t => { t with ending := none, machine := true }) (by simp [machine])]
    simp only [machine]
    cases x <;> rfl
  · obtain ⟨e, ended, -⟩ := (s.setSes x (fun t => { t with ending := none })).endUnlock_form x
    refine ⟨e, ?_⟩
    rw [← kept (fun t => { t with ending := none, unlocked := false }) (by simp [lock])]
    simp only [lock]
    rw [ended, State.setSes_setSes]

/-- The UART's output has been sent and nothing waits: the final line takes effect, the rate follows CON_CFG. -/
theorem State.outputSent_form (up : s.up = true) (done : s.Drained .uart)
    (plain : (s.ses .uart).ending = none ∨ (s.ses .uart).ending = some .toMachine ∨ (s.ses .uart).ending = some .lock) :
    ∃ n e q, s.outputSent .uart = { s with
      con := { s.con with
        uart := { s.con.uart with
          out := [], ending := none
          machine := s.con.uart.machine || decide (s.con.uart.ending = some .toMachine)
          unlocked := s.con.uart.unlocked && decide (s.con.uart.ending ≠ some .lock) }
        rate := n }
      evt := e, pool := q } := by
  obtain ⟨resp, backlog, lost⟩ := done
  obtain ⟨e, ended⟩ := State.conEnding_form (s := s.setSes .uart (fun t => { t with out := [] })) (x := .uart) plain
  obtain ⟨n, applied, -⟩ := ((s.setSes .uart (fun t => { t with out := [] })).conEnding .uart).baudApply_form
  rw [ended] at applied
  have drained := State.pump_of_drained (s := _) (x := .uart) (State.Drained.mk (s := ((s.setSes .uart (fun t => { t with
    out := [] })).conEnding .uart).baudApply) (by rw [ended, applied]; exact resp) (by rw [ended, applied]; exact backlog)
    (by rw [ended, applied]; exact lost))
  have empty : ((s.setSes .uart (fun t => { t with out := [] })).ses .uart).out.isEmpty
      && ((s.setSes .uart (fun t => { t with out := [] })).ses .uart).resp.isEmpty := by
    rw [State.setSes_ses, resp]
    rfl
  have uart : (Sess.uart == Sess.uart) = true := rfl
  rw [State.outputSent, if_pos uart, State.conSent, if_neg (by rw [State.setSes_conOn, State.conOn, up]; decide)]
  dsimp only
  rw [if_pos empty, if_pos uart, drained, ended, applied]
  obtain ⟨q, released⟩ := State.conRelease_form _
  exact ⟨n, e, q, released⟩

end

/-- Settles O56, from the end of an unlock, the reset of a session, and what a session sends where little waits. -/
theorem consoleSessions : Obligations.ConsoleSessions := by
  refine ⟨?break_, ?revert, ?noRevert, ?cut, ?noCut, ?async, ?noAsync, ?sent, ?unlock, fun s => rfl⟩
  case break_ =>
    intro s up
    obtain ⟨e, q, broken, kept⟩ := State.conBreak_form up
    refine ⟨_, congrArg Host.Outcome.next broken, rfl, rfl, rfl, ?_, ?_, rfl, rfl, rfl, rfl, kept, rfl⟩
    · exact List.filter_congr (fun e _ => by rw [bne, decide_not]; rfl)
    · rw [← State.executes_eq]
  case revert =>
    intro r s up armed
    obtain ⟨low, high⟩ := setFld_low s.con.cfg r
    obtain ⟨l, n, reverted, rate, pend⟩ := State.baudRevert_form up armed
    have code : ∀ w : Word, w.setWidth 4 = w.extractLsb' 0 4 := fun w =>
      BitVec.setWidth_eq_extractLsb' (by decide)
    rw [code] at rate pend
    exact ⟨_, congrArg Host.Outcome.next reverted, low, high, rfl, fun out normal => (rate out normal).trans low, pend, rfl⟩
  case noRevert =>
    intro s none_
    refine congrArg Host.Outcome.next ?_
    rw [State.baudRevert, none_]
  case cut =>
    intro x s up waits full idle
    obtain ⟨q, cut⟩ := State.responseCut_form up waits full
    refine ⟨_, congrArg Host.Outcome.next cut, (State.setSes_ses _ _ _).trans ?_, fun y other => State.setSes_ses_ne _ other _, ?_, ?_⟩
    · have newline : ∀ l : Text, (l.getLast? == some '\n') = decide (l.getLast? = some '\n') := fun l => by
        rw [Bool.eq_iff_iff, beq_iff_eq, decide_eq_true_iff]
      simp only [newline]
    · cases x <;> rfl
    · cases x <;> rfl
  case noCut =>
    intro x s none_
    exact congrArg Host.Outcome.next (if_pos (by simp [none_]))
  case async =>
    intro l s up uart typed empty none_ lost quiet
    have offered := s.setSes_ses .uart (SessSt.offered l)
    refine ⟨fun idle backlog out fits => ?_, fun busy => ?_⟩
    · have one : SessSt.offered l (s.ses .uart) = { s.ses .uart with backlog := [l] } := by
        rw [SessSt.offered, show (s.ses .uart).backlog = [] from backlog]
        rfl
      rw [one] at offered
      have short : l.length + 2 + prompt.length ≤ outCap .uart := by
        have five : prompt.length = 5 := rfl
        rw [five, outCap]
        omega
      have sent := State.pump_sends_line (s := s.setSes .uart (SessSt.offered l)) (x := .uart) (l := l) (by rw [offered]; exact typed)
        (by rw [offered]; exact empty) (by rw [offered]; exact none_) (by rw [offered]; exact lost) (by rw [offered]; exact quiet)
        idle (by rw [offered]; exact out) (by rw [offered]) short
      rw [State.setSes_setSes] at sent
      refine congrArg Host.Outcome.next ((State.asyncLine_of_uart up uart (by rw [sent]; rfl)).trans (sent.trans (State.setSes_congr ?_)))
      rw [one, show [] = (s.ses .uart).backlog from backlog.symm]
    · have stays : (s.setSes .uart (SessSt.offered l)).pump .uart = s.setSes .uart (SessSt.offered l) := by
        refine State.pump_of_executing ?_ busy
        rw [offered, SessSt.offered]
        split <;> exact none_
      exact congrArg Host.Outcome.next ((State.asyncLine_of_uart up uart (by rw [stays]; rfl)).trans stays)
  case noAsync =>
    intro l s none_
    exact congrArg Host.Outcome.next (State.asyncLine_of_none none_)
  case sent =>
    intro s up resp backlog lost plain
    obtain ⟨n, e, q, sent⟩ := State.outputSent_form up ⟨resp, backlog, lost⟩ plain
    exact ⟨_, congrArg Host.Outcome.next sent, rfl, rfl, rfl, rfl, rfl⟩
  case unlock =>
    intro x s up
    have timed : (fld s.con.cfg 15 8 != 0) = (s.con.cfg.extractLsb' 8 8 != 0) := by
      rw [Bool.eq_iff_iff, bne_iff_ne, bne_iff_ne, ne_eq, ne_eq, ← BitVec.toNat_inj, BitVec.extractLsb'_toNat]
      rfl
    refine ⟨fun unlocked time => ?_, fun off => congrArg Host.Outcome.next ?_⟩
    · obtain ⟨e, ended, -⟩ := s.endUnlock_form x
      refine ⟨_, congrArg Host.Outcome.next ((if_pos ?_).trans ended), State.setSes_ses _ _ _, fun y other => State.setSes_ses_ne _ other _,
        by cases x <;> rfl⟩
      rw [State.conOn, up, timed, bne_iff_ne.mpr time]
      rfl
    · rcases off with locked | never
      · rw [State.endUnlock_of_locked locked, ite_self]
      · exact if_neg (by rw [timed, never]; simp)

end Sys2Proof.Machine

/-! SUPPORT. Console answers (O57): what a response leaves, what it sends on a quiet session, and how a ready command runs. -/

namespace Sys2Proof.Machine
open Sys2Proof

/-! ## What sending leaves of its session (R325, R326) -/

section
variable (s : State) (x : Sess)

theorem State.sendLost_ses : ∃ o l, (s.sendLost x).ses x = { s.ses x with out := o, lost := l } := by
  unfold State.sendLost
  dsimp only
  split
  · exact ⟨_, _, rfl⟩
  split
  · exact ⟨_, _, rfl⟩
  · obtain ⟨e, raised⟩ := State.raise_unlatched _ (n := 60) (by omega) (by omega) (BitVec.ofNat 24 (min (s.ses x).lost 65535))
    rw [raised]
    cases x <;> exact ⟨_, _, rfl⟩

theorem State.sendBacklog_ses : ∃ o b, (s.sendBacklog x).ses x = { s.ses x with out := o, backlog := b } := by
  unfold State.sendBacklog
  dsimp only
  split
  · exact ⟨_, _, rfl⟩
  split
  · exact ⟨_, _, rfl⟩
  · exact ⟨_, _, s.setSes_ses x _⟩

theorem State.pump_ses : ∃ o r b l, (s.pump x).ses x = { s.ses x with out := o, resp := r, backlog := b, lost := l } := by
  unfold State.pump
  dsimp only
  split
  · exact ⟨_, _, _, _, s.setSes_ses x _⟩
  · obtain ⟨o, l, lost⟩ := (s.setSes x (fun t => { t with
      out := (fillOut (outCap x) (s.ses x).out (s.ses x).resp).1, resp := (fillOut (outCap x) (s.ses x).out (s.ses x).resp).2 })).sendLost_ses x
    obtain ⟨o', b, backlog⟩ := State.sendBacklog_ses (State.sendLost _ x) x
    rw [backlog, lost, State.setSes_ses]
    exact ⟨_, _, _, _, rfl⟩

/-- Behind a final line that is to take effect nothing else is sent. -/
theorem State.pump_of_ending {s : State} {x : Sess} (ends : (s.ses x).ending.isSome = true) :
    ∃ o r, s.pump x = s.setSes x (fun t => { t with out := o, resp := r }) := by
  refine ⟨_, _, if_pos ?_⟩
  rw [ends, Bool.or_true]

end

/-! ## A response (R317, R320, R338) -/

/-- A session with a response put before it. -/
def SessSt.responded (rq : Req) (datas : List Text) (final : Text) (ending : Option Ending) (t : SessSt) : SessSt :=
  match rq.nn with
  | some nn =>
    let h := '#' :: hexPad 2 nn.toNat
    let fin := h ++ (if final.isEmpty then tx " ok" else ' ' :: final)
    let lines := datas.map (fun d => machineLine (h ++ tx " - " ++ oneSpace d) ++ crlf) ++ [machineLine fin ++ crlf]
    { t with resp := t.resp ++ lines, lastNn := some nn, lastFinal := fin, ending := ending }
  | none =>
    let lines := datas.map (· ++ crlf) ++ (if final.isEmpty then [] else [final ++ crlf])
    let lines := match lines with
      | [] => []
      | l :: r => (breakIn t ++ l) :: r
    let post := if ending = some Ending.toMachine then [] else reprompt t
    { t with resp := t.resp ++ lines ++ (if post.isEmpty then [] else [post]), ending := ending }

section
variable (s : State) (rq : Req) (datas : List Text) (final : Text) (ending : Option Ending)

/-- The state with a response put before its session: the interpreter is free again. -/
def State.loaded (s : State) (rq : Req) (datas : List Text) (final : Text) (ending : Option Ending) : State :=
  State.setSes { s with con := { s.con with exec := none } } rq.sess (SessSt.responded rq datas final ending)

theorem State.respond_eq : s.respond rq datas final ending = ((s.loaded rq datas final ending).pump rq.sess).conRelease := by
  unfold State.respond State.loaded SessSt.responded
  dsimp only
  congr 2
  cases rq.nn with
  | some nn => exact State.setSes_congr rfl
  | none => exact State.setSes_congr rfl

theorem SessSt.responded_unsent (t : SessSt) : (t.responded rq datas final ending).unsent = t.unsent := by
  unfold SessSt.responded
  cases rq.nn <;> rfl

theorem SessSt.responded_ending (t : SessSt) : (t.responded rq datas final ending).ending = ending := by
  unfold SessSt.responded
  cases rq.nn <;> rfl

/-- A response leaves all but output, the command in hand and the pool. -/
theorem State.respond_unsent : ∃ q, (s.respond rq datas final ending).unsent rq.sess
    = ({ s with con := { s.con with exec := none }, pool := q } : State).unsent rq.sess := by
  obtain ⟨q, released⟩ := ((s.loaded rq datas final ending).pump rq.sess).conRelease_form
  have sent : ((s.loaded rq datas final ending).pump rq.sess).unsent rq.sess
      = ({ s with con := { s.con with exec := none } } : State).unsent rq.sess :=
    (State.pump_unsent _ _).trans (State.setSes_unsent _ _ (SessSt.responded_unsent rq datas final ending _))
  refine ⟨q, ?_⟩
  rw [State.respond_eq, released]
  have pooled : ∀ u : State, ({ u with pool := q } : State).unsent rq.sess = { u.unsent rq.sess with pool := q } := fun u => by
    cases rq.sess <;> rfl
  rw [pooled, sent]
  cases rq.sess <;> rfl

/-- Whatever a session keeps through being sent, it keeps through a response. -/
theorem State.respond_ses : ∃ o r b l, (s.respond rq datas final ending).ses rq.sess
    = { (s.ses rq.sess).responded rq datas final ending with out := o, resp := r, backlog := b, lost := l } := by
  obtain ⟨q, released⟩ := ((s.loaded rq datas final ending).pump rq.sess).conRelease_form
  obtain ⟨o, r, b, l, pumped⟩ := (s.loaded rq datas final ending).pump_ses rq.sess
  have kept : ∀ u : State, ({ u with pool := q } : State).ses rq.sess = u.ses rq.sess := fun u => by cases rq.sess <;> rfl
  have idle : ({ s with con := { s.con with exec := none } } : State).ses rq.sess = s.ses rq.sess := by cases rq.sess <;> rfl
  exact ⟨o, r, b, l, by rw [State.respond_eq, released, kept, pumped, State.loaded, State.setSes_ses, idle]⟩

theorem State.respond_ending : ((s.respond rq datas final ending).ses rq.sess).ending = ending := by
  obtain ⟨o, r, b, l, session⟩ := s.respond_ses rq datas final ending
  rw [session]
  exact SessSt.responded_ending rq datas final ending _

theorem State.respond_lastNn {nn : BitVec 8} (numbered : rq.nn = some nn) :
    ((s.respond rq datas final ending).ses rq.sess).lastNn = some nn := by
  obtain ⟨o, r, b, l, session⟩ := s.respond_ses rq datas final ending
  rw [session, SessSt.responded, numbered]

theorem State.respond_form : ∃ c e q, s.respond rq datas final ending = { s with con := c, evt := e, pool := q } :=
  State.form_of_aside (s.respond_aside rq datas final ending)

theorem State.respond_others {y : Sess} (other : y ≠ rq.sess) : (s.respond rq datas final ending).ses y = s.ses y := by
  obtain ⟨q, view⟩ := s.respond_unsent rq datas final ending
  obtain ⟨-, others, -⟩ := State.of_unsent view
  rw [others y other]
  cases y <;> rfl

/-- A final line that is to take effect raises no event: nothing is sent behind it. -/
theorem State.respond_silent (ends : ending.isSome = true) :
    ∃ c q, s.respond rq datas final ending = { s with con := c, pool := q } := by
  have pending : ((s.loaded rq datas final ending).ses rq.sess).ending.isSome = true := by
    rw [State.loaded, State.setSes_ses, SessSt.responded_ending]
    exact ends
  obtain ⟨o, r, pumped⟩ := State.pump_of_ending pending
  obtain ⟨q, released⟩ := ((s.loaded rq datas final ending).pump rq.sess).conRelease_form
  rw [State.respond_eq, released, pumped, State.loaded, State.setSes_setSes]
  cases rq.sess <;> exact ⟨_, q, rfl⟩

/-! ## A response on a quiet session (R315, R317) -/

theorem fillOut_all {cap : Nat} {ls : List Text} : ∀ {out : Text}, (out ++ ls.flatten).length ≤ cap →
    fillOut cap out ls = (out ++ ls.flatten, []) := by
  induction ls with
  | nil => intro out _; rw [fillOut, List.flatten_nil, List.append_nil]
  | cons l ls ih =>
    intro out fits
    rw [List.flatten_cons, ← List.append_assoc] at fits ⊢
    have first : out.length + l.length ≤ cap := by
      rw [List.length_append, List.length_append] at fits
      omega
    rw [fillOut, if_pos first, ih fits]

/-- A response that fits goes out whole where nothing else waits. -/
theorem State.pump_of_fits {s : State} {x : Sess} (fits : ((s.ses x).out ++ (s.ses x).resp.flatten).length ≤ outCap x)
    (backlog : (s.ses x).backlog = []) (lost : (s.ses x).lost = 0) :
    s.pump x = s.setSes x (fun t => { t with out := (s.ses x).out ++ (s.ses x).resp.flatten, resp := [] }) := by
  have sent := s.setSes_ses x (fun t => { t with out := (s.ses x).out ++ (s.ses x).resp.flatten, resp := [] })
  have noLost := State.sendLost.eq_def (s.setSes x (fun t => { t with out := (s.ses x).out ++ (s.ses x).resp.flatten, resp := [] })) x
  have noBacklog := State.sendBacklog.eq_def (s.setSes x (fun t => { t with
    out := (s.ses x).out ++ (s.ses x).resp.flatten, resp := [] })) x
  simp only [sent, lost, if_true] at noLost
  simp only [sent, backlog, List.isEmpty_nil, Bool.true_or, if_true] at noBacklog
  unfold State.pump
  simp only [fillOut_all fits, noLost, noBacklog, ite_self]

theorem State.respond_quiet {s : State} {rq : Req} {ls : List Text} (typed : rq.nn = none) (quiet : (s.ses rq.sess).quiet)
    (fits : (answerText ls).length ≤ outCap rq.sess) :
    (s.respond rq ls [] none).ses rq.sess = { s.ses rq.sess with out := answerText ls } ∧ (s.respond rq ls [] none).evt = s.evt := by
  obtain ⟨machine, line, out, resp, backlog, lost, ending⟩ := quiet
  have before : breakIn (s.ses rq.sess) = [] := by rw [breakIn, machine, line]; rfl
  have after : reprompt (s.ses rq.sess) = prompt := by rw [reprompt, machine, line]; exact List.append_nil _
  have lines : (s.ses rq.sess).responded rq ls [] none = { s.ses rq.sess with resp := ls.map (· ++ crlf) ++ [prompt] } := by
    unfold SessSt.responded
    simp only [typed, before, after, resp, ending, List.isEmpty_nil, if_true, List.append_nil, List.nil_append, reduceCtorEq, if_false]
    cases ls <;> rfl
  have text : (ls.map (· ++ crlf) ++ [prompt]).flatten = answerText ls := by
    rw [answerText, List.flatten_append, List.flatMap_def, List.flatten_singleton]
  have waiting : (s.loaded rq ls [] none).ses rq.sess = { s.ses rq.sess with resp := ls.map (· ++ crlf) ++ [prompt] } := by
    have idle : ({ s with con := { s.con with exec := none } } : State).ses rq.sess = s.ses rq.sess := by cases rq.sess <;> rfl
    rw [State.loaded, State.setSes_ses, idle, lines]
  have pumped := State.pump_of_fits (s := s.loaded rq ls [] none) (x := rq.sess)
    (by rw [waiting]; simp only [out, text, List.nil_append]; exact fits) (by rw [waiting]; exact backlog) (by rw [waiting]; exact lost)
  obtain ⟨q, released⟩ := ((s.loaded rq ls [] none).pump rq.sess).conRelease_form
  have kept : ∀ u : State, ({ u with pool := q } : State).ses rq.sess = u.ses rq.sess := fun u => by cases rq.sess <;> rfl
  rw [State.respond_eq, released, kept, pumped, State.setSes_ses, waiting]
  refine ⟨?_, by rw [State.loaded]; cases rq.sess <;> rfl⟩
  simp only [out, text, List.nil_append, resp]

end

/-! ## A ready command (R322 to R324, R328) -/

section
variable {s : State} {rq : Req} {w o : Bool} {act : State → State}

/-- A ready command that nothing refuses acts, on the state with the console's buffer claimed. -/
theorem State.conRun_of_ready {pre post : Option Text} (ready : s.conReady rq) (allowed : w = true → s.conDenied rq = false)
    (early : pre = none) (late : post = none) : s.conRun rq w o pre post act = act s.conTaken := by
  subst early late
  obtain ⟨up, noRescue, idle, claimed, fresh⟩ := ready
  have once : (rq.nn.isSome && (s.ses rq.sess).lastNn == rq.nn) = false := by
    rcases fresh with none_ | other
    · rw [none_]; rfl
    · rw [beq_eq_false_iff_ne.mpr other, Bool.and_false]
  have open_ : (w && s.conDenied rq) = false := by
    cases w
    · rfl
    · rw [allowed rfl]; rfl
  unfold State.conRun
  rw [State.conOn, up, idle, if_neg (by decide), if_neg (by simp [once])]
  simp only [open_, noRescue, Bool.false_eq_true, if_false, Bool.false_and, claimed, if_true]
  rfl

/-- A repeated nn brings the answer it has had, whatever the command (R322). -/
theorem State.conRun_again {pre post : Option Text} (up : s.up = true) (idle : s.conIdle = true) (numbered : rq.nn.isSome = true)
    (again : (s.ses rq.sess).lastNn = rq.nn) : s.conRun rq w o pre post act = s.conAgain rq := by
  unfold State.conRun
  rw [State.conOn, up, idle, if_neg (by decide), if_pos (by simp [numbered, again])]

theorem State.conAgain_aside (s : State) (rq : Req) : (s.conAgain rq).aside = s.aside := by
  rw [State.conAgain, State.conRelease_aside, State.pump_aside, State.setSes_aside]

/-- A response of data lines, as it stands in each mode (R338). -/
theorem State.respondData_typed (v : State) {ls : List Text} (typed : rq.nn = none) : v.respondData rq ls = v.respond rq ls [] none := by
  unfold State.respondData
  split
  · rw [if_neg (by simp [typed])]
  · rfl

theorem State.respondData_responds (v : State) (rq : Req) (ls : List Text) :
    ∃ ds f, v.respondData rq ls = v.respond rq ds f none := by
  unfold State.respondData
  split
  · split
    · exact ⟨_, _, rfl⟩
    · exact ⟨_, _, rfl⟩
  · exact ⟨_, _, rfl⟩

end

/-! ## Read commands (R334, R336, R338) -/

/-- What a read command answers with `ls` from `v`: its own session and nothing else of the model's state but the pool and events. -/
structure State.Tells (v : State) (rq : Req) (ls : List Text) (t : State) : Prop where
  others : ∀ y, y ≠ rq.sess → t.ses y = v.ses y
  frame : t = { v with con := t.con, pool := t.pool, evt := t.evt }
  numbered : ∀ nn, rq.nn = some nn → (t.ses rq.sess).lastNn = some nn
  quiet : rq.nn = none → (v.ses rq.sess).quiet → (answerText ls).length ≤ outCap rq.sess →
    t.ses rq.sess = { v.ses rq.sess with out := answerText ls } ∧ t.evt = v.evt

theorem State.respondData_tells (v : State) (rq : Req) (ls : List Text) : v.Tells rq ls (v.respondData rq ls) := by
  obtain ⟨ds, f, responds⟩ := v.respondData_responds rq ls
  refine ⟨?_, ?_, ?_, fun typed quiet fits => ?_⟩
  · rw [responds]
    exact fun y other => v.respond_others rq ds f none other
  · obtain ⟨c, e, q, form⟩ := v.respond_form rq ds f none
    rw [responds, form]
  · rw [responds]
    exact fun nn numbered => v.respond_lastNn rq ds f none numbered
  · rw [v.respondData_typed typed]
    exact State.respond_quiet typed quiet fits

theorem firstOf_eq_none {cs : List (Bool × Text)} (passes : ∀ c ∈ cs, c.1 = false) : firstOf cs = none := by
  rw [firstOf, List.find?_eq_none.mpr (fun c inList => by simp [passes c inList])]
  rfl

@[simp] theorem State.lacks_fst (s : State) (f : Feature) (name : Text) : (s.lacks f name).1 = !s.regOn f := rfl
@[simp] theorem State.noRetain_fst (s : State) : s.noRetain.1 = !s.offers .retain := rfl
@[simp] theorem State.noHoard_fst (s : State) : s.noHoard.1 = !s.regOn .hoard := rfl
@[simp] theorem State.noFaults_fst (s : State) : s.noFaults.1 = !s.regOn .faultWindows := rfl
@[simp] theorem State.lockedOut_fst (s : State) : s.lockedOut.1 = s.locked := rfl
@[simp] theorem State.unreached_fst (s : State) (t : Nat) : (s.unreached t).1 = s.unreach t := rfl
@[simp] theorem outOf_fst (bad : Bool) (name : String) : (outOf bad name).1 = bad := rfl
@[simp] theorem State.noRes_fst (s : State) (c i : Nat) : (s.noRes c i).1 = (resIndexOk c i && !s.resPresent c i) := rfl
@[simp] theorem State.noSource_fst (s : State) (n : Nat) : (s.noSource n).1 = (decide (n < 64) && !s.evtRegPresent n) := rfl

section
variable {s : State} {rq : Req} {c : Instr} {v : State} {ls : List Text}

/-- A read command that passes its checks answers, as the statement says it. -/
theorem exec_tells {o : Bool} {pre : Option Text} {act : State → State} (ready : s.conReady rq)
    (row : exec c s = (.next (s.conRun rq false o pre none act) : Out)) (early : pre = none)
    (acts : act s.conTaken = v.respondData rq ls) : ∃ t, exec c s = .next t
    ∧ ((∀ y, y ≠ rq.sess → t.ses y = v.ses y) ∧ t = { v with con := t.con, pool := t.pool, evt := t.evt })
    ∧ (∀ nn, rq.nn = some nn → (t.ses rq.sess).lastNn = some nn)
    ∧ (rq.nn = none → (v.ses rq.sess).quiet → (answerText ls).length ≤ outCap rq.sess →
        t.ses rq.sess = { v.ses rq.sess with out := answerText ls } ∧ t.evt = v.evt) := by
  obtain ⟨others, frame, numbered, quiet⟩ := v.respondData_tells rq ls
  refine ⟨_, row.trans (congrArg Host.Outcome.next ?_), ⟨others, frame⟩, numbered, quiet⟩
  exact (State.conRun_of_ready ready (fun h => absurd h Bool.false_ne_true) early rfl).trans acts

theorem cmdHelp_all (s : State) (rq : Req) : exec (.help rq []) s
    = (.next (s.conRun rq false true none none (fun s => s.respondData rq (helpLines tree))) : Out) :=
  congrArg Host.Outcome.next (by rw [State.cmdHelp, helpWalk])

theorem evtRegPresent_lt {n : Nat} (present : s.evtRegPresent n = true) : n < 64 := by
  simp only [State.evtRegPresent, Bool.or_eq_true, Bool.and_eq_true, decide_eq_true_eq] at present
  omega

end

/-! ## Session commands (R313, R318, R329 to R331, R340) -/

section
variable {s : State} {rq : Req} {c : Instr}

/-- A command whose act is left to the sending of its final line. -/
theorem exec_ends {w o : Bool} {pre : Option Text} {f : Text} {e : Ending} (ready : s.conReady rq)
    (row : exec c s = (.next (s.conRun rq w o pre none (fun t => t.respond rq [] f (some e))) : Out))
    (allowed : w = true → s.conDenied rq = false) (early : pre = none) : ∃ t, exec c s = .next t
    ∧ (t.ses rq.sess).ending = some e ∧ (t.ses rq.sess).machine = (s.ses rq.sess).machine
    ∧ (t.ses rq.sess).unlocked = (s.ses rq.sess).unlocked ∧ (∀ y, y ≠ rq.sess → t.ses y = s.ses y)
    ∧ t.con.cfg = s.con.cfg ∧ t = { s with con := t.con, pool := t.pool } := by
  have kept : ∀ y, s.conTaken.ses y = s.ses y := fun y => by cases y <;> rfl
  obtain ⟨q, view⟩ := s.conTaken.respond_unsent rq [] f (some e)
  obtain ⟨own, -, -, -, cfg, -⟩ := State.of_unsent view
  have session : (({ s.conTaken with con := { s.conTaken.con with exec := none }, pool := q } : State).ses rq.sess) = s.ses rq.sess := by
    cases rq.sess <;> rfl
  rw [session] at own
  have mode := congrArg SessSt.machine own
  have lock := congrArg SessSt.unlocked own
  obtain ⟨k, r, form⟩ := s.conTaken.respond_silent rq [] f (some e) rfl
  exact ⟨_, row.trans (congrArg Host.Outcome.next (State.conRun_of_ready ready allowed early rfl)), State.respond_ending _ _ _ _ _,
    mode, lock, fun y other => (State.respond_others _ _ _ _ _ other).trans (kept y), cfg, by rw [form]; rfl⟩

end

/-! ## Service unlock (R329, R330) -/

section
variable {s t : State} {x : Sess}

/-- What a blanked output tells of the counts of unlocks. -/
theorem State.unlocks_of_unsent (h : t.unsent x = s.unsent x) : t.con.wrong = s.con.wrong ∧ t.con.lockout = s.con.lockout
    ∧ t.con.denied = s.con.denied ∧ t.con.granted = s.con.granted := by
  have kept : ∀ u : State, ((u.unsent x).con.wrong, (u.unsent x).con.lockout, (u.unsent x).con.denied, (u.unsent x).con.granted)
      = (u.con.wrong, u.con.lockout, u.con.denied, u.con.granted) := fun u => by cases x <;> rfl
  have same := kept t
  rw [h, kept s] at same
  simp only [Prod.mk.injEq] at same
  simp only [same, and_self]

/-- What a blanked output tells of the unlock of every session. -/
theorem State.unlocked_of_unsent (h : t.unsent x = s.unsent x) (y : Sess) : (t.ses y).unlocked = (s.ses y).unlocked := by
  obtain ⟨own, others, -⟩ := State.of_unsent h
  by_cases mine : y = x
  · have lock := congrArg SessSt.unlocked own
    rw [mine]
    exact lock
  · rw [others y mine]

/-- A response leaves the counts of unlocks, and every unlock. -/
theorem State.respond_unlocks (s : State) (rq : Req) (ds : List Text) (f : Text) (e : Option Ending) :
    ((s.respond rq ds f e).con.wrong = s.con.wrong ∧ (s.respond rq ds f e).con.lockout = s.con.lockout
      ∧ (s.respond rq ds f e).con.denied = s.con.denied ∧ (s.respond rq ds f e).con.granted = s.con.granted)
    ∧ ∀ y, ((s.respond rq ds f e).ses y).unlocked = (s.ses y).unlocked := by
  obtain ⟨q, view⟩ := s.respond_unsent rq ds f e
  have counts := State.unlocks_of_unsent view
  exact ⟨counts, fun y => (State.unlocked_of_unsent view y).trans (by cases y <;> rfl)⟩

theorem State.unlockGrant_form (s : State) (x : Sess) : ∃ e, s.unlockGrant x = { s.setSes x (fun t => { t with unlocked := true }) with
    con := { (s.setSes x (fun t => { t with unlocked := true })).con with wrong := 0, granted := satAdd s.con.granted 1 }
    evt := e } := by
  obtain ⟨e, raised⟩ := State.raise_unlatched { s.setSes x (fun t => { t with unlocked := true }) with
    con := { (s.setSes x (fun t => { t with unlocked := true })).con with wrong := 0, granted := satAdd s.con.granted 1 } }
    (n := 59) (by omega) (by omega) 1
  refine ⟨e, Eq.trans ?_ raised⟩
  rw [State.unlockGrant]
  cases x <;> rfl

/-- A wrong code: counted, in a run that the third one turns into the lockout. -/
theorem State.unlockWrong_form (s : State) : ∃ n k, s.unlockWrong = { s with
      con := { s.con with denied := satAdd s.con.denied 1, wrong := n, lockout := k } }
    ∧ k = (s.con.lockout || s.con.wrong == 2) ∧ (s.con.lockout = false → s.con.wrong < 2 → n = s.con.wrong + 1) := by
  unfold State.unlockWrong
  dsimp only
  split
  · next locked => exact ⟨_, _, rfl, by rw [locked]; rfl, fun free => absurd locked (by simp [free])⟩
  · next free =>
    have open_ : s.con.lockout = false := eq_false_of_ne_true free
    split
    · next third => exact ⟨_, _, rfl, by rw [third]; simp, fun _ few => absurd third (by omega)⟩
    · next fewer => exact ⟨_, _, rfl, by simp [fewer], fun _ _ => rfl⟩

end

section
variable {s : State} {rq : Req} {code : Text}

theorem serviceUnlock_right (ready : s.conReady rq) (right : s.codeRight code = true) (free : s.con.lockout = false) :
    exec (.serviceUnlock rq code) s = .next ((s.conTaken.unlockGrant rq.sess).respondOk rq []) := by
  refine congrArg Host.Outcome.next ((State.conRun_of_ready ready (fun h => absurd h Bool.false_ne_true) rfl rfl).trans ?_)
  exact (if_pos right).trans (if_neg (by rw [show s.conTaken.con.lockout = _ from free]; exact Bool.false_ne_true))

theorem serviceUnlock_wrong (ready : s.conReady rq) (wrong : s.codeRight code = false) :
    exec (.serviceUnlock rq code) s = .next (s.conTaken.unlockWrong.respondErr rq (tx "denied wrong code")) := by
  refine congrArg Host.Outcome.next ((State.conRun_of_ready ready (fun h => absurd h Bool.false_ne_true) rfl rfl).trans ?_)
  exact if_neg (fun right => Bool.false_ne_true (wrong.symm.trans right))

end

/-- The code of a rate is its place in the table (R312). -/
theorem rates_code : ∀ k < 12, rates.contains (rates.getD k 0) = true ∧ rates.findIdx (· == rates.getD k 0) = k := by
  decide

/-- Settles O57. -/
theorem consoleAnswers : Obligations.ConsoleAnswers := by
  refine ⟨?reads, ?acts, ?again⟩
  case reads =>
    intro rq s ready
    have tells := fun {c v ls o pre act} => @exec_tells s rq c v ls o pre act ready
    refine ⟨tells (cmdHelp_all s rq) rfl rfl, tells rfl rfl rfl, tells rfl rfl rfl, tells rfl rfl rfl, tells rfl rfl rfl, tells rfl rfl rfl,
      tells rfl rfl rfl, tells rfl rfl rfl, tells rfl rfl rfl, tells rfl rfl rfl, tells rfl rfl rfl, tells rfl rfl rfl,
      tells rfl rfl rfl, fun f => tells rfl rfl rfl, tells rfl rfl rfl, fun on => tells rfl (firstOf_eq_none ?_) rfl,
      fun offered => tells rfl (firstOf_eq_none ?_) rfl, fun on m => tells rfl (firstOf_eq_none ?_) rfl,
      fun on => ⟨tells rfl (firstOf_eq_none ?_) rfl, fun c i present index => tells rfl (firstOf_eq_none ?_) rfl⟩,
      fun n present => tells rfl (firstOf_eq_none ?_) rfl, fun g start k low high small => tells rfl (firstOf_eq_none ?_) rfl,
      fun a aligned => ?_⟩
    · simp [on]
    · simp [offered]
    · simp [on]
    · simp [on]
    · simp [on, present, index]
    · cases n with
      | none => simp [State.evtRegPresent]
      | some k =>
        have small := evtRegPresent_lt (present k rfl)
        simp [present k rfl]
        omega
    · simp
      omega
    · have inRange : (a.toNat % 4 != 0 || decide (1 < 1) || decide (8 < 1) || decide (0xFFFC < a.toNat + 4 * (1 - 1))) = false := by
        have := a.isLt
        simp [aligned]
        omega
      have same : BitVec.ofNat 16 a.toNat = a := BitVec.eq_of_toNat_eq (by simp)
      refine tells (congrArg Host.Outcome.next (if_neg (fun bad => Bool.false_ne_true (inRange.symm.trans bad)))) rfl ?_
      simp only [State.peekLines, same, State.conRead]
  case acts =>
    intro rq s ready
    have ends := fun {c w o pre f e} => @exec_ends s rq c w o pre f e ready
    refine ⟨fun locked on => ends rfl (fun h => absurd h Bool.false_ne_true) (firstOf_eq_none ?_),
      ends rfl (fun h => absurd h Bool.false_ne_true) rfl, ends rfl (fun h => absurd h Bool.false_ne_true) rfl,
      fun allowed => ⟨ends rfl (fun _ => allowed) rfl, fun k rate inTable is => ?_⟩, fun code => ⟨fun right free quiet typed => ?_, fun wrong => ?_⟩⟩
    · simp [locked, on]
    · obtain ⟨known, place⟩ := rates_code k inTable
      rw [List.getD_eq_getElem?_getD, is, Option.getD_some] at known place
      obtain ⟨t, row, done⟩ := ends (c := .baud rq rate) rfl (fun _ => allowed) (firstOf_eq_none (by simpa using known))
      rw [place] at done
      exact ⟨t, row, done⟩
    · obtain ⟨e, granted⟩ := s.conTaken.unlockGrant_form rq.sess
      obtain ⟨⟨wrong, -, denied, count⟩, unlocked⟩ := (s.conTaken.unlockGrant rq.sess).respond_unlocks rq [] (tx "ok") none
      obtain ⟨c, e', q, form⟩ := (s.conTaken.unlockGrant rq.sess).respond_form rq [] (tx "ok") none
      refine ⟨_, serviceUnlock_right ready right free, (unlocked rq.sess).trans ?_,
        fun y other => (State.respond_others _ _ _ _ _ other).trans ?_, wrong.trans ?_, count.trans ?_, denied.trans ?_, ?_⟩
      · rw [granted]
        cases rq.sess <;> rfl
      · rw [granted]
        exact Eq.trans (by cases y <;> rfl) ((State.setSes_ses_ne s.conTaken other _).trans (by cases y <;> rfl))
      · rw [granted]
      · rw [granted]
        rfl
      · rw [granted]
        cases rq.sess <;> rfl
      · have respondOk : (s.conTaken.unlockGrant rq.sess).respondOk rq []
            = (s.conTaken.unlockGrant rq.sess).respond rq [] (tx "ok") none := rfl
        rw [respondOk, form, granted]
        cases rq.sess <;> rfl
    · obtain ⟨⟨run, lockout, denied, -⟩, unlocked⟩ := s.conTaken.unlockWrong.respond_unlocks rq [] (tx "err " ++ tx "denied wrong code") none
      obtain ⟨c, e', q, form⟩ := s.conTaken.unlockWrong.respond_form rq [] (tx "err " ++ tx "denied wrong code") none
      obtain ⟨n, k, counted, locks, runs⟩ := s.conTaken.unlockWrong_form
      have respondErr : s.conTaken.unlockWrong.respondErr rq (tx "denied wrong code")
          = s.conTaken.unlockWrong.respond rq [] (tx "err " ++ tx "denied wrong code") none := rfl
      refine ⟨_, serviceUnlock_wrong ready wrong, fun y => (unlocked y).trans ?_, denied.trans ?_, lockout.trans ?_,
        fun free few => run.trans ?_, ?_⟩
      · rw [counted]
        cases y <;> rfl
      · rw [counted]
        rfl
      · rw [counted]
        exact locks
      · rw [counted]
        exact runs free few
      · rw [respondErr, form, counted]
        rfl
  case again =>
    intro rq s a v up idle numbered again aligned
    have poked : exec (.poke rq a v) s = .next (s.conAgain rq) :=
      congrArg Host.Outcome.next ((if_neg (by simp [aligned])).trans (State.conRun_again up idle numbered again))
    have named : exec (.id rq) s = .next (s.conAgain rq) := congrArg Host.Outcome.next (State.conRun_again up idle numbered again)
    obtain ⟨c, e, q, form⟩ := State.form_of_aside (s.conAgain_aside rq)
    exact ⟨_, poked, named, by rw [form]⟩

end Sys2Proof.Machine

/-! SUPPORT. Write commands of the console (O58): their register writes in order, and what a denied one leaves. -/

namespace Sys2Proof.Machine
open Sys2Proof

/-! ## Register writes of a command (R335) -/

section
variable {s : State} {rq : Req} {c : Instr} {ws : List (Nat × Word)}

/-- Writes that are each taken are made in order, and the command goes on. -/
theorem State.conWrites_of_admits {done : State → State} : ∀ {s : State}, s.admits ws →
    State.conWrites rq done ws s = done (s.wrote ws) := by
  induction ws with
  | nil => intro s _; rfl
  | cons e r ih =>
    obtain ⟨a, v⟩ := e
    rintro s ⟨⟨d, reg, allowed⟩, rest⟩
    rw [State.conWrites]
    simp only [reg, allowed, if_true]
    exact ih rest

theorem State.wrote_concat {a : Nat} {v : Word} : ∀ {s : State},
    s.wrote (ws ++ [(a, v)]) = ((s.wrote ws).hubWrite .console (BitVec.ofNat 16 a) v).afterRead .console (BitVec.ofNat 16 a) := by
  induction ws with
  | nil => intro s; rfl
  | cons e r ih => exact ih

theorem State.admits_concat {a : Nat} {v : Word} : ∀ {s : State}, s.admits (ws ++ [(a, v)]) →
    s.admits ws ∧ ∃ d, (s.wrote ws).reg .console (BitVec.ofNat 16 a) = some d ∧ d.allows v = true := by
  induction ws with
  | nil => exact fun taken => ⟨trivial, taken.1⟩
  | cons e r ih =>
    rintro s ⟨first, rest⟩
    obtain ⟨restTaken, last⟩ := ih rest
    exact ⟨⟨first, restTaken⟩, last⟩

theorem State.admits_one {a : Nat} {v : Word} (taken : s.admits [(a, v)]) :
    ∃ d, s.reg .console (BitVec.ofNat 16 a) = some d ∧ d.allows v = true := taken.1

/-- A write command that passes its checks makes its writes, and does what follows them. -/
theorem exec_writes {o : Bool} {pre post : Option Text} {act done : State → State} (ready : s.conReady rq)
    (allowed : s.conDenied rq = false) (row : exec c s = (.next (s.conRun rq true o pre post act) : Out)) (early : pre = none)
    (late : post = none) (acts : act s.conTaken = State.conWrites rq done ws s.conTaken) (taken : s.conTaken.admits ws) :
    exec c s = .next (done (s.conTaken.wrote ws)) :=
  row.trans (congrArg Host.Outcome.next
    ((State.conRun_of_ready ready (fun _ => allowed) early late).trans (acts.trans (State.conWrites_of_admits taken))))

end

/-- A command that makes the writes `ws`, where each is taken, and answers ok with a text. -/
def State.Writes (s : State) (rq : Req) (c : Instr) (ws : List (Nat × Word)) (txt : State → Text) : Prop :=
  s.conTaken.admits ws → exec c s = .next ((s.conTaken.wrote ws).respondOk rq (txt (s.conTaken.wrote ws)))

/-- One that puts the selectors it has moved back before it answers (R336). -/
def State.WritesBack (s : State) (rq : Req) (c : Instr) (ws : List (Nat × Word)) (txt : State → Text) : Prop :=
  s.conTaken.admits ws → exec c s = .next (((s.conTaken.wrote ws).setSel .console (fun _ => s.sel .console)).respondOk rq
    (txt (s.conTaken.wrote ws)))

/-- One that holds the interpreter until its outcome. -/
def State.WritesWaits (s : State) (rq : Req) (c : Instr) (ws : List (Nat × Word)) (w : State → Wait) (ms : Nat) : Prop :=
  s.conTaken.admits ws → exec c s = .next (let v := s.conTaken.wrote ws
    { v with con := { v.con with exec := some ⟨rq, w v, ms⟩ } })

section
variable {s : State} {rq : Req} {c : Instr} {ws : List (Nat × Word)} {o : Bool} {pre post : Option Text} {act : State → State}

theorem State.Writes.of_row {txt : State → Text} (ready : s.conReady rq) (allowed : s.conDenied rq = false)
    (row : exec c s = (.next (s.conRun rq true o pre post act) : Out)) (early : pre = none) (late : post = none)
    (acts : act s.conTaken = State.conWrites rq (fun v => v.respondOk rq (txt v)) ws s.conTaken) : s.Writes rq c ws txt :=
  exec_writes ready allowed row early late acts

theorem State.WritesBack.of_row {txt : State → Text} (ready : s.conReady rq) (allowed : s.conDenied rq = false)
    (row : exec c s = (.next (s.conRun rq true o pre post act) : Out)) (early : pre = none) (late : post = none)
    (acts : act s.conTaken = State.conWrites rq (fun v => (State.selBack s.conTaken v).respondOk rq (txt v)) ws s.conTaken) :
    s.WritesBack rq c ws txt :=
  exec_writes ready allowed row early late acts

theorem State.WritesWaits.of_row {w : State → Wait} {ms : Nat} (ready : s.conReady rq) (allowed : s.conDenied rq = false)
    (row : exec c s = (.next (s.conRun rq true o pre post act) : Out)) (early : pre = none) (late : post = none)
    (acts : act s.conTaken = State.conWrites rq (fun v => v.conHold ⟨rq, w v, ms⟩) ws s.conTaken) :
    s.WritesWaits rq c ws w ms :=
  exec_writes ready allowed row early late acts

end

theorem firstOf_one {c : Bool × Text} (passes : c.1 = false) : firstOf [c] = none :=
  firstOf_eq_none (by simpa using passes)

/-- `keep charge off`: the configuration read, with its enable cleared. -/
theorem State.cmdKeepCharge_off (s : State) (rq : Req) : s.cmdKeepCharge rq none
    = s.conRun rq true false (firstOf [s.noRetain, outOf false "charge"]) (firstOf [s.unreached 10])
      (fun s => s.conWrites rq (State.conOk rq []) [(0x1D10, setFld (s.conRead 0x1D10) 16 16 0)]) := by
  rw [State.cmdKeepCharge]

/-- `hoard extent` with an extent: its three writes, and then step 4 of R344. -/
theorem cmdHoardExtent_on (s : State) (rq : Req) (i : Nat) (x : ExtArg) : s.cmdHoardExtent rq i (some x)
    = s.conRun rq true false (firstOf [s.noHoard, outOf (15 < i || (3 < x.rank || 3 < x.cid || 0x1FFFF < x.first || x.rows < 1
        || 131072 < x.rows)) "extent"]) (firstOf [(s.hrd.st != .idle || s.hrd.unfinished, tx "busy hoard")])
      (fun old => State.conWrites rq (State.extentOn rq i x old)
        [(0x3814, BitVec.ofNat 32 i), (0x3818, extLo x), (0x381C, BitVec.ofNat 32 x.rows)] old) := by
  rw [State.cmdHoardExtent]

/-- HRD_EXT_LO has nothing to do when it is read. -/
theorem State.afterRead_extLo (s : State) : s.afterRead .console 0x3818 = s := by
  unfold State.afterRead State.reg
  split
  · next d reg =>
    split at reg
    · cases reg
    · have ext : hubReg .console 0x3818 s = hrdReg .console 0x3818 s := by simp [hubReg]
      rw [show (0x3818 : Addr).toNat = 0x3818 from rfl, ext] at reg
      unfold hrdReg at reg
      dsimp only at reg
      split at reg
      · cases reg
      · cases reg
        rfl
  · rfl

/-- `reset unit` of a unit other than the console writes CLK_CRST. -/
theorem cmdResetUnit_other (s : State) (rq : Req) {un : UnitName} (other : un ≠ .con) : s.cmdResetUnit rq un
    = s.conRun rq true true (s.unitRefused un) (firstOf [(un == .hoard && !s.hrdFree, tx "busy hoard")])
      (State.conWrites rq (State.conOk rq (tx "crst " ++ unitText un)) [(0x2C10, BitVec.ofNat 32 (2 ^ unitBit un))]) := by
  rw [State.cmdResetUnit]
  simp only [beq_eq_false_iff_ne.mpr other, Bool.false_eq_true, if_false]

theorem resetUnit_row (s : State) (rq : Req) {un : UnitName} (other : un ≠ .con) : exec (.resetUnit rq un) s
    = (.next (s.conRun rq true true (s.unitRefused un) (firstOf [(un == .hoard && !s.hrdFree, tx "busy hoard")])
      (State.conWrites rq (State.conOk rq (tx "crst " ++ unitText un)) [(0x2C10, BitVec.ofNat 32 (2 ^ unitBit un))])) : Out) :=
  congrArg Host.Outcome.next (cmdResetUnit_other s rq other)

/-- `reset unit con` leaves its write to the sending of its answer (R340). -/
theorem resetCon_row (s : State) (rq : Req) : exec (.resetUnit rq .con) s
    = (.next (s.conRun rq true true none (firstOf [(UnitName.con == .hoard && !s.hrdFree, tx "busy hoard")])
      (fun t => t.respond rq [] (tx "ok crst con") (some (.crst 1)))) : Out) := rfl

/-- CLK_CRST admits only what may be reset now (R77). -/
theorem crstOk_of_allows {s : State} {d : RegDef} {v : Word} (reg : s.reg .console 0x2C10 = some d) (allows : d.allows v = true) :
    s.crstOk v.toNat = true := by
  have clk := State.hubReg_of_reg reg
  have is : hubReg .console (0x2C10 : Addr).toNat s
      = some { flds := [Fld.any .wo 18 0], read := 0, whole := s.crstOk, write := fun v s => s.crst v } := by
    simp [hubReg, clkReg]
  rw [is, Option.some.injEq] at clk
  rw [← clk, RegDef.allows, Bool.and_eq_true] at allows
  exact allows.2

theorem hrdFree_of_crstOk {s : State} (ok : s.crstOk 64 = true) : s.hrdFree = true := by
  have hoard : Nat.testBit 64 6 = true := by decide
  simp only [State.crstOk, hoard, Bool.not_true, Bool.false_or, Bool.and_eq_true] at ok
  obtain ⟨⟨⟨⟨-, free⟩, -⟩, -⟩, -⟩ := ok
  exact free

/-- Step 4 of R344 where the extent is taken. -/
theorem extentOn_taken {s old : State} {rq : Req} {i : Nat} {x : ExtArg} {d : RegDef} (reg : s.reg .console 0x3818 = some d)
    (enables : d.allows (extLo x ||| 0x80000000) = true) : State.extentOn rq i x old s
      = (State.selBack old (s.hubWrite .console 0x3818 (extLo x ||| 0x80000000))).respondOk rq
        ((s.hubWrite .console 0x3818 (extLo x ||| 0x80000000)).extentOkText i x.rows) := by
  unfold State.extentOn
  simp only [reg, enables, if_true]

/-! ## `cal tap` and `cal vref` of one unit (R342) -/

/-- The units that `cal tap` and `cal vref` know. -/
def State.calUnits (s : State) : List Nat :=
  0 :: ((List.range 10).filter (fun n => s.fnOn .dbPresent && (s.zlb.present.getLsbD n || s.unreach n))).map (· + 1)

/-- What follows the write of `cal tap` or `cal vref` of unit `n`. -/
def State.calDone (rq : Req) (vref : Bool) (n : Nat) (s : State) : State :=
  let got := ([n].filter (fun u => u != 0 && s.unreach (u - 1))).map (fun u => tx "unit " ++ dec u ++ tx " unreachable")
  let open_ := [n].filter s.calOpen
  if open_.isEmpty then s.respond rq got (tx "ok cal count " ++ dec s.cal.body.count.toNat) none
  else s.conHold ⟨rq, .cal vref open_ got, 100⟩

/-- The word of CAL_CTRL that calibrates unit `n`. -/
def calWord (vref : Bool) (n : Nat) : Word := BitVec.ofNat 32 (0xCA1B0000 + 16 * n + (if vref then 2 else 1))

theorem calTapVref_row (s : State) (rq : Req) (vref : Bool) (n : Nat) : exec (.calTapVrefCmd rq vref (some n)) s
    = (.next (s.conRun rq true false
      (firstOf [(1 ≤ n && n ≤ 10 && !s.calUnits.contains n, tx "absent unit " ++ dec n), outOf (10 < n) "unit"])
      (firstOf [(!s.calDom, tx "busy"), if n != 0 then s.unreached (n - 1) else (false, [])])
      (State.conWrites rq (State.calDone rq vref n) [(0x1008, calWord vref n)])) : Out) := rfl

theorem mem_calUnits {s : State} {n : Nat} (small : n ≤ 10) (on : s.fnOn .dbPresent = true)
    (there : s.zlb.present.getLsbD (n - 1) = true) : s.calUnits.contains n = true := by
  rw [List.contains_iff_mem, State.calUnits, List.mem_cons]
  by_cases zero : n = 0
  · exact Or.inl zero
  · refine Or.inr (List.mem_map.mpr ⟨n - 1, List.mem_filter.mpr ⟨List.mem_range.mpr (by omega), ?_⟩, by omega⟩)
    rw [on, there]
    rfl

/-- A unit that is reachable waits while its calibration is open, and answers at once where none is. -/
theorem calDone_eq {v : State} {rq : Req} {vref : Bool} {n : Nat} (reach : n = 0 ∨ v.unreach (n - 1) = false) :
    State.calDone rq vref n v = if v.calOpen n then v.conHold ⟨rq, .cal vref [n] [], 100⟩
      else v.respondOk rq (tx "cal count " ++ dec v.cal.body.count.toNat) := by
  have none_ : [n].filter (fun u => u != 0 && v.unreach (u - 1)) = [] := by
    rcases reach with rfl | h
    · rfl
    · simp [h]
  unfold State.calDone
  rw [none_]
  cases open_ : v.calOpen n
  · simp only [List.filter_cons, open_, List.filter_nil, Bool.false_eq_true, if_false, List.isEmpty_nil, if_true, List.map_nil]
    have text : tx "ok cal count " = tx "ok " ++ tx "cal count " := by decide
    rw [text, List.append_assoc]
    rfl
  · simp [open_]

/-! ## `nvs image data` (R349) -/

theorem wordsFrom_length : ∀ bs : List Byte, (wordsFrom bs).length = bs.length / 4
  | [] => rfl
  | [_] => by simp [wordsFrom]
  | [_, _] => by simp [wordsFrom]
  | [_, _, _] => by simp [wordsFrom]
  | a :: b :: c :: d :: r => by
    rw [wordsFrom, List.length_cons, wordsFrom_length r]
    simp only [List.length_cons]
    omega

theorem imageData_row {s : State} {rq : Req} {bs : List Byte} (low : 4 ≤ bs.length) (high : bs.length ≤ 64) (whole : bs.length % 4 = 0) :
    exec (.nvsImageDataCmd rq bs) s = (.next (s.conRun rq true true (firstOf [outOf s.nvs.img.isNone "no image load"])
      (firstOf [(s.imgSpace < (wordsFrom bs).length, tx "busy nvs image space " ++ dec s.imgSpace)])
      (State.conWrites rq (fun s => s.respondOk rq (tx "nvs image " ++ s.imgCounts ++ tx " words"))
        ((wordsFrom bs).map (fun w => (0x2038, w))))) : Out) := by
  refine congrArg Host.Outcome.next (if_neg ?_)
  simp [whole]
  omega

/-! ## `nvs commit` (R346) -/

/-- What follows the write of `nvs commit`. -/
def State.commitDone (rq : Req) (s : State) : State :=
  if s.nvs.pend.isEmpty && s.nvs.failedPend.isEmpty then s.respondOk rq (tx "nvs commit none")
  else if !s.locked && !s.nvs.rescue then s.respondOk rq (tx "nvs commit held")
  else
    let rs := if s.settled || s.nvs.rescue then s.commitsOpen else s.nvs.pend
    if rs.isEmpty then s.respondOk rq (tx "nvs commit none") else s.conHold ⟨rq, .commits rs [] none, 10000⟩

theorem nvsCommit_row (s : State) (rq : Req) : exec (.nvsCommit rq) s = (.next (s.conRun rq true true none
    (firstOf [(s.pow.straps.nvsWp || (s.locked && !s.nvs.rescue && !s.feat.active.getLsbD 15), tx "nvs gated")])
    (State.conWrites rq (State.commitDone rq) [(0x2010, 0x9E570001)])) : Out) := rfl

theorem open_of_gated {s : State} (noRescue : s.nvs.rescue = false) (open_ : s.gated = false) :
    s.pow.straps.nvsWp = false ∧ s.feat.active.getLsbD 15 = true := by
  rw [State.gated, State.fnActive, noRescue] at open_
  simp only [Bool.or_eq_false_iff, Bool.not_false, Bool.true_and, Bool.not_eq_false', Bool.and_eq_true] at open_
  exact ⟨open_.1, open_.2.2⟩

theorem State.cmdCommit_form (s : State) : ∃ n, s.cmdCommit = { s with nvs := n } ∧ n.rescue = s.nvs.rescue := by
  unfold State.cmdCommit
  dsimp only
  split
  · exact ⟨_, rfl, rfl⟩
  · exact ⟨_, rfl, rfl⟩

theorem afterRead_nvsCmd {s : State} (up : s.up = true) (noRescue : s.nvs.rescue = false) (on : s.regOn .settingsWrite = true) :
    s.afterRead .console 0x2010 = s := by
  have reg : s.reg .console 0x2010 = some nvsCmdReg := by
    rw [State.reg_of_up up noRescue]
    change nvsReg .console 0x2010 s = some nvsCmdReg
    simp [nvsReg, on, nvsCmdReg]
  rw [State.afterRead, reg]
  rfl

/-- The write of NVS_CMD makes every pending region open to be committed, and its read back does nothing. -/
theorem commitWrote {s : State} {rq : Req} (ready : s.conReady rq) (open_ : s.gated = false) (locked : s.locked = true) :
    s.conTaken.wrote [(0x2010, 0x9E570001)] = s.conTaken.cmdCommit := by
  obtain ⟨up, noRescue, -⟩ := ready
  obtain ⟨-, active⟩ := open_of_gated noRescue open_
  have on : s.regOn .settingsWrite = true := (if_pos locked).trans active
  have moved : s.conTaken.hubWrite .console (BitVec.ofNat 16 0x2010) 0x9E570001 = s.conTaken.cmdCommit :=
    State.put_commit (s := s.conTaken) up noRescue on .console
  obtain ⟨n, kept, rescue⟩ := s.conTaken.cmdCommit_form
  have readBack : s.conTaken.cmdCommit.afterRead .console 0x2010 = s.conTaken.cmdCommit := by
    have upKept : ({ s.conTaken with nvs := n } : State).up = true := by
      unfold State.up State.mgmtReady at up ⊢
      dsimp only
      rw [rescue]
      exact up
    rw [kept]
    exact afterRead_nvsCmd upKept (rescue.trans noRescue) on
  exact (congrArg (State.afterRead · .console (BitVec.ofNat 16 0x2010)) moved).trans readBack

/-- Without a pending region there is nothing to commit. -/
theorem commitDone_none {v : State} {rq : Req} (locked : v.locked = true) (none_ : v.nvs.pend = []) :
    State.commitDone rq v = v.respondOk rq (tx "nvs commit none") := by
  have nothing : (if v.settled || v.nvs.rescue then v.commitsOpen else v.nvs.pend) = [] := by
    rw [State.commitsOpen, none_, List.filter_nil, ite_self]
  unfold State.commitDone
  rw [locked, nothing]
  split
  · rfl
  · rfl

/-- With regions open to be committed the command waits for them. -/
theorem commitDone_waits {v : State} {rq : Req} (settled : v.settled = true) (some_ : v.commitsOpen ≠ []) :
    State.commitDone rq v = v.conHold ⟨rq, .commits v.commitsOpen [] none, 10000⟩ := by
  have pending : v.nvs.pend ≠ [] := fun none_ => some_ (by rw [State.commitsOpen, none_]; rfl)
  have locked : v.locked = true := by
    rw [State.locked, show (v.feat.phase == .settled) = true from settled, Bool.or_true]
  unfold State.commitDone
  simp [pending, locked, settled, some_]

section
variable {s : State} {rq : Req} (ready : s.conReady rq) (allowed : s.conDenied rq = false)
include ready allowed

/-! ## Negotiation, registers, clocks and power -/

theorem featureAccept_writes {m : Nat} (open_ : s.locked = false) (small : m ≤ 0xFFFF) :
    s.Writes rq (.featureAccept rq m) [(0x0048, BitVec.ofNat 32 m)] (fun _ => []) :=
  .of_row ready allowed rfl (firstOf_eq_none (by simp [open_]; omega)) rfl rfl

theorem featureLock_waits (open_ : s.locked = false) (base : s.feat.accept.getLsbD 0 = true) :
    s.WritesWaits rq (.featureLock rq) [(0x0050, 0xA5C3)] (fun _ => .settled) 2 :=
  .of_row ready allowed rfl (firstOf_eq_none (by simp [open_]; exact base)) rfl rfl

theorem featureDeadline_writes {n : Nat} (open_ : s.locked = false) (low : 5 ≤ n) (high : n ≤ 300) :
    s.Writes rq (.featureDeadline rq n) [(0x0060, BitVec.ofNat 32 n)] (fun _ => []) :=
  .of_row ready allowed rfl (firstOf_eq_none (by simp [open_]; omega)) rfl rfl

theorem exec_poke {a : Addr} {v : Word} (aligned : a.toNat % 4 = 0) :
    exec (.poke rq a v) s = .next ((s.conTaken.hubWrite .console a v).respondOk rq []) :=
  congrArg Host.Outcome.next ((if_neg (by simp [aligned])).trans (State.conRun_of_ready ready (fun _ => allowed) rfl rfl))

theorem timeSet_writes {t : Civil} (ok : civilOk t = true) : ∃ (off : Int) (w : BitVec 48),
    off = (civilSecs t : Int) - s.clk.life.toNat ∧ w = BitVec.ofInt 48 off
    ∧ s.Writes rq (.timeSet rq t) [(0x2C1C, w.setWidth 32), (0x2C20, (w >>> 32).setWidth 32 ||| 0x80000000)]
      (fun _ => tx "time set offset " ++ decInt off ++ tx " s") :=
  ⟨_, _, rfl, rfl, State.Writes.of_row ready allowed rfl (firstOf_one (by simp [ok])) rfl rfl⟩

theorem timeClear_writes : s.Writes rq (.timeClear rq) [(0x2C20, 0)] (fun _ => []) :=
  .of_row ready allowed rfl rfl rfl rfl

theorem powerClear_writes (m : BitVec 5) : s.Writes rq (.powerClear rq m) [(0x1C04, BitVec.ofNat 32 (4 * m.toNat))] (fun _ => []) := by
  have word : (m.setWidth 32 : Word) <<< 2 = BitVec.ofNat 32 (4 * m.toNat) := by
    apply BitVec.eq_of_toNat_eq
    have := m.isLt
    simp [Nat.shiftLeft_eq]
    omega
  exact State.Writes.of_row ready allowed rfl rfl rfl (congrArg (fun w => State.conWrites rq (State.conOk rq []) [(0x1C04, w)] s.conTaken) word)

theorem resetUnit_writes {un : UnitName} (other : un ≠ .con) (open_ : s.unitRefused un = none) :
    s.Writes rq (.resetUnit rq un) [(0x2C10, BitVec.ofNat 32 (2 ^ unitBit un))] (fun _ => tx "crst " ++ unitText un) := by
  intro taken
  have free : (un == .hoard && !s.hrdFree) = false := by
    by_cases is : un = .hoard
    · subst is
      obtain ⟨d, reg, allows⟩ := State.admits_one taken
      have ok := crstOk_of_allows reg allows
      have bits : (BitVec.ofNat 32 (2 ^ unitBit .hoard)).toNat = 64 := by decide
      rw [bits] at ok
      have free := hrdFree_of_crstOk ok
      rw [show s.hrdFree = true from free, Bool.not_true, Bool.and_false]
    · rw [beq_eq_false_iff_ne.mpr is, Bool.false_and]
  have acted := exec_writes ready allowed (resetUnit_row s rq other) open_ (firstOf_one free) rfl taken
  exact acted

/-! ## Training, trim and calibration -/

theorem trimPause_writes (on : s.regOn .liveTrim = true) (p : Bool) : s.Writes rq (.trimPause rq p)
    [(0x1200, setFld (s.conTaken.hubRead .console 0x1200) 15 15 p.toNat)] (fun _ => []) :=
  .of_row ready allowed rfl (firstOf_one (by simp [on])) rfl rfl

theorem trainSave_writes (on : s.regOn .warmBoot = true) (open_ : s.gated = false) (b : Bool) :
    s.Writes rq (.trainSave rq b) [(0x1110, if b then 0x5A01 else 0x5A02)]
      (fun _ => tx (if b then "train save pending" else "train invalidate pending")) :=
  .of_row ready allowed rfl (firstOf_one (by simp [on])) (firstOf_one open_) rfl

theorem calAdcRef_waits (on : s.regOn .calAdc = true) (dom : s.pow.dom = .run ∨ s.pow.dom = .attended) (reach : s.unreach 10 = false)
    {mv : Nat} (low : 2000 ≤ mv) (high : mv ≤ 12000) :
    s.WritesWaits rq (.calAdcRef rq mv) [(0x1038, BitVec.ofNat 32 mv), (0x1008, 0xCA1B00B4)] (fun _ => .adc) 50 :=
  .of_row ready allowed rfl (firstOf_eq_none (by simp [on]; omega))
    (firstOf_eq_none (by rcases dom with h | h <;> simp [h, reach])) rfl

theorem exec_trainMaint {x : Sub} {rank : Nat} (db : s.pow.straps.nodb = false) (fitted : s.rankFitted x rank = true)
    (good : (s.tr x).rankFail.getLsbD rank = false) :
    exec (.trainMaint rq x rank) s = .next ((s.conTaken.wantRanks x (2 ^ rank)).respondOk rq []) :=
  congrArg Host.Outcome.next (State.conRun_of_ready ready (fun _ => allowed) (firstOf_eq_none (by simp [db, fitted]; exact good)) rfl)

theorem calTapVref_done (dom : s.calDom = true) {vref : Bool} {n : Nat} (small : n ≤ 10)
    (present : n ≠ 0 → s.fnOn .dbPresent = true ∧ s.zlb.present.getLsbD (n - 1) = true ∧ s.unreach (n - 1) = false)
    (taken : s.conTaken.admits [(0x1008, calWord vref n)]) :
    exec (.calTapVrefCmd rq vref (some n)) s = .next (State.calDone rq vref n (s.conTaken.wrote [(0x1008, calWord vref n)])) := by
  refine exec_writes ready allowed (calTapVref_row s rq vref n) (firstOf_eq_none ?_) (firstOf_eq_none ?_) rfl taken
  · have known : (decide (1 ≤ n) && decide (n ≤ 10) && !s.calUnits.contains n) = false := by
      by_cases zero : n = 0
      · rw [zero]
        rfl
      · obtain ⟨on, there, -⟩ := present zero
        rw [mem_calUnits small on there, Bool.not_true, Bool.and_false]
    simp only [List.forall_mem_cons, known, outOf_fst, true_and]
    simp
    omega
  · by_cases zero : n = 0
    · simp [dom, zero]
    · simp [dom, zero, present zero]

/-! ## Keep-alive and Hoard -/

theorem keepSpan_writes (offered : s.offers .retain = true) {n : Nat} (low : 10 ≤ n) (high : n ≤ 65535) :
    s.Writes rq (.keepSpan rq false n) [(0x1C0C, BitVec.ofNat 32 n)] (fun _ => []) :=
  .of_row ready allowed rfl (firstOf_eq_none (by simp [offered]; omega)) rfl rfl

theorem keepReserve_writes (offered : s.offers .retain = true) {n : Nat} (small : n ≤ 4000) :
    s.Writes rq (.keepSpan rq true n) [(0x1C14, BitVec.ofNat 32 n)] (fun _ => []) :=
  .of_row ready allowed rfl (firstOf_eq_none (by simp [offered]; omega)) rfl rfl

theorem keepCharge_writes (offered : s.offers .retain = true) (reach : s.unreach 10 = false) {v a : Nat} (low : 40 ≤ v) (high : v ≤ 116)
    (most : v ≤ s.zxp.vmax.toNat) (least : 1 ≤ a) (top : a ≤ 30) :
    s.Writes rq (.keepCharge rq (some (v, a))) [(0x1D10, BitVec.ofNat 32 (v + 256 * a + 65536))] (fun _ => []) := by
  have word : packWord [(0, v), (8, a), (16, 1)] = BitVec.ofNat 32 (v + 256 * a + 65536) :=
    congrArg (BitVec.ofNat 32) (by simp; omega)
  rw [← word]
  exact State.Writes.of_row ready allowed rfl (firstOf_eq_none (by simp [offered]; omega)) (firstOf_one reach) rfl

theorem keepChargeOff_writes (offered : s.offers .retain = true) (reach : s.unreach 10 = false) : s.Writes rq (.keepCharge rq none)
    [(0x1D10, setFld (s.conTaken.hubRead .console 0x1D10) 16 16 0)] (fun _ => []) :=
  .of_row ready allowed (congrArg Host.Outcome.next (s.cmdKeepCharge_off rq)) (firstOf_eq_none (by simp [offered])) (firstOf_one reach) rfl

theorem keepPack_writes (offered : s.offers .retain = true) (reach : s.unreach 10 = false) {c : Nat} (low : 10 ≤ c) (high : c ≤ 1000) :
    s.Writes rq (.keepPack rq c) [(0x1D18, BitVec.ofNat 32 c)] (fun _ => []) :=
  .of_row ready allowed rfl (firstOf_eq_none (by simp [offered]; omega)) (firstOf_one reach) rfl

theorem hoardLend_writes (on : s.regOn .hoard = true) (done : s.hrd.unfinished = false) (b : Bool) :
    s.Writes rq (.hoardLend rq b) [(0x3810, BitVec.ofNat 32 b.toNat)] (fun _ => []) :=
  .of_row ready allowed rfl (firstOf_eq_none (by simp [on, done])) rfl rfl

theorem hoardDiscard_writes (on : s.regOn .hoard = true) (left : s.hrd.unfinished = true) :
    s.Writes rq (.hoardDiscard rq) [(0x3838, 0x4B0D0001)] (fun _ => []) :=
  .of_row ready allowed rfl (firstOf_eq_none (by simp [on, left])) rfl rfl

theorem hoardExtentOff_writes (on : s.regOn .hoard = true) (idle : s.hrd.st = .idle) (done : s.hrd.unfinished = false) {i : Nat}
    (small : i ≤ 15) : s.WritesBack rq (.hoardExtent rq i none)
      [(0x3814, BitVec.ofNat 32 i), (0x3818, (nth s.hrd.extents i ⟨0, 0⟩).lo &&& 0x7FFFFFFF)]
      (fun _ => tx "extent " ++ dec i ++ tx " off") :=
  .of_row ready allowed rfl (firstOf_eq_none (by simp [on]; omega)) (firstOf_one (by simp [idle, done])) rfl

theorem hoardExtentOn_writes (on : s.regOn .hoard = true) (idle : s.hrd.st = .idle) (done : s.hrd.unfinished = false) {i : Nat}
    (small : i ≤ 15) {x : ExtArg} (rank : x.rank ≤ 3) (cid : x.cid ≤ 3) (first : x.first ≤ 0x1FFFF) (low : 1 ≤ x.rows)
    (high : x.rows ≤ 131072) : s.WritesBack rq (.hoardExtent rq i (some x))
      [(0x3814, BitVec.ofNat 32 i), (0x3818, extLo x), (0x381C, BitVec.ofNat 32 x.rows), (0x3818, extLo x ||| 0x80000000)]
      (fun v => v.extentOkText i x.rows) := by
  intro admitted
  obtain ⟨taken, d, reg, enables⟩ := State.admits_concat (ws := [(0x3814, BitVec.ofNat 32 i), (0x3818, extLo x),
    (0x381C, BitVec.ofNat 32 x.rows)]) admitted
  have wrote := State.wrote_concat (s := s.conTaken) (ws := [(0x3814, BitVec.ofNat 32 i), (0x3818, extLo x),
    (0x381C, BitVec.ofNat 32 x.rows)]) (a := 0x3818) (v := extLo x ||| 0x80000000)
  have acted := State.conRun_of_ready (act := fun old => State.conWrites rq (State.extentOn rq i x old)
    [(0x3814, BitVec.ofNat 32 i), (0x3818, extLo x), (0x381C, BitVec.ofNat 32 x.rows)] old) ready (fun _ => allowed)
    (w := true) (o := false) (firstOf_eq_none (cs := [s.noHoard, outOf (15 < i || (3 < x.rank || 3 < x.cid || 0x1FFFF < x.first || x.rows < 1
        || 131072 < x.rows)) "extent"]) (by simp [on]; omega))
    (firstOf_one (c := (s.hrd.st != .idle || s.hrd.unfinished, tx "busy hoard")) (by simp [idle, done]))
  have row : exec (.hoardExtent rq i (some x)) s = .next (s.cmdHoardExtent rq i (some x)) := rfl
  rw [row, cmdHoardExtent_on, acted, State.conWrites_of_admits taken, extentOn_taken reg enables]
  rw [show BitVec.ofNat 16 0x3818 = (0x3818 : Addr) from rfl, State.afterRead_extLo] at wrote
  exact congrArg (fun v : State => Host.Outcome.next ((State.selBack s.conTaken v).respondOk rq (v.extentOkText i x.rows))) wrote.symm

/-! ## Faults -/

theorem faultCfg_writes (on : s.regOn .faultWindows = true) {c : Fin 6} {w th : Nat} {a : BitVec 5}
    (pack : c = 5 → s.offers .retain = true) (low : 1 ≤ w) (high : w ≤ 43200) (least : 1 ≤ th) (most : th ≤ 255)
    (act : actionOk c a.toNat = true) : s.Writes rq (.faultCfg rq c w th (some a))
      [(0x1410 + 4 * c.val, packWord [(0, w), (16, th), (24, a.toNat)])] (fun _ => []) := by
  have present : ((c : Nat) == 5 && !s.offers .retain) = false := by
    by_cases is : c = 5
    · rw [pack is, Bool.not_true, Bool.and_false]
    · have other : (c : Nat) ≠ 5 := fun five => is (Fin.ext five)
      rw [beq_eq_false_iff_ne.mpr other, Bool.false_and]
  refine .of_row ready allowed rfl (firstOf_eq_none ?_) rfl rfl
  simp only [List.forall_mem_cons, State.noFaults_fst, on, outOf_fst, act, present, Bool.not_true, true_and]
  simp
  omega

theorem faultClearAll_writes (on : s.regOn .faultWindows = true) :
    s.WritesBack rq (.faultClear rq none) [(0x143C, 0xF17C0003)] (fun _ => tx "fault clear all") :=
  .of_row ready allowed rfl (firstOf_one (by simp [on])) rfl rfl

theorem faultClearClass_writes (on : s.regOn .faultWindows = true) (c : Fin 6) :
    s.WritesBack rq (.faultClear rq (some (c, none))) [(0x1430, selWord c none), (0x143C, 0xF17C0002)]
      (fun _ => tx "fault clear " ++ classWord c) :=
  .of_row ready allowed rfl (firstOf_one (by simp [on])) rfl rfl

theorem faultClearOne_writes (on : s.regOn .faultWindows = true) {c : Fin 6} {i : Nat} (index : resIndexOk c i = true)
    (present : s.resPresent c i = true) :
    s.WritesBack rq (.faultClear rq (some (c, some i))) [(0x1430, selWord c (some i)), (0x143C, 0xF17C0001)]
      (fun _ => tx "fault clear " ++ classWord c ++ [' '] ++ dec i) :=
  .of_row ready allowed rfl (firstOf_eq_none (by simp [on, index, present])) rfl rfl

theorem faultForget_writes (on : s.regOn .faultWindows = true) (ppr : s.regOn .pprAuto = true) {n : Nat} (small : n ≤ 31) :
    s.WritesBack rq (.faultRepair rq true n) [(0x143C, BitVec.ofNat 32 (0xF17C0005 + 16 * n))] (fun _ => []) := by
  have key : fltKey 5 n = BitVec.ofNat 32 (0xF17C0005 + 16 * n) := rfl
  rw [← key]
  exact State.WritesBack.of_row ready allowed rfl (firstOf_eq_none (by simp [on, ppr]; omega)) rfl rfl

theorem faultRepair_writes (on : s.regOn .faultWindows = true) (ppr : s.regOn .pprAuto = true) {n : Nat} (small : n ≤ 319)
    (present : s.resPresent 0 n = true) (ok : s.repairNowOk 0 n = true) :
    s.WritesBack rq (.faultRepair rq false n) [(0x1430, selWord 0 (some n)), (0x143C, 0xF17C0004)] (fun _ => []) :=
  .of_row ready allowed rfl (firstOf_eq_none (by simp [on, ppr, present, ok]; omega)) rfl rfl

theorem faultPackTest_writes (on : s.regOn .faultWindows = true) (offered : s.offers .retain = true) :
    s.WritesBack rq (.faultPackTest rq) [(0x143C, 0xF17C0006)] (fun _ => tx "pack test requested") :=
  .of_row ready allowed rfl (firstOf_eq_none (by simp [on, offered])) rfl rfl

/-! ## Events -/

theorem eventEnable_writes {n : Nat} (present : s.evtRegPresent n = true) (on : Bool) : s.Writes rq (.eventEnable rq n on)
    [(0x1900 + 4 * n, BitVec.ofNat 32 ((nth s.evt.srcs n EvtSrc.fresh).cfg.toNat / 2 * 2 + on.toNat))] (fun _ => []) :=
  .of_row ready allowed rfl (firstOf_eq_none (by have := evtRegPresent_lt present; simp [present]; omega)) rfl rfl

theorem eventRoute_writes {n : Nat} (present : s.evtRegPresent n = true) (r : BitVec 5) : s.Writes rq (.eventRoute rq n r)
    [(0x1900 + 4 * n, BitVec.ofNat 32 (r.toNat * 2 + (nth s.evt.srcs n EvtSrc.fresh).cfg.toNat % 2))] (fun _ => []) :=
  .of_row ready allowed rfl (firstOf_eq_none (by have := evtRegPresent_lt present; simp [present]; omega)) rfl rfl

theorem eventClear_writes {n : Nat} (present : s.evtRegPresent n = true) : s.Writes rq (.eventClear rq (some n))
    [(if n < 32 then 0x1800 else 0x1804, BitVec.ofNat 32 (2 ^ (n % 32)))] (fun _ => []) :=
  .of_row ready allowed rfl (firstOf_eq_none (by have := evtRegPresent_lt present; simp [present]; omega)) rfl rfl

theorem eventClearAll_writes : s.Writes rq (.eventClear rq none) [(0x1800, 0xFFFFFFFF), (0x1804, 0xFFFFFFFF)] (fun _ => []) :=
  .of_row ready allowed rfl (firstOf_eq_none (by simp [State.evtRegPresent])) rfl rfl

theorem eventRaise_writes (on : s.regOn .events64 = true) {n : Nat} (small : n ≤ 0xFFFF) :
    s.Writes rq (.eventRaiseCmd rq n) [(0x1814, BitVec.ofNat 32 (0xEE630000 + n))] (fun _ => []) :=
  .of_row ready allowed rfl (firstOf_eq_none (by simp [on]; omega)) rfl rfl

/-! ## The settings memory -/

theorem nvsCommit_done (open_ : s.gated = false) (taken : s.conTaken.admits [(0x2010, 0x9E570001)]) :
    exec (.nvsCommit rq) s = .next (State.commitDone rq (s.conTaken.wrote [(0x2010, 0x9E570001)])) := by
  obtain ⟨noWp, active⟩ := open_of_gated ready.2.1 open_
  refine exec_writes ready allowed (nvsCommit_row s rq) rfl (firstOf_one ?_) rfl taken
  simp only [noWp, Bool.false_or, Bool.and_eq_false_iff, Bool.not_eq_false']
  exact Or.inr active

theorem imageStart_writes (open_ : s.gated = false) (free : s.nvs.img = none) {kib crc : Nat} (low : 1 ≤ kib) (high : kib ≤ 447)
    (small : crc < 2 ^ 32) : s.Writes rq (.nvsImageStartCmd rq kib crc)
      [(0x2034, BitVec.ofNat 32 crc), (0x2030, BitVec.ofNat 32 (0x1A0D0000 + kib))] (fun _ => []) :=
  .of_row ready allowed rfl (firstOf_eq_none (by simp; omega)) (firstOf_eq_none (by simp [open_, free])) rfl

theorem imageData_writes (loading : s.nvs.img ≠ none) {bs : List Byte} (low : 4 ≤ bs.length) (high : bs.length ≤ 64)
    (whole : bs.length % 4 = 0) (room : bs.length / 4 ≤ s.imgSpace) :
    s.Writes rq (.nvsImageDataCmd rq bs) ((wordsFrom bs).map (fun w => (0x2038, w)))
      (fun v => tx "nvs image " ++ v.imgCounts ++ tx " words") := by
  refine .of_row ready allowed (imageData_row low high whole) (firstOf_one ?_) (firstOf_one ?_) rfl
  · simpa using Option.isSome_iff_ne_none.mpr loading
  · rw [wordsFrom_length]
    simpa using room

theorem imageAbort_writes (on : s.regOn .settingsWrite = true) :
    s.Writes rq (.nvsImageAbortCmd rq) [(0x2010, 0x9E570002)] (fun _ => []) :=
  .of_row ready allowed rfl (firstOf_one (by rw [State.noImage, on]; simp)) rfl rfl

end

/-! ## `train maint` -/

/-- A rank wanted joins the ranks of its subchannel. -/
theorem State.wantRanks_tr (s : State) (x : Sub) (m : Nat) : ∃ e, s.wantRanks x m
    = { s.setTr x (fun t => { t with want := (s.tr x).want ||| BitVec.ofNat 4 m }) with evt := e } := by
  unfold State.wantRanks
  dsimp only
  split
  · exact State.raise_unlatched _ (Or.inl (by decide)) (Or.inl (by decide)) _
  · exact ⟨_, rfl⟩

/-! ## Denied commands (R328) -/

section
variable {s : State} {rq : Req}

theorem State.conRun_denied {o : Bool} {pre post : Option Text} {act : State → State} (ready : s.conReady rq)
    (denied : s.conDenied rq = true) :
    s.conRun rq true o pre post act = s.conTaken.respondErr rq (tx "denied service unlock required") := by
  obtain ⟨up, noRescue, idle, claimed, fresh⟩ := ready
  have once : (rq.nn.isSome && (s.ses rq.sess).lastNn == rq.nn) = false := by
    rcases fresh with none_ | other
    · rw [none_]; rfl
    · rw [beq_eq_false_iff_ne.mpr other, Bool.and_false]
  unfold State.conRun
  rw [State.conOn, up, idle, if_neg (by decide), if_neg (by simp [once])]
  simp only [denied, Bool.and_self, if_true]
  rfl

/-- An answer alone: no configuration and no register moves, and nothing is left to take effect. -/
theorem respondErr_kept (s : State) (rq : Req) (t : Text) :
    s.conTaken.respondErr rq t = { s with
      con := (s.conTaken.respondErr rq t).con, pool := (s.conTaken.respondErr rq t).pool, evt := (s.conTaken.respondErr rq t).evt }
    ∧ (s.conTaken.respondErr rq t).con.cfg = s.con.cfg ∧ ((s.conTaken.respondErr rq t).ses rq.sess).ending = none := by
  obtain ⟨q, view⟩ := s.conTaken.respond_unsent rq [] (tx "err " ++ t) none
  obtain ⟨-, -, -, -, cfg, -⟩ := State.of_unsent view
  obtain ⟨c, e, p, form⟩ := s.conTaken.respond_form rq [] (tx "err " ++ t) none
  have is : s.conTaken.respondErr rq t = s.conTaken.respond rq [] (tx "err " ++ t) none := rfl
  rw [is]
  exact ⟨by rw [form]; rfl, cfg, State.respond_ending _ _ _ _ _⟩

end

/-- Settles O58, command by command. -/
theorem consoleCommands : Obligations.ConsoleCommands := by
  refine ⟨?writes, ?unit, ?denied⟩
  case writes =>
    intro rq s ready allowed
    refine ⟨fun open_ => ⟨fun m small => featureAccept_writes ready allowed open_ small, featureLock_waits ready allowed open_,
        fun n low high => featureDeadline_writes ready allowed open_ low high⟩,
      fun a v aligned => exec_poke ready allowed aligned, fun t ok => timeSet_writes ready allowed ok, timeClear_writes ready allowed,
      fun on p => trimPause_writes ready allowed on p, fun x rank db fitted good => ?maint,
      fun on open_ b => trainSave_writes ready allowed on open_ b, fun dom vref n small present => ?cal,
      fun on dom reach mv low high => calAdcRef_waits ready allowed on dom reach low high,
      fun offered => ⟨fun n low high => keepSpan_writes ready allowed offered low high,
        fun n small => keepReserve_writes ready allowed offered small,
        fun reach => ⟨fun v a low high most least top => keepCharge_writes ready allowed offered reach low high most least top,
          keepChargeOff_writes ready allowed offered reach, fun c low high => keepPack_writes ready allowed offered reach low high⟩⟩,
      fun on => ⟨fun i small idle done => ⟨hoardExtentOff_writes ready allowed on idle done small,
          fun x rank cid first low high => hoardExtentOn_writes ready allowed on idle done small rank cid first low high⟩,
        fun done b => hoardLend_writes ready allowed on done b, hoardDiscard_writes ready allowed on⟩,
      fun on => ⟨fun c w th a pack low high least most act => faultCfg_writes ready allowed on pack low high least most act,
        faultClearAll_writes ready allowed on, faultClearClass_writes ready allowed on,
        fun c i index present => faultClearOne_writes ready allowed on index present,
        fun ppr => ⟨fun n small => faultForget_writes ready allowed on ppr small,
          fun n small present ok => faultRepair_writes ready allowed on ppr small present ok⟩,
        faultPackTest_writes ready allowed on⟩,
      fun n present => ⟨fun on => eventEnable_writes ready allowed present on, fun r => eventRoute_writes ready allowed present r,
        eventClear_writes ready allowed present⟩,
      eventClearAll_writes ready allowed, fun on n small => eventRaise_writes ready allowed on small,
      fun open_ locked settled => ⟨fun none_ taken => ?commitNone, fun settled' _ some_ taken => ?commitWaits⟩,
      fun open_ free kib crc low high small => imageStart_writes ready allowed open_ free low high small,
      fun loading bs low high whole room => ⟨wordsFrom_length bs, imageData_writes ready allowed loading low high whole room⟩,
      imageAbort_writes ready allowed, powerClear_writes ready allowed,
      fun un other open_ _ => resetUnit_writes ready allowed other open_⟩
    case maint =>
      obtain ⟨e, wants⟩ := s.conTaken.wantRanks_tr x (2 ^ rank)
      obtain ⟨c, e', q, form⟩ := (s.conTaken.wantRanks x (2 ^ rank)).respond_form rq [] (tx "ok") none
      have is : (s.conTaken.wantRanks x (2 ^ rank)).respondOk rq [] = (s.conTaken.wantRanks x (2 ^ rank)).respond rq [] (tx "ok") none := rfl
      refine ⟨_, exec_trainMaint ready allowed db fitted good, ?_, fun y other => ?_, ?_⟩
      all_goals rw [is, form, wants]
      · cases x <;> rfl
      · cases x <;> cases y <;> simp at other <;> rfl
      · cases x <;> rfl
    case cal =>
      intro ws reach
      refine ⟨fun open_ taken => ?_, fun shut taken => ?_⟩
      · exact (calTapVref_done ready allowed dom small present taken).trans
          (congrArg Host.Outcome.next ((calDone_eq reach).trans (if_pos open_)))
      · exact (calTapVref_done ready allowed dom small present taken).trans
          (congrArg Host.Outcome.next ((calDone_eq reach).trans (if_neg (by simp [shut]))))
    case commitNone =>
      refine (nvsCommit_done ready allowed open_ taken).trans (congrArg Host.Outcome.next (commitDone_none ?_ none_))
      rw [commitWrote ready open_ locked]
      obtain ⟨n, kept, -⟩ := s.conTaken.cmdCommit_form
      rw [kept]
      exact locked
    case commitWaits =>
      exact (nvsCommit_done ready allowed open_ taken).trans (congrArg Host.Outcome.next (commitDone_waits settled' some_))
  case unit =>
    intro rq s ready allowed
    obtain ⟨c, q, form⟩ := s.conTaken.respond_silent rq [] (tx "ok crst con") (some (.crst 1)) rfl
    refine ⟨_, (resetCon_row s rq).trans (congrArg Host.Outcome.next (State.conRun_of_ready ready (fun _ => allowed) rfl (firstOf_one rfl))),
      State.respond_ending _ _ _ _ _, ?_⟩
    rw [form]
    rfl
  case denied =>
    intro rq s a v ready denied c inList
    have refused : exec c s = .next (s.conTaken.respondErr rq (tx "denied service unlock required")) := by
      have aligned : ¬ ((a &&& 0xFFFC).toNat % 4 != 0) = true := by
        have low : (a &&& 0xFFFC).toNat % 2 ^ 2 = 0 := by
          rw [BitVec.toNat_and, Nat.and_mod_two_pow]
          exact Nat.and_zero _
        simpa using low
      have run := fun {o pre post act} => @State.conRun_denied s rq o pre post act ready denied
      simp only [List.mem_cons, List.not_mem_nil, or_false] at inList
      rcases inList with rfl | rfl | rfl | rfl | rfl | rfl | rfl | rfl | rfl
      · exact congrArg Host.Outcome.next ((if_neg aligned).trans run)
      all_goals exact congrArg Host.Outcome.next run
    obtain ⟨frame, cfg, quiet⟩ := respondErr_kept s rq (tx "denied service unlock required")
    exact ⟨_, refused, frame, cfg, quiet⟩

end Sys2Proof.Machine

/-! SUPPORT. Register access over the two-wire ports (O53). -/

namespace Sys2Proof.Machine
open Sys2Proof

/-! ## The shapes of a write transaction (R293, R294) -/

section
variable {s : State} {p : Port} {addr : BitVec 7}

theorem State.a0Room_of_place (place : (s.port p).exec = none ∨ (s.port p).staged = none) : s.a0Room p = s :=
  if_neg (by rcases place with h | h <;> simp [h])

/-- A transaction that need not wait for a place takes its shape from its own bytes. -/
theorem State.a0Write_of_place {bs : List Byte} {stop : Bool} (answered : s.answers p 0 addr false = true)
    (place : (s.port p).exec = none ∨ (s.port p).staged = none) :
    s.a0Write p addr bs stop =
      if !(a0Len (s.port p).pec bs 2 && stop) && !a0Len (s.port p).pec bs 6 then s.a0Discard p bs
      else if !pecGood (s.port p).pec addr bs then s.setPort p TwbPort.pecBad
      else if a0Len (s.port p).pec bs 2 && stop then s.takePointer p bs
      else if !stop then s.a0Discard p bs
      else (s.takePointer p bs).a0Commit p (alah bs) (wordOfBytes (nth bs 2 0) (nth bs 3 0) (nth bs 4 0) (nth bs 5 0)) := by
  unfold State.a0Write
  rw [if_neg (by simp [answered]), State.a0Room_of_place place]

theorem State.a0Len_frame (bs : List Byte) (n : Nat) : a0Len (s.port p).pec (s.frame p addr bs) n = (bs.length == n) := by
  rw [a0Len, State.frame_length]
  exact Bool.eq_iff_iff.mpr (by simp)

theorem a0Len_eq_false {pec : Bool} {bs : List Byte} {n : Nat} (other : bs.length ≠ n + pec.toNat) : a0Len pec bs n = false :=
  beq_eq_false_iff_ne.mpr other

theorem pecGood_of_wrong {bs : List Byte} {c : Byte} (wrong : c ≠ pecOf (addrByte addr false :: bs)) :
    pecGood true addr (bs ++ [c]) = false := by
  simp [pecGood, wrong]

/-- The bytes of a whole frame stand before its PEC. -/
theorem State.nth_frame {bs : List Byte} {i : Nat} (inside : i < bs.length) : nth (s.frame p addr bs) i 0 = nth bs i 0 := by
  simp [nth, State.frame, List.getElem?_append_left inside]

theorem State.alah_frame {bs : List Byte} (two : 2 ≤ bs.length) : alah (s.frame p addr bs) = alah bs := by
  rw [alah, State.nth_frame (by omega), State.nth_frame (by omega), alah]

theorem State.takePointer_of_two {bs : List Byte} (two : 2 ≤ bs.length) :
    s.takePointer p bs = s.setPort p (fun t => { t with pointer := alah bs }) :=
  if_neg (by omega)

theorem State.takePointer_frame {bs : List Byte} (two : 2 ≤ bs.length) :
    s.takePointer p (s.frame p addr bs) = s.setPort p (fun t => { t with pointer := alah bs }) := by
  rw [State.takePointer_of_two (by rw [State.frame_length]; omega), State.alah_frame two]

/-- What becomes of the port of a discarded transaction. -/
theorem State.a0Discard_eq (bs : List Byte) : s.a0Discard p bs = s.setPort p (fun t => { t with
    errDiscard := satAdd t.errDiscard 1, pointer := if 2 ≤ bs.length then alah bs else t.pointer }) := by
  unfold State.a0Discard State.takePointer
  split
  · next few => exact State.setPort_congr (by rw [if_neg (by omega)]; rfl)
  · next two =>
    rw [State.setPort_setPort]
    exact State.setPort_congr (by rw [if_pos (by omega)]; rfl)

theorem State.a0Write_pointer (answered : s.answers p 0 addr false = true)
    (place : (s.port p).exec = none ∨ (s.port p).staged = none) (al ah : Byte) :
    s.a0Write p addr (s.frame p addr [al, ah]) true = s.setPort p (fun t => { t with pointer := ah ++ al }) := by
  rw [State.a0Write_of_place answered place, State.a0Len_frame, State.a0Len_frame, State.frame_pecGood,
    State.takePointer_frame (by simp)]
  rfl

theorem State.a0Write_write (answered : s.answers p 0 addr false = true)
    (place : (s.port p).exec = none ∨ (s.port p).staged = none) (al ah d0 d1 d2 d3 : Byte) :
    s.a0Write p addr (s.frame p addr [al, ah, d0, d1, d2, d3]) true = s.setPort p (fun t => if t.exec = none
      then { t with pointer := ah ++ al, exec := some (ah ++ al, d3 ++ d2 ++ d1 ++ d0) }
      else { t with pointer := ah ++ al, staged := some (ah ++ al, d3 ++ d2 ++ d1 ++ d0) }) := by
  rw [State.a0Write_of_place answered place, State.a0Len_frame, State.a0Len_frame, State.frame_pecGood,
    State.takePointer_frame (by simp), State.alah_frame (by simp), State.nth_frame (by simp), State.nth_frame (by simp),
    State.nth_frame (by simp), State.nth_frame (by simp), if_neg (by simp), if_neg (by simp), if_neg (by simp), if_neg (by simp),
    State.a0Commit, State.setPort_setPort]
  refine State.setPort_congr ?_
  cases (s.port p).exec <;> simp [alah, nth, wordOfBytes]

/-- A write frame that no STOP ends. -/
theorem State.a0Write_open (answered : s.answers p 0 addr false = true)
    (place : (s.port p).exec = none ∨ (s.port p).staged = none) (al ah d0 d1 d2 d3 : Byte) :
    s.a0Write p addr (s.frame p addr [al, ah, d0, d1, d2, d3]) false
      = s.setPort p (fun t => { t with errDiscard := satAdd t.errDiscard 1, pointer := ah ++ al }) := by
  rw [State.a0Write_of_place answered place, State.a0Len_frame, State.a0Len_frame, State.frame_pecGood,
    State.a0Discard_eq, State.frame_length, State.alah_frame (by simp), if_neg (by simp), if_neg (by simp), if_neg (by simp),
    if_pos (by simp)]
  exact State.setPort_congr (by rw [if_pos (by simp; omega)]; rfl)

theorem State.a0Write_wrongPec (answered : s.answers p 0 addr false = true)
    (place : (s.port p).exec = none ∨ (s.port p).staged = none) {bs : List Byte} {c : Byte} {stop : Bool}
    (on : (s.port p).cfg.getLsbD 0 = true) (wrong : c ≠ pecOf (addrByte addr false :: bs))
    (shape : bs.length = 6 ∨ (bs.length = 2 ∧ stop = true)) :
    s.a0Write p addr (bs ++ [c]) stop = s.setPort p (fun t => { t with errPec := satAdd t.errPec 1 }) := by
  rw [State.a0Write_of_place answered place, TwbPort.pec_eq, on, if_neg, pecGood_of_wrong wrong]
  · rfl
  · rcases shape with six | ⟨two, stopped⟩
    · simp [a0Len, six]
    · simp [a0Len, two, stopped]

/-- Neither a set-pointer nor a write: another length, or a set-pointer that no STOP ends. -/
theorem State.a0Write_shapeless (answered : s.answers p 0 addr false = true)
    (place : (s.port p).exec = none ∨ (s.port p).staged = none) {bs : List Byte} {stop : Bool}
    (noWrite : bs.length ≠ 6 + ((s.port p).cfg.getLsbD 0).toNat)
    (noSet : bs.length ≠ 2 + ((s.port p).cfg.getLsbD 0).toNat ∨ stop = false) :
    s.a0Write p addr bs stop = s.setPort p (fun t => { t with
      errDiscard := satAdd t.errDiscard 1, pointer := if 2 ≤ bs.length then nth bs 1 0 ++ nth bs 0 0 else t.pointer }) := by
  rw [State.a0Write_of_place answered place, TwbPort.pec_eq, if_pos, State.a0Discard_eq]
  · rfl
  · rw [a0Len_eq_false noWrite]
    rcases noSet with other | open_
    · rw [a0Len_eq_false other]; rfl
    · rw [open_]; simp

end

/-! ## The accesses a port holds (R296, R307) -/

section
variable {s : State} {p : Port}

theorem State.twbExec_of_none (empty : (s.port p).exec = none) : s.twbExec p = s := by
  rw [State.twbExec, empty]

theorem State.twbMove_of_none (empty : (s.port p).exec = none) :
    s.twbMove p = s.setPort p (fun x => { x with exec := x.staged, staged := none }) :=
  if_neg (by simp [empty])

theorem State.a0Flush_of_idle (empty : (s.port p).exec = none) (free : (s.port p).staged = none) : s.a0Flush p = s := by
  have stays : s.setPort p (fun x => { x with exec := x.staged, staged := none }) = s := State.setPort_of_eq (by
    rw [free]
    cases h : s.port p
    simp_all)
  rw [State.a0Flush, State.twbExec_of_none empty, State.twbMove_of_none empty, stays, State.twbExec_of_none empty]

theorem twbStagedApply_of_none (up : s.up = true) (empty : (s.port p).exec = none) :
    exec (.twbStagedApply p) s = .next (s.setPort p (fun x => { x with exec := x.staged, staged := none })) := by
  refine congrArg Host.Outcome.next ((if_pos up).trans ?_)
  rw [State.twbExec_of_none empty, State.twbMove_of_none empty]

theorem twbStagedApply_of_some {a : Addr} {v : Word} (up : s.up = true) (held : (s.port p).exec = some (a, v)) :
    exec (.twbStagedApply p) s = .next (
      let u := (s.setPort p (fun x => { x with exec := none })).hubWrite (portPath p) a v
      if (u.port p).exec = none then u.setPort p (fun x => { x with exec := x.staged, staged := none }) else u) := by
  refine congrArg Host.Outcome.next ((if_pos up).trans ?_)
  have applied : s.twbExec p = (s.setPort p (fun x => { x with exec := none })).hubWrite (portPath p) a v := by
    rw [State.twbExec, held]
  rw [applied, State.twbMove]
  dsimp only
  cases ((s.setPort p _).hubWrite (portPath p) a v |>.port p).exec <;> rfl

/-! ## SCL low too long (R307) -/

/-- The interface of a port is reset: only its staged write and its READ are gone, with the READ's buffer. -/
theorem State.portReset_form : ∃ q, s.portReset p
    = { s with pool := q, twb := (s.setPort p (fun t => { t with staged := none, read := none })).twb } := by
  rw [State.portReset]
  cases idle : (s.port p).read with
  | none =>
    refine ⟨s.pool, ?_⟩
    rw [State.dropRead_of_none idle]
    refine (State.setPort_congr (g := fun t => { t with staged := none, read := none }) ?_).trans (by cases p <;> rfl)
    rw [idle]
  | some r =>
    refine ⟨s.pool.free (portHolder p), ?_⟩
    rw [State.dropRead_of_some idle]
    cases p <;> rfl

theorem twbSclTimeout_of_watched (up : s.up = true) (watched : (s.port p).cfg.getLsbD 1 = true) :
    ∃ q e, exec (.twbSclTimeout p) s = .next { s with
      pool := q, evt := e
      twb := (s.setPort p (fun t => { t with staged := none, read := none, tmout := satAdd t.tmout 1 })).twb } := by
  obtain ⟨q, reset⟩ := s.portReset_form (p := p)
  obtain ⟨e, raised⟩ := State.raise_unlatched ((s.portReset p).setPort p (fun t => { t with tmout := satAdd t.tmout 1 }))
    (n := 61) (by decide) (by decide) (match (generalizing := false) p with | .host => 0 | .loc => 1)
  refine ⟨q, e, congrArg Host.Outcome.next ?_⟩
  have on : ¬ (!s.up || !bitAt (s.port p).cfg 1) = true := by
    have bit : bitAt (s.port p).cfg 1 = true := watched
    simp [up, bit]
  refine (if_neg on).trans (raised.trans ?_)
  rw [reset]
  cases p <;> rfl

theorem twbSclTimeout_of_unwatched (off : (s.port p).cfg.getLsbD 1 = false) : exec (.twbSclTimeout p) s = .next s := by
  have bit : bitAt (s.port p).cfg 1 = false := off
  exact congrArg Host.Outcome.next (if_pos (by simp [bit]))

end

/-! ## What a read leaves (R295) -/

/-- What the reads of a port's transaction do not change: the ports, the stores, power and the features. -/
def State.steady (s : State) : Twb × Nv × Pow × Feat := (s.twb, s.nv, s.pow, s.feat)

section
variable (s : State)

theorem State.raise_steady {n : Nat} (power : n < 24 ∨ 31 < n) (hoard : n < 48 ∨ 55 < n) (a : BitVec 24) :
    (s.raise n a).steady = s.steady := by
  obtain ⟨e, raised⟩ := s.raise_unlatched power hoard a
  rw [raised]
  rfl

theorem State.fault_steady (c i k : Nat) : (s.fault c i k).steady = s.steady := by
  obtain ⟨f, counted⟩ := s.fault_form c i k
  rw [counted]
  rfl

/-- Abandoned work on a unit is the calibration's. -/
theorem State.calAbandon_steady (u : Nat) : (s.calAbandon u).steady = s.steady := by
  by_cases adc : u = 11
  · subst adc
    cases run : s.calRun 11 with
    | none => simp [State.calAbandon, State.adcEnd, run]
    | some r =>
      obtain ⟨c, e, p, ended⟩ := State.adcEnd_form run 2 4
      rw [State.calAbandon, if_pos rfl, ended]
      rfl
  · cases run : s.calRun u with
    | none => simp [State.calAbandon, adc, run]
    | some r =>
      obtain ⟨c, e, p, ended⟩ := State.calAbandon_form adc run
      rw [ended]
      rfl

/-- An access that meets no answer is counted, reported and marked. -/
theorem State.zlbTry_steady (t : Nat) : (s.zlbTry t).steady = s.steady := by
  have attempt : ∀ u : State, (u.attemptFail t).steady = u.steady := fun u =>
    (State.raise_steady _ (n := 10) (by decide) (by decide) _).trans (u.fault_steady 3 t 1)
  have marked : ∀ u : State, (u.markUnreach t).steady = u.steady := fun u => by
    unfold State.markUnreach
    split
    · rfl
    · exact (State.calAbandon_steady _ _).trans (State.raise_steady _ (n := 11) (by decide) (by decide) _)
  have last : ∀ u : State, (u.lastFail t).steady = u.steady := fun u => (marked _).trans (u.fault_steady 3 t 1)
  unfold State.zlbTry State.noAnswer
  split
  · rfl
  · rw [last, attempt, attempt, attempt]

end

/-- A register, where there is one, whose read leaves the ports, the stores, power and the features. -/
def ReadSteady (o : Option RegDef) : Prop := ∀ d ∈ o, ∀ s, (d.onRead s).steady = s.steady

theorem ReadSteady.none : ReadSteady none := fun _ h => nomatch h

theorem ReadSteady.some {d : RegDef} (steady : ∀ s, (d.onRead s).steady = s.steady) : ReadSteady (some d) := by
  rintro _ ⟨⟩
  exact steady

/-- A register that is only read. -/
theorem ReadSteady.plain {d : RegDef} (idle : d.onRead = id) : ReadSteady (Option.some d) :=
  .some fun s => by rw [idle]; rfl

theorem ReadSteady.ite {c : Prop} [Decidable c] {x y : Option RegDef} (hx : ReadSteady x) (hy : ReadSteady y) :
    ReadSteady (if c then x else y) := by
  split <;> assumption

section
variable (p : Path) (a : Nat) (s : State)

theorem featReg_readSteady : ReadSteady (featReg p a s) := by
  unfold featReg
  split
  any_goals exact .none
  all_goals exact .plain rfl

theorem hostReg_readSteady : ReadSteady (hostReg p a s) := by
  unfold hostReg
  dsimp only
  split
  any_goals exact .none
  any_goals exact .plain rfl
  exact .ite (.plain rfl) .none

theorem calReg_readSteady : ReadSteady (calReg p a s) := by
  unfold calReg
  extract_lets
  repeat' refine ReadSteady.ite ?_ ?_
  any_goals exact .none
  all_goals exact .plain rfl

/-- Reading the blob's data word advances its index. -/
theorem trainReg_readSteady : ReadSteady (trainReg p a s) := by
  unfold trainReg
  extract_lets
  repeat' refine ReadSteady.ite ?_ ?_
  any_goals exact .none
  any_goals exact .plain rfl
  exact .some fun _ => rfl

theorem trimReg_readSteady : ReadSteady (trimReg p a s) := by
  unfold trimReg
  extract_lets
  repeat' refine ReadSteady.ite ?_ ?_
  any_goals exact .none
  all_goals exact .plain rfl

theorem fltReg_readSteady : ReadSteady (fltReg p a s) := by
  unfold fltReg
  extract_lets
  repeat' refine ReadSteady.ite ?_ ?_
  any_goals exact .none
  all_goals exact .plain rfl

theorem evtReg_readSteady : ReadSteady (evtReg p a s) := by
  unfold evtReg
  dsimp only
  generalize (a - 0x1900) / 4 = n
  repeat' refine ReadSteady.ite ?_ ?_
  any_goals exact .none
  all_goals exact .plain rfl

theorem pwrReg_readSteady : ReadSteady (pwrReg p a s) := by
  unfold pwrReg
  extract_lets
  repeat' refine ReadSteady.ite ?_ ?_
  any_goals exact .none
  any_goals exact .plain rfl
  split
  any_goals exact .none
  all_goals exact .plain rfl

theorem nvsReg_readSteady : ReadSteady (nvsReg p a s) := by
  unfold nvsReg
  extract_lets
  repeat' refine ReadSteady.ite ?_ ?_
  any_goals exact .none
  all_goals exact .plain rfl

theorem twbReg_readSteady : ReadSteady (twbReg p a s) := by
  unfold twbReg
  dsimp only
  refine ReadSteady.ite (.plain rfl) (ReadSteady.ite (.plain rfl) ?_)
  split
  any_goals exact .none
  any_goals exact .plain rfl
  exact .ite (.plain rfl) .none

theorem conReg_readSteady : ReadSteady (conReg p a s) := by
  unfold conReg
  dsimp only
  split
  any_goals exact .none
  all_goals exact .plain rfl

/-- Reading the low word of the lifetime counter latches its high part for the path. -/
theorem clkReg_readSteady : ReadSteady (clkReg p a s) := by
  unfold clkReg
  dsimp only
  split
  any_goals exact .none
  any_goals exact .plain rfl
  exact .some fun _ => rfl

theorem wrnReg_readSteady : ReadSteady (wrnReg p a s) := by
  unfold wrnReg
  dsimp only
  refine ReadSteady.ite (.ite .none (.plain rfl)) (ReadSteady.ite (.plain rfl) ?_)
  split
  any_goals exact .none
  all_goals exact .plain rfl

theorem hrdReg_readSteady : ReadSteady (hrdReg p a s) := by
  unfold hrdReg
  extract_lets
  refine ReadSteady.ite .none ?_
  split
  any_goals exact .none
  all_goals exact .plain rfl

theorem poolReg_readSteady : ReadSteady (poolReg p a s) := by
  unfold poolReg
  exact .ite (.plain rfl) .none

/-- A read behind the proxy: its target remembers it, and an access to one not reached finds no answer (R129, R131). -/
theorem proxied_readSteady {o : Option RegDef} (h : LocalReg o) (t off : Nat) : ReadSteady (proxied p t off o s) := by
  unfold proxied
  dsimp only
  refine ReadSteady.ite (.some fun u => u.zlbTry_steady t) (.some fun u => ?_)
  cases o with
  | none => rfl
  | some d =>
    obtain ⟨reads, _⟩ := h d rfl
    have kept : (d.onRead u).steady = u.steady := congrArg State.steady (reads u)
    exact kept

theorem dbmReg_readSteady : ReadSteady (dbmReg p a s) := by
  unfold dbmReg
  dsimp only
  generalize a - 0x0C80 = o
  have target := proxied_readSteady p s (dbReg_local (s.sel p).dbm.toNat o s) (s.sel p).dbm.toNat o
  generalize proxied p _ _ _ s = r at target ⊢
  repeat' refine ReadSteady.ite ?_ ?_
  any_goals exact .none
  any_goals exact .plain rfl
  exact target

theorem kpaReg_readSteady : ReadSteady (kpaReg p a s) := by
  unfold kpaReg
  dsimp only
  generalize a - 0x1D00 = o
  have target := proxied_readSteady p s (zxpLocal_local o s) 10 o
  generalize proxied p _ _ _ s = r at target ⊢
  exact .ite .none (.ite .none (.ite .none target))

theorem hubReg_readSteady : ReadSteady (hubReg p a s) := by
  unfold hubReg
  exact .ite .none <| .ite (featReg_readSteady p a s) <| .ite (hostReg_readSteady p a s) <|
    .ite (dbmReg_readSteady p a s) <| .ite (calReg_readSteady p a s) <| .ite (trainReg_readSteady p a s) <|
    .ite (trimReg_readSteady p a s) <| .ite (fltReg_readSteady p a s) <| .ite (evtReg_readSteady p a s) <|
    .ite (pwrReg_readSteady p a s) <| .ite (kpaReg_readSteady p a s) <| .ite (nvsReg_readSteady p a s) <|
    .ite (twbReg_readSteady p a s) <| .ite (conReg_readSteady p a s) <| .ite (clkReg_readSteady p a s) <|
    .ite (wrnReg_readSteady p a s) <| .ite (hrdReg_readSteady p a s) <| .ite (poolReg_readSteady p a s) .none

end

theorem State.afterRead_steady (s : State) (p : Path) (a : Addr) : (s.afterRead p a).steady = s.steady := by
  unfold State.afterRead State.reg
  split
  · next d reached =>
    split at reached
    · cases reached
    · exact hubReg_readSteady p a.toNat s d reached s
  · rfl

end Sys2Proof.Machine

/-! SUPPORT. The read phase of a register access over a two-wire port (O53). -/

namespace Sys2Proof.Machine
open Sys2Proof

/-! ## Fetching registers (R295) -/

theorem leBytes_length (n v : Nat) : (leBytes n v).length = n := by simp [leBytes]

section
variable {s : State} {p : Port}

theorem State.port_of_steady {t : State} (same : t.steady = s.steady) : t.port p = s.port p := by
  have twb : t.twb = s.twb := congrArg Prod.fst same
  cases p
  · exact congrArg Twb.host twb
  · exact congrArg Twb.loc twb

theorem State.afterRead_port (q : Path) (a : Addr) : (s.afterRead q a).port p = s.port p :=
  State.port_of_steady (s.afterRead_steady q a)

/-- What a transaction never changes: the stores, power and the features. -/
def State.stored (s : State) : Nv × Pow × Feat := (s.nv, s.pow, s.feat)

theorem State.setPort_stored (f : TwbPort → TwbPort) : (s.setPort p f).stored = s.stored := by cases p <;> rfl

theorem State.afterRead_stored (q : Path) (a : Addr) : (s.afterRead q a).stored = s.stored :=
  (congrArg Prod.snd (s.afterRead_steady q a) :)

/-- Fetching sends as many bytes as asked, and moves the pointer past each register sent whole. -/
theorem State.a0Fetch_spec (p : Port) {regs : Nat} : ∀ {bytes : Nat} {s : State} {sent : List Byte}, regs = (bytes + 3) / 4 →
    (State.a0Fetch p regs bytes s sent).2.length = sent.length + bytes
    ∧ (State.a0Fetch p regs bytes s sent).1.port p
      = { s.port p with pointer := (s.port p).pointer + BitVec.ofNat 16 (4 * (bytes / 4)) }
    ∧ (State.a0Fetch p regs bytes s sent).1.stored = s.stored := by
  induction regs with
  | zero =>
    intro bytes s sent count
    obtain rfl : bytes = 0 := by omega
    refine ⟨rfl, ?_, rfl⟩
    show s.port p = _
    cases s.port p
    simp
  | succ regs ih =>
    intro bytes s sent count
    rw [State.a0Fetch]
    dsimp only
    obtain ⟨len, port, stored⟩ := ih (bytes := bytes - 4)
      (s := if 4 ≤ bytes
        then (s.afterRead (portPath p) (s.port p).pointer).setPort p (fun t => { t with pointer := t.pointer + 4 })
        else s.afterRead (portPath p) (s.port p).pointer)
      (sent := sent ++ (leBytes 4 (s.hubRead (portPath p) (s.port p).pointer).toNat).take bytes) (by omega)
    refine ⟨?_, ?_, ?_⟩
    · rw [len, List.length_append, List.length_take, leBytes_length]
      omega
    · rw [port]
      split
      · next whole =>
        obtain ⟨k, rest⟩ : ∃ k, bytes / 4 = k + 1 := ⟨bytes / 4 - 1, by omega⟩
        have left : (bytes - 4) / 4 = k := by omega
        have step : ∀ a : Addr, a + 4 + BitVec.ofNat 16 (4 * k) = a + BitVec.ofNat 16 (4 * (k + 1)) := fun a =>
          BitVec.eq_of_toNat_eq (by simp; omega)
        rw [State.setPort_port, State.afterRead_port, rest, left]
        exact congrArg (fun a => { s.port p with pointer := a }) (step _)
      · next part =>
        rw [State.afterRead_port, show (bytes - 4) / 4 = bytes / 4 by omega]
    · rw [stored]
      split
      · rw [State.setPort_stored, State.afterRead_stored]
      · exact State.afterRead_stored ..

/-- One whole register. -/
theorem State.a0Fetch_one (s : State) (p : Port) : State.a0Fetch p 1 4 s []
    = ((s.afterRead (portPath p) (s.port p).pointer).setPort p (fun t => { t with pointer := t.pointer + 4 }),
      leBytes 4 (s.hubRead (portPath p) (s.port p).pointer).toNat) := by
  have whole : (leBytes 4 (s.hubRead (portPath p) (s.port p).pointer).toNat).take 4
      = leBytes 4 (s.hubRead (portPath p) (s.port p).pointer).toNat := List.take_of_length_le (leBytes_length ..).le
  rw [State.a0Fetch, State.a0Fetch, whole]
  rfl

end

/-! ## The read phase (R292, R295) -/

section
variable {s : State} {p : Port} {addr : BitVec 7}

/-- The state in which a port reads. -/
def State.reading (s : State) (p : Port) : State := s.setPort p (fun t => { t with busy := true })

/-- What a port whose read phase is over is left as. -/
def TwbPort.readDone (t : TwbPort) (sent : List Byte) (whole : Bool) : TwbPort :=
  if whole then { t with busy := false, sent := sent } else { t with busy := false, sent := sent }.discard

theorem TwbPort.readDone_eq (t : TwbPort) (sent : List Byte) (whole : Bool) : t.readDone sent whole = { t with
    busy := false, sent := sent, errDiscard := if whole then t.errDiscard else satAdd t.errDiscard 1 } := by
  cases whole <;> rfl

theorem State.a0Read_of_place {count : Nat} {stop : Bool} (answered : s.answers p 0 addr true = true)
    (empty : (s.port p).exec = none) : s.a0Read p addr [] count stop = s.a0Send p addr [] count stop := by
  unfold State.a0Read
  rw [if_neg (by simp [answered]), State.a0Room_of_place (.inl empty)]
  rfl

theorem State.a0Send_plain {lead : List Byte} {count : Nat} {stop : Bool} (empty : (s.port p).exec = none)
    (free : (s.port p).staged = none) (off : (s.port p).cfg.getLsbD 0 = false) :
    s.a0Send p addr lead count stop = (State.a0Fetch p ((min count 32 + 3) / 4) (min count 32) (s.reading p) []).1.setPort p
      (fun t => t.readDone ((State.a0Fetch p ((min count 32 + 3) / 4) (min count 32) (s.reading p) []).2
        ++ List.replicate (count - min count 32) 0xFF) (stop && 0 < count)) := by
  obtain ⟨len, _, _⟩ := State.a0Fetch_spec p (bytes := min count 32) (s := s.reading p) (sent := []) rfl
  unfold State.a0Send
  rw [TwbPort.pec_eq, off, if_neg (by simp), State.a0Flush_of_idle empty free]
  simp only [Bool.false_and, Bool.false_eq_true, if_false, List.append_nil]
  rw [show (s.setPort p fun t => { t with busy := true }) = s.reading p from rfl, len]
  simp only [List.length_nil, Nat.zero_add]
  rfl

theorem State.a0Send_register {lead : List Byte} (empty : (s.port p).exec = none) (free : (s.port p).staged = none)
    (on : (s.port p).cfg.getLsbD 0 = true) (four : (s.port p).readLen = 4) :
    s.a0Send p addr lead 5 true = (State.a0Fetch p 1 4 (s.reading p) []).1.setPort p
      (fun t => t.readDone ((State.a0Fetch p 1 4 (s.reading p) []).2
        ++ [pecOf (lead ++ addrByte addr true :: (State.a0Fetch p 1 4 (s.reading p) []).2)]) true) := by
  obtain ⟨len, _, _⟩ := State.a0Fetch_spec p (regs := 1) (bytes := 4) (s := s.reading p) (sent := []) rfl
  unfold State.a0Send
  rw [TwbPort.pec_eq, on, four, if_neg (by decide), State.a0Flush_of_idle empty free]
  rw [show (s.setPort p fun t => { t with busy := true }) = s.reading p from rfl]
  simp [len, TwbPort.readDone]

theorem State.a0Send_refused {lead : List Byte} {count : Nat} {stop : Bool} (on : (s.port p).cfg.getLsbD 0 = true)
    (out : (s.port p).readLen = 0 ∨ 32 < (s.port p).readLen) :
    s.a0Send p addr lead count stop = s.setPort p (fun t => { t with
      errDiscard := satAdd t.errDiscard 1, sent := List.replicate count 0xFF }) := by
  unfold State.a0Send
  rw [TwbPort.pec_eq, on]
  exact if_pos (by rcases out with h | h <;> simp [h])

theorem twbA0Read_word (answered : s.answers p 0 addr true = true) (empty : (s.port p).exec = none)
    (free : (s.port p).staged = none) (off : (s.port p).cfg.getLsbD 0 = false) :
    exec (.twbA0Read p addr [] 4 true) s = .next (((s.reading p).afterRead (portPath p) (s.port p).pointer).setPort p
      (fun x => { x with busy := false, pointer := x.pointer + 4,
                         sent := leBytes 4 ((s.reading p).hubRead (portPath p) (s.port p).pointer).toNat })) := by
  have same : ((s.reading p).port p).pointer = (s.port p).pointer := by rw [State.reading, State.setPort_port]
  refine congrArg Host.Outcome.next ((State.a0Read_of_place answered empty).trans ((State.a0Send_plain empty free off).trans ?_))
  rw [show State.a0Fetch p ((min 4 32 + 3) / 4) (min 4 32) (s.reading p) [] = _ from State.a0Fetch_one _ p, same,
    State.setPort_setPort]
  exact State.setPort_congr (by simp [TwbPort.readDone])

theorem twbA0Read_bytes (answered : s.answers p 0 addr true = true) (empty : (s.port p).exec = none)
    (free : (s.port p).staged = none) (off : (s.port p).cfg.getLsbD 0 = false) (count : Nat) (stop : Bool) :
    ∃ t, exec (.twbA0Read p addr [] count stop) s = .next t ∧ (t.port p).sent.length = count
      ∧ (t.port p).pointer = (s.port p).pointer + BitVec.ofNat 16 (4 * (min count 32 / 4)) ∧ (t.port p).busy = false
      ∧ (∀ i, 32 ≤ i → i < count → nth (t.port p).sent i 0 = 0xFF)
      ∧ (t.port p).errDiscard = (if stop = true ∧ 0 < count then (s.port p).errDiscard else satAdd (s.port p).errDiscard 1)
      ∧ t.nv = s.nv ∧ t.pow = s.pow ∧ t.feat = s.feat := by
  obtain ⟨len, port, stored⟩ := State.a0Fetch_spec p (bytes := min count 32) (s := s.reading p) (sent := []) rfl
  refine ⟨_, congrArg Host.Outcome.next ((State.a0Read_of_place answered empty).trans (State.a0Send_plain empty free off)), ?_⟩
  generalize State.a0Fetch p ((min count 32 + 3) / 4) (min count 32) (s.reading p) [] = r at len port stored ⊢
  obtain ⟨u, body⟩ := r
  dsimp only at len port stored ⊢
  rw [State.reading, State.setPort_port] at port
  rw [State.reading, State.setPort_stored, State.stored, State.stored, Prod.mk.injEq, Prod.mk.injEq] at stored
  obtain ⟨nv, pow, feat⟩ := stored
  rw [List.length_nil, Nat.zero_add] at len
  rw [State.setPort_port, TwbPort.readDone_eq, port]
  refine ⟨?_, rfl, rfl, ?_, ?_, ?_, ?_, ?_⟩
  · simp only [List.length_append, List.length_replicate, len]
    omega
  · intro i past inside
    have idle : nth (body ++ List.replicate (count - min count 32) (0xFF : Byte)) i 0 = 0xFF := by
      rw [nth, List.getD_append_right _ _ _ _ (by omega), List.getD_replicate _ (by omega)]
    exact idle
  · simp
  · exact (by cases p <;> rfl : (u.setPort p _).nv = u.nv).trans nv
  · exact (by cases p <;> rfl : (u.setPort p _).pow = u.pow).trans pow
  · exact (by cases p <;> rfl : (u.setPort p _).feat = u.feat).trans feat

theorem twbA0Read_checked (answered : s.answers p 0 addr true = true) (empty : (s.port p).exec = none)
    (free : (s.port p).staged = none) (on : (s.port p).cfg.getLsbD 0 = true) (four : (s.port p).readLen = 4) :
    ∃ t, exec (.twbA0Read p addr [] 5 true) s = .next t
      ∧ (t.port p).sent = (let d := leBytes 4 ((s.reading p).hubRead (portPath p) (s.port p).pointer).toNat
        d ++ [pecOf (addrByte addr true :: d)])
      ∧ (t.port p).pointer = (s.port p).pointer + 4 ∧ (t.port p).errDiscard = (s.port p).errDiscard := by
  have same : (s.reading p).port p = { s.port p with busy := true } := State.setPort_port ..
  refine ⟨_, congrArg Host.Outcome.next ((State.a0Read_of_place answered empty).trans
    (State.a0Send_register empty free on four)), ?_⟩
  rw [State.a0Fetch_one, State.setPort_port, State.setPort_port, State.afterRead_port, same, TwbPort.readDone_eq]
  exact ⟨rfl, rfl, rfl⟩

theorem twbA0Read_refused (answered : s.answers p 0 addr true = true) (empty : (s.port p).exec = none)
    (on : (s.port p).cfg.getLsbD 0 = true) (out : (s.port p).readLen = 0 ∨ 32 < (s.port p).readLen) (count : Nat) (stop : Bool) :
    exec (.twbA0Read p addr [] count stop) s = .next (s.setPort p (fun t => { t with
      errDiscard := satAdd t.errDiscard 1, sent := List.replicate count 0xFF })) :=
  congrArg Host.Outcome.next ((State.a0Read_of_place answered empty).trans (State.a0Send_refused on out))

end

/-! ## The whole statement -/

/-- Settles O53: a transaction that need not wait takes its shape from its own bytes, and each byte of a read phase
comes from registers whose reading leaves the ports alone. -/
theorem twbRegisters : Obligations.TwbRegisters := by
  unfold Obligations.TwbRegisters
  refine ⟨fun p addr s answered place => ⟨?_, ?_, ?_, ?_, ?_⟩, fun p addr s answered empty free => ⟨?_, ?_, ?_⟩, ?_, ?_,
    fun p s up => ⟨fun watched => ?_, twbSclTimeout_of_unwatched⟩⟩
  · exact fun al ah => congrArg Host.Outcome.next (State.a0Write_pointer answered place al ah)
  · exact fun al ah d0 d1 d2 d3 => congrArg Host.Outcome.next (State.a0Write_write answered place al ah d0 d1 d2 d3)
  · exact fun bs c stop on wrong shape => congrArg Host.Outcome.next (State.a0Write_wrongPec answered place on wrong shape)
  · exact fun bs stop noWrite noSet => congrArg Host.Outcome.next (State.a0Write_shapeless answered place noWrite noSet)
  · exact fun al ah d0 d1 d2 d3 => congrArg Host.Outcome.next (State.a0Write_open answered place al ah d0 d1 d2 d3)
  · exact fun off => ⟨⟨_, twbA0Read_word answered empty free off, rfl⟩, twbA0Read_bytes answered empty free off⟩
  · exact fun on four => twbA0Read_checked answered empty free on four
  · exact fun on out count stop => twbA0Read_refused answered empty on out count stop
  · exact fun p a v s up held => ⟨_, twbStagedApply_of_some up held, rfl⟩
  · exact fun p s up empty => twbStagedApply_of_none up empty
  · obtain ⟨q, e, timedOut⟩ := twbSclTimeout_of_watched up watched
    refine ⟨_, timedOut, ?_, fun other differs => ?_, rfl⟩
    · cases p <;> rfl
    · exact (by cases other <;> rfl : State.port _ other = State.port (s.setPort p _) other).trans
        (State.setPort_port_ne differs _)

end Sys2Proof.Machine
